-- ==== Sys2Proof/Word.lean ====
section
/-!
DEFINITION. The word types of the block: bytes, 32-bit register words and 64-bit fields (R11, R13).
-/
namespace Sys2Proof

/-- One byte of a mailbox entry, a message or a memory (R11). -/
abbrev Byte := BitVec 8

/-- One BAR0 register (R75: every register is 32 bits wide). -/
abbrev Word := BitVec 32

/-- A 64-bit field, exposed as two 32-bit halves (R13). -/
abbrev Long := BitVec 64

end Sys2Proof
end

