-- ==== Sys2Proof/Syntax.lean ====
section
/-!
DEFINITION. The commands the block takes: one constructor for each row of spec/opcode_table.json, and the plain
data they carry. The first 86 rows are mailbox commands: `f` is the PCIe function whose mailbox carries the request,
`q` the request entry after its opcode. The next rows are BAR0 accesses of function `f` (`size` is the access width in
bytes, R17). The rest are events of the device and of what is wired to it; an operand says what the outside world brought.
-/
namespace Sys2Proof

/-- R102, R18. A mailbox request entry without its opcode: the rest of the 16-byte header and the 48 payload bytes. -/
structure Request where
  /-- Host tag, offset 2. -/
  tag : BitVec 16
  /-- Offset 4: [2:0] priority, [7:3] reserved. -/
  prio : Byte
  /-- Payload length, offset 5. -/
  plen : Byte
  /-- Offset 6, reserved. -/
  rsv6 : Byte
  /-- Channel selector, offset 7. -/
  csel : Byte
  /-- Flow selector, offset 8. -/
  fsel : BitVec 16
  /-- Offsets 10 to 15, reserved. -/
  rsv10 : BitVec 48
  /-- Bytes 16 to 63 of the entry. -/
  payload : List Byte
deriving DecidableEq, Repr, Inhabited

/-- R170. What the header ECC of a CSI-2 packet says. -/
inductive HdrEcc where
  | good | corrected | uncorrectable
deriving DecidableEq, Repr, Inhabited

/-- R405. What ECC finds in a sector that is read. -/
inductive EccFinding where
  | clean | correctable | uncorrectable
deriving DecidableEq, Repr, Inhabited

/-- R421. LAST_MASTER: who issues a memory request. The operands name a receive or transmit port (R399), or the job whose engine
issues it. -/
inductive Master where
  | firmware | ingress (port : Nat) | pipe (ch : Nat) | enc (ch st : Nat) | itp (ch st : Nat) | dec (h : Nat) | egress | tx (port : Nat)
  | tarn | loader | scrub
deriving DecidableEq, Repr, Inhabited

/-- R399, R412. One chunk the controller serves: a read, a write of `data`, or a drained write-buffer entry. -/
inductive ChunkKind where
  | read (len : Nat) | write (data : List Byte) | drain
deriving DecidableEq, Repr, Inhabited

/-- R406, R546, R547. What the pages of a chunk hold, by firmware's page lists: nothing that acts on poison, firmware data with
or without a copy in boot flash, a reference picture of a stream, a unit of a decoded picture, a microcode line of a class, or
audit staging not yet programmed. -/
inductive MemOwner where
  | other | firmware (copy : Bool) | reference (ch st : Nat) | decoded (h : Nat) (order : Int) (unit : Nat) | microcode (cls : Nat)
  | auditStaging
deriving DecidableEq, Repr, Inhabited

/-- R397. One served chunk: its master, its controller address, what it does, what ECC found in the sectors that were
read (by sector address), the sealed lines whose tag does not verify, what the chunk holds, and how long a real-time chunk
waited (ns). -/
structure Chunk where
  master : Master
  addr : Nat
  kind : ChunkKind
  findings : List (Nat × EccFinding)
  badLines : List Nat
  owner : MemOwner
  waited : Nat
deriving DecidableEq, Repr, Inhabited

/-- R66. A metered job: of a PIPE (channel), ENC or ITP (channel and stream) or DEC (handle) engine. -/
inductive MeterJob where
  | pipe (ch : Nat) | enc (ch st : Nat) | itp (ch st : Nat) | dec (h : Nat)
deriving DecidableEq, Repr, Inhabited

/-- R491, R498, R499. What stops a sequencer at a word, or is found there: the watchdog; a fault with the code that LAST_FAULT then shows (1
uncorrectable store, 2 reserved bits, 3 reserved operand or condition, 5 return stack); a store error that the SECDED code corrects. -/
inductive SeqWhy where
  | watchdog | fault (reason : Nat) | corrected
deriving DecidableEq, Repr, Inhabited

/-- R509. A word of a sequencer's store, and what stops the sequencer there. -/
structure SeqStop where
  pc : Nat
  why : SeqWhy
deriving DecidableEq, Repr, Inhabited

/-- R53, R70, R377. What the host settles as the PCIe link trains: tenths of GT/s of a lane, the max payload size, and PTM Enable. -/
structure LinkSetting where
  rate10 : Nat
  mps : Nat
  ptm : Bool
deriving DecidableEq, Repr, Inhabited

/-- R185. How a bus transaction ended: acknowledged with the bytes read, NACKed, or failed (clock stretch beyond 2 ms or
a bus error). -/
inductive BusResult where
  | ack (data : List Byte) | nack | failed
deriving DecidableEq, Repr, Inhabited

/-- R346. A picture that a unit predicts from, by its place in output order (none where it is absent from the DPB, R344), and the
units of it that hold those samples. -/
structure UnitUse where
  ref : Option Int
  units : List Nat
deriving DecidableEq, Repr, Inhabited

/-- R333 to R346, R350. What the decode core found in the access unit it decoded. Bitstream syntax is that of the
standards R333 names; the findings the rules act on are operands. -/
structure DecResult where
  /-- The access unit could be decoded at all (R335). -/
  decodable : Bool
  /-- Syntax outside the subset, or a wrong SPS (R335). -/
  streamError : Bool
  /-- The SPS allows more reordering than REORDER (R343). -/
  reorderExceeded : Bool
  /-- The picture is an IRAP that empties the DPB (R343). -/
  irap : Bool
  /-- Place of the picture in output order (R343). -/
  order : Int
  /-- Units lost with a slice, by raster number (R344). -/
  lostUnits : List Nat
  /-- For each unit, the pictures and units its samples are predicted from (R346); none for an intra unit. -/
  uses : List (List UnitUse)
  /-- For each unit, its motion vector in quarter luma samples; none for an intra or lost unit (R345). -/
  vectors : List (Option (Int × Int))
  /-- The first entry of list 0 of the last slice decoded, by its place in output order (R345). -/
  listRef : Option Int
  /-- The pictures that stay in the DPB after this one, by place in output order (R343). -/
  keeps : List Int
  /-- The picture bytes in the decoded layout. -/
  picture : List Byte
deriving DecidableEq, Repr, Inhabited

/-- R50 to R52. The parts of a received gPTP message the device acts on. -/
inductive GptpMsg where
  | announce (identity : Nat) (prio1 clockClass accuracy variance prio2 : Nat)
  | pdelayReq (identity seq : Nat)
  /-- A Pdelay_Resp: the requester it answers, its sequence number, and the receipt time it reports. -/
  | pdelayResp (identity seq receipt : Nat)
  /-- A Pdelay_Resp_Follow_Up: the requester, the sequence number, and the time the response left at. -/
  | pdelayFollowUp (identity seq origin : Nat)
  | other
deriving DecidableEq, Repr, Inhabited

/-- R529, R79, R563. What begins a full reset. -/
inductive ResetTrigger where
  | powerOn | resetN | perst | hotReset | linkDown | aonDip | sysReset
deriving DecidableEq, Repr, Inhabited

/-- R536. The strap pins as latched at reset release. -/
structure Straps where
  boot : Bool
  mac0 : Bool
  mac1 : Bool
  pmic : BitVec 2
  auto : Bool
  nocfg : Bool
deriving DecidableEq, Repr, Inhabited

/-- R423, R425, R437, R446. What Tarn meets at reset release: the PUF bits as they powered up (64 blocks of 255 bits),
whether TAMPER_N is asserted, the junction temperature in 1/16 degree, whether the boot flash answers, and 40 bytes
of noise-source output for the key-cell mask and the permutation key (none when the source latched first). -/
structure PufRead where
  bits : List (BitVec 255)
  tamperN : Bool
  tj : Int
  flashOk : Bool
  noise : Option (List Byte)
deriving DecidableEq, Repr, Inhabited

/-- The commands of the block, one constructor a row of spec/opcode_table.json. -/
inductive Instr where
  /-- SYS_NOP, R120. Command that does nothing and returns OK. -/
  | sysNop (f : Nat) (q : Request)
  /-- SYS_CAPS, R120. Command that returns the capability words, firmware and microcode versions, NumVFs, session role and boot epoch. -/
  | sysCaps (f : Nat) (q : Request)
  /-- SYS_RESET, R121. Command that, with the correct CONFIRM, posts OK, stops reading requests and begins a full reset 1 ms later. -/
  | sysReset (f : Nat) (q : Request)
  /-- SYS_GROUP_SET, R122. Command that sets the membership mask of a channel group at once. -/
  | sysGroupSet (f : Nat) (q : Request)
  /-- SYS_FGROUP_SET, R122. Command that sets the membership mask of a flow group at once. -/
  | sysFgroupSet (f : Nat) (q : Request)
  /-- SYS_GROUP_GET, R123. Command that returns the membership and member count of a channel or flow group. -/
  | sysGroupGet (f : Nat) (q : Request)
  /-- SYS_CONFIG_SAVE, R124. Deferred command that writes the current configuration to the cached-configuration area of boot flash as a new generation. -/
  | sysConfigSave (f : Nat) (q : Request)
  /-- CHAN_PORT_SET, R156. Next-tick command that configures a CSI-2 receive port, retrains its PHY, empties its line FIFO and clears its high-water mark. -/
  | chanPortSet (f : Nat) (q : Request)
  /-- CHAN_BIND, R158. Next-tick command that binds a channel to a (port, virtual channel) pair with its data type and geometry, or unbinds it. -/
  | chanBind (f : Nat) (q : Request)
  /-- CHAN_START, R159. Next-tick command that enables the selected channels and begins FSYNC pulses and expected frames from its boundary. -/
  | chanStart (f : Nat) (q : Request)
  /-- CHAN_STOP, R161. Next-tick command that disables the selected channels and stops FSYNC pulses at its boundary. -/
  | chanStop (f : Nat) (q : Request)
  /-- CHAN_SENSOR_SET, R175. Next-tick command that declares an exposure, gain or mode change, optionally writes it to each head, and marks the affected records unsettled. -/
  | chanSensorSet (f : Nat) (q : Request)
  /-- CHAN_QUERY, R178. Command that returns a channel's settle state, FIFO high-water mark and ingress counters. -/
  | chanQuery (f : Nat) (q : Request)
  /-- CHAN_PIPE_SET, R207. Next-tick command that sets the pipeline stage controls of the selected channels. -/
  | chanPipeSet (f : Nat) (q : Request)
  /-- CHAN_WINDOW_SET, R221. Next-tick command that configures the crop, scale and format of one window of the selected channels. -/
  | chanWindowSet (f : Nat) (q : Request)
  /-- CHAN_WINDOW_CLEAR, R227. Next-tick command that removes the named windows for frames whose FSYNC leaves at or after its boundary. -/
  | chanWindowClear (f : Nat) (q : Request)
  /-- CHAN_LUT_LOAD, R217. Next-tick command that reads one pipeline table from a host buffer and loads it for the selected channels. -/
  | chanLutLoad (f : Nat) (q : Request)
  /-- ENC_STREAM_SET, R270. Next-tick command that configures, enables or disables a coded stream of the selected channels. -/
  | encStreamSet (f : Nat) (q : Request)
  /-- ENC_HRD_SET, R310. Next-tick command that declares the NAL HRD of a stream after the feasibility test. -/
  | encHrdSet (f : Nat) (q : Request)
  /-- ENC_RATE_SET, R324. Next-tick command that sets a stream's TARGET rate, and in CBR changes the declared rate with a pending IDR. -/
  | encRateSet (f : Nat) (q : Request)
  /-- ENC_QP_SET, R321. Next-tick command that sets the host QP bounds, fixed QP and intra delta of a stream. -/
  | encQpSet (f : Nat) (q : Request)
  /-- ENC_REFRESH_SET, R284. Next-tick command that sets periodic IDR or column refresh and the long-term marking period of a stream. -/
  | encRefreshSet (f : Nat) (q : Request)
  /-- ENC_MOTION_SET, R293. Next-tick command that sets candidate or fine search mode and ego candidates for the selected channels. -/
  | encMotionSet (f : Nat) (q : Request)
  /-- ENC_GEOMETRY_SET, R303. Next-tick command that enrols or clears a camera's intrinsics and pose for ego projection. -/
  | encGeometrySet (f : Nat) (q : Request)
  /-- ENC_EGO_UPDATE, R305. Immediate command that stores the vehicle's speed, yaw rate and pitch rate with their measurement time. -/
  | encEgoUpdate (f : Nat) (q : Request)
  /-- ENC_LTR_RECOVER, R282. Next-tick command that relays a receiver loss report and makes the next access unit a recovery picture or an IDR. -/
  | encLtrRecover (f : Nat) (q : Request)
  /-- ENC_FORCE_IDR, R281. Next-tick command that makes an IDR request pending on every enabled stream of the selected channels. -/
  | encForceIdr (f : Nat) (q : Request)
  /-- ENC_QUERY, R291. Command that returns a snapshot of both streams of a channel. -/
  | encQuery (f : Nat) (q : Request)
  /-- DEC_OPEN, R336. Next-tick command that opens a decode stream, admits it and takes its feed buffer from the pool. -/
  | decOpen (f : Nat) (q : Request)
  /-- DEC_FEED, R339. Command that appends one DMA chunk of bitstream to a decode stream, completing an access unit when LAST is set. -/
  | decFeed (f : Nat) (q : Request)
  /-- DEC_OUTPUT_SET, R347. Next-tick command that sends a decode stream's output pictures to a host-ring or CSI-2 transmit flow, or discards them. -/
  | decOutputSet (f : Nat) (q : Request)
  /-- DEC_CLOSE, R356. Next-tick command that closes a decode stream, discarding queued data after outputting the last picture. -/
  | decClose (f : Nat) (q : Request)
  /-- DEC_QUERY, R357. Command that returns a snapshot of a decode stream's state and counters. -/
  | decQuery (f : Nat) (q : Request)
  /-- FLOW_ATTACH, R360. Immediate command that attaches a flow to a function or detaches it, moving its interrupt source route. -/
  | flowAttach (f : Nat) (q : Request)
  /-- FLOW_ROUTE_SET, R362. Next-tick command that sets a flow's route, port and source. -/
  | flowRouteSet (f : Nat) (q : Request)
  /-- FLOW_TEMPLATE_SET, R370. Next-tick command that reads and installs a flow's 128-byte Ethernet/IP/UDP/RTP header template. -/
  | flowTemplateSet (f : Nat) (q : Request)
  /-- FLOW_RATE_SET, R382. Next-tick command that sets a flow's reserved rate and rate limit. -/
  | flowRateSet (f : Nat) (q : Request)
  /-- FLOW_WEIGHT_SET, R381. Next-tick command that sets a flow's scheduling weight, suspending it at 0. -/
  | flowWeightSet (f : Nat) (q : Request)
  /-- FLOW_START, R366. Next-tick command that activates a flow, moves its allotment and queues items eligible from its boundary. -/
  | flowStart (f : Nat) (q : Request)
  /-- FLOW_STOP, R367. Next-tick command that deactivates a flow and discards items with no byte dequeued. -/
  | flowStop (f : Nat) (q : Request)
  /-- FLOW_RING_SET, R374. Next-tick command that names a flow's host ring of 32-byte slots. -/
  | flowRingSet (f : Nat) (q : Request)
  /-- FLOW_STATS, R390. Command that returns a snapshot of a flow's credits, exceptions and half of its sample ring. -/
  | flowStats (f : Nat) (q : Request)
  /-- FLOW_CRYPT_SET, R373. Next-tick command that sets the SRTP AEAD mode of a MAC flow. -/
  | flowCryptSet (f : Nat) (q : Request)
  /-- MEM_MAP_QUERY, R421. Command that returns a memory controller's order, geometry, rate and sizes. -/
  | memMapQuery (f : Nat) (q : Request)
  /-- MEM_POOL_QUERY, R421. Command that returns a controller pool's POOL, HELD, BOOKED, low mark and object count. -/
  | memPoolQuery (f : Nat) (q : Request)
  /-- MEM_ERR_QUERY, R421. Command that returns a controller's ECC, tag, refresh and real-time wait records. -/
  | memErrQuery (f : Nat) (q : Request)
  /-- TARN_ID_GET, R452. Command that returns ID_HASH, BOOT_EPOCH, TRNG and tamper state, node count and GCTR. -/
  | tarnIdGet (f : Nat) (q : Request)
  /-- TARN_RANDOM, R452. Command that returns up to 32 bytes of released TRNG output. -/
  | tarnRandom (f : Nat) (q : Request)
  /-- TARN_SIGN, R453. Command that signs a host message with the ID or a channel key under a nonzero context. -/
  | tarnSign (f : Nat) (q : Request)
  /-- TARN_VERIFY, R453. Command that verifies an ECDSA P-256 signature in fixed time. -/
  | tarnVerify (f : Nat) (q : Request)
  /-- TARN_NODE_QUERY, R452. Command that returns the state, parent, kind, depth and generation of a key-tree slot. -/
  | tarnNodeQuery (f : Nat) (q : Request)
  /-- TARN_NODE_INVALIDATE, R435. Next-tick command that gives a key-tree node a new generation, orphaning or re-deriving its descendants. -/
  | tarnNodeInvalidate (f : Nat) (q : Request)
  /-- TARN_PUBKEY_GET, R453. Command that writes the ID, XPORT and channel public keys to a host buffer. -/
  | tarnPubkeyGet (f : Nat) (q : Request)
  /-- ROLE_CHALLENGE, R458. Command that issues a nonce and binds the function's single challenge to a role and slot. -/
  | roleChallenge (f : Nat) (q : Request)
  /-- ROLE_OPEN, R459. Command that consumes the challenge, verifies the signature and opens a role session. -/
  | roleOpen (f : Nat) (q : Request)
  /-- ROLE_CLOSE, R460. Command that closes the function's session. -/
  | roleClose (f : Nat) (q : Request)
  /-- ROLE_UPDATE, R463. Deferred command that reads, checks and commits one signed update message. -/
  | roleUpdate (f : Nat) (q : Request)
  /-- ROLE_AUDIT_READ, R476. Command that writes audit records in SEQ order to a host buffer. -/
  | roleAuditRead (f : Nat) (q : Request)
  /-- ROLE_COUNTER_GET, R477. Command that returns the stored 64-bit update counter. -/
  | roleCounterGet (f : Nat) (q : Request)
  /-- SEQ_IMAGE_LOAD, R502. Deferred command that verifies and loads a vendor or open control-store image into every store of a class. -/
  | seqImageLoad (f : Nat) (q : Request)
  /-- SEQ_PATCH_APPLY, R505. Next-tick command that verifies a patch and writes its words into the stores of a class at its boundary. -/
  | seqPatchApply (f : Nat) (q : Request)
  /-- SEQ_HOOK_SET, R507. Next-tick command that attaches or detaches a routine at a hook point of the selected channels. -/
  | seqHookSet (f : Nat) (q : Request)
  /-- SEQ_QUERY, R509. Command that returns a snapshot of a sequencer's images, patches, faults and counters. -/
  | seqQuery (f : Nat) (q : Request)
  /-- PWR_DVFS_SET, R519. Command that sets a domain's frequency level and voltage request after re-testing its bookings. -/
  | pwrDvfsSet (f : Nat) (q : Request)
  /-- PWR_DOMAIN_SET, R521. Next-tick command that gates or powers the ISP and codec domains. -/
  | pwrDomainSet (f : Nat) (q : Request)
  /-- PWR_SELF_REFRESH, R526. Deferred command that moves the named memory controllers into or out of self-refresh. -/
  | pwrSelfRefresh (f : Nat) (q : Request)
  /-- PWR_QUERY, R541. Command that returns a snapshot of a power domain's state, voltages, current and temperature. -/
  | pwrQuery (f : Nat) (q : Request)
  /-- HEAD_PAIR, R193. Deferred command that checks the answering head, writes the channel key to it and creates the head node and pairing record. -/
  | headPair (f : Nat) (q : Request)
  /-- HEAD_UNPAIR, R196. Next-tick command that removes a channel's pairing, orphans the head node and discards estimates and references. -/
  | headUnpair (f : Nat) (q : Request)
  /-- HEAD_POLICY_SET, R181. Next-tick command that attaches channels to an I3C or I2C bus and sets their head policy. -/
  | headPolicySet (f : Nat) (q : Request)
  /-- HEAD_ID_GET, R191. Deferred command that runs an identity check and writes the identity block, certificate and result to a host buffer. -/
  | headIdGet (f : Nat) (q : Request)
  /-- HEAD_LIFE_QUERY, R202. Command that returns a snapshot of a paired head's service-life counters and state. -/
  | headLifeQuery (f : Nat) (q : Request)
  /-- HEAD_I3C_XFER, R185. Deferred command that performs one host transfer to a channel's head with address translation. -/
  | headI3cXfer (f : Nat) (q : Request)
  /-- CAL_ENABLE, R261. Next-tick command that enables or disables the calibration estimators named in its mask. -/
  | calEnable (f : Nat) (q : Request)
  /-- CAL_PIN, R255. Next-tick command that pins calibration parameters and sets their drift threshold. -/
  | calPin (f : Nat) (q : Request)
  /-- CAL_UNPIN, R255. Next-tick command that removes calibration pins. -/
  | calUnpin (f : Nat) (q : Request)
  /-- CAL_RESET, R262. Next-tick command that empties windows, discards estimates and reverts values in force for the named parameters. -/
  | calReset (f : Nat) (q : Request)
  /-- CAL_QUERY, R263. Command that returns a snapshot of one calibration parameter's estimator state. -/
  | calQuery (f : Nat) (q : Request)
  /-- TIME_SET_BASE, R40. Command that loads device time once per full reset, at once or at the next valid 1PPS_IN edge, and restarts the master tick. -/
  | timeSetBase (f : Nat) (q : Request)
  /-- TIME_PPS_CONFIG, R45. Command that enables or disables 1PPS_IN discipline and selects its edge. -/
  | timePpsConfig (f : Nat) (q : Request)
  /-- TIME_TICK_SET, R57. Next-tick command that changes the master tick period from its boundary. -/
  | timeTickSet (f : Nat) (q : Request)
  /-- TIME_CHAN_RATE, R58. Next-tick command that sets divisor, slot, phase, polarity and FSYNC width of disabled channels. -/
  | timeChanRate (f : Nat) (q : Request)
  /-- TIME_GPTP_CONFIG, R125. Command that sets gPTP priority1 and logSyncInterval. -/
  | timeGptpConfig (f : Nat) (q : Request)
  /-- TIME_LEDGER_QUERY, R127. Command that returns booked, metered and overrun figures for the engines in its mask. -/
  | timeLedgerQuery (f : Nat) (q : Request)
  /-- TIME_LO_READ, R42. Read of TIME_LO that returns device time bits [31:0] and latches bits [63:32] for the function. -/
  | timeLoRead (f size : Nat)
  /-- TIME_PTM_SEQ_READ, R54. Read of TIME_PTM_SEQ that returns the dialogue count and latches both PTM times for the function. -/
  | timePtmSeqRead (f size : Nat)
  /-- MBX_REQ_PUSH, R82. Write of GO that copies the staged 64-byte entry into the request queue, or sets REQ_OVF when full. -/
  | mbxReqPush (f size : Nat) (value : Word)
  /-- MBX_RSP_POP, R88. Read that removes the head response into MBX_RSP_DATA, or loads the IDLE descriptor on an empty queue. -/
  | mbxRspPop (f size : Nat)
  /-- MBX_CTRL_WRITE, R89. Write of RSP_IE that enables response notices and sends one when set while the queue is non-empty. -/
  | mbxCtrlWrite (f size : Nat) (value : Word)
  /-- IRQ_ACK, R144. Read that selects the eligible source of lowest priority, pushes it on the stack and returns and clears its count. -/
  | irqAck (f size : Nat)
  /-- IRQ_EOI, R145. Write of POP that removes the top stack entry and resamples a level source's line. -/
  | irqEoi (f size : Nat) (value : Word)
  /-- IRQ_SRC_CFG_WRITE, R142. Write of a source's priority, enable and route, clearing raised state at the old target on a route change. -/
  | irqSrcCfgWrite (f size : Nat) (value : Word)
  /-- IRQ_SRC_CAUSE_WRITE, R139. W1C write that clears cause bits of a level source routed to the function's target. -/
  | irqSrcCauseWrite (f size : Nat) (value : Word)
  /-- IRQ_CTRL_WRITE, R149. Write of ENABLE that permits vector-0 messages and sends one when SIGNAL is already 1. -/
  | irqCtrlWrite (f size : Nat) (value : Word)
  /-- REGISTER_WRITE, R14. Write to any BAR0 register without a row of its own, acting by its access code. -/
  | registerWrite (f offset size : Nat) (value : Word)
  /-- REQUEST_READ, R84. Firmware reads the next request by effective priority and round-robin when READY and a response slot is free, checks and executes it. -/
  | requestRead
  /-- REQUEST_PROMOTION, R84. A queued request that has waited across 8 master boundaries, or the timed equivalent, is promoted. -/
  | requestPromotion
  /-- DEFERRED_TIMEOUT, R108. A deferred command that misses its stated deadline ends with TIMEOUT. -/
  | deferredTimeout (f tag : Nat)
  /-- DMA_TRANSFER_DONE, R118. A DMA transfer of a command completes, normally or with an error completion. -/
  | dmaTransferDone (f tag : Nat) (ok : Bool) (data : List Byte)
  /-- DMA_TIMEOUT, R118. A command's DMA transfer not complete within 10 ms returns TIMEOUT. -/
  | dmaTimeout (f tag : Nat)
  /-- FLASH_PROGRAM_DONE, R414. A boot-flash program completes, after which the command or event that wrote it is reported complete. -/
  | flashProgramDone (ok : Bool)
  /-- CHALLENGE_EXPIRY, R458. A function's role challenge expires 5,000 ms after issue. -/
  | challengeExpiry (f : Nat)
  /-- MASTER_TICK_BOUNDARY, R55. A master tick boundary fires, advancing the boundary count and starting the work of the new tick. -/
  | masterTickBoundary
  /-- CONDITION_REASSERT, R135. Condition causes are set again at each boundary, or every 33,333,333 ns while the tick is not running. -/
  | conditionReassert
  /-- MSIX_UNMASK, R149. Unmasking a vector or function sends a held MSI-X message. -/
  | msixUnmask (f vector : Nat)
  /-- FSYNC_PULSE, R58. A channel's FSYNC leading edge leaves at its boundary plus phase offset, fixing the capture time of an expected frame. -/
  | fsyncPulse (ch : Nat)
  /-- FSYNC_PULSE_END, R60. An FSYNC output returns to its inactive level w µs after the leading edge. -/
  | fsyncPulseEnd (ch : Nat)
  /-- CSI2_FRAME_START, R167. A Frame Start packet opens the latest unopened expected frame, or is discarded with its packets as IGNORED. -/
  | csi2FrameStart (port vc : Nat) (ecc : HdrEcc)
  /-- CSI2_LINE_START, R169. A Line Start packet gives the line number of the next image line when LNUM is set. -/
  | csi2LineStart (port vc line : Nat) (ecc : HdrEcc)
  /-- CSI2_LONG_PACKET, R168. A long packet of a bound pair is written to the line FIFO as an image line, embedded data or a discarded packet. -/
  | csi2LongPacket (port vc dt wc : Nat) (crcOk : Bool) (ecc : HdrEcc) (data : List Byte)
  /-- CSI2_FRAME_END, R169. A Frame End packet completes the frame, appending replaced lines for every missing line. -/
  | csi2FrameEnd (port vc : Nat) (ecc : HdrEcc)
  /-- INGRESS_DEADLINE, R172. At a frame's ingress deadline its record closes complete, truncated or dropped and its cause bits are set. -/
  | ingressDeadline (ch : Nat)
  /-- PIPE_JOB_END, R28. A pipeline frame job finishes, producing all windows of the channel and their statistics. -/
  | pipeJobEnd (ch : Nat)
  /-- ENC_JOB_END, R29. An encode job finishes an access unit under its ceiling, with CPB ledger update, SEI and filler. -/
  | encJobEnd (ch st : Nat)
  /-- ITP_JOB_END, R301. An interpolation job finishes fractional refinement for a fine-mode access unit. -/
  | itpJobEnd (ch st : Nat)
  /-- DEC_JOB_END, R343. A decode job finishes a picture with concealment, and an output picture is chosen. -/
  | decJobEnd (h : Nat) (r : DecResult)
  /-- SEAL_JOB_END, R447. Tarn finishes the payload hash and CMAC of an access unit's seal record. -/
  | sealJobEnd (ch st : Nat)
  /-- CYCLE_METER_EXPIRY, R66. A job's cycles plus remaining completion cost reach its allocation, so it is finished by its completion path with FRET_OVERRUN. -/
  | cycleMeterExpiry (j : MeterJob) (undone : Nat)
  /-- SEQ_WATCHDOG, R498. A sequencer goes 256 cycles without a poll; the code is abandoned and the job finished by the hardwired completion unit. -/
  | seqWatchdog (q : Nat) (stop : SeqStop)
  /-- CAL_ESTIMATE, R250. Firmware completes an estimate, compares the twins and records APPLIED, DISAGREE, OUT_OF_BOUNDS or HELD. -/
  | calEstimate (ch param : Nat)
  /-- CAL_TIME_LIMIT, R244. An estimator's time limit passes first, recording INSUFFICIENT and emptying both windows. -/
  | calTimeLimit (ch param : Nat)
  /-- CAL_RECORD_WRITE, R258. Applied estimates of a paired head are rewritten to the calibration record at most once every 60 s. -/
  | calRecordWrite (ch : Nat)
  /-- HEAD_CHECK_START, R186. A due identity check or life push starts on its bus inside the permitted window, in channel order. -/
  | headCheckStart (ch : Nat)
  /-- SE_STATUS_POLL, R583. Firmware polls a head secure element's SE_STATUS once per ms until done or failed. The row brings no reading: the bus does. -/
  | seStatusPoll (ch : Nat) (nothing : Unit)
  /-- I3C_TRANSACTION_DONE, R186. An I3C or I2C transaction of at most 32 data bytes completes, is NACKed or fails. -/
  | i3cTransactionDone (bus : Nat) (r : BusResult)
  /-- HEAD_CHECK_DONE, R190. An identity check completes or times out and sets the channel's head state. -/
  | headCheckDone (ch : Nat)
  /-- HEAD_CHANGE, R198. At the first boundary 1 ms after a check finds another head, the old head node is invalidated as by HEAD_UNPAIR. -/
  | headChange (ch : Nat)
  /-- LIFE_MINUTE, R199. A minute of a paired head is counted cool or hot, raising HEAD_WEAR or HEAD_EOL at thresholds. The row brings no reading: the bus does. -/
  | lifeMinute (ch : Nat) (nothing : Unit)
  /-- LIFE_PUSH, R200. Hourly, or each minute on retry, a signed life record is pushed to the head and the mirror written. -/
  | lifePush (ch : Nat)
  /-- HEAD_TEMP_READ, R240. TEMP_REG of a verified head is read every 60 s for the temperature-stability test. The row brings no reading: the bus does. -/
  | headTempRead (ch : Nat) (nothing : Unit)
  /-- PPS_IN_PULSE, R46. A 1PPS_IN edge is timestamped, judged valid and steers frequency and the discipline state. -/
  | ppsInPulse (at_ : Nat)
  /-- PPS_IN_MISSING, R47. An expected 1PPS_IN pulse does not arrive, counting toward HOLDOVER. -/
  | ppsInMissing
  /-- PPS_OUT_PULSE, R49. 1PPS_OUT is driven high for 10 ms at every whole second of device time. -/
  | ppsOutPulse
  /-- GPTP_SYNC_TX, R51. A two-step Sync and Follow_Up are sent on each port at the sync interval. -/
  | gptpSyncTx (port : Nat)
  /-- GPTP_ANNOUNCE_TX, R51. An Announce is sent on each port once per second. -/
  | gptpAnnounceTx (port : Nat)
  /-- GPTP_PDELAY_REQ_TX, R51. A peer-delay request is sent on each port once per second. -/
  | gptpPdelayReqTx (port : Nat)
  /-- GPTP_FRAME_RECEIVED, R52. A received gPTP frame is answered or counted; a better Announce is discarded and may raise TIME_FOREIGN_GM. -/
  | gptpFrameReceived (port : Nat) (m : GptpMsg)
  /-- MAC_FRAME_RECEIVED, R369. A received non-gPTP Ethernet frame is counted and discarded. -/
  | macFrameReceived (mac : Nat)
  /-- PTM_DIALOGUE, R53. Every 10 ms while enabled, the physical function starts a PTM dialogue. -/
  | ptmDialogue
  /-- PTM_DIALOGUE_DONE, R53. A PTM dialogue completes, recording root and device time and incrementing TIME_PTM_SEQ, or fails. -/
  | ptmDialogueDone (ok : Bool) (root : Nat)
  /-- PACKET_DEQUEUE, R378. A scheduled port without a staged packet selects a candidate flow and dequeues its next packet or segment. -/
  | packetDequeue (port : Nat)
  /-- PACKET_TX_COMPLETE, R386. A packet or segment completes, returning its credit and completing its item on the last one. -/
  | packetTxComplete (port : Nat) (ok : Bool)
  /-- CALENDAR_SLOT, R380. A calendar wheel slot begins, making rate-limited flows eligible or moving them to the fine wheel. -/
  | calendarSlot (port : Nat)
  /-- RING_SLOT_POLL, R375. The device re-reads a host ring slot every 10 µs until the host posts it. -/
  | ringSlotPoll (flow : Nat) (ok : Bool) (addr blen : Nat) (ctrl : Word)
  /-- TX_FRAME_DUE, R353. A CSI-2 transmit frame falls due at its boundary plus phase and starts when the port is free. -/
  | txFrameDue (flow : Nat)
  /-- TX_FRAME_SENT, R387. A CSI-2 transmit frame ends with Frame End, completing its item. -/
  | txFrameSent (port : Nat)
  /-- FLOW_SAMPLE, R389. Each flow's depth and delay are sampled 16 times per master tick. -/
  | flowSample (n : Nat)
  /-- MAC_LINK_DOWN, R388. A MAC link goes down and packets are discarded at their completion instants with LINK_DOWN. -/
  | macLinkDown (mac : Nat)
  /-- MAC_LINK_UP, R388. A MAC link comes up and packets are sent again. -/
  | macLinkUp (mac : Nat)
  /-- PCIE_LINK_RETRAIN, R377. The PCIe link retrains to another width or speed, changing the HOST port capacity. -/
  | pcieLinkRetrain (lanes : Nat) (link : LinkSetting)
  /-- CHAN_STATUS_UPDATE, R95. Firmware updates a channel status window under the sequence word after a record closes or a command changes it. -/
  | chanStatusUpdate (ch : Nat)
  /-- FLOW_STATUS_UPDATE, R95. Firmware updates each flow status window after every master boundary. -/
  | flowStatusUpdate
  /-- REFRESH_DUE, R401. Each tREFI a channel's refresh debt grows by one. -/
  | refreshDue (dmc mch : Nat)
  /-- REFRESH_ISSUE, R401. An idle channel with debt issues an all-bank refresh. -/
  | refreshIssue (dmc mch : Nat)
  /-- REFRESH_FORCED, R402. At debt 8 a refresh is issued after the chunk in progress, ahead of every waiting chunk. -/
  | refreshForced (dmc mch : Nat)
  /-- MR4_READ, R401. Every 16 ms the controller reads MR4 to set each channel's refresh multiplier. -/
  | mr4Read (dmc mch : Nat) (mult : Nat)
  /-- PATROL_SCRUB, R407. Patrol scrub reads sectors so each is read once per 12 h, with the ECC effects of a read. -/
  | patrolScrub (dmc sector : Nat) (e : EccFinding)
  /-- SELF_REFRESH_ENTRY_DONE, R413. A controller completes self-refresh entry after draining, refreshing and precharging. -/
  | selfRefreshEntryDone (dmc : Nat)
  /-- SELF_REFRESH_EXIT_DONE, R528. A controller leaves self-refresh and serves held requests. -/
  | selfRefreshExitDone (dmc : Nat)
  /-- TAMPER_ASSERT, R437. A qualified TAMPER_N assertion erases the root and all key material within 2 µs and raises TARN_TAMPER. -/
  | tamperAssert
  /-- TRNG_HEALTH_FAIL, R445. A TRNG health test fails; waiting requests get ENTROPY_FAIL and the source restarts or latches. -/
  | trngHealthFail
  /-- TRNG_RESTART_DONE, R443. 1,024 samples pass both health tests after a start or restart. -/
  | trngRestartDone
  /-- TRNG_BLOCK_READY, R444. A conditioned 32-byte output block is released once its samples and window have passed. -/
  | trngBlockReady (block : List Byte)
  /-- AVS_FLOOR_UPDATE, R516. Every 1 ms the AVS loop computes each domain's voltage floor and applies it. -/
  | avsFloorUpdate (dom floor : Nat)
  /-- PMBUS_STATUS_POLL, R515. Every 10 ms the power manager reads STATUS_WORD of every page. -/
  | pmbusStatusPoll (rail : Nat) (ack : Bool) (status iout : Nat)
  /-- THERMAL_SAMPLE, R525. Every 1 ms the junction sensors are read and warning, critical or trip actions taken. -/
  | thermalSample (tj : Int)
  /-- DOMAIN_POWER_UP_DONE, R523. A powered domain's rail is up and its sequencer stores reloaded, or the ramp fails. -/
  | domainPowerUpDone (dom : Nat) (ok : Bool)
  /-- CONTROL_WATCHDOG, R548. The AON watchdog fires at the third boundary without firmware service and asserts FAULT_N. -/
  | controlWatchdog
  /-- FULL_RESET, R529. RESET_N, PERST#, hot reset, link down, a VDD_AON dip or SYS_RESET begins a full reset. -/
  | fullReset (t : ResetTrigger)
  /-- RESET_RELEASE, R567. At reset release straps are latched, fuses read and bring-up begins. -/
  | resetRelease (straps : Straps) (puf : PufRead)
  /-- RAIL_POWER_UP, R514. The power manager raises each device-raised rail in order and waits for POWER_GOOD. -/
  | railPowerUp (rail : Nat) (ok : Bool)
  /-- DMC_TRAINING_DONE, R537. Training of the fitted memory controllers completes or fails. -/
  | dmcTrainingDone (ok : Bool)
  /-- MEMORY_INIT_DONE, R414. Every sector of each controller is initialised with its check word. -/
  | memoryInitDone
  /-- BRING_UP_READY, R537. Firmware finishes bring-up, reports READY and starts the master tick, applying the cached configuration. -/
  | bringUpReady
  /-- FUNCTION_LEVEL_RESET, R99. A function-level reset clears the function's mailbox, latches, session and interrupt target. -/
  | functionLevelReset (f : Nat)
  /-- VF_ENABLE_CHANGE, R361. VF Enable or NumVFs changes, and virtual functions join or leave the hierarchy, stopping their HOST flows. -/
  | vfEnableChange (numVfs : Nat) (enable : Bool)
  /-- CHUNK_SERVICE_DONE, R399. A memory controller finishes serving one chunk of at most 256 bytes (read, whole write, merge-read partial write, or drained buffered write), checking ECC or the line tag, acknowledging its master and freeing the line FIFO drain or write buffer entry. -/
  | chunkServiceDone (dmc : Nat) (c : Chunk)
  /-- CSI2_PHY_ERROR, R178. A receive port sees a D-PHY start-of-transmission or sync error, or a C-PHY sync error, and counts it in PHY_ERR. -/
  | csi2PhyError (port : Nat)
  /-- REFCLK_IN_FAILURE, R566. REFCLK_IN fails in operation, so device time, the master tick and the FSYNC outputs stop and the control watchdog can no longer count boundaries. -/
  | refclkInFailure
deriving DecidableEq, Repr, Inhabited

end Sys2Proof
end

