-- ==== Sys2Proof/Config.lean ====
section
/-!
DEFINITION. The free values of the model: what the spec leaves open, and the functions it takes from other standards
(SHA-256, AES, ECDSA, the error code of the PUF, the coded syntax of H.264 and H.265). Each is an opaque constant: nothing
can be proved of its values, so a theorem holds whatever they are. Byte results are cut to their length where they are used.
-/
namespace Sys2Proof.Config

/-- A fresh open value, by the counter State.fresh. -/
opaque freeNat : Nat → Nat
/-- A fresh open byte string of the given length, by the counter. -/
opaque freeBytes : Nat → Nat → List Byte
/-- FIPS 180-4 SHA-256 of a message. -/
opaque sha256 : List Byte → List Byte
/-- HMAC-SHA-256: key, message. -/
opaque hmac : List Byte → List Byte → List Byte
/-- AES-CMAC: key, message; 16 bytes. -/
opaque cmac : List Byte → List Byte → List Byte
/-- AES-GCM open: key, nonce, additional data, cipher text then tag; none where the tag does not verify. -/
opaque gcmOpen : List Byte → List Byte → List Byte → List Byte → Option (List Byte)
/-- The P-256 public key (X then Y) of a private scalar. -/
opaque pubOf : List Byte → List Byte
/-- The x coordinate of a P-256 scalar multiplication (ECDH): private scalar, public key. -/
opaque ecdh : List Byte → List Byte → List Byte
/-- Whether 64 bytes are a point on P-256. -/
opaque onCurve : List Byte → Bool
/-- ECDSA P-256 over SHA-256: private scalar, nonce entropy, message; r then s. -/
opaque ecdsaSign : List Byte → List Byte → List Byte → List Byte
/-- ECDSA P-256 verification: public key, digest of the message, signature. -/
opaque ecdsaVerify : List Byte → List Byte → List Byte → Bool
/-- BCH(255, 131) decoding of 64 blocks packed as 2,040 bytes: the corrected blocks, or none where a block holds more than
18 errors. -/
opaque bchDecode : List Byte → Option (List Byte)
/-- BCH(255, 131) codewords of 64 x 131 random bits, packed as 2,040 bytes. -/
opaque bchEncode : List Byte → List Byte
/-- The bytes of coded slice data after the slice header: what the picture is, how it was coded, and its source. -/
opaque sliceBytes : List Nat → List Nat → List Byte
/-- The bytes a CTU takes at a QP, or another size the coded content decides. -/
opaque ctuBytes : List Nat → Nat → Nat
/-- A mode decision of the encoder: what it decides, and the content it decides on. -/
opaque modeOf : List Nat → List Nat → Nat
/-- What the residual and the loop filters add to a predicted sample, and the sample that an intra block reconstructs: the
component, place and QP, and the content. -/
opaque residual : List Nat → List Nat → Int
opaque intraSample : List Nat → List Nat → Nat
/-- The value of a syntax element of H.264 or H.265 that the spec does not fix, by a number of its own. -/
opaque syntaxElement : Nat → Nat
/-- R304, R307. What a real function's value in the model may lie off the value computed here: the spec computes with real numbers
and states no precision. -/
opaque realError : Nat → Rat → Rat
/-- Whether a quotient that is not whole is rounded up, where the spec does not say: place, numerator, denominator. -/
opaque roundUp : Nat → Int → Nat → Bool
/-- A value that a microcode word leaves open: place, and what it is of. -/
opaque microOpen : Nat → Int → Nat → Int
/-- Which way a tie of a rounding to nearest goes: numerator, denominator. -/
opaque half : Nat → Nat → Nat
/-- Which of the two samples around a percentile of `p` in 1,000 of `n` samples is taken: even, the lower. -/
opaque rank : Nat → Nat → Nat
/-- MIPI CSI-2 unpacking of a line: data type, bytes; its samples (luma and chroma alternating for YUV422). -/
opaque unpack : Nat → List Byte → List Nat
/-- What a decode core finds in an access unit whose end no event reports: picture, bytes. -/
opaque decode : List Nat → List Byte → DecResult
/-- MIPI CSI-2 packing of a line: data type, samples. -/
opaque pack : Nat → List Nat → List Byte
/-- The sealed regions firmware defines on a controller of a given size: base and length. -/
opaque sealedRegions : Nat → Nat → List (Nat × Nat)
/-- SRTP AEAD (RFC 7714) of an RTP payload: mode, master key and salt, packet index, RTP header, payload. -/
opaque srtp : Nat → List Byte → Nat → List Byte → List Byte → List Byte
/-- R213. The gradient of a direction (0 horizontal, 1 vertical, 2 and 3 the diagonals), and the difference of a colour from the dense plane
estimated along it: MOSAIC, place in its period, colour, direction, and the 5 x 5 support. -/
opaque gradient : Nat → Nat → Nat → List Nat → Nat
opaque colourDiff : Nat → Nat → Nat → Nat → List Nat → Int
/-- A sample for which the spec states no value: place, and what it is of. -/
opaque openSample : Nat → List Nat → Nat
/-- R66. Cycles that the stages of a job, its stalls and its completion path leave open: the job's frame, and the line or unit. -/
opaque stageUse : Nat → Nat → Nat
/-- A filter tap the spec does not state: table, phase, tap. -/
opaque tap : Nat → Nat → Nat → Int
/-- The device's own gPTP clock variance and clock identity. -/
opaque gptpOwn : Nat × Nat
/-- Whether a firmware image verifies under a maker root key, and the version its header gives. -/
opaque firmwareGood : List Byte → List Byte → Bool
opaque firmwareVersion : List Byte → Nat

end Sys2Proof.Config
end

