-- ==== Sys2Proof/Machine/UnitsA.lean ====
section
/-!
DEFINITION. The state of the units that face the host: identity, time base, functions and mailboxes, interrupt
controller, sessions, and the plain data they hold. Each field's comment gives its rule, its width and its reset value.
-/
namespace Sys2Proof.Machine

/-- R1. The parts of the family. -/
inductive Part where
  | cm3200 | cm3200e | cm3116
deriving DecidableEq, Repr, Inhabited

/-- R76, R456, R465, R468. What the fuses hold. -/
structure Fuses where
  /-- R1, R76; 8 bits; reset fuse. The part. -/
  part : Part
  /-- R76; 8 bits; reset fuse. Die revision. -/
  dieRev : Byte
  /-- R465; 128 bits; reset fuse. Die UID. -/
  dieUid : List Byte
  /-- R456; 512 bits; reset fuse. Maker root public key, X then Y. -/
  makerRoot : List Byte
  /-- R468; 32 rows of 24 bits; reset fuse. Programmed rows of the upper counter part, oldest first. -/
  counterRows : List (BitVec 24)
deriving DecidableEq, Repr, Inhabited

/-- R44. TIME_STATUS.STATE. -/
inductive DiscState where
  | free | acquiring | locked | holdover
deriving DecidableEq, Repr, Inhabited

/-- R51. Instance-specific peer delay of a gPTP port: the Pdelay_Req under way with the time it left, what its Pdelay_Resp reported
and when that arrived, and the last measured mean link delay in ns. -/
structure PeerDelay where
  /-- R51; reset none. Sequence number and departure time of the last Pdelay_Req. -/
  req : Option (Nat × Nat)
  /-- R51; reset none. Receipt time that the Pdelay_Resp reports, and the time of its own arrival. -/
  resp : Option (Nat × Nat)
  /-- R51; signed ns; reset none. Mean link delay. -/
  delay : Option Int
deriving DecidableEq, Repr, Inhabited

/-- Device time, its discipline, the master tick, gPTP and PTM. -/
structure TimeBase where
  /-- R38; 64 bits; reset 0. Device time in ns. -/
  dev : Nat
  /-- R38; 32 bits; reset 0. Binary fraction of a nanosecond. -/
  frac : Nat
  /-- R458, R135; model's own measure; reset 0. Elapsed ns of the timebase, never stepped. -/
  elapsed : Nat
  /-- R566; 1 bit; reset 1. REFCLK_IN runs. -/
  refclk : Bool
  /-- R45, R46; signed, in 10^-12; reset 0. Frequency correction in force. -/
  corr : Int
  /-- R45; 1 bit; reset 0. Discipline has steered the frequency since full reset. -/
  steered : Bool
  /-- R44; 2 bits; reset FREE. Discipline state. -/
  disc : DiscState
  /-- R44, R125; 1 bit; reset 0. Discipline enabled. -/
  ppsEn : Bool
  /-- R125; 1 bit; reset 0. Active edge, 1 falling. -/
  ppsEdge : Bool
  /-- R46; time; reset none. Device time of the last valid pulse since enable. -/
  lastValid : Option Nat
  /-- R47; count; reset 0. Consecutive valid pulses. -/
  validRun : Nat
  /-- R47; count; reset 0. Consecutive valid pulses within 100 ns. -/
  goodRun : Nat
  /-- R47; count; reset 0. Consecutive expected pulses missing or invalid. -/
  missRun : Nat
  /-- R47; list; reset empty. Device time of each valid pulse of this LOCKED period with the correction as it stood, newest first. -/
  lockedCorrs : List (Nat × Int)
  /-- R46; time; reset none. Elapsed time at which discipline last changed the correction. -/
  steeredAt : Option Nat
  /-- R42; 32 bits; reset 0. The control cluster's own TIME_HI latch. -/
  clusterHi : Word
  /-- R49; time; reset none. Device time at which 1PPS_OUT last rose; the pin is high for 10 ms from it. -/
  ppsRoseAt : Option Nat
  /-- R44, R47; 16 bits; reset 0. Whole seconds in the last HOLDOVER. -/
  holdoverS : Nat
  /-- R47; time; reset 0. Elapsed time at which HOLDOVER was entered. -/
  holdoverAt : Nat
  /-- R40, R44; 1 bit; reset 0. TIME_SET_BASE has succeeded. -/
  baseSet : Bool
  /-- R41, R44; 1 bit; reset 0. PTP timescale announced. -/
  ptpTs : Bool
  /-- R44; 1 bit; reset 0. Master tick running. -/
  tickRun : Bool
  /-- R55; 32 bits; reset 0. Master tick period in ns. -/
  period : Nat
  /-- R55, R57; 64 bits; reset 0. Boundary number from which the present period counts. -/
  refK : Nat
  /-- R55, R57; 64 bits; reset 0. Device time of that boundary. -/
  refT : Nat
  /-- R55; 64 bits; reset 0. Boundaries of the present numbering that have passed. -/
  passed : Nat
  /-- R135; time; reset 0. Elapsed time at which the tick stopped, or the start of the timebase. -/
  stoppedAt : Nat
  /-- R135; count; reset 0. Instants of 33,333,333 ns taken since stoppedAt. -/
  stoppedInstants : Nat
  /-- R51; 8 bits; reset 246. gPTP priority1. -/
  prio1 : Nat
  /-- R51; signed; reset -3. logSyncInterval. -/
  logSync : Int
  /-- R40; count; reset 0. gPTP time base indicator. -/
  timeBaseInd : Nat
  /-- R40; signed ns; reset 0. lastGmPhaseChange. -/
  lastPhaseChange : Int
  /-- R52; list; reset empty. Clock identities that have raised TIME_FOREIGN_GM, with their port. -/
  foreign : List (Nat × Nat)
  /-- R52; count; reset 0. Received Announce messages that would win. -/
  foreignCount : Nat
  /-- R51; counts; reset 0. Sequence numbers of Sync, Announce and Pdelay_Req on each of the two ports. -/
  gptpSeq : Vector (Nat × Nat × Nat) 2
  /-- R51; reset none. Peer delay of each of the two ports. -/
  pdelay : Vector PeerDelay 2
  /-- R53; 1 bit; reset 0. PTM is enabled in the physical function's configuration space (choice 8). -/
  ptmEn : Bool
  /-- R53; time; reset none. Elapsed time at which the last dialogue was due. -/
  ptmAt : Option Nat
  /-- R53; 1 bit; reset 0. A dialogue is open. -/
  ptmBusy : Bool
  /-- R54; 32 bits; reset 0. TIME_PTM_SEQ, the dialogue count. -/
  ptmSeq : Word
  /-- R53; 64 bits; reset 0. Device time of the last dialogue. -/
  ptmDev : Long
  /-- R53; 64 bits; reset 0. PTM master time of the last dialogue. -/
  ptmRoot : Long
deriving DecidableEq, Repr, Inhabited

/-- R102. A whole request entry: its opcode and the rest. -/
structure Entry where
  opcode : BitVec 16
  req : Request
deriving DecidableEq, Repr, Inhabited

/-- R82, R84. An entry waiting in a request queue. -/
structure QEntry where
  entry : Entry
  /-- R84; count; reset 0. Master boundaries the entry has waited across. -/
  waited : Nat
  /-- R85; time. Elapsed time of the push. -/
  pushedAt : Nat
  /-- R84; 1 bit; reset 0. The entry is promoted. -/
  promoted : Bool
deriving DecidableEq, Repr, Inhabited

/-- R103. A response entry; RPLEN is the length of its payload. -/
structure Response where
  opcode : BitVec 16
  tag : BitVec 16
  status : Byte
  replay : Bool
  tick : Long
  payload : List Byte
deriving DecidableEq, Repr, Inhabited

/-- R90. A cached final response with the request that produced it. -/
structure CacheEntry where
  entry : Entry
  rsp : Response
deriving DecidableEq, Repr, Inhabited

/-- R457. A role session: role 1 operator, 2 installer, 3 maker. -/
structure Session where
  role : Nat
  slot : Nat
deriving DecidableEq, Repr, Inhabited

/-- R458. A function's live challenge. -/
structure Challenge where
  role : Nat
  slot : Nat
  nonce : List Byte
  issued : Nat
deriving DecidableEq, Repr, Inhabited

/-- One PCIe function: its BAR0 registers, mailbox, session and MSI-X masks. -/
structure Fn where
  /-- R80; 16 x 32 bits; reset 0. MBX_REQ_DATA. -/
  staging : Vector Word 16
  /-- R82; at most 64; reset empty. Request queue, earliest pushed first. -/
  reqQ : List QEntry
  /-- R87; at most 64; reset empty. Responses waiting, oldest first. -/
  rspQ : List Response
  /-- R80; 16 x 32 bits; reset 0. MBX_RSP_DATA. -/
  rspData : Vector Word 16
  /-- R80; 1 bit; reset 0. MBX_STATUS.REQ_OVF. -/
  reqOvf : Bool
  /-- R80; 1 bit; reset 0. MBX_CTRL.RSP_IE. -/
  rspIe : Bool
  /-- R90; at most 64; reset empty. Tag cache, newest first. -/
  cache : List CacheEntry
  /-- R42; 32 bits; reset 0. TIME_HI latch. -/
  timeHi : Word
  /-- R54; 64 bits; reset 0. Latched device time of a PTM dialogue. -/
  ptmDev : Long
  /-- R54; 64 bits; reset 0. Latched PTM root time. -/
  ptmRoot : Long
  /-- R457; reset none. Role session. -/
  session : Option Session
  /-- R458; reset none. Live challenge. -/
  challenge : Option Challenge
  /-- R458; reset empty. Challenges consumed by a ROLE_OPEN that awaits its signature, with its tag. -/
  opening : List (BitVec 16 × Challenge)
  /-- R149; 2 x 1 bit; reset 1 (choice 7). MSI-X vector mask. -/
  vecMask : Vector Bool 2
  /-- R149; 1 bit; reset 0 (choice 7). MSI-X function mask. -/
  fnMask : Bool
  /-- R149; 2 x 1 bit; reset 0. Message held while masked. -/
  held : Vector Bool 2
  /-- R14; 32 bits; reset 0 (choice 9). Value of the function's last completed BAR0 read. -/
  readData : Word
deriving DecidableEq, Repr, Inhabited

/-- R135, R141. One interrupt source as one side (host or firmware) keeps it. -/
structure Source where
  /-- R137; 5 bits; reset 0. Host target 1 to 16, or 0 for none. -/
  route : Nat
  /-- R141; 4 bits; reset 15. Priority. -/
  prio : Nat
  /-- R141; 1 bit; reset 0. Enabled. -/
  en : Bool
  /-- R135; 8 bits; reset 0. Counter of a counted-edge source. -/
  count : Nat
  /-- R135; 1 bit; reset 0. An event was lost at 255. -/
  sat : Bool
  /-- R135; 32 bits; reset 0. Cause word of a level source. -/
  cause : Word
  /-- R144; 1 bit; reset 0. In service. -/
  insvc : Bool
deriving DecidableEq, Repr, Inhabited

/-- R140, R141. One interrupt target. -/
structure Target where
  /-- R146; at most 16; reset empty. Stack of (source, priority), top first. -/
  stack : List (Nat × Nat)
  /-- R141; 1 bit; reset 0. IRQ_CTRL.ENABLE. -/
  enable : Bool
  /-- R141; 9 bits; reset 0. IRQ_SRC_SEL.SOURCE. -/
  srcSel : Nat
  /-- R141; 1 bit; reset 0. IRQ_STATUS.EOI_EMPTY. -/
  eoiEmpty : Bool
  /-- R149; 1 bit; reset 0. SIGNAL as it stood after the last action at the target. -/
  signal : Bool
deriving DecidableEq, Repr, Inhabited

/-- R130 to R152. The interrupt controller: the host side and firmware's own side (R131). -/
structure Irq where
  src : Vector Source 512
  /-- Targets 1 to 16, at index target - 1. -/
  tgt : Vector Target 16
  /-- R131. Firmware's own state for every source, at target 0. -/
  fwSrc : Vector Source 512
  /-- R131. Target 0. -/
  fwTgt : Target
deriving DecidableEq, Repr, Inhabited

/-- R108. What a request in execution waits for. -/
inductive Wait where
  /-- A DMA read of the buffer at `addr`, `len` bytes (R118). -/
  | dma (addr len : Nat)
  /-- A DMA write to the host at `addr` of `data`, after which the payload is posted (R118). -/
  | dmaOut (addr : Nat) (data : List Byte) (payload : List Byte)
  /-- The first boundary at least 1 ms after admission (R108). -/
  | tick
  /-- The next valid 1PPS_IN edge (R40). -/
  | pps
  /-- A boot-flash program (R414). -/
  | flash
  /-- TRNG output of `n` bytes, `got` so far (R444). -/
  | entropy (n : Nat) (got : List Byte)
  /-- An identity check of channel `ch` (R191, R193). -/
  | check (ch : Nat)
  /-- A bus transfer on channel `ch` (R185). -/
  | bus (ch : Nat)
  /-- Self-refresh entry or exit of the controllers in the mask (R526). -/
  | selfRefresh (mask : Nat)
deriving DecidableEq, Repr, Inhabited

/-- R86, R91. A request in execution, in the order read. -/
structure ExecEntry where
  func : Nat
  entry : Entry
  wait : Wait
  /-- R114. The members captured when the request was read. -/
  members : List Nat
  /-- R108. Elapsed time at which the command passed step 12 (or began to execute). -/
  since : Nat
  /-- What a DMA transfer brought. -/
  data : List Byte
  /-- R461. Role and slot of the issuing session, for the audit record. -/
  role : Nat
  slot : Nat
  /-- R99. The function was reset: the response is discarded. -/
  dead : Bool
deriving DecidableEq, Repr, Inhabited

/-- What leaves the block on a link or a pin. The list of these is the model's record of outputs (choice 5). -/
inductive Output where
  /-- R73, R149, R89. An MSI-X message of function `f`, vector `v`. -/
  | msix (f v : Nat)
  /-- R74. A DMA write with function `f`'s requester ID. -/
  | dmaWrite (f addr : Nat) (data : List Byte)
  /-- R58, R60. The level of an FSYNC pin, which its polarity takes from active or inactive, and the width of a pulse it begins (0 for none). -/
  | fsync (ch : Nat) (high : Bool) (width : Nat)
  /-- R530, R525. Every FSYNC output is driven low. -/
  | fsyncAllLow
  /-- R49. 1PPS_OUT takes a level at a device time. -/
  | ppsOut (at_ : Nat) (high : Bool)
  /-- R550. Level of FAULT_N: asserted or released. -/
  | faultN (asserted : Bool)
  /-- R51. A gPTP frame on a port: its destination address and EtherType, message kind (0 Sync, 1 Follow_Up, 2 Announce, 3 Pdelay_Req,
  4 Pdelay_Resp, 5 Pdelay_Resp_Follow_Up), sequence number and fields. -/
  | gptp (port dest etherType kind seq : Nat) (fields : List Int)
  /-- R53. A PTM request. -/
  | ptmRequest
  /-- R371. A packet on a MAC, from its Ethernet header to its last payload byte. -/
  | packet (mac flow : Nat) (bytes : List Byte)
  /-- R353, R364. A CSI-2 frame on a transmit port. -/
  | csi2Frame (port vc number : Nat) (embedded : List Byte) (lines : List (List Byte))
  /-- R182, R185. A transaction on a control bus: address, bytes written, bytes to read, and whether a repeated start joins the two
  (else a stop and a start). -/
  | bus (bus addr : Nat) (wdata : List Byte) (rlen : Nat) (rstart : Bool)
  /-- R513. A PMBus voltage setting: the PMIC's address, the rail's page, and mV (0 off). -/
  | pmbus (addr page mv : Nat)
deriving DecidableEq, Repr, Inhabited

end Sys2Proof.Machine
end

