-- ==== Sys2Proof/Machine/UnitsB.lean ====
section
/-!
DEFINITION. The state of the camera side: receive ports, channels and their configuration, frame records, heads, calibration
and coded streams. Each field's comment gives its rule, its width and its reset value.
-/
namespace Sys2Proof.Machine

/-- R163, R166. A line in a line FIFO: its channel, the entries still in the FIFO, the entries that one chunk of the raw frame buffer takes
from it, and whether it is drained but not stored. -/
structure FifoLine where
  ch : Nat
  entries : Nat
  per : Nat
  dropped : Bool
deriving DecidableEq, Repr, Inhabited

/-- R155 to R166, R178. One CSI-2 receive port. -/
structure RxPort where
  /-- R156; 1 bit; reset 0. A CHAN_PORT_SET has succeeded. -/
  set : Bool
  /-- R155; 1 bit; reset 0 (choice 4). 0 D-PHY, 1 C-PHY. -/
  cphy : Bool
  /-- R155; 3 bits; reset 0 (choice 4). Lanes or trios. -/
  lanes : Nat
  /-- R155; 1 bit; reset 0 (choice 4). Continuous clock. -/
  contClk : Bool
  /-- R155; 16 bits; reset 0 (choice 4). Rate in Mb/s or Msym/s. -/
  rate : Nat
  /-- R155; 16 bits; reset 0 (choice 4). Lane map. -/
  map : BitVec 16
  /-- R163; reset empty. Lines in the FIFO, oldest first; the true fill is their entries. -/
  fifo : List FifoLine
  /-- R164, R165; entries; reset 0. Entries drained that the write side's copy of the read pointer does not show yet; LEVEL is the fill and
  these. -/
  lag : Nat
  /-- R164; time; reset 0. Elapsed time of the last drain. -/
  drainedAt : Nat
  /-- R164; time; reset 0. Elapsed time of the last write, of which the read side's copy may not show the last entry. -/
  wroteAt : Nat
  /-- R165; 11 bits; reset 0. High-water mark. -/
  hwm : Nat
  /-- R178; 32 bits; reset 0. Corrected packet headers. -/
  hdrCorr : Nat
  /-- R178; 32 bits; reset 0. Uncorrectable packet headers. -/
  hdrUncorr : Nat
  /-- R178; 32 bits; reset 0. PHY errors. -/
  phyErr : Nat
deriving DecidableEq, Repr, Inhabited

/-- R157. A binding. -/
structure Bind where
  port : Nat
  vc : Nat
  dt : Nat
  lnum : Bool
  emb : Bool
  width : Nat
  height : Nat
deriving DecidableEq, Repr, Inhabited

/-- R58. A channel rate: divisor, slot, phase step, polarity (1 active low) and FSYNC width in us. -/
structure Rate where
  div : Nat
  slot : Nat
  phase : Nat
  low : Bool
  width : Nat
deriving DecidableEq, Repr, Inhabited

/-- R181. A bus attachment. -/
structure Attach where
  bus : Nat
  static_ : Nat
  native : Nat
  i2c : Bool
deriving DecidableEq, Repr, Inhabited

/-- R207, R217. Pipeline controls and tables in force, with what the last command loaded for each parameter that an
estimate can replace (R219, R259). -/
structure Pipe where
  /-- R207; 3 bits; reset 0 (R208). MOSAIC. -/
  mosaic : Nat
  /-- R207; 7 bits; reset 0 (R208). STAGES. -/
  stages : BitVec 8
  /-- R207; 3 bits; reset 0 (choice 4). CSC. -/
  csc : BitVec 8
  /-- R207; 8 bits; reset 0 (choice 4). TONE_STR. -/
  toneStr : Nat
  /-- R207; 12 bits; reset 0 (choice 4). DYN_THR. -/
  dynThr : Nat
  /-- R207; 8 bits; reset 0 (choice 4). IR_SUB. -/
  irSub : Nat
  /-- R210; 4 x 16 bits; reset 0 (choice 4). Black levels in force. -/
  black : List Nat
  /-- R259; 4 x 16 bits; reset 0 (choice 4). Black levels last loaded by command. -/
  blackCmd : List Nat
  /-- R209; 33 knees; reset empty (choice 4). DECOMPAND table. -/
  decompand : List (Nat × Nat)
  /-- R212; 1156 gains; reset empty (choice 4). SHADING gains in force; an empty table is gain 1. -/
  shading : List Nat
  /-- R259; 1156 gains; reset empty (choice 4). SHADING last loaded by command. -/
  shadingCmd : List Nat
  /-- R211; at most 4,096; reset empty. Static defect map. -/
  defectStatic : List (Nat × Nat)
  /-- R259; at most 4,096; reset empty. Defect map last loaded by command. -/
  defectCmd : List (Nat × Nat)
  /-- R211; at most 4,096; reset empty. Estimated defect map. -/
  defectEst : List (Nat × Nat)
  /-- R214; 9 x 16 bits signed 4.12; reset 0 (choice 4). Enrolled matrix. -/
  matrix : List Int
  /-- R214; 3 x 16 bits signed; reset 0 (choice 4). Matrix offsets. -/
  offsets : List Int
  /-- R249; 4.12; reset 4096 (gain 1). R and B gains of the effective matrix. -/
  gainR : Nat
  gainB : Nat
  /-- R215; 65 x 16 bits; reset empty (choice 4). TONE curve. -/
  tone : List Nat
  /-- R216; 257 x 16 bits; reset empty (choice 4). GAMMA table. -/
  gamma : List Nat
deriving DecidableEq, Repr, Inhabited

/-- R221. A configured window. -/
structure Window where
  format : Nat
  pyramid : Bool
  ir : Bool
  mirror : Bool
  unsealed : Bool
  cropX : Nat
  cropY : Nat
  cropW : Nat
  cropH : Nat
  outW : Nat
  outH : Nat
deriving DecidableEq, Repr, Inhabited

/-- R310. A declared HRD: MODE 0 CBR. -/
structure Hrd where
  vbr : Bool
  bitRate : Nat
  cpbSize : Nat
  initDelay : Nat
deriving DecidableEq, Repr, Inhabited

/-- R270, R284, R310, R321, R324. A coded stream's configuration. -/
structure StreamCfg where
  /-- R270; 1 bit; reset 0. Configured since LEVEL 0 is out of range. -/
  set : Bool
  /-- R272; 1 bit; reset 0. ENABLE. -/
  enable : Bool
  win : Nat
  codec : Nat
  level : Nat
  cavlc : Bool
  slices : Nat
  refs : Nat
  ltrs : Nat
  /-- R310; reset none. HRD in force. -/
  hrd : Option Hrd
  /-- R324; 32 bits; reset 0. TARGET. -/
  target : Nat
  /-- R321; reset FIXED 0, QP_MIN 10, QP_MAX 51, QP_FIXED 0, I_DELTA -3. -/
  qpFixedEn : Bool
  qpMin : Nat
  qpMax : Nat
  qpFixed : Nat
  iDelta : Int
  /-- R284; reset MODE 0, PERIOD 0, LTR_PERIOD 0. -/
  refreshCols : Bool
  refreshPeriod : Nat
  ltrPeriod : Nat
deriving DecidableEq, Repr, Inhabited

/-- R303. Enrolled geometry, as the signed or unsigned fields carry it. -/
structure Geometry where
  fx : Nat
  fy : Nat
  cx : Int
  cy : Int
  yaw : Int
  pitch : Int
  roll : Int
  tx : Int
  ty : Int
  tz : Int
  far : Nat
  model : Nat
  k1 : Int
deriving DecidableEq, Repr, Inhabited

/-- R507. A routine attached at a hook point: routine index, window or stream mask, span and parameters. -/
structure Hook where
  routine : Nat
  mask : Nat
  span : Nat
  params : List Nat
deriving DecidableEq, Repr, Inhabited

/-- The configuration of a channel that SYS_CONFIG_SAVE writes (R124). -/
structure ChanCfg where
  /-- R158; reset none. -/
  bind : Option Bind
  /-- R58, R96; reset none (DIV reads 0). -/
  rate : Option Rate
  /-- R181; reset none. -/
  attach : Option Attach
  /-- R181; 1 bit; reset 1. ALLOW_UNPAIRED. -/
  allowUnpaired : Bool
  pipe : Pipe
  /-- R221; 4 windows; reset none. -/
  windows : Vector (Option Window) 4
  /-- R269; 2 streams. -/
  streams : Vector StreamCfg 2
  /-- R293; 1 bit; reset 0. Fine mode. -/
  fine : Bool
  /-- R293; 1 bit; reset 0. EGO. -/
  ego : Bool
  /-- R507; 6 hook points; reset none. Attached routines. -/
  hooks : Vector (Option Hook) 6
deriving DecidableEq, Repr, Inhabited

/-- R173. Outcome of a record. -/
inductive RecOutcome where
  | complete | truncated | dropped
deriving DecidableEq, Repr, Inhabited

/-- R176. Reasons of an unsettled mark. -/
structure Reasons where
  exposureGain : Bool
  mode : Bool
  bind : Bool
deriving DecidableEq, Repr, Inhabited

/-- An expected frame from its FSYNC pulse on: what ingress stored, the settings bound to it (R32), and its record (R173). -/
structure Frame where
  /-- R173; 64 bits. Frame counter of its record. -/
  counter : Nat
  /-- R31; 64 bits. Capture time. -/
  capture : Nat
  /-- R26. Boundary number of its channel tick. -/
  boundary : Nat
  /-- R27. Boundary number of its ingress deadline. -/
  deadline : Nat
  /-- R32. Channel settings bound at FSYNC. -/
  cfg : ChanCfg
  /-- R167. Opened by a Frame Start, closed to lines by the next one, ended by Frame End. -/
  opened : Bool
  closedEarly : Bool
  ended : Bool
  /-- R168. Stored lines, by position from line 0. -/
  lines : List (List Byte)
  /-- R169. The most recent good line. -/
  lastGood : Option (List Byte)
  /-- R168. Line number given by the last Line Start, and the last number taken. -/
  lineStart : Option Nat
  lastNum : Nat
  /-- R173. Bad lines. -/
  bad : Nat
  /-- R166. Line discarded by overflow. -/
  ovfLine : Option Nat
  /-- R168. Embedded bytes captured. -/
  emb : List Byte
  /-- R165. Highest FIFO level from opening to closing. -/
  hwm : Nat
  /-- R197. The channel had left Paired before the FSYNC with ALLOW_UNPAIRED 0. -/
  barred : Bool
  /-- R176. Unsettled mark and its reasons. -/
  unsettled : Bool
  reasons : Reasons
  /-- R172. Set when the record closes. -/
  outcome : RecOutcome
  late : Bool
  fifoOvf : Bool
  pipeOvr : Bool
  truncLine : Nat
  /-- R229. CAL_GEN at FSYNC. -/
  calGen : Nat
  /-- R238. Head was Paired or Unpaired, and the previous record was not dropped, when the record closed. -/
  headKnown : Bool
  prevOk : Bool
  /-- R238; 4 bits. Estimators at or above whose tap a setting has changed since FSYNC. -/
  changed : BitVec 4
deriving DecidableEq, Repr, Inhabited

/-- R176. A declared change whose first affected frame is still to come: frames captured at or after `fromTime`, after
`skip` further channel ticks, `marks` records. -/
structure SensorMark where
  fromTime : Nat
  skip : Nat
  marks : Nat
  reasons : Reasons
deriving DecidableEq, Repr, Inhabited

/-- R229 to R231, R350, R351, R364. A formed item's header and payload bytes. -/
structure Formed where
  header : List Byte
  payload : List Byte
deriving DecidableEq, Repr, Inhabited

/-- R274. A NAL unit of an access unit: its kind and its bytes without start code. -/
inductive NalKind where
  | aud | vps | sps | pps | bufferingPeriod | pictureTiming | recoveryPoint | frameSei | sealSei | slice | filler
deriving DecidableEq, Repr, Inhabited

/-- R274, R277. `pad` zero bytes follow it in the byte stream, where its size is fixed. -/
structure Nal where
  kind : NalKind
  bytes : List Byte
  pad : Nat
deriving DecidableEq, Repr, Inhabited

/-- R295, R296. The motion of a block: its vector in quarter samples, the reference it points at by frame counter, that reference's distance
in POC, and whether it is a long-term one. -/
structure Motion where
  x : Int
  y : Int
  counter : Nat
  dist : Int
  long : Bool
deriving DecidableEq, Repr, Inhabited

/-- R266, R267. A block of a coded picture by its place and size in luma samples: its motion, none for an intra block, and whether it is
skipped. -/
structure PredBlock where
  x : Nat
  y : Nat
  w : Nat
  h : Nat
  motion : Option Motion
  skipped : Bool
deriving DecidableEq, Repr, Inhabited

/-- R278. A reference picture: frame counter, capture time and, for a long-term reference, its slot. -/
structure RefPic where
  counter : Nat
  capture : Nat
  slot : Nat
  /-- R268. POC. -/
  poc : Nat
  /-- R301. Reconstructed samples: rows of Y, Cb and Cr. -/
  planes : List (List (List Nat))
  /-- R295. The vectors stored for its blocks. -/
  field : List PredBlock
  /-- R285. Luma columns refreshed in it by the cycle in progress. -/
  edge : Nat
deriving DecidableEq, Repr, Inhabited

/-- R29. A coded access unit on its way to release. -/
structure AccessUnit where
  channel : Nat
  stream : Nat
  counter : Nat
  capture : Nat
  h265 : Bool
  nals : List Nal
  /-- R274. Carries parameter sets. -/
  paramSets : Bool
  idr : Bool
  skip : Bool
  encOvr : Bool
  skipFloor : Bool
  iToP : Bool
  ltrRecovery : Bool
  /-- R282. Releases LTR_RECOVERED. -/
  recovered : Bool
  /-- R448. FLAGS and TRUNC_LINE of the frame SEI. -/
  flags : BitVec 16
  truncLine : Nat
  /-- R447. The seal has been computed. -/
  sealed_ : Bool
  /-- Boundary number that ends the encode tick. -/
  eligible : Nat
  bytes : Nat
deriving DecidableEq, Repr, Inhabited

/-- R279 to R291, R315, R322, R325. What a coded stream carries from picture to picture. -/
structure StreamRun where
  /-- R279; 1 bit; reset 0. IDR request pending. -/
  idrPending : Bool
  /-- R325; 1 bit each; reset 0. The pending request came from a CBR rate change; from the first access unit of a run. -/
  idrRate : Bool
  idrFirst : Bool
  /-- R273; 1 bit; reset 0. Enabled while its channel was disabled, which has not started since; reset 0: the first boundary whose frames the
  stream codes. -/
  waits : Bool
  runFrom : Nat
  /-- R324; reset none. CBR rate that starts at the next IDR. -/
  nextRate : Option Nat
  /-- R315; 32 bits; reset 0. Rate in force in the ledger. -/
  ledgerRate : Nat
  /-- R282; reset none. LAST_GOOD of a recovery still to be coded. -/
  recovery : Option Nat
  /-- R282; 1 bit; reset 0. A recovery has fallen back to the pending IDR. -/
  recoveryIdr : Bool
  /-- R278; reset empty. Short-term references, newest first. -/
  short : List RefPic
  /-- R280; reset empty. Long-term references, newest first. -/
  long : List RefPic
  /-- R280; count. Long-term markings made since the last IDR. -/
  ltrNext : Nat
  /-- R284, R280; counts. Usable access units since the last IDR or converted picture, and since the last IDR. -/
  sinceIdr : Nat
  sinceLtr : Nat
  /-- R280; 1 bit; reset 0. A long-term marking has passed to the next usable picture. -/
  ltrDue : Bool
  /-- R227, R271. Size of the stream's pictures, and format of its source window. -/
  dims : Nat × Nat
  format : Nat
  /-- R285; reset none. Refresh cycle: next picture j and length N. -/
  cycle : Option (Nat × Nat)
  /-- R315; 1 bit. The next access unit is the first of its run. -/
  first : Bool
  /-- R315; reset 0. t_af of the last access unit. -/
  tafPrev : Nat
  /-- R322; reset none. Starting QP and slice bits of the last P picture without SKIP_FLOOR. -/
  lastP : Option (Nat × Nat)
  /-- R325; reset none. Starting QP and size of the last IDR without SKIP_FLOOR. -/
  lastIdr : Option (Nat × Nat)
  /-- R268; count. POC, access units since the last IDR. -/
  poc : Nat
  /-- R311; count. Access units since the last buffering period. -/
  sinceBp : Nat
  /-- R291; counters. -/
  core : Nat
  auCount : Nat
  lastFrame : Nat
  lastBytes : Nat
  skipPics : Nat
  ovr : Nat
  /-- R29. The access unit coded in this encode tick. -/
  current : Option AccessUnit
  /-- R66, R288. The running ENC job has been cut at this CTU, in H.264 at this macroblock. -/
  cut : Option Nat
  /-- R302. The running ITP job has been cut with this many blocks not refined. -/
  itpCut : Option Nat
  /-- R301. The ITP job of this encode tick has finished. -/
  itpDone : Bool
  /-- R306, R495. The frame whose encode tick is running, and its ego freshness. -/
  job : Option Frame
  /-- R195; 1 bit. SEAL_UNPAIRED in force at the last encode tick. -/
  sealUnpaired : Bool
  /-- R447, R448. Seal key fixed at the start of the encode tick; KEY and the generations of the seal record. -/
  sealKey : List Byte
  sealKeyBits : Nat
  sealGens : List Byte
deriving DecidableEq, Repr, Inhabited

/-- R190. Head states. -/
inductive HeadState where
  | paired | unpaired | unverified | other
deriving DecidableEq, Repr, Inhabited

/-- R190, R193. A pairing record: identity hash and head public key. -/
structure Pairing where
  idHash : List Byte
  pubKey : List Byte
deriving DecidableEq, Repr, Inhabited

/-- R199 to R202. Service life of a paired head. -/
structure Life where
  cool : Nat
  hot : Nat
  cycles : Nat
  /-- R199. Budget in minutes. -/
  budget : Nat
  /-- R200. Sequence of the last record. -/
  seq : Nat
  wear : Bool
  eol : Bool
  pushPending : Bool
  lastPush : Nat
  /-- R200. Elapsed time of the last whole hour from pairing, and of the last attempt to push. -/
  pushFrom : Nat
  tryAt : Nat
  /-- R196. The mirror is closed. -/
  closed : Bool
  /-- R199. Elapsed time at which the minute being counted began. -/
  minuteAt : Nat
deriving DecidableEq, Repr, Inhabited

/-- R186. Classes of bus transfer, in the order served. -/
inductive BusClass where
  | sensor | device | host
deriving DecidableEq, Repr, Inhabited

/-- R189, R193, R200, R583. Where an identity check and what follows it stand: due, reading the identity block and the
certificate, waiting for a nonce, sending the challenge, waiting for and reading the signature, judged; then reading the two
life slots, setting the channel key and writing the life record. -/
inductive CheckStep where
  | due | ident | cert | nonce | challenge | waitSig | sig | judged
  | slotCmd (slot : Nat) | waitSlot (slot : Nat) | slot (slot : Nat)
  | keyWrite | waitKey | lifeWrite | waitLife | finished
deriving DecidableEq, Repr, Inhabited

/-- R186. What a transfer is for. -/
inductive BusUse where
  | sensorWrite
  | hostXfer (f : Nat) (tag : BitVec 16)
  | checkStep
  | setdasa
  /-- R240, R199. A read of TEMP_REG: for the last five readings, or for the operating minute that has ended. -/
  | temp (minute : Bool)
deriving DecidableEq, Repr, Inhabited

/-- R186. One transaction: bytes written, bytes to read, and whether a repeated start joins them. -/
structure Txn where
  wdata : List Byte
  rlen : Nat
  rstart : Bool
deriving DecidableEq, Repr, Inhabited

/-- R186. A transfer on a control bus: transactions still to make, what was read, whether one is under way and since which elapsed time,
and for a sensor write the device time within which it completes (R175). -/
structure BusXfer where
  ch : Nat
  cls : BusClass
  use_ : BusUse
  todo : List Txn
  got : List Byte
  active : Bool
  since : Nat
  due : Nat
deriving DecidableEq, Repr, Inhabited

/-- R189, R193. Why a check runs. -/
inductive CheckWhy where
  | auto | idGet (f : Nat) (tag : BitVec 16) | pair (f : Nat) (tag : BitVec 16) | push
deriving DecidableEq, Repr, Inhabited

/-- R189. An identity check that is due or running. -/
structure Check where
  why : CheckWhy
  step : CheckStep
  /-- R186. Elapsed time at which it fell due. -/
  dueAt : Nat
  /-- R189. Elapsed time from which its 50 ms count, and of the start of the operation in the secure element. -/
  startedAt : Nat
  opAt : Nat
  /-- R583. A read of SE_STATUS is on the bus. -/
  polling : Bool
  ident : List Byte
  cert : List Byte
  nonce : List Byte
  sig : List Byte
  /-- R191. The identity block or certificate could not be read; the challenge failed. -/
  readFail : Bool
  chalFail : Bool
  /-- R200. Life slots read back, and the record being pushed. -/
  slots : List (List Byte)
  record : List Byte
deriving DecidableEq, Repr, Inhabited

/-- R193, R194. A pairing on its way to its boundary: the record, the budget in minutes, the counters taken from the head's
slots and the mirror, whether it replaces another head, the generation of its node, and whether flash holds it. -/
structure PairPending where
  pairing : Pairing
  budget : Nat
  life : Life
  same : Bool
  replaces : Bool
  gen : Nat
  ready : Bool
deriving DecidableEq, Repr, Inhabited

/-- A channel's head. -/
structure Head where
  /-- R190; reset Unverified (the channel has no bus). -/
  state : HeadState
  /-- R202; 1 bit; reset 0. The last check passed. -/
  verified : Bool
  /-- R189; 1 bit; reset 0. The next Frame Start makes a check due. -/
  startCheck : Bool
  /-- R190, R199; 1 bit; reset 0. The head is absent: NO_FRAME or three failed transactions since the last check. -/
  absent : Bool
  /-- R190; count; reset 0. Consecutive failed transactions. -/
  failRun : Nat
  /-- R187; reset empty. Identity block of the last passing check. -/
  ident : List Byte
  /-- R190; reset none. Public key of the last passing check. -/
  pubKey : List Byte
  /-- R189; reset empty. Checks due or running, oldest first. -/
  checks : List Check
  /-- R193; reset none. Pairing record. -/
  pairing : Option Pairing
  /-- R199; reset none. Life counters of the paired head. -/
  life : Option Life
  /-- R198; reset none. Elapsed time at which a check of the paired channel found another head, and that head's identity hash. -/
  changeAt : Option (Nat × List Byte)
  /-- R200; reset from flash (none). Life mirror in sealed flash. -/
  mirror : Option Life
  /-- R196; reset from flash (empty). Closed mirrors of former pairings, retained for audit, oldest first. -/
  closedMirrors : List Life
  /-- R194; reset none. A pairing that waits for its boundary. -/
  pairPending : Option PairPending
  /-- R240; at most 5; reset empty. Last temperature readings in 1/16 degree, newest first; none where a read failed. -/
  temps : List (Option Int)
  /-- R240; elapsed time; reset 0. The last instant of the 60 s at which TEMP_REG is read. -/
  tempAt : Nat
  /-- R199; 1 bit; reset 0. First check after full reset still to come. -/
  firstCheck : Bool
  /-- R433; 1 bit; reset 0. A new channel public key is to be written at the next check. -/
  keyUpdate : Bool
  /-- R538; 1 bit; reset 0. The channel starts once a check passes with the head Paired; reset none: elapsed time of that. -/
  startHeld : Bool
  passedAt : Option Nat
deriving DecidableEq, Repr, Inhabited

/-- R263. Outcome codes of an estimate. -/
inductive CalLast where
  | none | applied | disagree | outOfBounds | held | insufficient
deriving DecidableEq, Repr, Inhabited

/-- R246 to R249. A value of one calibration parameter. -/
inductive CalValue where
  | black (levels : List Nat)
  | shading (gains : List Nat)
  | defect (map : List (Nat × Nat))
  | colour (r b : Nat)
deriving DecidableEq, Repr, Inhabited

/-- R236, R246 to R249. What one record contributes to an accumulation window: for each plane, node or pixel a sum and a
count, with a sum of squares. -/
structure CalSample where
  sums : List (Nat × Nat × Nat)
deriving DecidableEq, Repr, Inhabited

/-- R241 to R263. One estimator. -/
structure Estimator where
  /-- R241; reset empty. EVEN and ODD windows: what their records add up to, and how many they hold. -/
  even : CalSample
  odd : CalSample
  evenFill : Nat
  oddFill : Nat
  /-- R241; count; reset 0. Records accepted since the windows were emptied. -/
  accepted : Nat
  /-- R242; time; reset 0. Device time at which the windows were last emptied. -/
  emptiedAt : Nat
  /-- R244; 1 bit; reset 0. -/
  insufficient : Bool
  /-- R263; reset none. -/
  last : CalLast
  /-- R250; 32 bits; reset 0. -/
  agree : Nat
  /-- R256; 32 bits; reset 0. -/
  drift : Nat
  /-- R263; 64 bits; reset 0. -/
  appliedAt : Nat
  /-- R263; reset none. Last estimate, for DETAIL. -/
  estimate : Option CalValue
  /-- R253; reset none. APPLIED value waiting for boundary c + 1. -/
  apply : Option (Nat × CalValue)
  /-- R256; reset 0. Grey sums of that value. -/
  applyGrey : Nat × Nat × Nat
  /-- R263; node of the largest twin difference; grey point. -/
  node : Nat
  grey : Nat × Nat
  /-- R253; reset none. The record that filled the windows has its pipeline tick ending at this boundary. -/
  completeAt : Option Nat
deriving DecidableEq, Repr, Inhabited

/-- R235 to R263. A channel's calibration. -/
structure Cal where
  /-- R219; 32 bits; reset 0. CAL_GEN. -/
  gen : Nat
  /-- R260; 4 bits; reset 0xF. CAL_ENABLE mask. -/
  enable : BitVec 4
  /-- R255; 4 bits; reset 0. Pins. -/
  pins : BitVec 4
  /-- R256; 4 x 12 bits; reset 0. DRIFT_THR. -/
  thr : Vector Nat 4
  est : Vector Estimator 4
  /-- R259; reset none. Applied estimates in force in memory. -/
  applied : Vector (Option CalValue) 4
  /-- R258; time; reset none. Elapsed time of the last write of the calibration record. -/
  recordAt : Option Nat
  /-- R239; reset empty. Block means of the previous record. -/
  prevBlocks : List (Nat × Nat)
  /-- R303; reset none. Enrolled geometry, kept in the calibration record. -/
  geometry : Option Geometry
  /-- R258; reset none. Applied estimates in the record, with the head's identity hash. -/
  stored : Option (List Byte × Vector (Option CalValue) 4)
deriving DecidableEq, Repr, Inhabited

/-- A channel. -/
structure Chan where
  cfg : ChanCfg
  /-- R159; 1 bit; reset 0. Enabled at the last boundary. -/
  enabled : Bool
  /-- R173; 64 bits; reset 0. Next frame counter. -/
  nextCounter : Nat
  /-- R199; time; reset 0. Elapsed time at which the channel was enabled, and of the last record with a Frame Start. -/
  enabledAt : Nat
  recordAt : Nat
  /-- R159. Boundary at which the run started. -/
  runFrom : Nat
  /-- R160; 1 bit; reset 0. A Frame Start of this run has been taken. -/
  seenStart : Bool
  /-- R58; reset none. Boundary of the channel tick whose FSYNC pulse left last. -/
  lastPulse : Option Nat
  /-- R60; reset none. Device time at which the FSYNC output returns to its inactive level. -/
  fsyncEnd : Option Nat
  /-- R167. Frames in ingress, oldest first. -/
  frames : List Frame
  /-- R28. Frame in its pipeline tick, and the frame waiting for its encode tick. -/
  pipeJob : Option Frame
  encNext : Option Frame
  /-- R68. The meter or the watchdog has cut the running PIPE job at this line; R498 names the second. -/
  pipeCut : Option (Nat × Bool)
  /-- R231. Windows formed in this pipeline tick, and the coding windows of the encode tick. -/
  formed : List (Nat × Formed)
  encFormed : List (Nat × Formed)
  /-- R167, R160. Packets of the pair are discarded as IGNORED up to the next Frame Start. -/
  ignoring : Bool
  /-- R176; 2 bits; reset 0. Unsettled records still to come, and reasons in force. -/
  settle : Nat
  reasons : Reasons
  marks : List SensorMark
  /-- R178; 32 bits each; reset 0. -/
  crcErr : Nat
  wcErr : Nat
  otherDt : Nat
  extraLines : Nat
  ignored : Nat
  /-- R178; reset 0. Of the last closed record. -/
  frameHwm : Nat
  embBytes : Nat
  /-- R96; reset none since enable. Last closed record. -/
  lastRec : Option Frame
  lastDropped : Bool
  /-- R96; 2 x 64 bits; reset 0. Frame counter and capture time of the last closed record of any run. -/
  closed : Nat × Nat
  /-- R136. NO_FRAME condition: no Frame Start arrived before the last ingress deadline. -/
  noFrame : Bool
  /-- R96; 16 bits each; reset 0. -/
  trunc : Nat
  drop : Nat
  ovrPipe : Nat
  ovrEnc : Nat
  /-- R60; 1 bit; reset 0. FSYNC output at its active level. -/
  fsync : Bool
  head : Head
  cal : Cal
  runs : Vector StreamRun 2
  /-- R215; reset empty. For each MOSAIC of this run: frame counter, region mean lumas and whole-frame mean of its last
  record that was not dropped. -/
  toneMeans : List (Nat × Nat × List Nat × Nat)
  /-- R96; 16 x 32 bits. The status window as firmware last wrote it. -/
  window : Vector Word 16
deriving DecidableEq, Repr, Inhabited

end Sys2Proof.Machine
end

