-- ==== Sys2Proof/Machine/UnitsC.lean ====
section
/-!
DEFINITION. The state behind the camera side: decoder, flows and egress ports, memory controllers, Tarn, roles and audit,
sequencers, power, bring-up and boot flash, the fret ledger. Each field's comment gives its rule, its width and its reset
value.
-/
namespace Sys2Proof.Machine

/-- R339, R341. One access unit fed to a decode stream: its bytes, the chunks it came in, and the device time at which its last
transfer completed. -/
structure FedUnit where
  bytes : List Byte
  chunks : Nat
  fedAt : Nat
deriving DecidableEq, Repr, Inhabited

/-- R343 to R346. A decoded picture: its place in output order, its samples, the mark (0 clean, 1 concealed, 2 derived) and the
stored vector of each unit, and what its header reports. -/
structure DecPicture where
  order : Int
  bytes : List Byte
  marks : List Nat
  vectors : List (Option (Int × Int))
  /-- R350. The 44 bytes of the frame SEI, when one was found. -/
  sei : Option (List Byte)
  overrun : Bool
  error : Bool
deriving DecidableEq, Repr, Inhabited

/-- R350, R351. An output picture that waits for its boundary: header, picture bytes as its route takes them, and unit map. -/
structure DecOutput where
  counter : Nat
  capture : Nat
  header : List Byte
  payload : List Byte
  map : List Byte
deriving DecidableEq, Repr, Inhabited

/-- R336 to R357. One decode stream. -/
structure DecStream where
  /-- R336; 1 bit; reset 0. Open. -/
  isOpen : Bool
  /-- R356; reset none. Boundary at which it closed, while the handle cannot be opened. -/
  closing : Option Nat
  /-- R336; reset 0. CODEC, LEVEL, BIT10, WIDTH, HEIGHT, DIV, SLOT, PHASE, REORDER, BIT_RATE. -/
  codec : Nat
  level : Nat
  bit10 : Bool
  width : Nat
  height : Nat
  div : Nat
  slot : Nat
  phase : Nat
  reorder : Nat
  bitRate : Nat
  /-- R338. Boundary at which it opened. -/
  openedAt : Nat
  /-- R339; reset empty. Complete access units, oldest first. -/
  units : List FedUnit
  /-- R339; reset none. The unit being fed. -/
  partial_ : Option FedUnit
  /-- R342; reset none. The access unit under decode. -/
  job : Option FedUnit
  /-- R66; reset none. The meter has cut the running job at this unit. -/
  cut : Option Nat
  /-- R343; reset empty. Pictures awaiting output. -/
  awaiting : List DecPicture
  /-- R343, R346; reset empty. Decoded picture buffer, newest first. -/
  dpb : List DecPicture
  /-- R343; reset none. The picture last output, which is repeated. -/
  last : Option DecPicture
  /-- R343; reset none. The output of the tick that runs, until its boundary. -/
  ready : Option DecOutput
  /-- R343; 1 bit; reset 0. The reorder error has been reported. -/
  reorderErr : Bool
  /-- R136; 1 bit; reset 0. FEED_EMPTY condition. -/
  feedEmpty : Bool
  /-- R347; reset 0. MODE, FLOW, VC, DT and RATE of the output. -/
  outMode : Nat
  outFlow : Nat
  outVc : Nat
  outDt : Nat
  outRate : Nat
  /-- R350; 64 bits; reset 0. Output counter. -/
  outCount : Nat
  /-- R357; 8 bits; reset 0. Core of the last decode, plus 1; 0 for none. -/
  core : Nat
  /-- R357; 64 bits; reset 0. LAST_FEED. -/
  lastFeed : Nat
  /-- R357; counters; reset 0. -/
  decoded : Nat
  repeated : Nat
  slicesConc : Nat
  discarded : Nat
  overruns : Nat
  errors : Nat
deriving DecidableEq, Repr, Inhabited

/-- R359. Values of SRC: what a flow may carry. -/
inductive FlowSrc where
  | none | coded (ch st : Nat) | window (ch w : Nat) | raw (ch : Nat) | decoded
deriving DecidableEq, Repr, Inhabited

/-- The configuration of a flow (R360 to R374, R381, R382). -/
structure FlowCfg where
  /-- R360; reset none. Function of the client. -/
  func : Option Nat
  /-- R362; 2 bits; reset 0. 0 MAC0, 1 MAC1, 2 HOST, 3 CSI-2 transmit. -/
  route : Nat
  /-- R362; 2 bits; reset 0. Transmit port. -/
  port : Nat
  /-- R362; reset none. -/
  src : FlowSrc
  /-- R362; reset 0. VC and RATE of a raw flow. -/
  vc : Nat
  txRate : Nat
  /-- R362; 6 bits; reset 0. Transmit phase. -/
  phase : Nat
  /-- R381; 16 bits; reset 256. -/
  weight : Nat
  /-- R382; 32 bits; reset 0. Units of 1,000 b/s. -/
  reserve : Nat
  limit : Nat
  /-- R370; reset none. Template, and the seed values that came with it. -/
  template : Option (List Byte)
  /-- R374; reset none. Ring address and slots. -/
  ring : Option (Nat × Nat)
  /-- R373; 2 bits; reset 0. -/
  crypt : Nat
deriving DecidableEq, Repr, Inhabited

/-- R372, R376. A packet's RTP payload or a segment of a ring item: its bytes, the item bytes it stands for, its offset in the
item buffer, and whether it ends the item. The write-back of a ring slot is a segment with no bytes. -/
structure Packet where
  bytes : List Byte
  item : Nat
  off : Nat
  last : Bool
deriving DecidableEq, Repr, Inhabited

/-- R368, R376. An item on a flow. -/
structure Item where
  /-- R375. Frame counter, or output counter of a decoded picture. -/
  counter : Nat
  capture : Nat
  /-- R368. Device time at which it became eligible. -/
  eligible : Nat
  /-- R328. HRD rate at which an access unit was coded; 0 otherwise. -/
  rate : Nat
  /-- R372, R376. Packets or segments not yet dequeued; none before a ring slot is posted. -/
  parts : Option (List Packet)
  /-- R389. Item bytes not yet dequeued. -/
  left : Nat
  /-- R367. A byte of it has been dequeued. -/
  begun : Bool
  /-- R375. The item's bytes for a ring. -/
  data : List Byte
  /-- R353, R364. Embedded data and picture lines of a CSI-2 frame. -/
  emb : List (List Byte)
  lines : List (List Byte)
  /-- R353. Device time at which a CSI-2 frame is due, and whether that has come. -/
  dueAt : Nat
  due : Bool
  /-- R375. RING_EMPTY has been raised for it; the posted buffer and its length. -/
  waited : Bool
  addr : Nat
  blen : Nat
  /-- R371. TS0 bound at its first packet. -/
  ts0 : Option Nat
deriving DecidableEq, Repr, Inhabited

/-- What a flow carries from packet to packet. -/
structure FlowRun where
  /-- R366; 1 bit; reset 0. -/
  active : Bool
  /-- R367; 1 bit; reset 0. Stopped, with bytes under way. -/
  stopping : Bool
  /-- R366; 1 bit; reset 0. Access units are passed over until one carries parameter sets. -/
  passOver : Bool
  /-- R368; at most 128; reset empty. Items with bytes not yet dequeued, oldest first. -/
  items : List Item
  /-- R387; reset empty. Items wholly dequeued and not yet complete, oldest first. -/
  going : List Item
  /-- R374; reset 0. Ring slot next to fill. -/
  slot : Nat
  /-- R375; reset none. Elapsed time of the next read of the slot. -/
  pollAt : Option Nat
  /-- R371; 16 bits; reset 0. IPv4 identification. -/
  ipId : Nat
  /-- R371; 16 bits; reset 0. RTP sequence number. -/
  rtpSeq : Nat
  /-- R379; 64 bits; reset 0. Tag F. -/
  tag : Nat
  /-- R380; time; reset 0. e_f and g_f. -/
  eligibleAt : Nat
  guaranteed : Nat
  /-- R380; 2 bits; reset 0. 0 calendar-eligible, 1 on the fine wheel, 2 on the coarse wheel. -/
  wheel : Nat
  /-- R386; bytes; reset 0. Credit c, and the allotment taken from FREE. -/
  credit : Nat
  allot : Nat
  /-- R387; 16 bits; reset 0. EXC. -/
  exc : BitVec 16
  /-- R388; reset none. Counter of the item for which LINK_DOWN was raised. -/
  lost : Option Nat
  /-- R389; 16 entries; reset 0. Samples of depth and delay. -/
  samples : Vector (Nat × Nat) 16
  newest : Nat
  /-- R97; 64 bits; reset 0. -/
  bytes : Nat
  pkts : Nat
  aus : Nat
  /-- R97; 16 bits; reset 0. -/
  hrdClamp : Nat
  /-- R373, R451; 368 bits; reset empty. SRTP master key and salt. -/
  key : List Byte
  /-- R373; 32 bits; reset 0. Rollover counter. -/
  roc : Nat
  /-- R373, R435; 1 bit; reset 0. The client node is orphaned since the last FLOW_CRYPT_SET. -/
  orphaned : Bool
  /-- R97; 16 x 32 bits; reset 0. The status window as last written. -/
  window : Vector Word 16
  /-- R95; 16 x 32 bits; reset 0. The values at the last boundary, which the next update writes. -/
  snap : Vector Word 16
deriving DecidableEq, Repr, Inhabited

/-- R378, R386. A packet or segment that is dequeued and not complete: its flow and item, its wire size, its part, the frame it
is sent as, and where a ring segment is written. -/
structure Staged where
  flow : Nat
  counter : Nat
  wire : Nat
  part : Packet
  bytes : List Byte
  addr : Nat
deriving DecidableEq, Repr, Inhabited

/-- R377 to R386. A scheduled port: MAC0, MAC1 or HOST. -/
structure Port where
  /-- R386; reset K. Credit not allotted. -/
  free : Nat
  /-- R379; 64 bits; reset 0. Virtual time V. -/
  vtime : Nat
  /-- R378; reset none. The staged packet, and the one being sent. -/
  staged : Option Staged
  sending : Option Staged
  /-- R377; time; reset 0. Elapsed time at which the packet being sent on a MAC ends. -/
  doneAt : Nat
  /-- R388; 1 bit. Link up. -/
  up : Bool
deriving DecidableEq, Repr, Inhabited

/-- R352 to R355. A CSI-2 transmit port. -/
structure TxPort where
  /-- R355; 16 bits; reset 2,500. RATE in Mb/s. -/
  rate : Nat
  /-- R353; reset empty. Flows whose frames are due, in order. -/
  queue : List Nat
  /-- R353; reset none. Flow whose frame is being sent. -/
  busy : Option Nat
  /-- R354; time; reset 0. Elapsed time at which it ends. -/
  doneAt : Nat
deriving DecidableEq, Repr, Inhabited

/-- R400 to R402. One memory channel. -/
structure MemChan where
  /-- R400; reset none. Open row of each of 16 banks. -/
  rows : Vector (Option Nat) 16
  /-- R401; reset 0. Refresh debt. -/
  debt : Nat
  /-- R401; reset 4. tREFI multiplier in quarters. -/
  mult : Nat
deriving DecidableEq, Repr, Inhabited

/-- R412. An entry of the write buffer. -/
structure WbEntry where
  addr : Nat
  data : List Byte
deriving DecidableEq, Repr, Inhabited

/-- R392 to R421. A memory controller. -/
structure Dmc where
  /-- R582; 1 bit; reset 0. Fitted by the board record. -/
  fitted : Bool
  /-- R537; 1 bit; reset 0. Trained; initialised. -/
  trained : Bool
  ready : Bool
  /-- R396; reset 0. Order 0 to 2, row bits, data rate and density. -/
  order : Nat
  rowBits : Nat
  rate : Nat
  density : Nat
  /-- R416; bytes; reset 0. Installed size. -/
  size : Nat
  /-- R408; at most 8; reset empty. Sealed regions (base, length). -/
  sealed_ : List (Nat × Nat)
  /-- R394; bytes; reset empty. Memory contents by controller address, in canonical form; unlisted bytes read 0 (choice 13). -/
  memory : List Host.Cell
  /-- R405; reset empty. Poisoned sectors, by sector address. -/
  poison : List Nat
  /-- R409; reset empty. Tags of sealed lines, by line address. -/
  tags : List (Nat × List Byte)
  /-- R412; at most 64; reset empty. Write buffer, oldest first. -/
  wbuf : List WbEntry
  chans : Vector MemChan 8
  /-- R413; 1 bit; reset 0. In self-refresh; entering; leaving. -/
  selfRef : Bool
  entering : Bool
  leaving : Bool
  /-- R421; 32 bits each; reset 0. Corrected and uncorrectable errors, tag failures, forced refreshes. -/
  ce : Nat
  ue : Nat
  tagFail : Nat
  forced : Nat
  /-- R421; 64, 8 and 8 bits; reset 0. LAST_ADDR, LAST_KIND, LAST_MASTER. -/
  lastAddr : Nat
  lastKind : Nat
  lastMaster : Nat
  /-- R421; 16 bits; reset 0. RT_WAIT_MAX. -/
  maxWait : Nat
  /-- R421; 4 bits; reset 0. DEBT_MAX. -/
  debtMax : Nat
  /-- R407; reset 0. Sectors the patrol scrub has read. -/
  scrubbed : Nat
  /-- R419; bytes; reset 0. POOL; HELD and BOOKED are the pages of the booked buffers. -/
  pool : Nat
deriving DecidableEq, Repr, Inhabited

/-- R426. State of a key-tree slot. -/
inductive NodeState where
  | free | valid | orphaned | absent
deriving DecidableEq, Repr, Inhabited

/-- R426. A slot of the key tree. Its generation, label and imported copy are kept in sealed flash; its key cell is not. -/
structure Node where
  /-- R426; reset from flash (FREE). -/
  state : NodeState
  /-- R429; 32 bits; reset from flash (0). -/
  gen : Nat
  /-- R435; 32 bits; reset from flash (0). The parent's generation at derivation. -/
  parentGen : Nat
  /-- R427; at most 64 bytes; reset from flash (empty). -/
  label : List Byte
  /-- R434; 256 bits; reset 0. The key cell: the key XORed with the mask. -/
  cell : List Byte
  /-- R432; 256 bits; reset from flash (empty). The copy of an imported key in sealed flash. -/
  copy : List Byte
  /-- R451; 32 bits; reset from flash (0). START of a CLIENT slot. -/
  start : Nat
deriving DecidableEq, Repr, Inhabited

/-- R443, R446. State of the TRNG. -/
inductive TrngState where
  | restarting | healthy | latched
deriving DecidableEq, Repr, Inhabited

/-- R423 to R451. Tarn. -/
structure Tarn where
  /-- R423; 64 x 255 bits; reset power-up content. The PUF bits as read at reset release. -/
  puf : List (BitVec 255)
  /-- R426; 512 slots. -/
  nodes : Vector Node 512
  /-- R429; 32 bits; reset from flash (0). -/
  gctr : Nat
  /-- R435, R471; reset empty. Generations that pending invalidations have recorded, by slot. -/
  reserved : List (Nat × Nat)
  /-- R450; 64 bits; reset from flash (0). -/
  bootEpoch : Nat
  /-- R443; reset restarting. -/
  trng : TrngState
  /-- R446; count; reset 0. Health failures since full reset. -/
  fails : Nat
  /-- R444; bytes; reset empty. Released output not yet taken, oldest byte first. -/
  pool : List Byte
  /-- R438, R452; 1 bit; reset 0. Tampered since full reset. -/
  tampered : Bool
  /-- R438; 1 bit; kept in the always-on domain. TAMPER_SEEN. -/
  tamperSeen : Bool
  /-- R439, R475; 64 bits; kept with TAMPER_SEEN. BOOT_EPOCH of the tampered boot. -/
  tamperEpoch : Nat
  /-- R434; 256 bits; reset 0. Key-cell mask. -/
  mask : List Byte
  /-- R434; 64 bits; reset 0. Key of the cell-address permutation. -/
  perm : List Byte
  /-- R438; 256 bits; reset 0. Firmware's copy of ID_HASH. -/
  idHash : List Byte
  /-- R438; 512 bits; reset 0. Firmware's copies of the public keys of ID, XPORT and CHAN n, with their generations. -/
  pubId : List Byte
  pubXport : List Byte
  pubChan : Vector (List Byte) 32
  /-- R433; 1 bit; reset from flash (0). An imported EVID key is held. -/
  evid : Bool
deriving DecidableEq, Repr, Inhabited

/-- R455 to R477. Roles, the update counter and the audit log. -/
structure Roles where
  /-- R455; 4, 8 and 16 slots of 512 bits; reset from flash (empty). Credentials. -/
  maker : Vector (Option (List Byte)) 4
  installer : Vector (Option (List Byte)) 8
  operator : Vector (Option (List Byte)) 16
  /-- R188, R465; 8 slots of 512 bits; reset from flash (empty). Head issuer keys. -/
  issuers : Vector (Option (List Byte)) 8
  /-- R467; 40 bits; reset from flash (0). Lower part of the stored counter. -/
  counterLow : Nat
  /-- R469; 2,080 bytes; reset none. Candidate helper record held. -/
  candidate : Option (List Byte)
  /-- R474; at most 4,096 records of 64 bytes; reset from flash (empty). The ring, oldest first. -/
  audit : List (List Byte)
  /-- R474; 32 bits; reset from flash (0). SEQ of the next record. -/
  nextSeq : Nat
  /-- R471, R474; 1 bit; reset 0. AUDIT_LOST. -/
  auditLost : Bool
deriving DecidableEq, Repr, Inhabited

/-- R501. A routine of an image. -/
structure Routine where
  entry : Nat
  hooks : Nat
  depth : Nat
  fixc : Nat
  pers : Nat
  gapMax : Nat
  /-- R499; 1 bit; reset 0. Disabled by a fault. -/
  disabled : Bool
deriving DecidableEq, Repr, Inhabited

/-- R479, R491, R500. A sequencer class (0 PIPE, 1 ENC) and its control store. -/
structure SeqClass where
  /-- R500; 32 bits; reset 0. Versions of the vendor and open images. -/
  vendorVer : Nat
  openVer : Nat
  /-- R505; reset 0. Patch level of each. -/
  vendorPatch : Nat
  openPatch : Nat
  /-- R491; sparse; reset empty. Control-store words, canonical. -/
  store : List (Nat × BitVec 160)
  /-- R491; words; reset 0. Words of the open image. -/
  openWords : Nat
  /-- R509; 1 bit each; reset 0. Vendor and open image loaded. -/
  vendorIn : Bool
  openIn : Bool
  /-- R501; reset empty. Routines of the open image. -/
  routines : List Routine
  /-- R499; reset empty. Routines to be disabled at the next boundary. -/
  failing : List Nat
deriving DecidableEq, Repr, Inhabited

/-- R509. One sequencer. -/
structure Seq where
  /-- R499; 1 bit; reset 0. Halted. -/
  halted : Bool
  /-- R498, R499; counters; reset 0. -/
  watchdogs : Nat
  faults : Nat
  /-- R509; reset 0. Address and reason of the last fault. -/
  lastPc : Nat
  lastReason : Nat
  /-- R509; reset 0. Longest run of cycles without a poll. -/
  maxGap : Nat
  /-- R491, R495; counters; reset 0. -/
  storeCe : Nat
  hookOver : Nat
deriving DecidableEq, Repr, Inhabited

/-- R511 to R523. A power domain. -/
structure Domain where
  /-- R521; 1 bit; reset 1. Powered. -/
  on : Bool
  /-- R523; 1 bit; reset 0. Its rail and stores are being brought up; the ramp failed. -/
  ramping : Bool
  failed : Bool
  /-- R518; 2 bits; reset 0. Frequency level in force. -/
  level : Nat
  /-- R520; 2 bits; reset none. A lower frequency that waits for the next boundary. -/
  levelNext : Option Nat
  /-- R517; mV; reset 0, 650 and 650 on AVS domains, 750 on AON, 1,800 on IO (choice 4). VREQ, floor and voltage set. -/
  vreq : Nat
  floor : Nat
  vset : Nat
  /-- R517; 1 bit; reset 0. FLOOR_SAT. -/
  sat : Bool
  /-- R545; 1 bit; reset 0. Its clocks are stopped by a lost rail. -/
  stopped : Bool
  /-- R541; 32 bits; reset 0. CLAMPS. -/
  clamps : Nat
  /-- R541; 64 bits; reset 0. UPTIME. -/
  upAt : Nat
deriving DecidableEq, Repr, Inhabited

/-- R513 to R515. A device-raised rail. -/
structure Rail where
  /-- R514; 1 bit; reset 0. POWER_GOOD seen. -/
  good : Bool
  /-- R545; count; reset 0. Consecutive missed polls. -/
  missed : Nat
  /-- R545; 1 bit; reset 0. Lost. -/
  lost : Bool
  /-- R541; mA, 16 bits; reset 0. Last READ_IOUT. -/
  current : Nat
  /-- R541; 16 bits; reset 0. Last STATUS_WORD. -/
  status : Nat
deriving DecidableEq, Repr, Inhabited

/-- R525, R548 to R551. Power and control. -/
structure Power where
  domains : Vector Domain 7
  rails : Vector Rail 6
  /-- R525; 1/16 degree, 16 bits; reset 0 (choice 4). Highest junction reading. -/
  tj : Int
  /-- R541; 1/16 degree, 16 bits; reset none (reads 0). The maximum since full reset. -/
  tjMax : Option Int
  /-- R525; count; reset 0. Consecutive samples above the trip limit. -/
  hot : Nat
  /-- R551; count; reset 0. Consecutive readings at or below 120 degrees. -/
  cool : Nat
  /-- R525, R530; 1 bit; kept in AON. Trip latch. -/
  tripped : Bool
  /-- R525; 1 bit; reset 0. Warning and critical conditions. -/
  warn : Bool
  crit : Bool
  /-- R550; reset none. Reasons for which FAULT_N is held. -/
  faultN : List Nat
  /-- R548; 1 bit; reset 0. The control watchdog fired. -/
  watchdog : Bool
deriving DecidableEq, Repr, Inhabited

/-- R78, R537. SYS_FW_STATE.STATE. -/
inductive FwState where
  | boot | ready | failed
deriving DecidableEq, Repr, Inhabited

/-- R535, R396. The board record: its DMC_MASK, ORDER, DENSITY and RATE, the PMBus page of each device-raised rail, the delay hints that
training takes, and whether it verifies. -/
structure BoardRecord where
  mask : Nat
  order : Nat
  density : Nat
  rate : Nat
  pages : Vector Nat 6
  train : List Byte
  good : Bool
deriving DecidableEq, Repr, Inhabited

/-- R124. What SYS_CONFIG_SAVE writes. -/
structure SavedConfig where
  gen : Nat
  period : Nat
  channels : List ChanCfg
  flows : List FlowCfg
  groups : Vector Word 8
  fgroups : Vector (BitVec 256) 16
  ports : Vector RxPort 16
  tx : Vector TxPort 4
  enabled : List Nat
  active : List Nat
  prio1 : Nat
  logSync : Int
  ppsEn : Bool
  ppsEdge : Bool
deriving DecidableEq, Repr, Inhabited

/-- R500, R501. A store image: version, words from its base on, routines, and whether its signature verifies. -/
structure Image where
  version : Nat
  words : List (BitVec 160)
  routines : List Routine
  good : Bool
deriving DecidableEq, Repr, Inhabited

/-- R504. A patch: the version it is for, its level, its words by address, and a replacement routine table. -/
structure Patch where
  baseVer : Nat
  level : Nat
  words : List (Nat × BitVec 160)
  routines : List Routine
  good : Bool
deriving DecidableEq, Repr, Inhabited

/-- R533. What a program of the boot flash will do once complete. -/
inductive FlashWork where
  | config (c : SavedConfig)
  | image (cls : Nat) (vendor : Bool) (im : Image)
  | patch (cls : Nat) (vendor : Bool) (p : Patch)
  | credential
  | pairing (ch : Nat)
deriving DecidableEq, Repr, Inhabited

/-- R533. A program of the boot flash, and the request in execution that waits for it. -/
structure FlashJob where
  work : FlashWork
  waiter : Option (Nat × BitVec 16)
deriving DecidableEq, Repr, Inhabited

/-- R532 to R538. Boot, straps and the boot flash. -/
structure Boot where
  /-- R78; 4 bits; reset BOOT. -/
  fw : FwState
  /-- R540; 8 bits; reset 0. -/
  bootErr : Nat
  /-- R78; cause; reset POWER_ON. 0 power-on, 1 RESET_N, 2 PERST, 3 SYS_RESET. -/
  cause : Nat
  /-- R536; reset strap. -/
  straps : Straps
  /-- R537; reset 0. Released from reset; rails up; trained; initialised. -/
  released : Bool
  railsUp : Nat
  trained : Bool
  inited : Bool
  /-- R529; 1 bit; reset 1. Held in reset. -/
  inReset : Bool
  /-- R546; 1 bit; reset 0. Firmware is degraded. -/
  degraded : Bool
  /-- R120; 32 bits; reset from flash. Firmware version. -/
  fwVer : Nat
  /-- R534; flash; reset from flash. Active bank, pending and tried. -/
  bank : Nat
  pendingBank : Option Nat
  tried : Bool
  banks : Vector (List Byte) 2
  /-- R534; flash; reset bank A verifies (choice 15). Whether each bank's image verifies, and the bank that was booted. -/
  bankGood : Vector Bool 2
  running : Nat
  /-- R535; flash; reset a record of both controllers (choice 15). -/
  board : Option BoardRecord
  /-- R423; flash; reset from flash. Helper record. -/
  helper : Option (List Byte)
  /-- R469; 1 bit; reset 0. The helper area was not erased at reset release: the device is enrolled. -/
  enrolled : Bool
  /-- R124, R533; flash; reset from flash. Two generations, newest first. -/
  saved : List SavedConfig
  /-- R503; flash; reset from flash (none). Persisted images by class and region, and persisted patches. -/
  images : List (Nat × Bool × Image)
  patches : List (Nat × Bool × Patch)
  /-- R414; reset empty. Programs under way, oldest first. -/
  queue : List FlashJob
  /-- R471; 1 bit; reset 0. The boot flash refuses programs (worn or write-protected). -/
  flashBad : Bool
  /-- R538; reset empty. Channels and flows of the saved run that start at boundary 0. -/
  autoChans : List Nat
  autoFlows : List Nat
deriving DecidableEq, Repr, Inhabited

/-- R61. An engine of the ledger: PIPE 0-3, ENC 0-3, ITP, DEC 0-1, DMC 0-1, SEAL, numbered as TIME_LEDGER_QUERY's bits. -/
abbrev Engine := Nat

/-- R62. What a job belongs to: an object of the ledger, in R579's order. -/
structure JobKey where
  /-- 0 PIPE frame, 1 raw frame DMC, 2 window DMC, 3 vision SEAL, 4 ENC, 5 ITP, 6 AU DMC, 7 AU SEAL, 8 DEC, 9 picture DMC. -/
  kind : Nat
  obj : Nat
  sub : Nat
deriving DecidableEq, Repr, Inhabited

/-- R64. A booking: its job, where it is placed, its cost in work units, the ticks it falls in, and the boundary at which
it is released (none while in force). -/
structure Booking where
  key : JobKey
  engine : Engine
  /-- R62, R520. Cost in hundredths of a work unit, and frets at the present frequency level. -/
  cost : Nat
  frets : Nat
  div : Nat
  phase : Nat
  /-- R64, R419. Boundary at which the change that booked it takes effect. -/
  from_ : Nat
  /-- The change has taken effect. -/
  held : Bool
  release : Option Nat
deriving DecidableEq, Repr, Inhabited

/-- R417, R419. The buffers that an object books in a pool. -/
structure PoolBooking where
  /-- The row of R417 with its object: kind 0 raw frames, 1 window, 2 reconstructions, 3 access units, 4 decode stream, 5 decode
  output, 6 feed buffer. -/
  key : JobKey
  /-- R416. The controller, that of the object's DMC job. -/
  dmc : Nat
  pages : Nat
  /-- R419. Boundary at which the pages are taken, whether they are, and when they go (none while in force). -/
  from_ : Nat
  held : Bool
  release : Option Nat
deriving DecidableEq, Repr, Inhabited

/-- R61 to R65. The ledger of one engine as metered. -/
structure Meter where
  /-- R65; 256 entries; reset empty. Metered frets of the last ticks, newest first. -/
  history : List Nat
  /-- Frets metered in this tick. -/
  now : Nat
  /-- R65; 16 bits; reset 0. Overruns. -/
  overruns : Nat
deriving DecidableEq, Repr, Inhabited

end Sys2Proof.Machine
end

