-- ==== Sys2Proof/Machine/State.lean ====
section
/-!
DEFINITION. The state of the block, the reasons a step can stop, and the state right after reset. The units are in UnitsA,
UnitsB and UnitsC; a field that no line below sets at reset is 0, empty or none, as its comment there says.
-/
namespace Sys2Proof.Machine

/-- The faults of a step. -/
inductive Fault where
  /-- Raised by CHUNK_SERVICE_DONE and PATROL_SCRUB for a controller address outside the installed array: the spec
  gives the controllers no memory there (R394, R398). Safe: the model stops. -/
  | noSuchAddress (dmc addr : Nat)
  /-- Raised by the clock when device time would pass 2^64 - 1, where no behaviour is defined (02, Corners). Safe. -/
  | endOfTime
deriving DecidableEq, Repr, Inhabited

/-- The refusals of a step. -/
inductive Refusal where
  /-- Raised by an arm of exec whose command has no meaning yet. Safe. -/
  | notModelled (mnemonic : String)
  /-- Raised by an event whose operand names a unit no part of the family has, such as receive port 16. Safe: no
  hardware can bring that event. -/
  | noSuchUnit (name : String) (number : Nat)
deriving DecidableEq, Repr, Inhabited

/-- R305. The stored ego update: speed, yaw rate and pitch rate, and the device time of measurement. -/
structure Ego where
  speed : Int
  yaw : Int
  pitch : Int
  time : Nat
  /-- R306. Boundaries passed when it was accepted. -/
  at_ : Nat
deriving DecidableEq, Repr, Inhabited

/-- The state of the block. -/
structure State where
  /-- The commands that wait, first in first out; reset empty. -/
  pending : List Instr
  fuses : Fuses
  boot : Boot
  time : TimeBase
  /-- R71. 16 PCIe functions. -/
  fns : Vector Fn 16
  /-- R71; 4 bits; reset 0. -/
  numVfs : Nat
  /-- R71; 1 bit; reset 0. -/
  vfEnable : Bool
  irq : Irq
  /-- R86, R91; reset empty. Requests in execution, in the order read. -/
  exec : List ExecEntry
  /-- R86; reset 15, so that function 0 is first. The function last served. -/
  lastServed : Nat
  /-- R121; reset none. Elapsed time at which the full reset of a SYS_RESET begins; no request is read until then. -/
  resetAt : Option Nat
  /-- R114; 8 x 32 bits; reset 0. Channel groups. -/
  groups : Vector Word 8
  /-- R114; 16 x 256 bits; reset 0. Flow groups. -/
  fgroups : Vector (BitVec 256) 16
  /-- R155. 16 receive ports. -/
  rx : Vector RxPort 16
  chans : Vector Chan 32
  /-- R186; 8 control buses; reset empty. Transfers waiting, the one under way first. -/
  buses : Vector (List BusXfer) 8
  /-- R305; reset none. Stored ego update. -/
  ego : Option Ego
  /-- R306; reset none. The update taken for the encode tick, where it is fresh. -/
  egoTaken : Option Ego
  /-- R336. 32 decode streams. -/
  dec : Vector DecStream 32
  flowCfg : Vector FlowCfg 256
  flows : Vector FlowRun 256
  /-- R377. MAC0, MAC1 and HOST. -/
  ports : Vector Port 3
  /-- R377; reset 4 lanes, 160 (16.0 GT/s) (choice 4). The PCIe link. -/
  lanes : Nat
  gts10 : Nat
  /-- R376; 128, 256 or 512; reset 128 (choice 7). Negotiated max payload size. -/
  mps : Nat
  tx : Vector TxPort 4
  /-- R369; count; reset 0. Frames a MAC received and discarded. -/
  macOther : Vector Nat 2
  dmc : Vector Dmc 2
  tarn : Tarn
  roles : Roles
  cls : Vector SeqClass 2
  seqs : Vector Seq 8
  power : Power
  /-- R61, R64; reset empty. The fret ledger. -/
  bookings : List Booking
  /-- R417, R419; reset empty. The buffers booked in the pools. -/
  buffers : List PoolBooking
  /-- R65. Metering of the 14 engines in TIME_LEDGER_QUERY's order. -/
  meters : Vector Meter 14
  /-- The model's record of what left the block, newest first (choice 5); reset empty. -/
  out : List Output
  /-- The model's own counter of free values taken (choice 6); reset 0 (DESIGN CHOICE). -/
  fresh : Nat
deriving DecidableEq, Repr, Inhabited

/-- R141, R152. A source after full reset. -/
def Source.reset : Source := { (default : Source) with route := 0, prio := 15, en := false }

/-- R80, R149. A function after reset; MSI-X comes up masked (choice 7). -/
def Fn.reset : Fn := { (default : Fn) with vecMask := Vector.replicate 2 true, rspIe := false }

/-- R96, R181, R208, R249, R260, R270, R321. A channel after full reset. -/
def Chan.reset : Chan :=
  { (default : Chan) with
    cfg := { (default : ChanCfg) with
      allowUnpaired := true
      pipe := { (default : Pipe) with gainR := 4096, gainB := 4096 }
      streams := Vector.replicate 2 { (default : StreamCfg) with qpMin := 10, qpMax := 51, iDelta := -3 } }
    window := Vector.ofFn fun i => if i.val = 2 then 0xFFFF0003#32 else 0
    head := { (default : Head) with state := .unverified }
    cal := { (default : Cal) with enable := 0xF#4 } }

/-- R381, R362. A flow's configuration after full reset. -/
def FlowCfg.reset : FlowCfg := { (default : FlowCfg) with weight := 256, func := none, src := .none }

/-- R386. The credit K of scheduled port `p`. -/
def portCredit (p : Nat) : Nat := if p = 2 then 2097152 else 524288

/-- R386, R388. A scheduled port after full reset: all credit free; a MAC link is down until MAC_LINK_UP (choice 4). -/
def Port.reset (p : Nat) : Port := { (default : Port) with free := portCredit p, up := p = 2 }

/-- R511, R524. Domain `d` after full reset (choice 4). -/
def Domain.reset (d : Nat) : Domain :=
  { (default : Domain) with
    on := true, floor := if d = 0 ∨ d = 5 then 0 else 650, vset := if d = 0 then 750 else if d = 5 then 1800 else 650 }

/-- R38, R39, R44, R51, R566. The timebase after full reset. -/
def TimeBase.reset : TimeBase := { (default : TimeBase) with refclk := true, prio1 := 246, logSync := -3 }

/-- R78, R529, R535, R537. Boot right after reset, and the boot flash of a shipped device that is not enrolled (choice 15): a board
record for both controllers, bank A good, nothing else. -/
def Boot.reset : Boot :=
  { (default : Boot) with
    fw := .boot, inReset := true, board := some ⟨3, 0, 8, 7500, Vector.ofFn fun i => i.val, List.replicate 48 0, true⟩, bankGood := Vector.ofFn fun i => i.val = 0 }

/-- The machine right after reset: SYS_FW_STATE is BOOT and bring-up is still to run (R537, choice 10). The part is the
CM3200 (choice 10). -/
def State.reset : State :=
  { (default : State) with
    pending := []
    fuses := { (default : Fuses) with part := .cm3200 }
    boot := Boot.reset
    time := TimeBase.reset
    fns := Vector.replicate 16 Fn.reset
    irq := { (default : Irq) with
      src := Vector.replicate 512 Source.reset
      fwSrc := Vector.replicate 512 Source.reset }
    lastServed := 15
    chans := Vector.replicate 32 Chan.reset
    flowCfg := Vector.replicate 256 FlowCfg.reset
    ports := Vector.ofFn fun i => Port.reset i.val
    lanes := 4
    gts10 := 160
    mps := 128
    tx := Vector.replicate 4 { (default : TxPort) with rate := 2500 }
    dmc := Vector.replicate 2 { (default : Dmc) with
      chans := Vector.replicate 8 { (default : MemChan) with mult := 4 } }
    power := { (default : Power) with domains := Vector.ofFn fun i => Domain.reset i.val }
    out := []
    fresh := 0 }

end Sys2Proof.Machine
end

