-- ==== Sys2Proof/Machine/Ops.lean ====
section
/-!
DEFINITION. The named operations over tables, bytes, units and outputs that every meaning uses.
-/
namespace Sys2Proof.Machine

/-! ### Tables -/

/-- Entry `i` of a table; beyond its end the default. -/
def tget {α : Type} {n : Nat} [Inhabited α] (v : Vector α n) (i : Nat) : α := v[i]?.getD default

/-- The table with entry `i` set; beyond its end unchanged. -/
def tset {α : Type} {n : Nat} (v : Vector α n) (i : Nat) (a : α) : Vector α n := v.setIfInBounds i a

/-- The table with entry `i` changed by `g`. -/
def tmod {α : Type} {n : Nat} [Inhabited α] (v : Vector α n) (i : Nat) (g : α → α) : Vector α n := tset v i (g (tget v i))

/-! ### Bytes (R11: little-endian) -/

/-- `n` bytes of a number, least significant first. -/
def le : Nat → Nat → List Byte
  | 0, _ => []
  | n + 1, v => BitVec.ofNat 8 v :: le n (v / 256)

/-- The number a byte list spells, least significant first. -/
def unle : List Byte → Nat
  | [] => 0
  | b :: bs => b.toNat + 256 * unle bs

/-- `n` bytes of a signed number, two's complement. -/
def leInt (n : Nat) (v : Int) : List Byte := le n (v % (2 ^ (8 * n) : Nat)).toNat

/-- A number read as two's complement of `bits` bits. -/
def sext (bits v : Nat) : Int := if v % 2 ^ bits < 2 ^ (bits - 1) then (v % 2 ^ bits : Nat) else (v % 2 ^ bits : Nat) - (2 ^ bits : Nat)

/-- `n` bytes of a list from an offset, with zeros beyond its end. -/
def slice (bs : List Byte) (off n : Nat) : List Byte :=
  let t := (bs.drop off).take n
  t ++ List.replicate (n - t.length) 0#8

/-- A little-endian field of a byte list. -/
def field (bs : List Byte) (off n : Nat) : Nat := unle (slice bs off n)

/-- A signed little-endian field. -/
def sfield (bs : List Byte) (off n : Nat) : Int := sext (8 * n) (field bs off n)

/-- Exactly `n` bytes: cut, or filled with zeros. -/
def fit (n : Nat) (bs : List Byte) : List Byte := slice bs 0 n

/-- Bit `i` of a number. -/
def bitOf (v i : Nat) : Bool := v / 2 ^ i % 2 == 1

/-- Bits [hi:lo] of a number. -/
def bitsOf (v hi lo : Nat) : Nat := v / 2 ^ lo % 2 ^ (hi + 1 - lo)

/-- 1 for true. -/
def b2n (b : Bool) : Nat := if b then 1 else 0

/-- Count saturating at `m`. -/
def satAdd (m a b : Nat) : Nat := min m (a + b)

/-- The quotient rounded up. -/
def cdiv (a b : Nat) : Nat := (a + b - 1) / b

/-- A quotient as a whole number: itself where it is whole, else one of its two neighbours, which the spec leaves open (choice 6). -/
def roundTo (place : Nat) (n : Int) (d : Nat) : Int :=
  n / (d : Int) + if n % (d : Int) = 0 then 0 else if Config.roundUp place n d then 1 else 0

/-- A value held to a range. -/
def clampI (lo hi v : Int) : Int := max lo (min hi v)

def clampN (lo hi v : Nat) : Nat := max lo (min hi v)

/-- The numbers below `n` for which `p` holds, ascending. -/
def idx (n : Nat) (p : Nat → Bool) : List Nat := (List.range n).filter p

/-- Sum of a function over a list. -/
def sumOf {α : Type} (l : List α) (g : α → Nat) : Nat := l.foldl (fun a x => a + g x) 0

/-- Big-endian bytes of a number (network headers). -/
def be (n v : Nat) : List Byte := (le n v).reverse

def unbe (bs : List Byte) : Nat := unle bs.reverse

/-! ### Units -/

def State.fn (s : State) (f : Nat) : Fn := tget s.fns f
def State.chan (s : State) (c : Nat) : Chan := tget s.chans c
def State.flow (s : State) (m : Nat) : FlowRun := tget s.flows m
def State.fcfg (s : State) (m : Nat) : FlowCfg := tget s.flowCfg m
def State.decS (s : State) (h : Nat) : DecStream := tget s.dec h
def State.dmcN (s : State) (d : Nat) : Dmc := tget s.dmc d
def State.rxPort (s : State) (p : Nat) : RxPort := tget s.rx p

def modFn (f : Nat) (g : Fn → Fn) (s : State) : State := { s with fns := tmod s.fns f g }
def modChan (c : Nat) (g : Chan → Chan) (s : State) : State := { s with chans := tmod s.chans c g }
def modCfg (c : Nat) (g : ChanCfg → ChanCfg) (s : State) : State := modChan c (fun x => { x with cfg := g x.cfg }) s
def modHead (c : Nat) (g : Head → Head) (s : State) : State := modChan c (fun x => { x with head := g x.head }) s
def modCal (c : Nat) (g : Cal → Cal) (s : State) : State := modChan c (fun x => { x with cal := g x.cal }) s
def modEst (c p : Nat) (g : Estimator → Estimator) (s : State) : State := modCal c (fun x => { x with est := tmod x.est p g }) s
def modRun (c st : Nat) (g : StreamRun → StreamRun) (s : State) : State := modChan c (fun x => { x with runs := tmod x.runs st g }) s
def modStream (c st : Nat) (g : StreamCfg → StreamCfg) (s : State) : State := modCfg c (fun x => { x with streams := tmod x.streams st g }) s
def modRx (p : Nat) (g : RxPort → RxPort) (s : State) : State := { s with rx := tmod s.rx p g }
def modFlow (m : Nat) (g : FlowRun → FlowRun) (s : State) : State := { s with flows := tmod s.flows m g }
def modFcfg (m : Nat) (g : FlowCfg → FlowCfg) (s : State) : State := { s with flowCfg := tmod s.flowCfg m g }
def modDec (h : Nat) (g : DecStream → DecStream) (s : State) : State := { s with dec := tmod s.dec h g }
def modDmc (d : Nat) (g : Dmc → Dmc) (s : State) : State := { s with dmc := tmod s.dmc d g }
def modPort (p : Nat) (g : Port → Port) (s : State) : State := { s with ports := tmod s.ports p g }
def modTx (p : Nat) (g : TxPort → TxPort) (s : State) : State := { s with tx := tmod s.tx p g }
def modNode (n : Nat) (g : Node → Node) (s : State) : State :=
  { s with tarn := { s.tarn with nodes := tmod s.tarn.nodes n g } }
def modSeq (q : Nat) (g : Seq → Seq) (s : State) : State := { s with seqs := tmod s.seqs q g }
def modCls (c : Nat) (g : SeqClass → SeqClass) (s : State) : State := { s with cls := tmod s.cls c g }
def modDomain (d : Nat) (g : Domain → Domain) (s : State) : State :=
  { s with power := { s.power with domains := tmod s.power.domains d g } }
def modRail (r : Nat) (g : Rail → Rail) (s : State) : State :=
  { s with power := { s.power with rails := tmod s.power.rails r g } }
def modTime (g : TimeBase → TimeBase) (s : State) : State := { s with time := g s.time }
def modBoot (g : Boot → Boot) (s : State) : State := { s with boot := g s.boot }
def modTarn (g : Tarn → Tarn) (s : State) : State := { s with tarn := g s.tarn }
def modRoles (g : Roles → Roles) (s : State) : State := { s with roles := g s.roles }
def modPower (g : Power → Power) (s : State) : State := { s with power := g s.power }

/-- Record an output (choice 5). -/
def emit (o : Output) (s : State) : State := { s with out := o :: s.out }

/-- R550. Why FAULT_N is held: 0 thermal critical, 1 trip, 2 rail lost, 3 floor saturated, 4 firmware degraded, 5 sequencer
halted, 6 control watchdog, 7 bring-up failed. -/
def assertFaultN (why : Nat) (s : State) : State :=
  let s1 := { s with power := { s.power with faultN := if s.power.faultN.contains why then s.power.faultN else why :: s.power.faultN } }
  if s.power.faultN.isEmpty then emit (.faultN true) s1 else s1

/-- R551. One of the reasons ends. -/
def releaseFaultN (why : Nat) (s : State) : State :=
  let s1 := { s with power := { s.power with faultN := s.power.faultN.filter (· != why) } }
  if !s.power.faultN.isEmpty && s1.power.faultN.isEmpty then emit (.faultN false) s1 else s1

/-- Apply `g` for each member in order. -/
def forEach {α : Type} (l : List α) (g : α → State → State) (s : State) : State := l.foldl (fun t a => g a t) s

/-- Apply `g` where `b` holds. -/
def when (b : Bool) (g : State → State) (s : State) : State := if b then g s else s

/-- Take a fresh number for an open value. -/
def nextFresh (s : State) : Nat × State := (s.fresh, { s with fresh := s.fresh + 1 })

/-! ### What the part has (R1, R2, R5) -/

def State.nChan (s : State) : Nat := if s.fuses.part = .cm3116 then 16 else 32
def State.nFlow (s : State) : Nat := if s.fuses.part = .cm3116 then 128 else 256
def State.nEnc (s : State) : Nat := if s.fuses.part = .cm3116 then 2 else 4
def State.nDec (s : State) : Nat := if s.fuses.part = .cm3200 then 2 else 0
def State.nTx (s : State) : Nat := if s.fuses.part = .cm3200 then 4 else 0
def State.nDmc (s : State) : Nat := if s.fuses.part = .cm3116 then 1 else 2
def State.hasVision (s : State) : Bool := s.fuses.part != .cm3116

/-- R71. Function `f` is present. -/
def State.fnPresent (s : State) (f : Nat) : Bool := f == 0 || (f < 16 && s.vfEnable && f ≤ s.numVfs)

/-- R83. SYS_FW_STATE.STATE is READY. -/
def State.ready (s : State) : Bool := s.boot.fw == .ready

/-- R63, R161. The channels enabled. -/
def State.enabledChans (s : State) : List Nat := idx s.nChan fun c => (s.chan c).enabled

/-- R40, R57. No channel is enabled, no flow active, no decode stream open. -/
def State.quiesced (s : State) : Bool :=
  (idx 32 fun c => (s.chan c).enabled).isEmpty && (idx 256 fun m => (s.flow m).active).isEmpty &&
    (idx 32 fun h => (s.decS h).isOpen).isEmpty

/-! ### Time (R38, R55) -/

/-- R55, R57. Device time of boundary `k` of the present numbering and period. -/
def TimeBase.boundary (t : TimeBase) (k : Nat) : Nat := t.refT + (k - t.refK) * t.period

/-- R38, R566, choice 2. Carry device time forward by `n` ns of device time; without REFCLK_IN it stands. -/
def TimeBase.advance (n : Nat) (t : TimeBase) : TimeBase :=
  if t.refclk then { t with dev := t.dev + n, elapsed := t.elapsed + n } else t

/-- Choice 2. A timed event that lies ahead carries time forward to its instant. -/
def advanceTo (at_ : Nat) (s : State) : State := modTime (fun t => t.advance (at_ - t.dev)) s

/-- The same for an instant given in elapsed time. -/
def advanceElapsed (at_ : Nat) (s : State) : State := modTime (fun t => t.advance (at_ - t.elapsed)) s

/-- R56, R40. The first whole millisecond of device time at least 1 ms after `t`. -/
def originAfter (t : Nat) : Nat := cdiv (t + 1000000) 1000000 * 1000000

/-- R56, R40. Start the numbering of the master tick at boundary 0. -/
def startTick (s : State) : State :=
  modTime (fun t => { t with tickRun := true, refK := 0, refT := originAfter t.dev, passed := 0 }) s

/-- R103. TICK of a response that is no next-tick success: the last boundary passed, or all ones. -/
def State.tickField (s : State) : Long :=
  if s.time.tickRun && 0 < s.time.passed then BitVec.ofNat 64 (s.time.passed - 1) else BitVec.allOnes 64

/-- The last boundary passed; 0 before the first. -/
def State.lastBoundary (s : State) : Nat := s.time.passed - 1

end Sys2Proof.Machine
end

