-- ==== Sys2Proof/Machine/Flags.lean ====
section
/-!
DEFINITION. The interrupt flags: the kinds of the sources, raising them, the running priority of a target, SIGNAL and the
MSI-X messages (R130 to R152).
-/
namespace Sys2Proof.Machine

/-- R132, R133. The sources of 192 to 255 that count edges. -/
def countedNamed : List Nat := [192, 194, 198, 203, 204, 208, 212, 216, 217, 218, 219, 220, 240, 241]

/-- R132, R133. The level sources of 192 to 255. -/
def levelNamed : List Nat :=
  [193, 195, 196, 197, 200, 201, 202, 209, 210, 211, 224, 225, 226, 227, 228, 229, 230, 231, 232, 233, 234, 235, 236, 237, 238, 239]

/-- R132, R133. Kind of a source: some true level, some false counted edge, none reserved. -/
def sourceKind (n : Nat) : Option Bool :=
  if n < 32 then some false
  else if n < 96 then some true
  else if n < 128 then some false
  else if n < 192 then some true
  else if n < 256 then
    (if countedNamed.contains n then some false else if levelNamed.contains n then some true else none)
  else if n < 512 then some false
  else none

/-- R6, R134. The source is not reserved and serves a unit the part has. -/
def sourcePresent (s : State) (n : Nat) : Bool :=
  (sourceKind n).isSome &&
    (if n < 160 then n % 32 < s.nChan
     else if n < 192 then 0 < s.nDec
     else if n = 194 || n = 195 then s.nDmc == 2
     else if n = 230 || n = 231 || n = 238 || n = 239 then s.nEnc == 4
     else if 256 ≤ n then n - 256 < s.nFlow
     else true)

/-- R135. A source is pending on a side: its counter is not 0, or its line is asserted and it is not in service. -/
def Source.pending (lvl : Bool) (x : Source) : Bool := if lvl then x.cause != 0 && !x.insvc else x.count != 0

/-- The source is pending at its routed host target. -/
def srcPending (s : State) (n : Nat) : Bool := (tget s.irq.src n).pending ((sourceKind n).getD false)

/-- R146, R141. Running priority: the top entry's, or 16. -/
def Target.running (t : Target) : Nat :=
  match t.stack with
  | [] => 16
  | (_, p) :: _ => p

def State.target (s : State) (t : Nat) : Target := tget s.irq.tgt (t - 1)

/-- R143. The source is eligible at host target `t`. -/
def eligible (s : State) (t n : Nat) : Bool :=
  let x := tget s.irq.src n
  x.route == t && x.en && srcPending s n && x.prio < (s.target t).running

/-- R144. The eligible source of lowest priority number, then of lowest source number. -/
def bestSource (s : State) (t : Nat) : Option Nat :=
  (idx 512 (eligible s t)).foldl
    (fun b n => match b with
      | none => some n
      | some m => if (tget s.irq.src n).prio < (tget s.irq.src m).prio then some n else some m) none

def modSrc (n : Nat) (g : Source → Source) (s : State) : State := { s with irq := { s.irq with src := tmod s.irq.src n g } }
def modFwSrc (n : Nat) (g : Source → Source) (s : State) : State := { s with irq := { s.irq with fwSrc := tmod s.irq.fwSrc n g } }
def modTgt (t : Nat) (g : Target → Target) (s : State) : State := { s with irq := { s.irq with tgt := tmod s.irq.tgt (t - 1) g } }

/-- R149. Send a message of vector `v` of function `f`, or hold it while the vector or the function is masked. -/
def sendMsix (f v : Nat) (s : State) : State :=
  if (s.fn f).fnMask || tget (s.fn f).vecMask v then modFn f (fun x => { x with held := tset x.held v true }) s
  else emit (.msix f v) s

/-- R143, R149. SIGNAL of target `t` as it now stands; a change from 0 to 1 while ENABLE is 1 sends a message. -/
def resignal (t : Nat) (s : State) : State :=
  if t = 0 then s
  else
    let new := (bestSource s t).isSome
    let old := (s.target t).signal
    let s1 := modTgt t (fun x => { x with signal := new }) s
    if new && !old && (s.target t).enable then sendMsix (t - 1) 0 s1 else s1

/-- R135. One event at a source: a count, or cause bit `bit`. -/
def Source.event (lvl : Bool) (bit : Nat) (x : Source) : Source :=
  if lvl then { x with cause := x.cause ||| BitVec.ofNat 32 (2 ^ bit) }
  else if x.count < 255 then { x with count := x.count + 1 }
  else { x with sat := true }

/-- R131, R135, R137. An event of source `n` (cause bit `bit` of a level source): firmware's side always takes it; the
host side where the source is routed to the target of a present function. -/
def raise (n bit : Nat) (s : State) : State :=
  if sourcePresent s n then
    let lvl := (sourceKind n).getD false
    let s1 := modFwSrc n (Source.event lvl bit) s
    let r := (tget s.irq.src n).route
    if 0 < r && s.fnPresent (r - 1) then resignal r (modSrc n (Source.event lvl bit) s1) else s1
  else s

/-- R150, R151. The raised state of a source is cleared. -/
def Source.cleared (x : Source) : Source := { x with count := 0, sat := false, cause := 0, insvc := false }

/-- R150. Move a source to another host target (0 for none). -/
def reroute (n r : Nat) (s : State) : State :=
  let old := (tget s.irq.src n).route
  if old = r then s
  else resignal r (resignal old (modSrc n (fun x => { x.cleared with route := r }) s))

/-- R139. Function `f` may read the configuration of source `n`: R142's STAT. -/
def srcStat (s : State) (f n : Nat) : Nat :=
  if !sourcePresent s n then 5
  else if f == 0 || (tget s.irq.src n).route == f + 1 then 0
  else 6

/-- R141. IRQ_SRC_CFG as function `f` reads it for the source it selected. -/
def srcCfgWord (s : State) (f n : Nat) : Word :=
  let st := srcStat s f n
  let x := tget s.irq.src n
  let lvl := (sourceKind n).getD false
  if st = 0 then
    BitVec.ofNat 32 (x.prio + 16 * b2n x.en + 32 * b2n (!lvl) + 64 * b2n (srcPending s n && x.route != 0) + 128 * b2n x.insvc
      + 256 * x.route + 32768 * b2n x.sat + 65536 * x.count)
  else BitVec.ofNat 32 (st * 16777216)

/-- R151. A function-level reset of function `f`, as its interrupt target sees it. -/
def resetTarget (f : Nat) (s : State) : State :=
  let s1 := forEach (idx 512 fun n => (tget s.irq.src n).route == f + 1) (fun n => modSrc n Source.cleared) s
  modTgt (f + 1) (fun _ => default) s1

/-! ### The per-channel sources (R132, R136) -/

def raiseFrame (c : Nat) : State → State := raise c 0
def raiseIngress (c bit : Nat) : State → State := raise (32 + c) bit
def raisePipe (c bit : Nat) : State → State := raise (64 + c) bit
def raiseEncDone (c : Nat) : State → State := raise (96 + c) 0
def raiseEnc (c bit : Nat) : State → State := raise (128 + c) bit
def raiseDec (h bit : Nat) : State → State := raise (160 + h) bit
def raiseFlow (m : Nat) : State → State := raise (256 + m) 0

end Sys2Proof.Machine
end

