-- ==== Sys2Proof/Machine/Operands.lean ====
section
/-!
DEFINITION. The operands of a command: its opcode row (R119), its selector (R112 to R114), its fields, and the form in which
each command's own checks and effect are given.
-/
namespace Sys2Proof.Machine

/-- R119. The opcodes. -/
inductive Op where
  | sysNop | sysCaps | sysReset | sysGroupSet | sysFgroupSet | sysGroupGet | sysConfigSave | chanPortSet | chanBind
  | chanStart | chanStop | chanSensorSet | chanQuery | chanPipeSet | chanWindowSet | chanWindowClear | chanLutLoad
  | encStreamSet | encHrdSet | encRateSet | encQpSet | encRefreshSet | encMotionSet | encGeometrySet | encEgoUpdate
  | encLtrRecover | encForceIdr | encQuery | decOpen | decFeed | decOutputSet | decClose | decQuery | flowAttach
  | flowRouteSet | flowTemplateSet | flowRateSet | flowWeightSet | flowStart | flowStop | flowRingSet | flowStats
  | flowCryptSet | memMapQuery | memPoolQuery | memErrQuery | tarnIdGet | tarnRandom | tarnSign | tarnVerify
  | tarnNodeQuery | tarnNodeInvalidate | tarnPubkeyGet | roleChallenge | roleOpen | roleClose | roleUpdate
  | roleAuditRead | roleCounterGet | seqImageLoad | seqPatchApply | seqHookSet | seqQuery | pwrDvfsSet | pwrDomainSet
  | pwrSelfRefresh | pwrQuery | headPair | headUnpair | headPolicySet | headIdGet | headLifeQuery | headI3cXfer
  | calEnable | calPin | calUnpin | calReset | calQuery | timeSetBase | timePpsConfig | timeTickSet | timeChanRate
  | timeGptpConfig | timeLedgerQuery
deriving DecidableEq, Repr, Inhabited

/-- R108. Timing classes. -/
inductive Timing where
  | immediate | nextTick | deferred
deriving DecidableEq, Repr, Inhabited

/-- R113. Selector kinds: none, one channel, channels, one flow, flows. -/
inductive Sel where
  | none | chan | chans | flow | flows
deriving DecidableEq, Repr, Inhabited

/-- R119. A row of the opcode index: opcode, roles that may issue it (bit 0 none needed, bits 1 to 3 operator, installer,
maker), selector, class, and payload lengths of request and response. -/
structure OpInfo where
  code : Nat
  roles : Nat
  sel : Sel
  timing : Timing
  plen : Nat
  rplen : Nat
deriving DecidableEq, Repr, Inhabited

/-- R119. The opcode index. TIME_SET_BASE is immediate or deferred by its AT_PPS flag (R126); the response length of
TIME_LEDGER_QUERY is 6 bytes an engine (R127), so its row carries 0. -/
def Op.info : Op → OpInfo
  | .sysNop => ⟨0x0101, 1, .none, .immediate, 0, 0⟩
  | .sysCaps => ⟨0x0102, 1, .none, .immediate, 0, 32⟩
  | .sysReset => ⟨0x0103, 14, .none, .immediate, 4, 0⟩
  | .sysGroupSet => ⟨0x0104, 4, .none, .immediate, 8, 0⟩
  | .sysFgroupSet => ⟨0x0105, 4, .none, .immediate, 36, 0⟩
  | .sysGroupGet => ⟨0x0106, 14, .none, .immediate, 4, 36⟩
  | .sysConfigSave => ⟨0x0107, 12, .none, .deferred, 0, 8⟩
  | .chanPortSet => ⟨0x0201, 4, .none, .nextTick, 8, 0⟩
  | .chanBind => ⟨0x0202, 4, .chan, .nextTick, 8, 0⟩
  | .chanStart => ⟨0x0203, 6, .chans, .nextTick, 0, 0⟩
  | .chanStop => ⟨0x0204, 6, .chans, .nextTick, 0, 0⟩
  | .chanSensorSet => ⟨0x0205, 6, .chans, .nextTick, 16, 0⟩
  | .chanQuery => ⟨0x0206, 14, .chan, .immediate, 0, 40⟩
  | .chanPipeSet => ⟨0x0301, 4, .chans, .nextTick, 32, 0⟩
  | .chanWindowSet => ⟨0x0302, 4, .chans, .nextTick, 28, 0⟩
  | .chanWindowClear => ⟨0x0303, 4, .chans, .nextTick, 4, 0⟩
  | .chanLutLoad => ⟨0x0304, 4, .chans, .nextTick, 16, 0⟩
  | .encStreamSet => ⟨0x0401, 4, .chans, .nextTick, 24, 0⟩
  | .encHrdSet => ⟨0x0402, 4, .chans, .nextTick, 20, 0⟩
  | .encRateSet => ⟨0x0403, 6, .chans, .nextTick, 8, 0⟩
  | .encQpSet => ⟨0x0404, 6, .chans, .nextTick, 8, 0⟩
  | .encRefreshSet => ⟨0x0405, 4, .chans, .nextTick, 12, 0⟩
  | .encMotionSet => ⟨0x0406, 4, .chans, .nextTick, 4, 0⟩
  | .encGeometrySet => ⟨0x0407, 4, .chan, .nextTick, 48, 0⟩
  | .encEgoUpdate => ⟨0x0408, 6, .none, .immediate, 16, 0⟩
  | .encLtrRecover => ⟨0x0409, 6, .chan, .nextTick, 8, 0⟩
  | .encForceIdr => ⟨0x040A, 6, .chans, .nextTick, 0, 0⟩
  | .encQuery => ⟨0x040B, 14, .chan, .immediate, 0, 40⟩
  | .decOpen => ⟨0x0501, 4, .none, .nextTick, 16, 0⟩
  | .decFeed => ⟨0x0502, 6, .none, .immediate, 16, 0⟩
  | .decOutputSet => ⟨0x0503, 4, .none, .nextTick, 8, 0⟩
  | .decClose => ⟨0x0504, 6, .none, .nextTick, 4, 0⟩
  | .decQuery => ⟨0x0505, 14, .none, .immediate, 4, 32⟩
  | .flowAttach => ⟨0x0601, 4, .flow, .immediate, 4, 0⟩
  | .flowRouteSet => ⟨0x0602, 4, .flow, .nextTick, 12, 0⟩
  | .flowTemplateSet => ⟨0x0603, 4, .flow, .nextTick, 16, 0⟩
  | .flowRateSet => ⟨0x0604, 4, .flows, .nextTick, 8, 0⟩
  | .flowWeightSet => ⟨0x0605, 6, .flows, .nextTick, 4, 0⟩
  | .flowStart => ⟨0x0606, 6, .flows, .nextTick, 0, 0⟩
  | .flowStop => ⟨0x0607, 6, .flows, .nextTick, 0, 0⟩
  | .flowRingSet => ⟨0x0608, 4, .flow, .nextTick, 16, 0⟩
  | .flowStats => ⟨0x0609, 14, .flow, .immediate, 4, 48⟩
  | .flowCryptSet => ⟨0x060A, 4, .flow, .nextTick, 4, 0⟩
  | .memMapQuery => ⟨0x0701, 14, .none, .immediate, 4, 16⟩
  | .memPoolQuery => ⟨0x0702, 14, .none, .immediate, 4, 32⟩
  | .memErrQuery => ⟨0x0703, 14, .none, .immediate, 4, 32⟩
  | .tarnIdGet => ⟨0x0801, 1, .none, .immediate, 0, 48⟩
  | .tarnRandom => ⟨0x0802, 14, .none, .immediate, 4, 32⟩
  | .tarnSign => ⟨0x0803, 12, .none, .immediate, 44, 0⟩
  | .tarnVerify => ⟨0x0804, 14, .none, .immediate, 12, 0⟩
  | .tarnNodeQuery => ⟨0x0805, 14, .none, .immediate, 4, 16⟩
  | .tarnNodeInvalidate => ⟨0x0806, 8, .none, .nextTick, 4, 0⟩
  | .tarnPubkeyGet => ⟨0x0807, 1, .none, .immediate, 12, 0⟩
  | .roleChallenge => ⟨0x0901, 1, .none, .immediate, 4, 32⟩
  | .roleOpen => ⟨0x0902, 1, .none, .immediate, 16, 0⟩
  | .roleClose => ⟨0x0903, 14, .none, .immediate, 0, 0⟩
  | .roleUpdate => ⟨0x0904, 1, .none, .deferred, 12, 8⟩
  | .roleAuditRead => ⟨0x0905, 12, .none, .immediate, 16, 8⟩
  | .roleCounterGet => ⟨0x0906, 1, .none, .immediate, 0, 8⟩
  | .seqImageLoad => ⟨0x0A01, 8, .none, .deferred, 16, 0⟩
  | .seqPatchApply => ⟨0x0A02, 8, .none, .nextTick, 16, 0⟩
  | .seqHookSet => ⟨0x0A03, 4, .chans, .nextTick, 12, 0⟩
  | .seqQuery => ⟨0x0A04, 14, .none, .immediate, 4, 32⟩
  | .pwrDvfsSet => ⟨0x0B01, 4, .none, .immediate, 8, 8⟩
  | .pwrDomainSet => ⟨0x0B02, 4, .none, .nextTick, 4, 0⟩
  | .pwrSelfRefresh => ⟨0x0B03, 4, .none, .deferred, 4, 0⟩
  | .pwrQuery => ⟨0x0B04, 14, .none, .immediate, 4, 32⟩
  | .headPair => ⟨0x0C01, 4, .chan, .deferred, 4, 0⟩
  | .headUnpair => ⟨0x0C02, 4, .chan, .nextTick, 0, 0⟩
  | .headPolicySet => ⟨0x0C03, 4, .chans, .nextTick, 4, 0⟩
  | .headIdGet => ⟨0x0C04, 14, .chan, .deferred, 12, 0⟩
  | .headLifeQuery => ⟨0x0C05, 14, .chan, .immediate, 0, 32⟩
  | .headI3cXfer => ⟨0x0C06, 4, .chan, .deferred, 24, 16⟩
  | .calEnable => ⟨0x0D01, 4, .chans, .nextTick, 4, 0⟩
  | .calPin => ⟨0x0D02, 4, .chans, .nextTick, 8, 0⟩
  | .calUnpin => ⟨0x0D03, 4, .chans, .nextTick, 4, 0⟩
  | .calReset => ⟨0x0D04, 4, .chans, .nextTick, 4, 0⟩
  | .calQuery => ⟨0x0D05, 14, .chan, .immediate, 4, 48⟩
  | .timeSetBase => ⟨0x0E01, 14, .none, .immediate, 12, 8⟩
  | .timePpsConfig => ⟨0x0E02, 4, .none, .immediate, 4, 0⟩
  | .timeTickSet => ⟨0x0E03, 4, .none, .nextTick, 4, 0⟩
  | .timeChanRate => ⟨0x0E04, 4, .chans, .nextTick, 8, 0⟩
  | .timeGptpConfig => ⟨0x0E05, 4, .none, .immediate, 4, 0⟩
  | .timeLedgerQuery => ⟨0x0E06, 14, .none, .immediate, 4, 0⟩

/-- R119. All opcodes, in table order. -/
def Op.all : List Op := [
  .sysNop, .sysCaps, .sysReset, .sysGroupSet, .sysFgroupSet, .sysGroupGet, .sysConfigSave, .chanPortSet,
  .chanBind, .chanStart, .chanStop, .chanSensorSet, .chanQuery, .chanPipeSet, .chanWindowSet, .chanWindowClear,
  .chanLutLoad, .encStreamSet, .encHrdSet, .encRateSet, .encQpSet, .encRefreshSet, .encMotionSet, .encGeometrySet,
  .encEgoUpdate, .encLtrRecover, .encForceIdr, .encQuery, .decOpen, .decFeed, .decOutputSet, .decClose,
  .decQuery, .flowAttach, .flowRouteSet, .flowTemplateSet, .flowRateSet, .flowWeightSet, .flowStart, .flowStop,
  .flowRingSet, .flowStats, .flowCryptSet, .memMapQuery, .memPoolQuery, .memErrQuery, .tarnIdGet, .tarnRandom,
  .tarnSign, .tarnVerify, .tarnNodeQuery, .tarnNodeInvalidate, .tarnPubkeyGet, .roleChallenge, .roleOpen, .roleClose,
  .roleUpdate, .roleAuditRead, .roleCounterGet, .seqImageLoad, .seqPatchApply, .seqHookSet, .seqQuery, .pwrDvfsSet,
  .pwrDomainSet, .pwrSelfRefresh, .pwrQuery, .headPair, .headUnpair, .headPolicySet, .headIdGet, .headLifeQuery,
  .headI3cXfer, .calEnable, .calPin, .calUnpin, .calReset, .calQuery, .timeSetBase, .timePpsConfig,
  .timeTickSet, .timeChanRate, .timeGptpConfig, .timeLedgerQuery]

/-- R119, R105 step 3. The opcode a code names. -/
def Op.ofCode (c : Nat) : Option Op := Op.all.find? fun o => o.info.code == c

/-! ### Status codes (R128) -/

namespace St
def ok : Byte := 0x00#8
def pending : Byte := 0x01#8
def badOpcode : Byte := 0x02#8
def badLength : Byte := 0x03#8
def badSelector : Byte := 0x04#8
def notPresent : Byte := 0x05#8
def denied : Byte := 0x06#8
def admission : Byte := 0x07#8
def busy : Byte := 0x08#8
def tagConflict : Byte := 0x09#8
def timeout : Byte := 0x0A#8
def entropyFail : Byte := 0x0B#8
def authFail : Byte := 0x0C#8
def staleCounter : Byte := 0x0D#8
def hrdInfeasible : Byte := 0x0E#8
def orphanedKey : Byte := 0x0F#8
def range : Byte := 0x10#8
def partialReject : Byte := 0x11#8
def quiesce : Byte := 0x12#8
def headUnpaired : Byte := 0x13#8
def entropyLatched : Byte := 0x14#8
def internal : Byte := 0xFF#8
end St

end Sys2Proof.Machine

namespace Sys2Proof
open Sys2Proof.Machine

/-! ### Fields of a request (R18: offsets count from the first byte of the entry) -/

/-- The little-endian field of `n` bytes at entry offset `off`, from 16 on. -/
def Request.u (q : Request) (off n : Nat) : Nat := field q.payload (off - 16) n

/-- The same, signed. -/
def Request.i (q : Request) (off n : Nat) : Int := sfield q.payload (off - 16) n

/-- Bit `b` of the byte at `off`. -/
def Request.bit (q : Request) (off b : Nat) : Bool := bitOf (q.u off 1) b

/-- Bytes of the entry from offset 16 on. -/
def Request.bytes (q : Request) (off n : Nat) : List Byte := slice q.payload (off - 16) n

/-- R20, R104. Bytes at `off` are 0. -/
def Request.zero (q : Request) (off n : Nat) : Bool := q.u off n == 0

/-- R117. A DMA descriptor at `off`: address and length. -/
def Request.dma (q : Request) (off : Nat) : Nat × Nat := (q.u off 8, q.u (off + 8) 4)

end Sys2Proof

namespace Sys2Proof.Machine

/-- R20. Two requests have the same content: header and declared payload are equal. -/
def Entry.same (a b : Entry) : Bool :=
  a.opcode == b.opcode && a.req.tag == b.req.tag && a.req.prio == b.req.prio && a.req.plen == b.req.plen &&
    a.req.rsv6 == b.req.rsv6 && a.req.csel == b.req.csel && a.req.fsel == b.req.fsel && a.req.rsv10 == b.req.rsv10 &&
    slice a.req.payload 0 (min 48 a.req.plen.toNat) == slice b.req.payload 0 (min 48 b.req.plen.toNat)

/-! ### Selectors (R112 to R114) -/

/-- R112. The encoding of CSEL is defined. -/
def cselDefined (v : Nat) : Bool := v < 0x20 || (0xE0 ≤ v && v < 0xE8) || v == 0xFF

/-- R112. The encoding of FSEL is defined. -/
def fselDefined (v : Nat) : Bool := v < 0x100 || (0xFFE0 ≤ v && v < 0xFFF0) || v == 0xFFFF

/-- R105 step 6. CSEL and FSEL are in a defined encoding, or 0 where the opcode takes none. -/
def selDefined (k : Sel) (q : Request) : Bool :=
  match k with
  | .none => q.csel == 0 && q.fsel == 0
  | .chan | .chans => cselDefined q.csel.toNat && q.fsel == 0
  | .flow | .flows => fselDefined q.fsel.toNat && q.csel == 0

/-- R7, R112, R114. The members a selector names in function `f`, ascending. -/
def selMembers (s : State) (k : Sel) (f : Nat) (q : Request) : List Nat :=
  match k with
  | .none => []
  | .chan | .chans =>
    let v := q.csel.toNat
    if v < 0x20 then [v]
    else if v = 0xFF then List.range s.nChan
    else idx 32 fun c => (tget s.groups (v - 0xE0)).getLsbD c
  | .flow | .flows =>
    let v := q.fsel.toNat
    if v < 0x100 then [v]
    else if v = 0xFFFF then idx s.nFlow fun m => f == 0 || (s.fcfg m).func == some f
    else idx 256 fun m => (tget s.fgroups (v - 0xFFE0)).getLsbD m

/-- R113. The selector names one member by itself. -/
def selSingle (k : Sel) (q : Request) : Bool :=
  match k with
  | .none => true
  | .chan | .chans => q.csel.toNat < 0x20
  | .flow | .flows => q.fsel.toNat < 0x100

/-- R105 step 7. The selector kind is one the opcode accepts, and names somebody (R114). -/
def selAccepted (s : State) (k : Sel) (f : Nat) (q : Request) : Bool :=
  match k with
  | .none => true
  | .chan | .flow => selSingle k q
  | .chans | .flows => selSingle k q || !(selMembers s k f q).isEmpty

/-- R105 step 8. Every member is present. -/
def selPresent (s : State) (k : Sel) (members : List Nat) : Bool :=
  match k with
  | .none => true
  | .chan | .chans => members.all fun c => c < s.nChan
  | .flow | .flows => members.all fun m => m < s.nFlow

/-- R105 step 9. Every named flow is attached to the function, or the function is the physical one. -/
def flowsOwned (s : State) (f : Nat) (ms : List Nat) : Bool := f == 0 || ms.all fun m => (s.fcfg m).func == some f

/-! ### What a command brings -/

/-- A command in execution: its function, opcode, request, captured members (R114), issuing session (R461), elapsed time
at which it passed step 12 (R108), and the data a DMA transfer brought (R118). -/
structure Ctx where
  f : Nat
  op : Op
  q : Request
  members : List Nat
  role : Nat
  slot : Nat
  since : Nat
  data : List Byte
deriving DecidableEq, Repr, Inhabited

/-- How the execution of a command stands: done with a status and payload, or waiting. -/
inductive Reply where
  | done (st : Byte) (payload : List Byte)
  | wait (w : Wait)
deriving DecidableEq, Repr, Inhabited

/-- A command's own part of R105: its reserved payload bytes (step 6), the units its fields name (step 8), the flows its
fields name and rights that depend on them (step 9), its field values (step 10), the state of each member (step 11, member 0
where it has no selector), as it stands and as the command's boundary will find it, without and with the data of its buffer,
what happens once admitted (step 13), how a wait that has ended goes on, and a next-tick command's effect (R108). -/
structure Behaviour where
  reserved : Request → Bool := fun _ => true
  present : State → Request → Bool := fun _ _ => true
  flows : Request → List Nat := fun _ => []
  rights : Ctx → Bool := fun _ => true
  fields : State → Ctx → Option Byte := fun _ _ => none
  member : State → Ctx → Nat → Option Byte := fun _ _ _ => none
  later : State → Ctx → Nat → Option Byte := fun _ _ _ => none
  dataLater : State → Ctx → Nat → Option Byte := fun _ _ _ => none
  run : Ctx → State → Reply × State := fun _ s => (.done St.ok [], s)
  resume : Ctx → Wait → State → Reply × State := fun _ _ s => (.done St.ok [], s)
  effect : Ctx → State → State := fun _ s => s

/-- R117. ADDR is aligned to 8 bytes and LEN is at most 1 MiB. -/
def dmaRange (d : Nat × Nat) : Option Byte := if d.2 > 1048576 || d.1 % 8 != 0 then some St.range else none

/-- The first failure of a list of checks. -/
def firstOf : List (Option Byte) → Option Byte
  | [] => none
  | some e :: _ => some e
  | none :: rest => firstOf rest

/-- A check: `e` unless `b` holds. -/
def need (b : Bool) (e : Byte) : Option Byte := if b then none else some e

end Sys2Proof.Machine
end

