-- ==== Sys2Proof/Machine/Post.lean ====
section
/-!
DEFINITION. Responses: posting them, the tag cache, the end of a request in execution, and programs of the boot flash that
requests wait for (R87 to R93, R103, R104, R414).
-/
namespace Sys2Proof.Machine

/-- R90. The cache with a final response added in front: at most 64. -/
def cacheAdd (e : Entry) (r : Response) (c : List CacheEntry) : List CacheEntry := (⟨e, r⟩ :: c).take 64

/-- R87, R89. Post a response in function `f`'s queue; RSP_IE sends vector 1 when the queue was empty. -/
def post (f : Nat) (r : Response) (s : State) : State :=
  let x := s.fn f
  let s1 := modFn f (fun y => { y with rspQ := y.rspQ ++ [r] }) s
  if x.rspIe && x.rspQ.isEmpty then sendMsix f 1 s1 else s1

/-- R90. Post a final response and enter it in the cache. -/
def postFinal (f : Nat) (e : Entry) (r : Response) (s : State) : State :=
  modFn f (fun y => { y with cache := cacheAdd e r y.cache }) (post f r s)

/-- R103, R104. A final response to an entry: RPLEN is 0 unless the status is OK or PARTIAL_REJECT. -/
def response (e : Entry) (st : Byte) (tick : Long) (payload : List Byte) : Response :=
  { opcode := e.opcode, tag := e.req.tag, status := st, replay := false, tick := tick
    payload := if st = St.ok || st = St.partialReject then payload else [] }

/-- R103. Post the final response of a request that is not a next-tick success. -/
def answer (f : Nat) (e : Entry) (st : Byte) (payload : List Byte) (s : State) : State :=
  postFinal f e (response e st s.tickField payload) s

/-- R87, R99. End a request in execution: it leaves the list, and its response is posted unless its function was reset. -/
def finishAt (x : ExecEntry) (st : Byte) (tick : Long) (payload : List Byte) (s : State) : State :=
  let s1 := { s with exec := s.exec.erase x }
  if x.dead then s1 else postFinal x.func x.entry (response x.entry st tick payload) s1

/-- The same with the count of the last boundary. -/
def finish (x : ExecEntry) (st : Byte) (payload : List Byte) (s : State) : State := finishAt x st s.tickField payload s

/-- Replace a request in execution in place. -/
def updExec (x y : ExecEntry) (s : State) : State := { s with exec := s.exec.map fun z => if z = x then y else z }

/-- The first request in execution of function `f` with a tag whose wait `p` accepts. A request whose function has been reset still
completes its effect (R99). -/
def findExec (s : State) (f : Nat) (tag : BitVec 16) (p : Wait → Bool) : Option ExecEntry :=
  s.exec.find? fun x => x.func == f && x.entry.req.tag == tag && p x.wait

/-- Kinds of wait. -/
def Wait.isCheck : Wait → Bool
  | .check _ => true
  | _ => false
def Wait.isBus : Wait → Bool
  | .bus _ => true
  | _ => false
def Wait.isDma : Wait → Bool
  | .dma _ _ | .dmaOut _ _ _ => true
  | _ => false

/-- R87. Requests of function `f` in execution that have reserved a response slot. -/
def inExec (s : State) (f : Nat) : Nat := (s.exec.filter fun x => x.func == f && !x.dead).length

/-- R87. Function `f`'s response queue has a slot that no request in execution has reserved. -/
def slotFree (s : State) (f : Nat) : Bool := (s.fn f).rspQ.length + inExec s f < 64

/-- The command in execution as a context. -/
def ExecEntry.ctx (x : ExecEntry) (op : Op) : Ctx :=
  ⟨x.func, op, x.entry.req, x.members, x.role, x.slot, x.since, x.data⟩

/-- R414. Put a program of the boot flash in the queue. -/
def flashQueue (w : FlashWork) (waiter : Option (Nat × BitVec 16)) (s : State) : State :=
  modBoot (fun b => { b with queue := b.queue ++ [⟨w, waiter⟩] }) s

/-- R107. Another deferred command of opcode `p` on the same member is in execution. -/
def deferredOn (s : State) (p : Op → Bool) (m : Nat) : Bool :=
  s.exec.any fun x => match Op.ofCode x.entry.opcode.toNat with
    | some o => p o && o.info.timing == .deferred && x.members.contains m
    | none => false

/-- A next-tick command of opcode `p` on member `m` is admitted and pending. -/
def pendingOn (s : State) (p : Op → Bool) (m : Nat) : Bool :=
  s.exec.any fun x => match Op.ofCode x.entry.opcode.toNat with
    | some o => p o && o.info.timing == .nextTick && x.members.contains m
    | none => false

/-- R506. A vendor (region 0) or open (region 1) load or patch for a class, of another function or tag, is under way: its
record has been read. -/
def loadBusy (s : State) (f : Nat) (tag : BitVec 16) (cls region : Nat) : Bool :=
  s.exec.any fun x => (match Op.ofCode x.entry.opcode.toNat with | some o => o == .seqImageLoad || o == .seqPatchApply | none => false)
    && !x.data.isEmpty && !(x.func == f && x.entry.req.tag == tag) && field x.data 5 1 == cls && field x.data 6 1 == region

/-- R108. Device time of the boundary at which a next-tick command that passed step 12 now takes effect, and its number:
the first at least 1,000,000 ns ahead. -/
def effectBoundary (s : State) : Nat :=
  let t := s.time
  let k := t.passed
  if t.dev + 1000000 ≤ t.boundary k then k
  else k + cdiv (t.dev + 1000000 - t.boundary k) (max 1 t.period)

end Sys2Proof.Machine
end

