-- ==== Sys2Proof/Machine/Tarn.lean ====
section
/-!
DEFINITION. Tarn: the key tree and its derivations, generations, entropy, the checks of a key, and the audit log, which is
sealed under it (R423 to R446, R471 to R475).
-/
namespace Sys2Proof.Machine

/-! ### Bytes and numbers of cryptography -/

/-- ASCII bytes. -/
def ascii (t : String) : List Byte := t.toList.map fun c => BitVec.ofNat 8 c.toNat

/-- XOR of two byte strings. -/
def xorBytes (a b : List Byte) : List Byte := List.zipWith (fun x y => x ^^^ y) a b

def zeros (n : Nat) : List Byte := List.replicate n 0#8

def isZeros (bs : List Byte) : Bool := bs.all fun b => b == 0

/-- SHA-256, 32 bytes. -/
def hash (m : List Byte) : List Byte := fit 32 (Config.sha256 m)

/-- AES-CMAC, 16 bytes. -/
def mac (k m : List Byte) : List Byte := fit 16 (Config.cmac k m)

/-- R430. The order of P-256. -/
def orderP : Nat := 0xFFFFFFFF00000000FFFFFFFFFFFFFFFFBCE6FAADA7179E84F3B9CAC2FC632551

/-- The field prime of P-256. -/
def primeP : Nat := 0xFFFFFFFF00000001000000000000000000000000FFFFFFFFFFFFFFFFFFFFFFFF

/-- R441. A public key is usable: both coordinates below p, and on the curve. -/
def goodPoint (k : List Byte) : Bool :=
  unbe (slice k 0 32) < primeP && unbe (slice k 32 32) < primeP && Config.onCurve (fit 64 k)

/-- R441. Verification of a signature (r then s) over a digest. -/
def verify (key digest sig : List Byte) : Bool :=
  let r := unbe (slice sig 0 32)
  let t := unbe (slice sig 32 32)
  0 < r && r < orderP && 0 < t && t < orderP && goodPoint key && Config.ecdsaVerify (fit 64 key) (fit 32 digest) (fit 64 sig)

/-! ### Derivation (R428) -/

/-- R428. HMAC-SHA-256 in counter mode: blocks `i` on, `n` of them. -/
def kdfBlocks (key enc ctx : List Byte) (lbits : Nat) : Nat → Nat → List Byte
  | _, 0 => []
  | i, n + 1 =>
    fit 32 (Config.hmac key (le 4 i ++ enc ++ [0#8] ++ ctx ++ le 4 lbits)) ++ kdfBlocks key enc ctx lbits (i + 1) n

/-- R428. A derivation of `lbits` bits. -/
def kdf (key : List Byte) (kind : Nat) (label : List Byte) (pgen gen : Nat) (extra : List Byte) (lbits : Nat) : List Byte :=
  fit (lbits / 8)
    (kdfBlocks key ([BitVec.ofNat 8 kind] ++ le 1 label.length ++ label) (le 4 pgen ++ le 4 gen ++ extra) lbits 1 (cdiv lbits 256))

/-! ### Slots (R427) -/

/-- R427. Parent slot of a node slot. -/
def nodeParent (n : Nat) : Option Nat :=
  if 1 ≤ n && n ≤ 5 then some 0
  else if n = 6 then some 5
  else if 8 ≤ n && n < 40 then some 6
  else if 40 ≤ n && n < 72 then some (n - 32)
  else if 72 ≤ n && n < 328 then some 0
  else none

/-- R427. Kind code of a node slot. -/
def nodeKind (n : Nat) : Nat :=
  if n = 5 then 0x08
  else if n = 6 then 0x05
  else if 1 ≤ n && n ≤ 4 then n
  else if 8 ≤ n && n < 40 then 0x06
  else if 40 ≤ n && n < 72 then 0x07
  else if 72 ≤ n && n < 328 then 0x09
  else 0

/-- R426. Depth of a node slot. -/
def nodeDepth (n : Nat) : Nat :=
  if n = 6 then 2
  else if 8 ≤ n && n < 40 then 3
  else if 40 ≤ n && n < 72 then 4
  else if (nodeParent n).isSome then 1
  else 0

/-- R427. The slot belongs to a channel or client the part lacks. -/
def nodeLacking (s : State) (n : Nat) : Bool :=
  (8 ≤ n && n < 40 && s.nChan ≤ n - 8) || (40 ≤ n && n < 72 && s.nChan ≤ n - 40) || (72 ≤ n && n < 328 && s.nFlow ≤ n - 72)

def chanSlot (c : Nat) : Nat := 8 + c
def headSlot (c : Nat) : Nat := 40 + c
def clientSlot (m : Nat) : Nat := 72 + m

def State.node (s : State) (n : Nat) : Node := tget s.tarn.nodes n

/-- R434. The key in a slot's cell, unmasked. -/
def nodeKey (s : State) (n : Nat) : List Byte := xorBytes (s.node n).cell s.tarn.mask

/-- R434. Write a key into a slot's cell. -/
def setKey (n : Nat) (k : List Byte) (s : State) : State := modNode n (fun x => { x with cell := xorBytes (fit 32 k) s.tarn.mask }) s

/-- R427, R433. Label of a node as it is derived. -/
def nodeLabel (s : State) (n : Nat) : List Byte :=
  if n = 3 then le 8 s.tarn.bootEpoch
  else if n = 5 then ascii "LOCAL"
  else if n = 6 then s.tarn.idHash
  else if 8 ≤ n && n < 40 then le 1 (n - 8)
  else if 40 ≤ n && n < 72 then (s.node n).label
  else []

/-- R426, R428, R433. Compute a node's key: an imported copy, or the derivation from its parent. -/
def computeKey (n : Nat) (s : State) : State :=
  let x := s.node n
  let p := (nodeParent n).getD 0
  if (n = 5 && s.tarn.evid) || (72 ≤ n && n < 328) then setKey n x.copy s
  else setKey n (kdf (nodeKey s p) (nodeKind n) (nodeLabel s n) x.parentGen x.gen [] 256) s

/-- R429. GCTR can advance by `n`. -/
def gctrRoom (s : State) (n : Nat) : Bool := s.tarn.gctr + n ≤ 0xFFFFFFFF

/-- R429. The generation slot `n` takes next: the one its pending invalidation recorded, else the next of GCTR. -/
def nextGen (n : Nat) (s : State) : Nat :=
  match s.tarn.reserved.find? fun p => p.1 == n with
  | some p => p.2
  | none => s.tarn.gctr + 1

/-- R429. A slot takes a new generation, records its parent's, and becomes VALID. -/
def newGen (n : Nat) (s : State) : State :=
  let g := nextGen n s
  let pg := (s.node ((nodeParent n).getD 0)).gen
  modNode n (fun x => { x with state := .valid, gen := g, parentGen := pg })
    (modTarn (fun t => { t with gctr := max t.gctr g, reserved := t.reserved.filter fun p => p.1 != n }) s)

/-- R429. Create or re-derive a node: new generation, new key. -/
def deriveNode (n : Nat) (s : State) : State := computeKey n (newGen n s)

/-! ### Leaves and P-256 keys (R430, R431) -/

/-- R431. A leaf of slot `n`. -/
def leaf (s : State) (n kind : Nat) (extra : List Byte) (lbits : Nat) : List Byte :=
  kdf (nodeKey s n) kind [] (s.node n).gen 0 extra lbits

/-- R430. The private key of slot `n`, 32 bytes big-endian. -/
def privKey (s : State) (n : Nat) : List Byte := be 32 (unbe (leaf s n 0x20 [] 384) % (orderP - 1) + 1)

/-- The public key of slot `n`. -/
def pubKey (s : State) (n : Nat) : List Byte := fit 64 (Config.pubOf (privKey s n))

/-- R438. Firmware's copies of the public keys, renewed. -/
def renewPublic (s : State) : State :=
  let chans := Vector.ofFn fun (i : Fin 32) => if i.val < s.nChan then pubKey s (chanSlot i.val) else []
  modTarn (fun t => { t with pubId := pubKey s 1, pubXport := pubKey s 2, pubChan := chans }) s

/-- R431. SEAL or USEAL leaf of a channel. -/
def sealLeaf (s : State) (c : Nat) (paired : Bool) : List Byte :=
  if paired then leaf s (headSlot c) 0x10 (le 8 s.tarn.bootEpoch) 256 else leaf s (chanSlot c) 0x11 (le 8 s.tarn.bootEpoch) 256

/-- R409, R427. The memory-tag key. -/
def tagKey (s : State) : List Byte := nodeKey s 3

/-! ### The check of a key (R436) -/

/-- R436. Every recorded generation on the way to the root matches; `k` levels. -/
def chainOk (s : State) : Nat → Nat → Bool
  | _, 0 => true
  | n, k + 1 =>
    match nodeParent n with
    | none => true
    | some p => (s.node n).parentGen == (s.node p).gen && chainOk s p k

/-- R436, R438. A key may be used: no tamper, the slot VALID (EVID's LOCAL derivation stands while it shows ORPHANED), and
six ancestor levels match. -/
def keyUsable (s : State) (n : Nat) : Bool :=
  !s.tarn.tampered && ((s.node n).state == .valid || n == 5) && chainOk s n 6

/-- R469. The device is enrolled: its helper area was not erased at reset release. -/
def State.enrolled (s : State) : Bool := s.boot.enrolled

/-- R427, R469. ID_HASH as reported: of the die UID on an unenrolled device. -/
def idHashOf (s : State) : List Byte := if s.enrolled then s.tarn.idHash else hash s.fuses.dieUid

/-! ### Generations of whole branches (R433, R435) -/

/-- R433, R435. Re-derive the VALID slots of a list, in order of depth. -/
def rederiveAll (l : List Nat) (s : State) : State :=
  forEach (l.filter fun n => (s.node n).state == .valid) deriveNode s

/-- Slots of the channels and heads. -/
def chanSlots : List Nat := (List.range 32).map chanSlot
def headSlots : List Nat := (List.range 32).map headSlot

/-- R433. Each paired head gets its channel's new public key at its next check. -/
def headsNeedKey (cs : List Nat) (s : State) : State :=
  forEach cs (fun c => modHead c (fun h => if h.pairing.isSome then { h with keyUpdate := true } else h)) s

/-- R433, R435. DEV, every CHAN and every HEAD under a new EVID. -/
def rederiveDev (s : State) : State := headsNeedKey (List.range 32) (renewPublic (rederiveAll ([6] ++ chanSlots ++ headSlots) s))

/-- R433. Number of slots a change below EVID gives new generations. -/
def branchSize (s : State) (l : List Nat) : Nat := (l.filter fun n => (s.node n).state == .valid).length

/-! ### Entropy (R443 to R446) -/

/-- R444. Take `n` bytes of released output, whole or not at all. -/
def takeEntropy (n : Nat) (s : State) : Option (List Byte × State) :=
  if n ≤ s.tarn.pool.length then some (s.tarn.pool.take n, modTarn (fun t => { t with pool := t.pool.drop n }) s) else none

/-- R446. Step 11 of a request that needs entropy. -/
def entropyCheck (s : State) : Option Byte := need (s.tarn.trng != .latched) St.entropyLatched

/-! ### The audit log (R471 to R475) -/

/-- R473. The AUDIT leaf. -/
def auditKey (s : State) : List Byte := leaf s 4 0x40 [] 256

/-- R472. A record. -/
def auditRecord (s : State) (event role slot func time : Nat) (detail : List Byte) : List Byte :=
  let prev := match s.roles.audit.getLast? with
    | some r => slice (hash r) 0 8
    | none => slice (hash (ascii "TARN-AUD" ++ s.tarn.idHash)) 0 8
  let body := le 4 s.roles.nextSeq ++ le 1 event ++ le 1 role ++ le 1 slot ++ le 1 func ++ le 8 time
    ++ le 4 s.tarn.bootEpoch ++ fit 20 detail ++ prev
  body ++ mac (auditKey s) body

/-- R471, R474. A record can be programmed. -/
def auditRoom (s : State) : Bool := !s.boot.flashBad && s.roles.nextSeq ≤ 0xFFFFFFFF

/-- R470, R471, R474. Write a record; one that cannot be written sets AUDIT_LOST. Nothing is written on an unenrolled
device. -/
def audit (event role slot func time : Nat) (detail : List Byte) (s : State) : State :=
  if !s.enrolled then s
  else if auditRoom s then
    let r := auditRecord s event role slot func time detail
    let s1 := modRoles (fun x => { x with audit := (if x.audit.length < 4096 then x.audit else x.audit.tail) ++ [r], nextSeq := x.nextSeq + 1 }) s
    if 4096 ≤ s.roles.nextSeq then raise 204 0 s1 else s1
  else modRoles (fun x => { x with auditLost := true }) s

/-- R42, R472. Firmware takes device time for a record: its read of TIME_LO fills the control cluster's own TIME_HI latch, whose half it
then reads. -/
def clusterRead (s : State) : State := if s.enrolled then modTime (fun t => { t with clusterHi := BitVec.ofNat 32 (t.dev / 4294967296) }) s else s

/-- R42. The 64-bit time that the two reads give. -/
def clusterTime (s : State) : Nat := s.time.dev % 4294967296 + 4294967296 * s.time.clusterHi.toNat

/-- R471. A record with the present time. -/
def auditAt (event role slot func : Nat) (detail : List Byte) (s0 : State) : State :=
  let s := clusterRead s0
  audit event role slot func (clusterTime s) detail s

/-- R471. A record of the device's own action. -/
def auditDevice (event : Nat) (detail : List Byte) (s : State) : State := auditAt event 0 0 0xFF detail s

/-- R471. A record of a command that acts now. -/
def auditNow (c : Ctx) (event : Nat) (detail : List Byte) (s : State) : State := auditAt event c.role c.slot c.f detail s

/-- R471. Device time of the boundary at which a next-tick command takes effect. While the tick is not running no such
boundary has a time yet, and the field is a free value (choice 6). -/
def effectTime (s : State) : Nat :=
  if s.time.tickRun then s.time.boundary (effectBoundary s) else Config.freeNat s.fresh

/-- R471. A record of a next-tick command, written as it is admitted. -/
def auditTick (c : Ctx) (event : Nat) (detail : List Byte) (s : State) : State :=
  audit event c.role c.slot c.f (effectTime s) detail { s with fresh := if s.time.tickRun then s.fresh else s.fresh + 1 }

/-- R471. An audited command whose record cannot be programmed returns INTERNAL with no effect. -/
def auditGuard (s : State) : Bool := !s.enrolled || !s.boot.flashBad

/-- R471. Run an audited next-tick command: its record first. -/
def tickAudited (event : Nat) (detail : List Byte) (c : Ctx) (s : State) : Reply × State :=
  if auditGuard s then (.wait .tick, auditTick c event detail s) else (.done St.internal [], s)

end Sys2Proof.Machine
end

