-- ==== Sys2Proof/Machine/CalCore.lean ====
section
/-!
DEFINITION. Calibration values in force: windows restarted, estimates applied and discarded (R219, R241, R245, R253, R254,
R259).
-/
namespace Sys2Proof.Machine

/-- Rounding to nearest of a quotient; which way a tie goes is open (choice 6). -/
def roundNear (a b : Nat) : Nat :=
  if 2 * (a % b) < b then a / b else if b < 2 * (a % b) then a / b + 1 else a / b + Config.half a b % 2

/-- R241, R245. Empty both windows of an estimator, and restart its time limit. -/
def Estimator.restart (now : Nat) (e : Estimator) : Estimator :=
  { e with even := default, odd := default, evenFill := 0, oddFill := 0, accepted := 0, emptiedAt := now, completeAt := none }

/-- R245. Restart the estimators of a list. -/
def restartEst (c : Nat) (ps : List Nat) (s : State) : State := forEach ps (fun p => modEst c p (Estimator.restart s.time.dev)) s

/-- R219. A value in force is replaced: CAL_GEN increments. -/
def bumpGen (c : Nat) (s : State) : State := modCal c (fun x => { x with gen := (x.gen + 1) % 4294967296 }) s

def modPipe (c : Nat) (g : Pipe → Pipe) (s : State) : State := modCfg c (fun x => { x with pipe := g x.pipe }) s

/-- R245. Estimators that a change of the value in force of parameter `p` restarts. -/
def downstream (p : Nat) : List Nat :=
  if p = 0 then [1, 2, 3] else if p = 1 then [3] else if p = 2 then [1, 3] else [3]

/-- R219, R254. An estimate comes into force. -/
def putEstimate (c : Nat) (v : CalValue) (s : State) : State :=
  bumpGen c (match v with
    | .black l => restartEst c (downstream 0) (modPipe c (fun p => { p with black := l }) s)
    | .shading g => restartEst c (downstream 1) (modPipe c (fun p => { p with shading := g }) s)
    | .defect m => restartEst c (downstream 2) (modPipe c (fun p => { p with defectStatic := [], defectEst := m }) s)
    | .colour r b => restartEst c (downstream 3) (modPipe c (fun p => { p with gainR := r, gainB := b }) s))

/-- R259. The value in force of a parameter goes back to the one last loaded by command. -/
def revertPipe (p : Nat) (x : Pipe) : Pipe :=
  if p = 0 then { x with black := x.blackCmd }
  else if p = 1 then { x with shading := x.shadingCmd }
  else if p = 2 then { x with defectStatic := x.defectCmd, defectEst := [] }
  else { x with gainR := 4096, gainB := 4096 }

/-- R259, R262. Discard the estimate of a parameter: in memory, in the calibration record, and in force. -/
def discardParam (c p : Nat) (s : State) : State :=
  let had := (tget (s.chan c).cal.applied p).isSome
  let s1 := modCal c (fun x => { x with
    applied := tset x.applied p none
    est := tmod x.est p fun e => { e with apply := none, estimate := none, agree := 0, drift := 0, appliedAt := 0, last := .none }
    stored := x.stored.map fun r => (r.1, tset r.2 p none) }) s
  if had then restartEst c (downstream p) (bumpGen c (modPipe c (revertPipe p) s1)) else s1

/-- R258. What the calibration record of a head holds: the estimates applied; for a parameter with none applied, a stored one that did not
take effect because its parameter was pinned (R259). -/
def recordOf (x : Cal) (idHash : List Byte) : Vector (Option CalValue) 4 :=
  match x.stored with
  | some (h, old) => if h == idHash then Vector.ofFn fun i => (tget x.applied i.val).orElse fun _ => tget old i.val else x.applied
  | none => x.applied

/-- R258. The calibration record of a Paired head takes the applied estimates, bound to the head's identity hash. -/
def saveEstimates (c : Nat) (s : State) : State :=
  match (s.chan c).head.state, (s.chan c).head.pairing with
  | .paired, some p =>
    modCal c (fun x => { x with stored := some (p.idHash, recordOf x p.idHash), recordAt := some s.time.elapsed }) s
  | _, _ => s

/-- R196, R198, R259. Discard every estimate of a channel; the values last loaded by command come back, and every window
is emptied (R245). -/
def discardEstimates (c : Nat) (s : State) : State :=
  restartEst c [0, 1, 2, 3] (forEach [0, 1, 2, 3] (discardParam c) s)

/-- R236, R238. The settings at and upstream of the tap of parameter `p`. -/
def upstream (p : Nat) (x : ChanCfg) : Option Bind × List Nat × List (Nat × Nat) × List Int :=
  let y := x.pipe
  let st (l : List Nat) : List Nat := l.map fun i => b2n (y.stages.getLsbD i)
  let dec := y.decompand
  if p = 0 then (x.bind, y.mosaic :: st [0], dec, [])
  else if p = 2 then (x.bind, y.mosaic :: st [0, 1] ++ y.black, dec, [])
  else if p = 1 then (x.bind, y.mosaic :: y.dynThr :: st [0, 1, 2, 6] ++ y.black, dec ++ y.defectStatic ++ y.defectEst, [])
  else (x.bind, y.mosaic :: y.dynThr :: y.irSub :: y.gainR :: y.gainB :: st [0, 1, 2, 3, 6] ++ y.black ++ y.shading,
    dec ++ y.defectStatic ++ y.defectEst, y.matrix ++ y.offsets)

/-- R238. Mark the frames of a channel in flight where its settings were `old` before this boundary. -/
def noteChanges (c : Nat) (old : ChanCfg) (s : State) : State :=
  let new := (s.chan c).cfg
  let m : BitVec 4 := BitVec.ofNat 4 (sumOf [0, 1, 2, 3] fun p => if upstream p old == upstream p new then 0 else 2 ^ p)
  if m = 0 then s
  else modChan c (fun x => { x with
    frames := x.frames.map fun f => { f with changed := f.changed ||| m }
    pipeJob := x.pipeJob.map fun f => { f with changed := f.changed ||| m } }) s

end Sys2Proof.Machine
end

