-- ==== Sys2Proof/Machine/Ingress.lean ====
section
/-!
DEFINITION. Camera ingress: ports, bindings, the line FIFO, frames and their records, settling, and the 0x02xx commands but
CHAN_START (R154 to R178; R26 to R32).
-/
namespace Sys2Proof.Machine

/-! ### Formats -/

/-- R154. The image data types. -/
def imageType (dt : Nat) : Bool := [0x2A, 0x2B, 0x2C, 0x2D, 0x2E, 0x2F, 0x27, 0x1E].contains dt

/-- R168, R163. Payload bytes of a line of `w` pixels in CSI-2 packing. -/
def lineBytes (dt w : Nat) : Nat :=
  if dt = 0x2A then w
  else if dt = 0x2B then w * 5 / 4
  else if dt = 0x2C then w * 3 / 2
  else if dt = 0x2D then w * 7 / 4
  else if dt = 0x2F then w * 5 / 2
  else if dt = 0x27 then 3 * w
  else 2 * w

/-! ### Enabled (R159) -/

/-- R159. A channel counts as enabled from the admission of its CHAN_START to the effect of its CHAN_STOP. -/
def countsEnabled (s : State) (c : Nat) : Bool := (s.chan c).enabled || pendingOn s (· == .chanStart) c

/-- The channels bound to a port. -/
def boundTo (s : State) (p : Nat) : List Nat := idx 32 fun c => (s.chan c).cfg.bind.any fun b => b.port == p

/-! ### Settling (R176) -/

/-- R176. The count of records to mark becomes the larger, and the reasons accumulate. -/
def mergeReasons (a b : Reasons) : Reasons := ⟨a.exposureGain || b.exposureGain, a.mode || b.mode, a.bind || b.bind⟩

def Chan.mark (n : Nat) (r : Reasons) (x : Chan) : Chan :=
  { x with settle := max x.settle n, reasons := mergeReasons (if x.settle = 0 then default else x.reasons) r }

/-- R176. At a capture time, marks whose first affected frame this is come into force; a mark still `skip` channel ticks
away comes nearer. -/
def takeMarks (t : Nat) (x : Chan) : Chan :=
  let due := x.marks.filter fun m => m.fromTime ≤ t && m.skip == 0
  let rest := (x.marks.filter fun m => !(m.fromTime ≤ t && m.skip == 0)).map fun m => if m.fromTime ≤ t then { m with skip := m.skip - 1 } else m
  due.foldl (fun y m => y.mark m.marks m.reasons) { x with marks := rest }

/-! ### FSYNC pulses (R26, R58, R60, R31) -/

/-- R58. Device time of a channel's pulse in the channel tick of boundary `b`. -/
def pulseTime (s : State) (r : Rate) (b : Nat) : Nat := s.time.boundary b + r.phase * s.time.period / 64

/-- R58. The boundary whose pulse is due: the last boundary passed that begins a channel tick of this run, if its pulse has
not left. -/
def pulseDue (s : State) (c : Nat) : Option Nat :=
  let x := s.chan c
  match x.cfg.rate with
  | none => none
  | some r =>
    let k := s.lastBoundary
    let b := k - (k + r.div - r.slot % r.div) % r.div
    if x.enabled && s.time.tickRun && 0 < s.time.passed && x.runFrom ≤ b && b % r.div == r.slot % r.div
      && (x.lastPulse.all fun p => p < b || p < x.runFrom) then some b else none

/-- R26, R58. The boundary of the channel tick after which the next expected frame comes. -/
def nextPulse (s : State) (x : Chan) (r : Rate) : Nat :=
  match x.lastPulse with
  | some p => if x.runFrom ≤ p then p + max 1 r.div else cdiv (x.runFrom - r.slot) (max 1 r.div) * max 1 r.div + r.slot
  | none => cdiv (max x.runFrom s.lastBoundary - r.slot) (max 1 r.div) * max 1 r.div + r.slot

/-- R176. How many of the next `n` expected frames will carry the unsettled mark, the first in the channel tick of boundary `b`. -/
def marksAhead (s : State) (r : Rate) : Nat → Nat → Chan → Nat
  | 0, _, _ => 0
  | n + 1, b, x =>
    let y := takeMarks (pulseTime s r b) x
    b2n (0 < y.settle) + marksAhead s r n (b + max 1 r.div) { y with settle := y.settle - 1 }

/-- R178. Unsettled records still to come, 0 to 2: those of frames in flight and those of frames to come. -/
def settleCount (s : State) (c : Nat) : Nat :=
  let x := s.chan c
  let ahead := match x.cfg.rate with
    | some r => if x.enabled then marksAhead s r 16 (nextPulse s x r) x else x.settle + sumOf x.marks SensorMark.marks
    | none => x.settle + sumOf x.marks SensorMark.marks
  min 2 ((x.frames.filter fun f => f.unsettled).length + ahead)

/-- R31, R32, R173, R176. The expected frame whose capture time is `t`. -/
def newFrame (s : State) (c b t : Nat) (r : Rate) : Frame :=
  let x := takeMarks t (s.chan c)
  { (default : Frame) with
    counter := x.nextCounter, capture := t, boundary := b
    deadline := b + r.div + (if r.phase = 0 then 0 else 1)
    cfg := x.cfg
    barred := !x.cfg.allowUnpaired && x.head.state != .paired
    unsettled := 0 < x.settle
    reasons := if 0 < x.settle then x.reasons else default
    truncLine := 0xFFFF
    calGen := x.cal.gen }

/-- R58, R60. Level of an FSYNC pin: the polarity of the channel says which level is active; without a rate it is active high. -/
def pinLevel (r : Option Rate) (active : Bool) : Bool := active != r.any Rate.low

/-- R58, R60. The pulse of boundary `b` leaves: the frame is expected, and the output takes its active level for w µs. -/
def pulse (c b : Nat) (r : Rate) (s : State) : State :=
  let t := pulseTime s r b
  let s1 := advanceTo t s
  let s2 := modChan c (fun x0 =>
    let x := takeMarks t x0
    { x with
      nextCounter := x.nextCounter + 1
      lastPulse := some b
      settle := x.settle - 1
      frames := x.frames ++ [newFrame s c b t r]
      fsync := 0 < r.width
      fsyncEnd := if 0 < r.width then some (t + r.width * 1000) else none }) s1
  if 0 < r.width then emit (.fsync c (pinLevel (some r) true) r.width) s2 else s2

/-- FSYNC_PULSE, R58. -/
def execFsyncPulse (ch : Nat) (s : State) : Host.Outcome State Fault Refusal :=
  match pulseDue s ch, (s.chan ch).cfg.rate with
  | some b, some r => .next (if s.time.refclk then pulse ch b r s else s)
  | _, _ => .next s

/-- FSYNC_PULSE_END, R60. -/
def execFsyncPulseEnd (ch : Nat) (s : State) : Host.Outcome State Fault Refusal :=
  match (s.chan ch).fsyncEnd with
  | some t => .next (emit (.fsync ch (pinLevel (s.chan ch).cfg.rate false) 0) (modChan ch (fun x => { x with fsync := false, fsyncEnd := none }) (advanceTo t s)))
  | none => .next s

/-! ### Packets (R160, R163 to R171) -/

/-- A binding names the (port, virtual channel) pair. -/
def onPair (port vc : Nat) (b : Option Bind) : Bool := b.any fun b => b.port == port && b.vc == vc

/-- R27. The frame still takes lines: its ingress deadline has not come. -/
def live (s : State) (f : Frame) : Bool := s.time.passed ≤ f.deadline && s.time.dev ≤ s.time.boundary f.deadline

/-- R32, R161. A frame in flight whose own binding is the pair. -/
def hasFrameOn (s : State) (port vc : Nat) (x : Chan) : Bool := x.frames.any fun f => onPair port vc f.cfg.bind && live s f

/-- R157, R160, R161. The channel that packets of a (port, virtual channel) pair belong to: the enabled one bound to it; else one with a
frame in flight that is bound to it. -/
def boundChan (s : State) (port vc : Nat) : Option Nat :=
  match (idx 32 fun c => (s.chan c).enabled && onPair port vc (s.chan c).cfg.bind).head? with
  | some c => some c
  | none => (idx 32 fun c => hasFrameOn s port vc (s.chan c)).head?

/-- R163. The pair is bound to some channel. -/
def pairBound (s : State) (port vc : Nat) : Bool :=
  (boundChan s port vc).isSome || (List.range 32).any fun c => onPair port vc (s.chan c).cfg.bind

/-- R156, R170. The header of a packet: ignored on a port never set; counted; refused when uncorrectable. -/
def takeHeader (port : Nat) (ecc : HdrEcc) (s : State) : Option State :=
  if !(s.rxPort port).set then none
  else match ecc with
    | .good => some s
    | .corrected => some (modRx port (fun x => { x with hdrCorr := satAdd 0xFFFFFFFF x.hdrCorr 1 }) s)
    | .uncorrectable => none

/-- R170. What an uncorrectable header leaves: its count. -/
def countUncorr (port : Nat) (ecc : HdrEcc) (s : State) : State :=
  if (s.rxPort port).set && ecc == .uncorrectable then modRx port (fun x => { x with hdrUncorr := satAdd 0xFFFFFFFF x.hdrUncorr 1 }) s else s

/-- R160, R167. A packet is discarded and counted in IGNORED while the channel is enabled. -/
def ignore (c : Nat) (s : State) : State :=
  if (s.chan c).enabled then modChan c (fun x => { x with ignored := satAdd 0xFFFFFFFF x.ignored 1 }) s else s

/-- Change the last element. -/
def mapLast {α : Type} (g : α → α) : List α → List α
  | [] => []
  | [a] => [g a]
  | a :: as => a :: mapLast g as

/-- R167. Close a frame to further lines when the next one opens. -/
def closeEarly (f : Frame) : Frame := if f.opened && !f.ended then { f with closedEarly := true } else f

/-- R159, R160. The frame belongs to the channel's run: to the one that began last, or, of a stopped channel, to any it had. -/
def ofRun (x : Chan) (f : Frame) : Bool := !x.enabled || x.runFrom ≤ f.boundary

/-- R160, R167. The latest expected frame whose capture time has come. -/
def expected (s : State) (x : Chan) : Option Frame := (x.frames.filter fun f => ofRun x f && f.capture ≤ s.time.dev).getLast?

/-- R27, R167. A Frame Start on a pair opens that frame where it has not been opened, is bound to the pair and still takes lines. -/
def canOpen (s : State) (port vc : Nat) (x : Chan) : Bool :=
  (expected s x).any fun f => !f.opened && onPair port vc f.cfg.bind && live s f

/-- Change the frame of a counter. -/
def modFrame (c counter : Nat) (g : Frame → Frame) (s : State) : State :=
  modChan c (fun x => { x with frames := x.frames.map fun y => if y.counter = counter then g y else y }) s

/-- R163, R165. The write-side count of a port: what the FIFO holds, and what the write side has not yet seen drained. -/
def RxPort.fill (x : RxPort) : Nat := sumOf x.fifo FifoLine.entries
def RxPort.level (x : RxPort) : Nat := x.fill + x.lag

/-- R163. Frequency of a port's word clock: RATE in Mb/s or Msym/s over the divisor, 8 for D-PHY and 7 for C-PHY. -/
def wclkDiv (x : RxPort) : Nat := if x.cphy then 7 else 8

/-- R164. H: entries by which the write-side count can exceed the true fill. -/
def fifoH (x : RxPort) : Nat := min 1024 (cdiv (3 * 800 * wclkDiv x) (max 1 x.rate))

/-- R164. The copy of the read pointer that the write side holds is at most three cycles of its clock old: of what was drained since, how
much it has not seen is open (choice 29); after three cycles it has seen all. -/
def seeDrained (now fresh : Nat) (x : RxPort) : RxPort :=
  if x.rate * (now - x.drainedAt) < 3000 * wclkDiv x then { x with lag := Config.freeNat fresh % (min x.lag (fifoH x) + 1) } else { x with lag := 0 }

/-- R165. LEVEL of a port as it stands now. -/
def levelNow (s : State) (p : Nat) : Nat := (seeDrained s.time.elapsed s.fresh (s.rxPort p)).level

/-- R167. A Frame Start opens the latest expected frame, closing the one before; otherwise it begins a run of ignored
packets. -/
def frameStart (c port vc : Nat) (s : State) : State :=
  let x := s.chan c
  if canOpen s port vc x then
    let k := ((expected s x).map Frame.counter).getD 0
    let lvl := levelNow s port
    modFrame c k (fun f => { f with opened := true, hwm := lvl }) (modChan c (fun y => { y with
      seenStart := true, ignoring := false, frames := y.frames.map fun f => if f.counter = k then f else closeEarly f }) s)
  else ignore c (modChan c (fun y => { y with ignoring := true }) s)

/-- The frame that packets of a channel now belong to: the one opened last. -/
def openFrame (x : Chan) : Option Frame := (x.frames.filter fun f => f.opened && ofRun x f).getLast?

/-- What becomes of a packet: it belongs to a frame, is counted in IGNORED (R160, R167), or is discarded (R27, R161). -/
inductive Fate where
  | frame (f : Frame) (b : Bind) | ignored | discarded
deriving DecidableEq, Repr, Inhabited

/-- R27, R32, R160, R161, R167. The fate of a packet of the pair, which belongs to channel `c`. -/
def packetFate (s : State) (c port vc : Nat) : Fate :=
  let x := s.chan c
  if x.enabled && (!x.seenStart || x.ignoring) then .ignored
  else if x.ignoring then .discarded
  else match openFrame x with
    | some f => match f.cfg.bind with
      | some b => if b.port = port ∧ b.vc = vc ∧ live s f = true then .frame f b else .discarded
      | none => .discarded
    | none => .discarded

/-- Run `g` on the frame that the packet belongs to; a packet that belongs to none changes only IGNORED. -/
def onFrame (c port vc : Nat) (g : Frame → Bind → State → State) (s : State) : State :=
  match packetFate s c port vc with
  | .frame f b => g f b s
  | .ignored => ignore c s
  | .discarded => s

/-- R166, R171. Packets of the frame are discarded: it overflowed, or it has more than 16 bad lines. -/
def Frame.refuses (f : Frame) : Bool := f.ovfLine.isSome || 16 < f.bad || f.closedEarly

/-- R169. A line of zero samples, or the most recent good line. -/
def replacement (f : Frame) (b : Bind) : List Byte := f.lastGood.getD (List.replicate (lineBytes b.dt b.width) 0#8)

/-- R169. Fill `n` missing positions by replacement, each a bad line. -/
def fillLines (b : Bind) : Nat → Frame → Frame
  | 0, f => f
  | n + 1, f => fillLines b n { f with lines := f.lines ++ [replacement f b], bad := f.bad + 1 }

/-- R168, R169. Take a good or malformed line at a known position; `num` is its line number. -/
def storeLine (b : Bind) (good : Bool) (num : Nat) (data : List Byte) (f : Frame) : Frame :=
  let g := fillLines b (num - 1 - f.lines.length) f
  if good then { g with lines := g.lines ++ [data], lastGood := some data, lastNum := num, lineStart := none }
  else { g with lines := g.lines ++ [replacement g b], bad := g.bad + 1, lastNum := num, lineStart := none }

/-- R163, R399. Entries that one served 256-byte chunk of the raw frame buffer takes from a line: the buffer holds RAW10 to RAW16 in 2 bytes a
pixel and RAW20 and RAW24 in 4 (R62), the FIFO the packed payload. The spec does not say how many (DESIGN CHOICE, choice 99). -/
def chunkEntries (dt : Nat) : Nat :=
  if dt = 0x2B || dt = 0x2F then 5 else if dt = 0x2C || dt = 0x27 then 6 else if dt = 0x2D then 7 else 8

/-- R166. Entries that are not stored leave the FIFO as soon as they are its oldest. -/
def dropOldest : List FifoLine → List FifoLine
  | [] => []
  | l :: ls => if l.dropped then dropOldest ls else l :: ls

/-- R163, R165, R166. Write `n` entries of a long packet into a port's FIFO: what it then holds, and whether the write found it full. -/
def fifoWrite (now c dt n : Nat) (kept : Bool) (x : RxPort) : RxPort × Bool :=
  let room := 1024 - x.level
  let full := room < n
  let y := { x with fifo := x.fifo ++ [(⟨c, min n room, chunkEntries dt, !kept || full⟩ : FifoLine)], wroteAt := now }
  ({ y with hwm := max y.hwm y.level, fifo := dropOldest y.fifo }, full)

/-- R165. Every frame that is open on a port, its record not closed, sees a level of the port's FIFO. -/
def seeLevel (port lvl : Nat) (x : Chan) : Chan :=
  { x with frames := x.frames.map fun f => if f.opened && f.cfg.bind.any (fun b => b.port == port) then { f with hwm := max f.hwm lvl } else f }

/-- R163 to R166. A long packet of a bound pair goes through the FIFO of its port, whether it is kept or not (R163, and 95 under
CSI2_LONG_PACKET: DEDUCED, choice 100); whether its write found the FIFO full. -/
def throughFifo (c port dt wc : Nat) (kept : Bool) (s : State) : Bool × State :=
  let x := seeDrained s.time.elapsed s.fresh (s.rxPort port)
  let w := fifoWrite s.time.elapsed c dt (cdiv wc 32) kept x
  let lvl := if w.2 then 1024 else x.level + cdiv wc 32
  (w.2, { modRx port (fun _ => w.1) { s with fresh := s.fresh + 1 } with chans := s.chans.map (seeLevel port lvl) })

/-- R166. A kept packet of a frame goes through the FIFO: it is stored, or the overflow truncates the frame from the line. -/
def keepPacket (c port dt wc counter : Nat) (store cut : Frame → Frame) (s : State) : State :=
  let r := throughFifo c port dt wc true s
  modFrame c counter (if r.1 then cut else store) r.2

/-- A discarded long packet. -/
def dropPacket (c port dt wc : Nat) (s : State) : State := (throughFifo c port dt wc false s).2

/-- R166, R169. The frame is truncated from the line of a known position; positions skipped before it are replaced and counted. -/
def cutAt (b : Bind) (num : Nat) (f : Frame) : Frame :=
  let g := fillLines b (num - 1 - f.lines.length) f
  { g with ovfLine := some (max (num - 1) f.lines.length) }

/-- R168, R169. An image line of frame `f`. -/
def imageLine (c : Nat) (b : Bind) (wc : Nat) (crcOk : Bool) (data : List Byte) (f : Frame) (s : State) : State :=
  let want := lineBytes b.dt b.width
  let s1 := modChan c (fun x => { x with wcErr := satAdd 0xFFFFFFFF x.wcErr (b2n (wc != want)) }) s
  let good := crcOk && wc == want
  let num := if b.lnum then f.lineStart.getD 0 else f.lines.length + 1
  if b.lnum && (num == 0 || num ≤ f.lastNum || b.height < num) then
    keepPacket c b.port b.dt wc f.counter (fun g => { g with bad := g.bad + 1, lineStart := none })
      (fun g => { g with ovfLine := some g.lines.length }) s1
  else keepPacket c b.port b.dt wc f.counter (storeLine b good num data) (cutAt b num) s1

/-- R168. A line that comes after Frame End or, without LNUM, after HEIGHT lines have been taken. -/
def extraLine (b : Bind) (f : Frame) : Bool := f.ended || (!b.lnum && b.height ≤ f.lines.length)

/-- R168, R178. A long packet of frame `f`. A CRC failure of any kind of long packet counts in CRC_ERR; embedded data is captured whether its
CRC is good or not, on which the spec is silent (DESIGN CHOICE, choice 101). -/
def longPacket (c port dt wc : Nat) (crcOk : Bool) (data : List Byte) (f : Frame) (b : Bind) (s0 : State) : State :=
  let s := modChan c (fun x => { x with crcErr := satAdd 0xFFFFFFFF x.crcErr (b2n (!crcOk)) }) s0
  if f.refuses then dropPacket c port dt wc s0
  else if dt = b.dt then
    (if extraLine b f then
      dropPacket c port dt wc (modChan c (fun y => { y with extraLines := satAdd 0xFFFFFFFF y.extraLines 1 }) s)
     else imageLine c b wc crcOk data f s)
  else if dt = 0x12 && b.emb then
    (if !f.ended && f.emb.length + wc ≤ 8192 then
      keepPacket c port dt wc f.counter (fun g => { g with emb := g.emb ++ fit wc data }) (fun g => { g with ovfLine := some g.lines.length }) s
     else dropPacket c port dt wc s)
  else dropPacket c port dt wc (modChan c (fun y => { y with otherDt := satAdd 0xFFFFFFFF y.otherDt 1 }) s)

/-- R169. Frame End: every missing line is appended by replacement. -/
def frameEnd (c : Nat) (f : Frame) (b : Bind) (s : State) : State :=
  if f.refuses || f.ended then s
  else modFrame c f.counter (fun g => { fillLines b (b.height - g.lines.length) g with ended := true }) s

/-- Run `g` for a packet whose header is accepted, with the channel that packets of its pair belong to. -/
def onPacket (port vc : Nat) (ecc : HdrEcc) (g : Nat → State → State) (s : State) : State :=
  match takeHeader port ecc s with
  | none => countUncorr port ecc s
  | some s1 => match boundChan s1 port vc with
    | none => s1
    | some c => g c s1

/-- R161, R163, R168. A long packet whose header is accepted. -/
def takeLong (port vc dt wc : Nat) (crcOk : Bool) (data : List Byte) (s : State) : State :=
  match boundChan s port vc with
  | none => if pairBound s port vc then dropPacket 0 port dt wc s else s
  | some c => match packetFate s c port vc with
    | .frame f b => longPacket c port dt wc crcOk data f b s
    | .ignored => dropPacket c port dt wc (ignore c s)
    | .discarded => dropPacket c port dt wc s

/-- R154. A port or virtual channel that no part has. -/
def noPort (port vc : Nat) : Bool := 16 ≤ port || 16 ≤ vc

/-- CSI2_LINE_START, R169. -/
def execCsi2LineStart (port vc line : Nat) (ecc : HdrEcc) (s : State) : Host.Outcome State Fault Refusal :=
  if noPort port vc then .refused (.noSuchUnit "receive port" port)
  else .next (onPacket port vc ecc (fun c => onFrame c port vc fun f b t =>
    if b.lnum && !f.refuses && !f.ended then modFrame c f.counter (fun g => { g with lineStart := some line }) t else t) s)

/-- CSI2_LONG_PACKET, R168. -/
def execCsi2LongPacket (port vc dt wc : Nat) (crcOk : Bool) (ecc : HdrEcc) (data : List Byte) (s : State) :
    Host.Outcome State Fault Refusal :=
  if noPort port vc then .refused (.noSuchUnit "receive port" port)
  else .next (match takeHeader port ecc s with
    | none => countUncorr port ecc s
    | some s1 => takeLong port vc dt wc crcOk data s1)

/-- CSI2_FRAME_END, R169. -/
def execCsi2FrameEnd (port vc : Nat) (ecc : HdrEcc) (s : State) : Host.Outcome State Fault Refusal :=
  if noPort port vc then .refused (.noSuchUnit "receive port" port)
  else .next (onPacket port vc ecc (fun c => onFrame c port vc (frameEnd c)) s)

/-- CSI2_PHY_ERROR, R178. -/
def execCsi2PhyError (port : Nat) (s : State) : Host.Outcome State Fault Refusal :=
  if 16 ≤ port then .refused (.noSuchUnit "receive port" port)
  else .next (if (s.rxPort port).set then modRx port (fun x => { x with phyErr := satAdd 0xFFFFFFFF x.phyErr 1 }) s else s)

/-! ### Records (R172, R173) -/

/-- R172. The record of a frame at its ingress deadline: the first outcome that applies. -/
def Frame.close (f : Frame) : Frame :=
  let h := (f.cfg.bind.map Bind.height).getD 0
  if !f.opened || f.barred || 16 < f.bad then { f with outcome := .dropped, truncLine := 0xFFFF }
  else match f.ovfLine with
    | some l => { f with outcome := .truncated, fifoOvf := true, truncLine := l }
    | none => if !f.ended then { f with outcome := .truncated, late := true, truncLine := min h f.lines.length }
              else { f with outcome := .complete, truncLine := 0xFFFF }

/-- R172. The cause bits a closed record sets on source 32 + n. Row 1 sets the NO_FRAME condition, row 2 DROPPED and the
HEAD_UNPAIRED condition. -/
def recordCauses (f : Frame) : List Nat :=
  (if !f.opened then [9]
   else if f.barred then [1, 5]
   else if 16 < f.bad then [1]
   else (if 0 < f.bad then [0] else []) ++ (if f.fifoOvf then [2] else []) ++ (if f.late then [3] else []))
  ++ (if f.unsettled then [4] else [])

/-- R172, R173, R132. Close the oldest frame's record: counters, sources, and the frame handed to the pipeline. -/
def closeRecord (c : Nat) (f0 : Frame) (s : State) : State :=
  let x := s.chan c
  let f1 := f0.close
  let f := { f1 with
    headKnown := x.head.state == .paired || x.head.state == .unpaired
    prevOk := x.lastRec.isNone || !x.lastDropped }
  let s1 := modChan c (fun y => { y with
    frames := y.frames.tail
    lastRec := some f
    closed := (f.counter, f.capture)
    lastDropped := f.outcome == .dropped
    frameHwm := f.hwm
    embBytes := f.emb.length
    noFrame := if ofRun y f then y.enabled && !f.opened else y.noFrame
    trunc := satAdd 0xFFFF y.trunc (b2n (f.outcome == .truncated))
    drop := satAdd 0xFFFF y.drop (b2n (f.outcome == .dropped))
    pipeJob := some f
    pipeCut := none }) s
  raiseFrame c (forEach (recordCauses f) (fun b => raiseIngress c b) s1)

/-- R27, R172. The frame whose ingress deadline has passed. -/
def deadlineDue (s : State) (c : Nat) : Option Frame :=
  (s.chan c).frames.head?.filter fun f => f.deadline < s.time.passed

/-! ### The 0x02xx commands -/

/-- R155, R156. The map names each physical lane or trio at most once, and none beyond LANES. Entries of logical lanes at or above LANES, and
their polarity bits, take any value: the spec does not say whether they count as naming a lane (DESIGN CHOICE, choice 102). -/
def mapGood (cphy : Bool) (lanes map : Nat) : Bool :=
  let l := (List.range lanes).map fun i => map / 4 ^ i % 4
  map == 0 || (l.all (fun p => p < lanes) && l.eraseDups.length == lanes &&
    (if cphy then map < 64 else map < 8192))

/-- R156 (06, Corners). Frames of a stopped run that are still in the FIFO are discarded as it is emptied: nothing of them is kept, and they
take no further line (choice 103). -/
def Chan.loseFifo (port : Nat) (inFifo : Bool) (x : Chan) : Chan :=
  { x with frames := x.frames.map fun f =>
      if inFifo && f.opened && f.cfg.bind.any (fun b => b.port == port) then { f with lines := [], emb := [], ended := false, closedEarly := true } else f }

/-- CHAN_PORT_SET, R156. -/
def chanPortSetB : Behaviour where
  reserved q := q.u 19 1 < 2 && (if q.u 17 1 == 1 then q.u 22 2 / 64 == 0 else q.u 22 2 / 8192 == 0)
  fields _ c := need (c.q.u 16 1 < 16 && c.q.u 17 1 < 2 && 1 ≤ c.q.u 18 1 && c.q.u 18 1 ≤ (if c.q.u 17 1 = 0 then 4 else 3)
    && (c.q.u 17 1 == 0 || !c.q.bit 19 0) && 80 ≤ c.q.u 20 2 && c.q.u 20 2 ≤ 4500
    && mapGood (c.q.u 17 1 == 1) (c.q.u 18 1) (c.q.u 22 2)) St.range
  member s c _ := need (!(boundTo s (c.q.u 16 1)).any fun n => countsEnabled s n) St.quiesce
  run _ s := (.wait .tick, s)
  effect c s := modRx (c.q.u 16 1) (fun x => { x with
    set := true, cphy := c.q.u 17 1 == 1, lanes := c.q.u 18 1, contClk := c.q.bit 19 0, rate := c.q.u 20 2
    map := BitVec.ofNat 16 (c.q.u 22 2), fifo := [], hwm := 0, lag := 0 })
    { s with chans := (Vector.ofFn fun i => (s.chan i.val).loseFifo (c.q.u 16 1) ((s.rxPort (c.q.u 16 1)).fifo.any fun l => l.ch == i.val && !l.dropped)) }

/-- R157. The binding a request names. -/
def bindOf (q : Request) : Bind := ⟨q.u 16 1, q.u 17 1, q.u 18 1, q.bit 19 0, q.bit 19 1, q.u 20 2, q.u 22 2⟩

/-- R158. Bindings in force and admitted ones still pending, of channels other than `c`. -/
def otherBinds (s : State) (c : Nat) : List Bind :=
  ((List.range 32).filter (· != c)).filterMap (fun n => (s.chan n).cfg.bind) ++
    (s.exec.filter fun x => Op.ofCode x.entry.opcode.toNat == some .chanBind && !x.members.contains c).map fun x => bindOf x.entry.req

/-- CHAN_BIND, R158. -/
def chanBindB : Behaviour where
  reserved q := q.u 19 1 < 4
  fields _ c :=
    let b := bindOf c.q
    if b.port = 0xFF then need (c.q.zero 17 7) St.range
    else need (b.port < 16 && b.vc < 16 && imageType b.dt && b.width % 4 == 0 && 16 ≤ b.width && b.width ≤ 4096
      && b.height % 2 == 0 && 16 ≤ b.height && b.height ≤ 4096 && b.width * b.height ≤ 8847360) St.range
  member s c m :=
    let b := bindOf c.q
    firstOf [need (!countsEnabled s m) St.quiesce,
      need (b.port == 0xFF || (!(otherBinds s m).any (fun o => o.port == b.port && o.vc == b.vc)
        && ((otherBinds s m).filter fun o => o.port == b.port).length < 4)) St.range]
  run _ s := (.wait .tick, s)
  effect c s :=
    let b := bindOf c.q
    forEach c.members (fun m t =>
      let t1 := if (t.chan m).head.pairing.isSome then t else discardEstimates m t
      restartEst m [0, 1, 2, 3] (modCfg m (fun x => { x with bind := if b.port = 0xFF then none else some b }) t1)) s

/-- R161, R258. A channel stops at its boundary; frames in flight complete, and its calibration record takes the latest
estimates. -/
def stopChan (c : Nat) (s : State) : State :=
  if (s.chan c).enabled then saveEstimates c (modChan c (fun x => { x with enabled := false, noFrame := false }) s) else s

/-- CHAN_STOP, R161. -/
def chanStopB : Behaviour where
  run _ s := (.wait .tick, s)
  effect c s := forEach c.members stopChan s

/-- R186. A transfer that has not begun. -/
def newXfer (c : Nat) (k : BusClass) (u : BusUse) (todo : List Txn) : BusXfer := ⟨c, k, u, todo, [], false, 0, 0⟩

/-- R185, R186. Put a transfer on channel `c`'s bus, after those of its class. -/
def busPush (c : Nat) (x : BusXfer) (s : State) : State :=
  match (s.chan c).cfg.attach with
  | none => s
  | some a =>
    let rank (k : BusClass) : Nat := match k with | .sensor => 0 | .device => 1 | .host => 2
    { s with buses := tmod s.buses a.bus fun l =>
        (l.filter fun y => y.active || rank y.cls ≤ rank x.cls) ++ [x] ++ l.filter fun y => !(y.active || rank y.cls ≤ rank x.cls) }

/-- R174. Reasons of a declared change. -/
def sensorReasons (k : Nat) : Reasons := ⟨bitOf k 0 || bitOf k 1, bitOf k 2, false⟩

/-- R175, R176. One member's change takes effect: its mark, and its write put on the bus. -/
def sensorEffect (c : Ctx) (m : Nat) (s : State) : State :=
  let t := s.time.boundary s.lastBoundary
  let s1 := modChan m (fun x => { x with marks := x.marks ++ [⟨t + 1000000, c.q.u 28 1,
    if c.q.bit 16 2 then 2 else 1, sensorReasons (c.q.u 16 1)⟩] }) s
  let w := [BitVec.ofNat 8 (c.q.u 18 2 / 256), BitVec.ofNat 8 (c.q.u 18 2)] ++ c.q.bytes 20 (c.q.u 17 1)
  let s1 := when (c.q.bit 16 2) (restartEst m [0, 1, 2, 3]) s1
  if 0 < c.q.u 17 1 then busPush m { newXfer m .sensor .sensorWrite [⟨w, 0, false⟩] with due := t + 1000000 } s1 else s1

/-- R107. The deferred head commands. -/
def isHeadCmd (o : Op) : Bool := o == .headPair || o == .headIdGet || o == .headI3cXfer

/-- CHAN_SENSOR_SET, R175. -/
def chanSensorSetB : Behaviour where
  reserved q := q.zero 29 3 && q.u 16 1 < 8
  fields _ c :=
    let w := c.q.u 17 1
    firstOf [need (c.q.u 16 1 != 0 && w ≤ 8 && c.q.u 28 1 ≤ 3 && isZeros (c.q.bytes (20 + min 8 w) (8 - w))
        && (w != 0 || c.q.u 18 2 == 0)) St.range,
      need (c.q.u 18 2 < 0xFE00) St.denied]
  member s _ m := need (!deferredOn s isHeadCmd m) St.busy
  later s c m := need (c.q.u 17 1 == 0 || (s.chan m).cfg.attach.isSome) St.range
  run _ s := (.wait .tick, s)
  effect c s := forEach c.members (sensorEffect c) s

/-- CHAN_QUERY, R178. -/
def chanQueryB : Behaviour where
  run c s :=
    let x := s.chan (c.members.headD 0)
    let p := match x.cfg.bind with | some b => s.rxPort b.port | none => default
    let n := settleCount s (c.members.headD 0)
    let r := if n = 0 then default else x.marks.foldl (fun a m => mergeReasons a m.reasons)
      (x.frames.foldl (fun a f => if f.unsettled then mergeReasons a f.reasons else a) (if 0 < x.settle then x.reasons else default))
    (.done St.ok (le 2 (n + 4 * b2n r.exposureGain + 8 * b2n r.mode + 16 * b2n r.bind) ++ le 2 x.frameHwm ++ le 2 x.embBytes
      ++ le 2 0 ++ le 4 x.crcErr ++ le 4 x.wcErr ++ le 4 x.otherDt ++ le 4 x.extraLines ++ le 4 x.ignored ++ le 4 p.hdrCorr
      ++ le 4 p.hdrUncorr ++ le 4 p.phyErr), s)

end Sys2Proof.Machine
end

