-- ==== Sys2Proof/Machine/Pipe.lean ====
section
/-!
DEFINITION. The 0x03xx commands: stage controls, tables and windows (R205 to R228).
-/
namespace Sys2Proof.Machine

/-- R206. MOSAIC agrees with a bound data type. -/
def mosaicFits (mosaic : Nat) (b : Option Bind) : Bool :=
  match b with
  | none => true
  | some x => (mosaic == 7) == (x.dt == 0x1E)

/-- R222. The format families. -/
def isVision (f : Nat) : Bool := f == 0x20 || f == 0x21 || f == 0x22
def isCoding (f : Nat) : Bool := f == 0x10 || f == 0x11
def isDisplay (f : Nat) : Bool := f == 0x01 || f == 0x02

/-- R207. The channel's controls as the pipeline takes the request. -/
def pipeOf (q : Request) (p : Pipe) : Pipe :=
  let levels := (List.range 4).map fun i => q.u (20 + 2 * i) 2
  let p1 := { p with
    mosaic := q.u 16 1, stages := BitVec.ofNat 8 (q.u 17 1), csc := BitVec.ofNat 8 (q.u 18 1), toneStr := q.u 19 1
    dynThr := q.u 28 2, irSub := q.u 30 1 }
  if q.bit 31 0 then { p1 with black := levels, blackCmd := levels } else p1

/-- R245. Estimators that a change of controls restarts. -/
def pipeRestarts (a b : Pipe) : List Nat :=
  let d (i : Nat) : Bool := a.stages.getLsbD i != b.stages.getLsbD i
  (if d 0 then [0, 1, 2, 3] else []) ++ (if a.black != b.black then [1, 2, 3] else []) ++ (if d 2 || d 6 then [1, 3] else [])
    ++ (if d 3 || a.mosaic != b.mosaic || a.irSub != b.irSub then [3] else [])

/-- R219. SET_BLACK replaces a value in force. -/
def pipeSet (q : Request) (c : Nat) (s : State) : State :=
  let a := (s.chan c).cfg.pipe
  let b := pipeOf q a
  let s1 := restartEst c (pipeRestarts a b) (modPipe c (fun _ => b) s)
  if q.bit 31 0 then bumpGen c (modCal c (fun x => { x with applied := tset x.applied 0 none }) s1) else s1

/-- CHAN_PIPE_SET, R508, R207, R208. -/
def chanPipeSetB : Behaviour where
  reserved q := q.zero 32 16 && q.u 17 1 < 128 && q.u 18 1 < 8 && q.u 31 1 < 2
  fields _ c :=
    let q := c.q
    need (q.u 16 1 ≤ 7 && q.u 18 1 % 4 != 3 && q.u 28 2 ≤ 4095
      && (q.bit 31 0 || q.zero 20 8) && (q.u 16 1 == 6 || q.zero 30 1)
      && (q.u 16 1 != 7 || (q.zero 17 1 && q.zero 19 1 && q.zero 20 8 && q.zero 28 2 && q.zero 31 1))) St.range
  later s c m := need (mosaicFits (c.q.u 16 1) (s.chan m).cfg.bind
    && (c.q.u 16 1 != 7 || ((tget (s.chan m).cfg.hooks 0).isNone && (tget (s.chan m).cfg.hooks 1).isNone))) St.range
  run _ s := (.wait .tick, s)
  effect c s := forEach c.members (pipeSet c.q) s

/-! ### Tables (R217, R218) -/

/-- R217. Bits of a code of a data type. -/
def codeBits (dt : Nat) : Nat :=
  if dt = 0x2A then 8 else if dt = 0x2B then 10 else if dt = 0x2C then 12 else if dt = 0x2D then 14
  else if dt = 0x2E then 16 else if dt = 0x2F then 20 else 24

/-- R217. Bytes a table of a kind has, from its first four bytes. -/
def lutBytes (kind count : Nat) : Nat :=
  if kind = 0 then 264 else if kind = 1 then 2312 else if kind = 2 then 4 + 4 * count else if kind = 3 then 32
  else if kind = 4 then 130 else 514

/-- Strictly, or weakly, increasing. -/
def increasing (lt : Nat → Nat → Bool) : List Nat → Bool
  | a :: b :: rest => lt a b && increasing lt (b :: rest)
  | _ => true

/-- 16-bit entries of a table. -/
def halves (bs : List Byte) (off n : Nat) : List Nat := (List.range n).map fun i => field bs (off + 2 * i) 2

/-- R217. The pixels of a DEFECT table. -/
def defectPixels (bs : List Byte) : List (Nat × Nat) :=
  (List.range (field bs 0 4)).map fun i => (field bs (4 + 4 * i) 4 % 4096, field bs (4 + 4 * i) 4 / 4096 % 4096)

/-- R217. Limits of a table that depend on its own bytes. -/
def lutGood (kind : Nat) (bs : List Byte) : Bool :=
  if kind = 0 then
    (let xs := (List.range 33).map fun i => field bs (8 * i) 4
     let ys := (List.range 33).map fun i => field bs (8 * i + 4) 4
     xs.headD 1 == 0 && increasing (fun a b => a < b) xs && increasing (fun a b => a ≤ b) ys && ys.all (fun y => y < 16777216)
       && xs.all fun x => x < 16777216)
  else if kind = 1 then (halves bs 0 1156).all fun g => 0x0800 ≤ g
  else if kind = 2 then (List.range (field bs 0 4)).all fun i => field bs (4 + 4 * i) 4 < 16777216
  else if kind = 3 then isZeros (slice bs 24 8)
  else if kind = 5 then increasing (fun a b => a ≤ b) (halves bs 0 257)
  else true

/-- R217, R218. Limits that depend on a member's binding or MOSAIC. -/
def lutFits (kind : Nat) (bs : List Byte) (x : Chan) : Bool :=
  x.cfg.pipe.mosaic != 7 &&
    match x.cfg.bind with
    | none => true
    | some b =>
      if kind = 0 then (List.range 33).all fun i => field bs (8 * i) 4 < 2 ^ codeBits b.dt
      else if kind = 2 then (defectPixels bs).all fun p => p.1 < b.width && p.2 < b.height
      else true

/-- R217, R219, R254. Put a table in force. -/
def lutPut (kind : Nat) (bs : List Byte) (c : Nat) (s : State) : State :=
  let drop (p : Nat) (t : State) : State := modCal c (fun x => { x with applied := tset x.applied p none }) t
  if kind = 0 then
    restartEst c [0, 1, 2, 3] (modPipe c (fun p => { p with
      decompand := (List.range 33).map fun i => (field bs (8 * i) 4, field bs (8 * i + 4) 4) }) s)
  else if kind = 1 then
    restartEst c (downstream 1) (bumpGen c (drop 1 (modPipe c (fun p => { p with shading := halves bs 0 1156, shadingCmd := halves bs 0 1156 }) s)))
  else if kind = 2 then
    restartEst c (downstream 2) (bumpGen c (drop 2 (modPipe c (fun p => { p with
      defectStatic := defectPixels bs, defectCmd := defectPixels bs, defectEst := [] }) s)))
  else if kind = 3 then
    restartEst c (downstream 3) (bumpGen c (drop 3 (modPipe c (fun p => { p with
      matrix := (List.range 9).map fun i => sfield bs (2 * i) 2
      offsets := (List.range 3).map fun i => sfield bs (18 + 2 * i) 2
      gainR := 4096, gainB := 4096 }) s)))
  else if kind = 4 then modPipe c (fun p => { p with tone := halves bs 0 65 }) s
  else modPipe c (fun p => { p with gamma := halves bs 0 257 }) s

/-- R116. The answer where members fail step 11: their own status for a single selector, PARTIAL_REJECT otherwise. -/
def memberAnswer (k : Sel) (q : Request) (bad : List (Nat × Byte)) : Option (Byte × List Byte) :=
  match bad with
  | [] => none
  | (m, e) :: _ =>
    if selSingle k q then some (e, [])
    else some (St.partialReject, le 2 m ++ [e] ++ le 1 (min 255 bad.length)
      ++ le 32 (bad.foldl (fun a p => a + 2 ^ p.1) 0))

/-- R218. A load whose buffer has been read: length, then limits; then it waits for its boundary. -/
def lutRead (c : Ctx) (s : State) : Reply × State :=
  let kind := c.q.u 16 1
  let count := field c.data 0 4
  if kind = 2 && 4096 < count then (.done St.range [], s)
  else if (c.q.dma 20).2 < lutBytes kind count then (.done St.badLength [], s)
  else if !lutGood kind c.data then (.done St.range [], s)
  else (.wait .tick, s)

/-- R218. A load whose buffer has been read as far as `n` bytes: for DEFECT, COUNT first, and then what COUNT requires. -/
def lutResume (c : Ctx) (n : Nat) (s : State) : Reply × State :=
  let need := lutBytes (c.q.u 16 1) (field c.data 0 4)
  if c.q.u 16 1 = 2 ∧ field c.data 0 4 ≤ 4096 ∧ need ≤ (c.q.dma 20).2 ∧ n < need then (.wait (.dma (c.q.dma 20).1 need), s) else lutRead c s

/-- CHAN_LUT_LOAD, R217, R218. The buffer is read before step 12, as far as the kind requires. -/
def chanLutLoadB : Behaviour where
  reserved q := q.zero 17 3
  fields _ c := firstOf [need (c.q.u 16 1 ≤ 5) St.range, dmaRange (c.q.dma 20),
    need ((if c.q.u 16 1 = 2 then 4 else lutBytes (c.q.u 16 1) 0) ≤ (c.q.dma 20).2) St.badLength]
  later s _ m := need ((s.chan m).cfg.pipe.mosaic != 7) St.range
  dataLater s c m := need (lutFits (c.q.u 16 1) c.data (s.chan m)) St.range
  run c s := (.wait (.dma (c.q.dma 20).1 (if c.q.u 16 1 = 2 then 4 else lutBytes (c.q.u 16 1) 0)), s)
  resume c w s :=
    match w with
    | .dma _ n => lutResume c n s
    | _ => lutRead c s
  effect c s := forEach c.members (lutPut (c.q.u 16 1) c.data) s

/-! ### Windows (R221 to R228) -/

/-- R221. The window a request names. -/
def windowOf (q : Request) : Window :=
  { format := q.u 17 1, pyramid := q.bit 18 0, ir := q.bit 18 1, mirror := q.bit 18 2, unsealed := q.bit 18 3
    cropX := q.u 20 2, cropY := q.u 22 2, cropW := q.u 24 2, cropH := q.u 26 2, outW := q.u 28 2, outH := q.u 30 2 }

/-- R222, R223. Conditions on a window that depend on its own fields. -/
def windowGood (w : Window) : Bool :=
  (isVision w.format || isCoding w.format || isDisplay w.format)
    && w.cropX % 2 == 0 && w.cropY % 2 == 0 && w.cropW % 2 == 0 && w.cropH % 2 == 0 && 16 ≤ w.cropW && 16 ≤ w.cropH
    && 16 ≤ w.outW && w.outW ≤ 4096 && 16 ≤ w.outH && w.outH ≤ 4096 && w.outW * w.outH ≤ 8847360
    && (!isCoding w.format || (w.outW % 8 == 0 && w.outH % 8 == 0)) && (w.format != 0x02 || w.outW % 2 == 0)
    && w.cropW ≤ 8 * w.outW && w.outW ≤ 2 * w.cropW && w.cropH ≤ 8 * w.outH && w.outH ≤ 2 * w.cropH
    && (!w.ir || w.format == 0x20 || w.format == 0x22)
    && (!w.pyramid || (w.format == 0x22 && w.outW % 16 == 0 && w.outH % 16 == 0))
    && (!w.unsealed || isVision w.format)

/-- R223, R228. Conditions on a window that depend on the channel's binding and controls; with no binding there is no
geometry to break. -/
def windowFits (w : Window) (x : ChanCfg) : Bool :=
  (x.pipe.mosaic != 7 || w.format != 0x22) && (!w.ir || x.pipe.mosaic == 6)
    && (match x.bind with
      | none => true
      | some b => w.cropX + w.cropW ≤ b.width && w.cropY + w.cropH ≤ b.height)

/-- R226, R265. A window keeps the format and size of every started coded stream whose source it is, also where it has been cleared
meanwhile (R227). A stream is started from its enabling on, whether or not its channel runs (DEDUCED, choice 118). -/
def windowKept (s : State) (c i : Nat) (w : Window) : Bool :=
  let x := s.chan c
  [0, 1].all fun st =>
    let k := tget x.cfg.streams st
    let r := tget x.runs st
    !k.enable || k.win != i || (match tget x.cfg.windows i with
      | some o => o.format == w.format && o.outW == w.outW && o.outH == w.outH
      | none => r.format == w.format && r.dims == (w.outW, w.outH))

/-- CHAN_WINDOW_SET, R221. -/
def chanWindowSetB : Behaviour where
  reserved q := q.zero 19 1 && q.zero 32 12 && q.u 18 1 < 16
  present s q := s.hasVision || !isVision (q.u 17 1)
  fields _ c :=
    let w := windowOf c.q
    firstOf [need (w.cropW != 0 && w.cropH != 0 && w.outW != 0 && w.outH != 0) St.badLength,
      need (c.q.u 16 1 < 4 && windowGood w) St.range]
  later s c m :=
    let w := windowOf c.q
    firstOf [need (windowFits w (s.chan m).cfg) St.range, need (windowKept s m (c.q.u 16 1) w) St.range]
  run _ s := (.wait .tick, s)
  effect c s := forEach c.members (fun m => modCfg m fun x => { x with windows := tset x.windows (c.q.u 16 1) (some (windowOf c.q)) }) s

/-- CHAN_WINDOW_CLEAR, R227. -/
def chanWindowClearB : Behaviour where
  reserved q := q.zero 17 3 && q.u 16 1 < 16
  run _ s := (.wait .tick, s)
  effect c s := forEach c.members (fun m => modCfg m fun x =>
    { x with windows := Vector.ofFn fun i => if c.q.bit 16 i.val then none else tget x.windows i.val }) s

/-- R228. CHAN_START's check of a channel's controls and windows. -/
def startWindows (x : ChanCfg) : Bool :=
  mosaicFits x.pipe.mosaic x.bind && x.windows.toList.all fun o => o.all fun w => windowGood w && windowFits w x

end Sys2Proof.Machine
end

