-- ==== Sys2Proof/Machine/Pixels.lean ====
section
/-!
DEFINITION. What the image pipeline computes: the stages, the windows and the scene measures (R204 to R216, R224, R225, R230,
R231, R239). A plane is a list of rows. Where the spec fixes a value only up to a rounding, or names a filter without its
numbers, an opaque constant of Config stands for it (choice 6).
-/
namespace Sys2Proof.Machine

abbrev Plane := List (List Nat)

def at2 (p : Plane) (r c : Nat) : Nat := (p[r]?.getD [])[c]?.getD 0

/-- A plane from a function of row and column. -/
def mkPlane (h w : Nat) (g : Nat → Nat → Nat) : Plane := (List.range h).map fun r => (List.range w).map fun c => g r c

/-- R213. Position `i` reflected about the outermost of `n` rows or columns, as often as it takes. -/
def reflect (n : Nat) (i : Int) : Nat :=
  let j := (i % (2 * (n - 1) : Nat)).toNat
  if j < n then j else 2 * (n - 1) - j

/-- R213. Position `i` mirrored about the outermost row or column of `n`, aligned to the mosaic period. Reflection keeps the place in a
period of 2. In the period of 4, odd rows and columns are alike, and an even one that lands two places off is taken two further in
(DEDUCED, choice 109). -/
def mirrorAt (period n : Nat) (i : Int) : Nat :=
  let j := reflect n i
  if period = 4 && i % 2 = 0 && (i - j) % 4 ≠ 0 then (if 2 ≤ j then j - 2 else j + 2) else j

/-- R205. Saturation of stages 1 to 6. -/
def sat24 (v : Int) : Nat := (clampI 0 16777215 v).toNat

/-- R207, R213. Colour at a place of the mosaic: 0 red, 1 green or the dense plane C, 2 blue (green for RCCG), 3 IR. -/
def colourAt (mosaic r c : Nat) : Nat :=
  let a := r % 2
  let b := c % 2
  if mosaic = 6 then
    (if r % 2 = 1 then (if c % 2 = 0 then 1 else 3)
     else if c % 2 = 1 then 1 else if (r + c) % 4 = 0 then 2 else 0)
  else if mosaic = 0 || mosaic = 4 || mosaic = 5 then (if a = 0 && b = 0 then 0 else if a = 1 && b = 1 then 2 else 1)
  else if mosaic = 1 then (if a = 0 && b = 1 then 0 else if a = 1 && b = 0 then 2 else 1)
  else if mosaic = 2 then (if a = 0 && b = 1 then 2 else if a = 1 && b = 0 then 0 else 1)
  else (if a = 0 && b = 0 then 2 else if a = 1 && b = 1 then 0 else 1)

/-- R210. Position or plane whose black level and gain a pixel takes. -/
def planeAt (mosaic r c : Nat) : Nat := if mosaic = 6 then colourAt mosaic r c else 2 * (r % 2) + c % 2

def mosaicPeriod (m : Nat) : Nat := if m = 6 then 4 else 2

/-- R209. The DECOMPAND table at a code: linear between knees, rounded to nearest. -/
def decompandAt : List (Nat × Nat) → Nat → Nat
  | (x0, y0) :: (x1, y1) :: rest, v =>
    if v < x1 then y0 + roundNear ((y1 - y0) * (v - x0)) (x1 - x0) else decompandAt ((x1, y1) :: rest) v
  | [(_, y)], _ => y
  | [], v => v

/-- R205. Stage 1 of one sample. -/
def stage1 (p : Pipe) (bits v : Nat) : Nat :=
  if p.stages.getLsbD 0 then min 16777215 (decompandAt p.decompand v) else v * 2 ^ (24 - bits)

/-- R205. The samples after stage 1: stored lines, and zeros for lines never stored. -/
def rawPlane (f : Frame) : Plane :=
  match f.cfg.bind with
  | none => []
  | some b => (List.range b.height).map fun r =>
      let l := Config.unpack b.dt (f.lines[r]?.getD (zeros (lineBytes b.dt b.width)))
      (List.range b.width).map fun c => stage1 f.cfg.pipe (codeBits b.dt) (l[c]?.getD 0)

/-- R210. Stage 2. -/
def blackStage (p : Pipe) (x : Plane) : Plane :=
  if p.stages.getLsbD 1 then
    mkPlane x.length (x.headD []).length fun r c => at2 x r c - (p.black[planeAt p.mosaic r c]?.getD 0) * 256
  else x

/-- R211. Value of the nearest same-colour neighbour of a pixel along an axis step from step `k` on, passing over pixels in a map, in at
most `n` steps. -/
def neighbour (m : Nat) (bad : Nat → Nat → Bool) (x : Plane) (h w r c : Nat) (dr dc : Int) : Nat → Nat → Option Nat
  | 0, _ => none
  | n + 1, k =>
    let a := mirrorAt (mosaicPeriod m) h (r + dr * k)
    let b := mirrorAt (mosaicPeriod m) w (c + dc * k)
    if colourAt m a b = colourAt m r c && !bad a b then some (at2 x a b) else neighbour m bad x h w r c dr dc n (k + 1)

/-- R211. The mean of the two same-colour neighbours along the axis of the smaller absolute difference. The search passes over the whole of
an axis, mirrored (R213); a neighbour where every pixel of the colour on it is in a map has no value that the spec states (choice 6). -/
def defectMean (m : Nat) (bad : Nat → Nat → Bool) (x : Plane) (h w r c : Nat) : Nat :=
  let v (d : Int × Int) : Nat := (neighbour m bad x h w r c d.1 d.2 (2 * (h + w)) 1).getD (Config.openSample 0 [r, c] % 16777216)
  let a := (v (0, -1), v (0, 1))
  let b := (v (-1, 0), v (1, 0))
  let d (t : Nat × Nat) : Nat := max t.1 t.2 - min t.1 t.2
  let t := if d a ≤ d b then a else b
  (roundTo 3 (t.1 + t.2 : Nat) 2).toNat

/-- R211. Values of the 8 nearest same-colour neighbours: those along the rows, the columns and the diagonals. -/
def ring8 (m : Nat) (x : Plane) (h w r c : Nat) : List Nat :=
  [(-1, -1), (-1, 0), (-1, 1), (0, -1), (0, 1), (1, -1), (1, 0), (1, 1)].filterMap fun (d : Int × Int) =>
    neighbour m (fun _ _ => false) x h w r c d.1 d.2 8 1

/-- R211. Stage 3. -/
def defectStage (p : Pipe) (x : Plane) : Plane :=
  let h := x.length
  let w := (x.headD []).length
  let bad (r c : Nat) : Bool := p.defectStatic.contains (c, r) || p.defectEst.contains (c, r)
  if p.stages.getLsbD 2 then
    mkPlane h w fun r c =>
      let v := at2 x r c
      let n := ring8 p.mosaic x h w r c
      let dyn := p.stages.getLsbD 6 && (n.foldl max 0 + p.dynThr * 4096 < v || v + p.dynThr * 4096 < n.foldl min 16777215)
      if bad r c || dyn then defectMean p.mosaic bad x h w r c else v
  else x

/-- R212. Gain in 4.12, scaled by (h - 1) (w - 1), of one pixel by bilinear interpolation of its plane's nodes. -/
def shadeGain (p : Pipe) (h w r c : Nat) : Nat :=
  let k := planeAt p.mosaic r c
  let g (i j : Nat) : Nat := p.shading[k * 289 + min 16 i * 17 + min 16 j]?.getD 4096
  let i := 16 * r / (h - 1)
  let j := 16 * c / (w - 1)
  let u := 16 * r % (h - 1)
  let v := 16 * c % (w - 1)
  (g i j * (h - 1 - u) + g (i + 1) j * u) * (w - 1 - v) + (g i (j + 1) * (h - 1 - u) + g (i + 1) (j + 1) * u) * v

/-- R212. Stage 4. -/
def shadeStage (p : Pipe) (x : Plane) : Plane :=
  let h := x.length
  let w := (x.headD []).length
  if p.stages.getLsbD 3 then
    mkPlane h w fun r c => sat24 (roundTo 4 (at2 x r c * shadeGain p h w r c : Nat) (4096 * ((h - 1) * (w - 1))))
  else x

/-- R213. The 5 x 5 support of a pixel. -/
def support (m : Nat) (x : Plane) (r c : Nat) : List Nat :=
  let t := mosaicPeriod m
  (List.range 25).map fun i =>
    at2 x (mirrorAt t x.length ((r : Int) + (i / 5 : Nat) - 2)) (mirrorAt t (x.headD []).length ((c : Int) + (i % 5 : Nat) - 2))

/-- R213. The mean of four directions' values, each weighted with the inverse of its gradient, as numerator and denominator. Directions
without a gradient outweigh all others (choice 6). -/
def inverseMean (g : List Nat) (d : List Int) : Int × Nat :=
  let flat := (List.zip g d).filter fun p => p.1 = 0
  let prod (i : Nat) : Nat := (List.range g.length).foldl (fun a j => if j = i then a else a * (g[j]?.getD 1)) 1
  if flat.isEmpty then
    ((List.range g.length).foldl (fun a i => a + d[i]?.getD 0 * (prod i : Nat)) 0, sumOf (List.range g.length) prod)
  else (flat.foldl (fun a p => a + p.2) 0, flat.length)

/-- R213. The difference of colour `k` from the dense plane at a pixel: the horizontal, vertical and diagonal estimates, each weighted with
the inverse of its direction's gradient. How a gradient and an estimate are formed from the support the spec leaves open (choice 6). -/
def colourDifference (m k : Nat) (sup : List Nat) (r c : Nat) : Int :=
  let place := 4 * (r % 4) + c % 4
  let q := inverseMean ([0, 1, 2, 3].map fun i => Config.gradient m place i sup) ([0, 1, 2, 3].map fun i => Config.colourDiff m place k i sup)
  roundTo 1 q.1 q.2

/-- R213. Colour `k` of a pixel: its own sample, or the dense plane there (which at a pixel of another colour is that sample less its
difference) and the difference of `k`. -/
def demosaicAt (m : Nat) (x : Plane) (k r c : Nat) : Nat :=
  let own := colourAt m r c
  let sup := support m x r c
  let dense : Int := if own = 1 then (at2 x r c : Nat) else (at2 x r c : Nat) - colourDifference m own sup r c
  if own = k then at2 x r c else sat24 (if k = 1 then dense else dense + colourDifference m k sup r c)

/-- R213. Stage 5: the planes, and IR for RGB-IR, whose share is subtracted from R, G and B. -/
def demosaicStage (p : Pipe) (x : Plane) : List Plane :=
  let h := x.length
  let w := (x.headD []).length
  let plane (k : Nat) : Plane := mkPlane h w (demosaicAt p.mosaic x k)
  if p.mosaic = 6 then
    let ir := plane 3
    ((List.range 3).map fun k => mkPlane h w fun r c => sat24 (roundTo 5 ((at2 (plane k) r c * 256 : Nat) - (at2 ir r c * p.irSub : Nat)) 256)) ++ [ir]
  else [plane 0, plane 1, plane 2]

/-- R214, R249. The effective matrix: rows 0 and 2 carry the R and B gains; with no table loaded it is 0 (choice 4). -/
def matrixAt (p : Pipe) (r c : Nat) : Int :=
  (p.matrix[3 * r + c]?.getD 0) * (if r = 0 then p.gainR else if r = 2 then p.gainB else 4096)

/-- R214. Stage 6. -/
def matrixStage (p : Pipe) (xs : List Plane) : List Plane :=
  let g (k : Nat) : Plane := xs[k]?.getD []
  (List.range 3).map fun i => mkPlane (g 0).length ((g 0).headD []).length fun r c =>
    sat24 (roundTo 6 (matrixAt p i 0 * at2 (g 0) r c + matrixAt p i 1 * at2 (g 1) r c + matrixAt p i 2 * at2 (g 2) r c
      + (p.offsets[i]?.getD 0) * 256 * 16777216) 16777216)

/-- R207, R216. Weights of R and B in the luma of BT.601, BT.709 and BT.2020, in 1/10,000 (PRESUMED, choice 110); G has the rest. -/
def lumaWeights (csc : BitVec 8) : Nat × Nat :=
  if csc.toNat % 4 = 0 then (2990, 1140) else if csc.toNat % 4 = 1 then (2126, 722) else (2627, 593)

/-- R216, R220. 10,000 times the luma of R, G, B with the Y weights of the CSC matrix. -/
def luma10000 (csc : BitVec 8) (r g b : Nat) : Nat :=
  let k := lumaWeights csc
  k.1 * r + (10000 - k.1 - k.2) * g + k.2 * b

/-- R220. Linear luma of linear R, G, B. -/
def lumaOf (p : Pipe) (r g b : Nat) : Nat := sat24 (roundTo 7 (luma10000 p.csc r g b : Nat) 10000)

/-- R215. Region means of luma over a 16 x 16 grid, and the mean of the frame. -/
def lumaMeans (p : Pipe) (xs : List Plane) : List Nat × Nat :=
  let g (k : Nat) : Plane := xs[k]?.getD []
  let h := (g 0).length
  let w := ((g 0).headD []).length
  let y := mkPlane h w fun r c => lumaOf p (at2 (g 0) r c) (at2 (g 1) r c) (at2 (g 2) r c)
  let region (i : Nat) : Nat :=
    let rows := (y.drop (i / 16 * h / 16)).take ((i / 16 + 1) * h / 16 - i / 16 * h / 16)
    let cells := rows.flatMap fun l => (l.drop (i % 16 * w / 16)).take ((i % 16 + 1) * w / 16 - i % 16 * w / 16)
    (roundTo 8 (cells.foldl (· + ·) 0 : Nat) cells.length).toNat
  ((List.range 256).map region, (roundTo 8 (y.flatten.foldl (· + ·) 0 : Nat) (h * w)).toNat)

/-- R217. Luma at entry `i` of the TONE table, and linear value at entry `i` of GAMMA. -/
def toneKnee (i : Nat) : Nat := i * i * 16777215 / 4096
def gammaKnee (i : Nat) : Nat := i * i * 16777215 / 65536

/-- R215. T at a mean luma, by linear interpolation, in 4.12. -/
def toneAt (p : Pipe) (y : Nat) : Nat :=
  let i := ((List.range 64).filter fun k => toneKnee k ≤ y).getLast?.getD 0
  let a := p.tone[i]?.getD 4096
  let b := p.tone[i + 1]?.getD a
  (roundTo 9 ((a * (toneKnee (i + 1) - y) + b * (y - toneKnee i)) : Nat) (toneKnee (i + 1) - toneKnee i)).toNat

/-- R215. Region gain in units of 1 / (255 x 4096). -/
def toneGain (p : Pipe) (y : Nat) : Nat := 255 * 4096 + p.toneStr * toneAt p y - p.toneStr * 4096

/-- R215. Stage 7: one gain for the frame, or regional gains interpolated between region centres. `means` is the previous
usable record's; `direct` says it is the record immediately before. -/
def toneStage (p : Pipe) (means : Option (List Nat × Nat)) (direct : Bool) (xs : List Plane) : List Plane :=
  if !p.stages.getLsbD 4 then xs
  else
    let h := (xs.headD []).length
    let w := ((xs.headD []).headD []).length
    let unit := 255 * 4096
    let frame := match means with | none => unit | some m => toneGain p m.2
    let gain (r c : Nat) : Nat × Nat :=
      match means with
      | some m =>
        if direct then
          let g (i j : Int) : Nat := toneGain p (m.1[(clampI 0 15 i).toNat * 16 + (clampI 0 15 j).toNat]?.getD 0)
          let a := ((2 * r + 1) * 16 : Int) - h
          let b := ((2 * c + 1) * 16 : Int) - w
          let i := a / (2 * h)
          let j := b / (2 * w)
          let u := (a % (2 * h)).toNat
          let v := (b % (2 * w)).toNat
          ((g i j * (2 * h - u) + g (i + 1) j * u) * (2 * w - v) + (g i (j + 1) * (2 * h - u) + g (i + 1) (j + 1) * u) * v, 4 * h * w)
        else (frame, 1)
      | none => (frame, 1)
    xs.map fun x => mkPlane h w fun r c => sat24 (roundTo 10 (at2 x r c * (gain r c).1 : Nat) (unit * (gain r c).2))

/-- R216. Stage 8 of one component, 16 bits. -/
def gammaAt (p : Pipe) (v : Nat) : Nat :=
  if !p.stages.getLsbD 5 then v / 256
  else
    let i := ((List.range 256).filter fun k => gammaKnee k ≤ v).getLast?.getD 0
    let a := p.gamma[i]?.getD 0
    let b := p.gamma[i + 1]?.getD a
    (roundTo 11 ((a * (gammaKnee (i + 1) - v) + b * (v - gammaKnee i)) : Nat) (gammaKnee (i + 1) - gammaKnee i)).toNat

def gammaStage (p : Pipe) (xs : List Plane) : List Plane := xs.map fun x => x.map fun l => l.map (gammaAt p)

/-- R216. Rounding to nearest of a quotient of either sign; which way a tie goes is open (choice 6). -/
def roundNearI (a : Int) (b : Nat) : Int := if 0 ≤ a then roundNear a.toNat b else -(roundNear a.natAbs b : Int)

/-- R216. Stage 9: component `k` (Y', Cb, Cr) at `bits` bits of one pixel of 16-bit components. Full scale is 65,535. In limited range Y'
spans 16 to 235 and chroma 16 to 240 at 8 bits, in full range both the whole of the code; chroma is the difference of B or R from luma over
twice one less its weight (choice 110). -/
def cscAt (p : Pipe) (bits k r g b : Nat) : Nat :=
  let full := p.csc.getLsbD 2
  let unit := 2 ^ (bits - 8)
  let y := luma10000 p.csc r g b
  let span (lim : Nat) : Nat := if full then 2 ^ bits - 1 else lim * unit
  let v : Int :=
    if k = 0 then (if full then 0 else 16 * unit : Nat) + roundNearI (span 219 * y : Nat) (655350000)
    else
      let x := if k = 1 then b else r
      let w := if k = 1 then (lumaWeights p.csc).2 else (lumaWeights p.csc).1
      (128 * unit : Nat) + roundNearI (span 224 * ((10000 * x : Nat) - (y : Int))) (65535 * 2 * (10000 - w))
  (clampI 0 (2 ^ bits - 1 : Nat) v).toNat

def cscStage (p : Pipe) (bits : Nat) (xs : List Plane) : List Plane :=
  let g (k : Nat) : Plane := xs[k]?.getD []
  (List.range 3).map fun k => mkPlane (g 0).length ((g 0).headD []).length fun r c => cscAt p bits k (at2 (g 0) r c) (at2 (g 1) r c) (at2 (g 2) r c)

/-! ### The scaler (R224) -/

/-- R224, R216. Four times OUT times the centre of output sample `i`, CROP + (i + a/4) SIZE / OUT - a/4: `a` is 2 for samples centred in
their step, and 1 for chroma co-sited with the even luma columns, on its own grid (DEDUCED, choice 111). -/
def scaleCentre (a crop size out i : Nat) : Int := (4 * out * crop + (4 * i + a) * size : Nat) - (a * out : Nat)

/-- R224. Integer position and phase of output sample `i`. -/
def scalePos (a crop size out i : Nat) : Int := scaleCentre a crop size out i / (4 * out)
def scalePhase (a crop size out i : Nat) : Nat := (64 * (scaleCentre a crop size out i % (4 * out)) / (4 * out)).toNat

/-- R213, R224. Position mirrored inside the crop. -/
def cropMirror (crop size : Nat) (i : Int) : Nat := crop + reflect size (i - crop)

/-- R224. Input positions and taps of output sample `i` on an axis: `n` of them from `first` below the centre. -/
def scaleTaps (a table n first crop size out i : Nat) : List (Nat × Int) :=
  (List.range n).map fun (t : Nat) =>
    (cropMirror crop size (scalePos a crop size out i - (first : Int) + (t : Int)), Config.tap table (scalePhase a crop size out i) t)

/-- An axis of a plane to be scaled: siting of its samples, crop and output size. -/
structure Axis where
  a : Nat
  crop : Nat
  size : Nat
  out : Nat
deriving DecidableEq, Repr, Inhabited

/-- R224. A plane of `bits` bits scaled, 8 taps horizontally and 6 vertically, and mirrored when MIRROR is set. The taps are in 1/4,096
(their values are open, choice 6), and a sample saturates at its format's range. -/
def scalePlane (bits : Nat) (mirror : Bool) (x y : Axis) (p : Plane) : Plane :=
  let b := mkPlane y.out x.out fun r c =>
    let v := (scaleTaps y.a 1 6 2 y.crop y.size y.out r).foldl (fun (s : Int) t =>
      s + t.2 * (scaleTaps x.a 0 8 3 x.crop x.size x.out c).foldl (fun (q : Int) u => q + u.2 * (at2 p t.1 u.1 : Nat)) 0) 0
    (clampI 0 (2 ^ bits - 1 : Nat) (roundTo 13 v (4096 * 4096))).toNat
  if mirror then b.map List.reverse else b

/-- R216. Chroma planes on their own grid: even columns of each row, and for 4:2:0 the mean of each row pair. -/
def chroma422 (p : Plane) : Plane := p.map fun l => (List.range (l.length / 2)).map fun i => l[2 * i]?.getD 0
def chroma420 (p : Plane) : Plane :=
  let q := chroma422 p
  mkPlane (q.length / 2) (q.headD []).length fun r c => (roundTo 14 (at2 q (2 * r) c + at2 q (2 * r + 1) c : Nat) 2).toNat

/-! ### Windows (R220, R225, R230, R231) -/

/-- R224. The input rows of the support of output row `i` of a window. -/
def rowSupport (w : Window) (i : Nat) : List Nat :=
  (List.range 6).map fun k => cropMirror w.cropY w.cropH (scalePos 2 w.cropY w.cropH w.outH i - 2 + (k : Int))

/-- R231. Output row `i` of a window is derived from input at or below line `t`. -/
def rowTruncated (w : Window) (t i : Nat) : Bool := (rowSupport w i).any fun k => t ≤ k

/-- R216, R224, R231. The same of chroma row `i` of a 4:2:0 window, whose support lies on the chroma grid, where a row is the mean of two
lines. -/
def chromaRowTruncated (w : Window) (t i : Nat) : Bool :=
  (rowSupport { w with cropY := w.cropY / 2, cropH := w.cropH / 2, outH := w.outH / 2 } i).any fun k => t ≤ 2 * k + 1

/-- R231, R229. First output row derived from truncated input, or 0xFFFF. -/
def truncRow (w : Window) (t : Nat) : Nat :=
  if t = 0xFFFF then 0xFFFF else ((List.range w.outH).find? (rowTruncated w t)).getD 0xFFFF

/-- R231. Rows of a plane that `cut` names hold `black`, where a record is truncated at line `t`. -/
def blackWhere (t : Nat) (cut : Nat → Bool) (black : Nat) (p : Plane) : Plane :=
  if t = 0xFFFF then p
  else (List.range p.length).map fun r => if cut r then List.replicate ((p[r]?.getD []).length) black else p[r]?.getD []

/-- R231. Rows of a plane of `div` base rows each that are truncated hold `black`. -/
def blackRows (w : Window) (t div black : Nat) (p : Plane) : Plane :=
  blackWhere t (fun r => (List.range div).any fun k => rowTruncated w t (div * r + k)) black p

/-- R225. The 2 x 2 mean, rounded to nearest. -/
def halfPlane (p : Plane) : Plane :=
  mkPlane (p.length / 2) ((p.headD []).length / 2) fun r c =>
    roundNear (at2 p (2 * r) (2 * c) + at2 p (2 * r) (2 * c + 1) + at2 p (2 * r + 1) (2 * c) + at2 p (2 * r + 1) (2 * c + 1)) 4

def bytes8 (p : Plane) : List Byte := p.flatten.map (BitVec.ofNat 8)
def bytes16 (p : Plane) : List Byte := p.flatten.flatMap (le 2)

/-- R225, R230. A base and its four further levels; the rows of every level computed from truncated rows hold 0. -/
def pyramid (w : Window) (t : Nat) (p : Plane) : List Byte :=
  let l1 := halfPlane p
  let l2 := halfPlane l1
  let l3 := halfPlane l2
  let l4 := halfPlane l3
  bytes16 p ++ bytes16 (blackRows w t 2 0 l1) ++ bytes16 (blackRows w t 4 0 l2) ++ bytes16 (blackRows w t 8 0 l3)
    ++ bytes16 (blackRows w t 16 0 l4)

/-- What one pass leaves at the two taps of R220: the tone-mapped planes after stage 8, those of the vision family after
stage 6, IR, and whether the channel is YUV422. -/
structure Tapped where
  toned : List Plane
  linear : List Plane
  ir : Plane
  yuv : Option (List Plane)
deriving DecidableEq, Repr, Inhabited

/-- R206. Y, Cb, Cr of a YUV422 frame, chroma repeated to the luma grid. -/
def yuvPlanes (f : Frame) : List Plane :=
  match f.cfg.bind with
  | none => []
  | some b =>
    let rows := (List.range b.height).map fun r => Config.unpack b.dt (f.lines[r]?.getD (zeros (lineBytes b.dt b.width)))
    let col (k c : Nat) : Nat := if k = 0 then 2 * c + 1 else 4 * (c / 2) + (if k = 1 then 0 else 2)
    (List.range 3).map fun k => rows.map fun l => (List.range b.width).map fun c => l[col k c]?.getD 0

/-- R210 to R214. Stages 2 to 6 of a plane: R, G, B, and IR for RGB-IR. -/
def linearPlanes (p : Pipe) (x : Plane) : List Plane :=
  let d := demosaicStage p (shadeStage p (defectStage p (blackStage p x)))
  matrixStage p d ++ (d[3]?.toList)

/-- R215, R216, R220. The taps of a frame, from its linear planes. -/
def tapsOf (p : Pipe) (lin : List Plane) (means : Option (List Nat × Nat)) (direct : Bool) : Tapped :=
  let rgb := lin.take 3
  { toned := gammaStage p (toneStage p means direct rgb), linear := rgb, ir := lin[3]?.getD [], yuv := none }

/-- R216, R206. Y', Cb, Cr at `bits`: stage 9, or the YUV422 input unchanged. -/
def ycbcr (p : Pipe) (t : Tapped) (vision : Bool) (bits : Nat) : List Plane :=
  match t.yuv with
  | some y => if bits = 10 then y.map fun q => q.map fun l => l.map (· * 4) else y
  | none => cscStage p bits (if vision then gammaStage p t.linear else t.toned)

/-- Samples of planes at 8 bits from 16. -/
def shift8 (xs : List Plane) : List Plane := xs.map fun (q : Plane) => q.map fun (l : List Nat) => l.map (· / 256)

/-- Interleave planes of equal shape sample by sample. -/
def interleave (xs : List Plane) : Plane :=
  let g (k : Nat) : Plane := xs[k]?.getD []
  (List.range (g 0).length).map fun r => (List.range ((g 0)[r]?.getD []).length).flatMap fun c => xs.map fun q => at2 q r c

/-- R231. Black luma at a number of bits: limited or full range. -/
def lumaBlack (p : Pipe) (bits : Nat) : Nat := if p.csc.getLsbD 2 then 0 else 16 * 2 ^ (bits - 8)

/-- Bits of a sample of a coding format. -/
def codingBits (fmt : Nat) : Nat := if fmt = 0x10 then 8 else 10

/-- R231. The rows of every plane of a window derived from a line at or below `tl` hold the black of the format. -/
def blackWindow (p : Pipe) (tl : Nat) (w : Window) (xs : List Plane) : List Plane :=
  let cut (r : Nat) : Bool := tl ≠ 0xFFFF && rowTruncated w tl r
  if w.format = 0x02 then
    xs.map fun q => mkPlane q.length (q.headD []).length fun r c => if cut r then (if c % 2 = 0 then lumaBlack p 8 else 128) else at2 q r c
  else if isCoding w.format then
    let b := codingBits w.format
    (List.range xs.length).map fun k =>
      if k = 0 then blackRows w tl 1 (lumaBlack p b) (xs[k]?.getD [])
      else blackWhere tl (chromaRowTruncated w tl) (128 * 2 ^ (b - 8)) (xs[k]?.getD [])
  else xs.map (blackRows w tl 1 0)

/-- R220, R222, R230. The samples of a window in memory order: one plane of bytes for a display format, the planes of a coding or vision
format. What RGB888 and planar RGB hold of a YUV422 channel the spec does not say: Y, Cb and Cr stand in the places of R, G and B
(DESIGN CHOICE 108). -/
def formPlanes (p : Pipe) (t : Tapped) (w : Window) : List Plane :=
  let ya : Axis := ⟨2, w.cropY, w.cropH, w.outH⟩
  let yh : Axis := ⟨2, w.cropY / 2, w.cropH / 2, w.outH / 2⟩
  let xh : Axis := ⟨1, w.cropX / 2, w.cropW / 2, w.outW / 2⟩
  let full (bits : Nat) (q : Plane) : Plane := scalePlane bits w.mirror ⟨2, w.cropX, w.cropW, w.outW⟩ ya q
  if w.format = 0x01 then [interleave ((t.yuv.getD (shift8 t.toned)).map (full 8))]
  else if w.format = 0x02 then
    let y := ycbcr p t false 8
    let g (k : Nat) : Plane := y[k]?.getD []
    let yy := full 8 (g 0)
    let ch (k : Nat) : Plane := scalePlane 8 w.mirror xh ya (chroma422 (g k))
    let half (k : Nat) : Plane := yy.map fun l => (List.range (l.length / 2)).map fun i => l[2 * i + k]?.getD 0
    [interleave [half 0, ch 1, half 1, ch 2]]
  else if isCoding w.format then
    let bits := codingBits w.format
    let y := ycbcr p t false bits
    let g (k : Nat) : Plane := y[k]?.getD []
    let ch (k : Nat) : Plane := scalePlane bits w.mirror xh yh (chroma420 (g k))
    [full bits (g 0), ch 1, ch 2]
  else if w.format = 0x20 then
    (if w.ir then [full 8 (t.ir.map fun l => l.map (· / 65536))] else [full 8 ((ycbcr p t true 8)[0]?.getD [])])
  else if w.format = 0x21 then (t.yuv.getD (shift8 (gammaStage p t.linear))).map (full 8)
  else
    let g (k : Nat) : Plane := t.linear[k]?.getD []
    [full 16 (if w.ir then t.ir.map fun l => l.map (· / 256)
      else mkPlane (g 0).length ((g 0).headD []).length fun r c => lumaOf p (at2 (g 0) r c) (at2 (g 1) r c) (at2 (g 2) r c) / 256)]

/-- R222, R230, R231. The samples of a window of a record whose first truncated line is `tl`. -/
def windowPlanes (p : Pipe) (tl : Nat) (t : Tapped) (w : Window) : List Plane := blackWindow p tl w (formPlanes p t w)

/-- R230. The bytes of a window's planes. -/
def windowBytes (tl : Nat) (w : Window) (xs : List Plane) : List Byte :=
  let g (k : Nat) : Plane := xs[k]?.getD []
  if isDisplay w.format then bytes8 (g 0)
  else if isCoding w.format then
    (let put (v : Nat) : List Byte := if w.format = 0x10 then le 1 v else le 2 (v * 64)
     (g 0).flatten.flatMap put ++ (interleave [g 1, g 2]).flatten.flatMap put)
  else if w.format = 0x22 then (if w.pyramid then pyramid w tl (g 0) else bytes16 (g 0))
  else xs.flatMap bytes8

/-! ### Scene measures (R239) -/

/-- R239. The dense plane over a grid of 32 x 32 blocks whose edges lie at the whole parts of the 32nds of the frame: for each block the sum
of its samples, 4,096 to one LSB at 12-bit, and their number. A block that holds none (a frame of fewer than 32 rows or columns) has a mean
that the spec does not state (choice 6). -/
def blockMeans (m : Nat) (x : Plane) : List (Nat × Nat) :=
  let h := x.length
  let w := (x.headD []).length
  let edge (n i : Nat) : Nat := i * n / 32
  (List.range 1024).map fun i =>
    let (r0, r1, c0, c1) := (edge h (i / 32), edge h (i / 32 + 1), edge w (i % 32), edge w (i % 32 + 1))
    let cells := (List.range (r1 - r0)).flatMap fun a => (List.range (c1 - c0)).filterMap fun b =>
      if colourAt m (r0 + a) (c0 + b) = 1 then some (at2 x (r0 + a) (c0 + b)) else none
    if cells.isEmpty then (Config.openSample 1 [i, h, w], 1) else (cells.foldl (· + ·) 0, cells.length)

/-- The mean of a block. -/
def blockMean (b : Nat × Nat) : Rat := (b.1 : Rat) / (b.2 : Rat)

/-- The dense plane's samples in ascending order. -/
def denseSorted (m : Nat) (x : Plane) : List Nat :=
  ((List.range x.length).flatMap fun r => (List.range (x.headD []).length).filterMap fun c =>
    if colourAt m r c = 1 then some (at2 x r c) else none).mergeSort (fun a b => a ≤ b)

/-- R239. A, S, C and M of a record against their thresholds, with samples at 24-bit scale (4,096 to one LSB at 12-bit):
A at most 2, A at least 8, S at least 32, C at least 8, M at most 64. -/
structure Scene where
  still : Bool
  moving : Bool
  contrast : Bool
  ratio : Bool
  dark : Bool
deriving DecidableEq, Repr, Inhabited

/-- The sample of `l`, ascending, at `p` in 1,000: at the whole place, or the one below or above it (choice 6). -/
def percentile (l : List Nat) (p : Nat) : Nat :=
  let i := p * (l.length - 1)
  l[i / 1000 + (if i % 1000 = 0 then 0 else Config.rank l.length p % 2)]?.getD 0

def sceneOf (m : Nat) (prev : List (Nat × Nat)) (x : Plane) : Scene :=
  let b := (blockMeans m x).map blockMean
  let add (l : List Rat) : Rat := l.foldl (· + ·) 0
  let act := add (List.zipWith (fun u v => if u < v then v - u else u - v) b (prev.map blockMean))
  let d := denseSorted m x
  { still := act ≤ 2 * 4096 * 1024, moving := 8 * 4096 * 1024 ≤ act
    contrast := (32 * 4096 * 1024) * (32 * 4096 * 1024) ≤ 1024 * add (b.map fun v => v * v) - add b * add b
    ratio := 8 * max 4096 (percentile d 20) ≤ percentile d 980
    dark := percentile d 500 ≤ 64 * 4096 }

end Sys2Proof.Machine
end

