-- ==== Sys2Proof/Machine/Calib.lean ====
section
/-!
DEFINITION. Self-calibration: what a record adds to the twin windows, what an estimate is, its outcome, and the 0x0Dxx
commands (R235 to R264).
-/
namespace Sys2Proof.Machine

/-! ### Conditions of acceptance (R237 to R243) -/

/-- R243. BLACK uses the dark floor: the last passing check named no optical-black rows. -/
def darkFloor (h : Head) : Bool := !(bitOf (field h.ident 2 1) 0 && 2 ≤ field h.ident 39 1)

/-- R240. The head temperature is stable. -/
def tempStable (h : Head) : Bool :=
  let l := h.temps.filterMap id
  h.temps.length == 5 && l.length == 5 && l.foldl max (l.headD 0) - l.foldl min (l.headD 0) ≤ 32

/-- R242. Frames per window, and time limit in ns. -/
def needed (h : Head) (p : Nat) : Nat := if p = 0 then (if darkFloor h then 128 else 32) else if p = 1 then 2048 else 512
def timeLimit (h : Head) (p : Nat) : Nat := if p = 0 && !darkFloor h then 60000000000 else 3600000000000

/-- R237, R260, R263. The estimator of parameter `p` is enabled, and the channel is not bound to YUV422. -/
def estRuns (x : Chan) (p : Nat) : Bool := x.cal.enable.getLsbD p && !(x.cfg.bind.any fun b => b.dt == 0x1E)

/-- R238. The record's statistics are admitted to the estimator of `p`. -/
def admitted (f : Frame) (p : Nat) : Bool :=
  f.outcome == .complete && f.bad == 0 && !f.unsettled && f.prevOk && f.headKnown && !f.changed.getLsbD p

/-! ### Samples (R246 to R249) -/

/-- R246. A BLACK sample: for each plane the sum and count of the optical-black lines, or the 0.5th percentile. -/
def blackSample (h : Head) (m : Nat) (x : Plane) : CalSample :=
  let rows := if darkFloor h then x.length else min x.length (field h.ident 39 1)
  let vals (k : Nat) : List Nat := (List.range rows).flatMap fun r =>
    (List.range (x.headD []).length).filterMap fun c => if planeAt m r c = k then some (at2 x r c) else none
  ⟨(List.range 4).map fun k =>
    let v := vals k
    if darkFloor h then (percentile (v.mergeSort fun a b => a ≤ b) 5, 1, 0) else (v.foldl (· + ·) 0, v.length, 0)⟩

/-- R247. A SHADING sample: the mean of each node's cell, 2 % and 90 % exclusions applied. -/
def shadeSample (m : Nat) (x : Plane) : CalSample :=
  let h := x.length
  let w := (x.headD []).length
  let near (i n r : Nat) : Bool := 2 * i * (n - 1) ≤ 32 * r + n && 32 * r < 2 * i * (n - 1) + n
  ⟨(List.range 1156).map fun a =>
    let k := a / 289
    let v := ((List.range h).filter (near (a % 289 / 17) h)).flatMap fun r =>
      ((List.range w).filter (near (a % 17) w)).filterMap fun c =>
        let y := at2 x r c
        if planeAt m r c = k && 2 * 16777215 ≤ 100 * y && 10 * y ≤ 9 * 16777215 then some y else none
    if v.isEmpty then (0, 0, 0) else ((roundTo 16 (v.foldl (· + ·) 0 : Nat) v.length).toNat, 1, 0)⟩

/-- R248. A DEFECT sample: each pixel's value and its square. -/
def defectSample (x : Plane) : CalSample := ⟨x.flatten.map fun v => (v, 1, v * v)⟩

/-- R249. All three components lie between 5 % and 80 % of full scale. -/
def midTone (v : Nat) : Bool := 16777215 ≤ 20 * v && 5 * v ≤ 4 * 16777215

/-- R249. The mid-tone pixels of a record: sums of R, G and B, with their count. -/
def colourSample (xs : List Plane) : CalSample :=
  let g (k : Nat) : List Nat := (xs[k]?.getD []).flatten
  let px := (List.zip (g 0) (List.zip (g 1) (g 2))).filter fun t => midTone t.1 && midTone t.2.1 && midTone t.2.2
  ⟨[(px.foldl (fun a t => a + t.1) 0, px.length, 0), (px.foldl (fun a t => a + t.2.1) 0, px.length, 0),
    (px.foldl (fun a t => a + t.2.2) 0, px.length, 0)]⟩

/-- R241. A window with one record more. -/
def CalSample.add (a b : CalSample) : CalSample :=
  if a.sums.isEmpty then b
  else ⟨List.zipWith (fun (x y : Nat × Nat × Nat) => (x.1 + y.1, x.2.1 + y.2.1, x.2.2 + y.2.2)) a.sums b.sums⟩

/-- R241, R242. Accept a record into its window; both windows full complete the estimate at boundary `c`. -/
def Estimator.accept (need c : Nat) (x : CalSample) (e : Estimator) : Estimator :=
  let e1 := if e.accepted % 2 = 0 then { e with even := e.even.add x, evenFill := e.evenFill + 1, accepted := e.accepted + 1 }
    else { e with odd := e.odd.add x, oddFill := e.oddFill + 1, accepted := e.accepted + 1 }
  if e1.evenFill = need && e1.oddFill = need then { e1 with completeAt := some c } else e1

/-- R236, R242. What the record brings parameter `p`, where its own condition holds. -/
def sampleOf (h : Head) (f : Frame) (sc : Scene) (p : Nat) : Option CalSample :=
  let y := f.cfg.pipe
  let x2 := blackStage y (rawPlane f)
  let n := (rawPlane f).length * ((rawPlane f).headD []).length
  if p = 0 then (if !darkFloor h || (sc.still && sc.dark && tempStable h) then some (blackSample h y.mosaic (rawPlane f)) else none)
  else if p = 1 then (if sc.moving && sc.contrast && sc.ratio then some (shadeSample y.mosaic (defectStage y x2)) else none)
  else if p = 2 then (if sc.moving then some (defectSample x2) else none)
  else
    let s := colourSample (matrixStage y (demosaicStage y (shadeStage y (defectStage y x2))))
    if sc.moving && sc.contrast && sc.ratio && n ≤ 4 * ((s.sums.headD (0, 0, 0)).2.1) then some s else none

/-- R34, R238, R239, R241. The statistics of a record reach the estimators at the boundary that ends its pipeline tick. -/
def calAccept (c : Nat) (f : Frame) (s : State) : State :=
  if f.cfg.pipe.mosaic = 7 || f.outcome == .dropped then s
  else
    let x := s.chan c
    let sc := sceneOf f.cfg.pipe.mosaic x.cal.prevBlocks (rawPlane f)
    let s1 := forEach [0, 1, 2, 3] (fun p t =>
      if estRuns x p && admitted f p then
        match sampleOf x.head f sc p with
        | some y => modEst c p (Estimator.accept (needed x.head p) s.lastBoundary y) t
        | none => t
      else t) s
    modCal c (fun y => { y with prevBlocks := blockMeans f.cfg.pipe.mosaic (rawPlane f) }) s1

/-! ### Results of a window -/

/-- R246. Levels of a window. -/
def blackResult (w : CalSample) : List Nat := w.sums.map fun t => roundNear t.1 (256 * max 1 t.2.1)

/-- R247. Gains of a window: its plane's centre node over each node, in 4.12. -/
def shadeResult (w : CalSample) : List Nat :=
  (List.range 1156).map fun a =>
    let v := w.sums[a]?.getD (0, 0, 0)
    let z := w.sums[a / 289 * 289 + 144]?.getD (0, 0, 0)
    (roundTo 17 (4096 * z.1 * v.2.1 : Nat) (z.2.1 * v.1)).toNat

/-- R247. A node held samples in fewer than half the frames of a window. -/
def shadeThin (w : CalSample) (n : Nat) : Bool := w.sums.any fun t => 2 * t.2.1 < n

/-- Twice the median of eight values. -/
def median2 (l : List Nat) : Nat :=
  let y := l.mergeSort fun a b => a ≤ b
  y[3]?.getD 0 + y[4]?.getD 0

/-- R248. The map of a window of `n` frames, by pixels (x, y) in raster order. -/
def defectResult (m w : Nat) (x : CalSample) : List (Nat × Nat) :=
  let h := x.sums.length / max 1 w
  let cell (r c : Nat) : Nat × Nat × Nat := x.sums[r * w + c]?.getD (0, 0, 0)
  let var (r c : Nat) : Nat := let t := cell r c; t.2.1 * t.2.2 - t.1 * t.1
  let pv := mkPlane h w var
  let ps := mkPlane h w fun r c => (cell r c).1
  (List.range (h * w)).filterMap fun i =>
    let r := i / w
    let c := i % w
    let n := (cell r c).2.1
    let mv := median2 (ring8 m pv h w r c)
    let ms := median2 (ring8 m ps h w r c)
    let d := max (2 * (cell r c).1) ms - min (2 * (cell r c).1) ms
    if 16 * mv < 2 * var r c || (32 * var r c < mv && 8 * 16777216 * n * n < mv) || 2 * 256 * 4096 * n < d then some (c, r) else none

/-- R, G and B of a window. -/
def greyOf (w : CalSample) : Nat × Nat × Nat :=
  let g (k : Nat) : Nat := (w.sums[k]?.getD (0, 0, 0)).1
  (g 0, g 1, g 2)

/-! ### Distances (R250) -/

def distBlack (a b : List Nat) : Nat := (List.zipWith (fun x y => max x y - min x y) a b).foldl max 0 * 8

/-- |a - b| / ((a + b) / 2) in units of 0.015 / 256, rounded up. -/
def distGain (a b : Nat) : Nat := if a = b then 0 else cdiv (256 * 2 * (max a b - min a b) * 1000) (15 * (a + b))

def distShade (a b : List Nat) : Nat := (List.zipWith distGain a b).foldl max 0

/-- R250, R263. Gains `p` differ by more, relative to their mean, than gains `q`. -/
def wider (p q : Nat × Nat) : Bool :=
  (max q.1 q.2 - min q.1 q.2) * (p.1 + p.2) < (max p.1 p.2 - min p.1 p.2) * (q.1 + q.2)

/-- R263. The first node at which two tables differ most. -/
def widestNode (a b : List Nat) : Nat :=
  let at_ (i : Nat) : Nat × Nat := (a[i]?.getD 0, b[i]?.getD 0)
  (List.range 1156).foldl (fun m i => if wider (at_ i) (at_ m) then i else m) 0

def interMap (a b : List (Nat × Nat)) : List (Nat × Nat) := a.filter fun p => b.contains p

def distDefect (a b : List (Nat × Nat)) : Nat :=
  let i := (interMap a b).length
  let u := a.length + b.length - i
  if u = 0 then 0 else cdiv (20 * 256 * (u - i)) u

/-- The least number whose square is at least `n`. -/
def ceilSqrt (n : Nat) : Nat := if Nat.sqrt n * Nat.sqrt n = n then Nat.sqrt n else Nat.sqrt n + 1

/-- Distance of two grey points, in units of 0.01 / 256, rounded up. -/
def distGrey (a b : Nat × Nat × Nat) : Nat :=
  let ta := a.1 + a.2.1 + a.2.2
  let tb := b.1 + b.2.1 + b.2.2
  let d (x y : Nat) : Nat := max (x * tb) (y * ta) - min (x * tb) (y * ta)
  ceilSqrt (cdiv (25600 * 25600 * (d a.1 b.1 * d a.1 b.1 + d a.2.2 b.2.2 * d a.2.2 b.2.2)) (max 1 (ta * tb * (ta * tb))))

/-- R249, R251. The mean of the twins' gains: the gain in force times the mean residual, rounded to nearest. -/
def meanGain (force ga ca gb cb : Nat) : Nat := roundNear (force * (ga * cb + gb * ca)) (max 1 (2 * ca * cb))

/-- R246 to R251. A completed estimate: disagreement in AGREE's units, bounded value, whether it is within bounds, the node of
the largest difference, and the pooled grey sums. -/
structure Estimate where
  agree : Nat
  value : CalValue
  inside : Bool
  node : Nat
  grey : Nat × Nat × Nat
deriving DecidableEq, Repr, Inhabited

def estimateOf (x : Chan) (p : Nat) : Estimate :=
  let e := tget x.cal.est p
  let mean (a b : List Nat) : List Nat := List.zipWith (fun u v => roundNear (u + v) 2) a b
  if p = 0 then
    let a := blackResult e.even
    let b := blackResult e.odd
    ⟨distBlack a b, .black (mean a b), (mean a b).all (· ≤ 65535), 0, default⟩
  else if p = 1 then
    let a := shadeResult e.even
    let b := shadeResult e.odd
    ⟨distShade a b, .shading (mean a b), (mean a b).all fun g => 0x0800 ≤ g && g ≤ 0xFFFF, widestNode a b, default⟩
  else if p = 2 then
    let w := (x.cfg.bind.map Bind.width).getD 1
    let a := defectResult x.cfg.pipe.mosaic w e.even
    let b := defectResult x.cfg.pipe.mosaic w e.odd
    ⟨distDefect a b, .defect (interMap a b), (interMap a b).length ≤ 4096, 0, default⟩
  else
    let a := greyOf e.even
    let b := greyOf e.odd
    let r := meanGain x.cfg.pipe.gainR a.2.1 a.1 b.2.1 b.1
    let c := meanGain x.cfg.pipe.gainB a.2.1 a.2.2 b.2.1 b.2.2
    let ok (g : Nat) : Bool := 4 * 4096 ≤ 5 * g && 4 * g ≤ 5 * 4096
    ⟨distGrey a b, .colour r c, ok r && ok c, 0, (a.1 + b.1, a.2.1 + b.2.1, a.2.2 + b.2.2)⟩

/-- R256. Distance of an estimate from the value in force, in DRIFT's units. -/
def driftOf (y : Pipe) (v : CalValue) (g : Nat × Nat × Nat) : Nat :=
  match v with
  | .black l => distBlack l ((List.range 4).map fun i => y.black[i]?.getD 0)
  | .shading l => distShade l ((List.range 1156).map fun i => y.shading[i]?.getD 4096)
  | .defect m => distDefect m (y.defectStatic ++ y.defectEst)
  | .colour r b => distGrey (g.1 * r * y.gainB, g.2.1 * y.gainR * y.gainB, g.2.2 * b * y.gainR) g

/-- R255, R257. Parameter `p` of channel `c` is pinned, or a CAL_PIN of it has passed step 12 and is still to take effect. -/
def pinned (s : State) (c p : Nat) : Bool :=
  (s.chan c).cal.pins.getLsbD p ||
    s.exec.any fun x => Op.ofCode x.entry.opcode.toNat == some .calPin && x.wait == .tick && x.members.contains c && x.entry.req.bit 16 p

/-- R252, R256. The outcome HELD. -/
def hold (c p : Nat) (v : CalValue) (g : Nat × Nat × Nat) (s : State) : State :=
  let d := min 0xFFFFFFFF (driftOf (s.chan c).cfg.pipe v g)
  let s1 := modEst c p (fun e => { e with last := .held, drift := d }) s
  if 16 * tget (s.chan c).cal.thr p < d then raisePipe c 4 s1 else s1

/-- R244, R252. INSUFFICIENT: both windows are emptied. -/
def insufficient (c p : Nat) (s : State) : State :=
  raisePipe c 2 (modEst c p (fun e => Estimator.restart s.time.dev { e with last := .insufficient, insufficient := true }) s)

/-- R250 to R252. Firmware completes the estimate of parameter `p`. -/
def completeEstimate (c p : Nat) (at_ : Nat) (s : State) : State :=
  let x := s.chan c
  let e := tget x.cal.est p
  if p = 1 && (shadeThin e.even e.evenFill || shadeThin e.odd e.oddFill) then insufficient c p s
  else
    let r := estimateOf x p
    let t := r.grey.1 + r.grey.2.1 + r.grey.2.2
    let chroma (v : Nat) : Nat := (roundTo 18 (65536 * v : Nat) t).toNat % 65536
    let s1 := modEst c p (fun y => Estimator.restart s.time.dev { y with
      insufficient := false, agree := min 0xFFFFFFFF r.agree, estimate := some r.value, node := r.node
      grey := if p = 3 then (chroma r.grey.1, chroma r.grey.2.2) else y.grey }) s
    if 256 < r.agree then raisePipe c 1 (modEst c p (fun y => { y with last := .disagree }) s1)
    else if !r.inside then raisePipe c 1 (modEst c p (fun y => { y with last := .outOfBounds }) s1)
    else if pinned s c p then hold c p r.value r.grey s1
    else modEst c p (fun y => { y with apply := some (at_ + 1, r.value), applyGrey := r.grey }) s1

/-- The estimate of parameter `p` is complete and its tick has begun. -/
def estimateDue (s : State) (c p : Nat) : Option Nat :=
  (tget (s.chan c).cal.est p).completeAt.filter fun k => k ≤ s.lastBoundary

/-- CAL_ESTIMATE, R250 to R253. -/
def execCalEstimate (ch param : Nat) (s : State) : Host.Outcome State Fault Refusal :=
  if 32 ≤ ch then .refused (.noSuchUnit "channel" ch)
  else .next (match (if param < 4 then estimateDue s ch param else none) with
    | some k => completeEstimate ch param k s
    | none => s)

/-- Estimates of a channel that its tick has not completed yet. -/
def runEstimates (c : Nat) (s : State) : State :=
  forEach [0, 1, 2, 3] (fun p t => match estimateDue t c p with | some k => completeEstimate c p k t | none => t) s

/-- R252, R253, R258. At boundary `k` the APPLIED estimates of a channel take effect, and the record is rewritten at most once
in 60 s. -/
def applyEstimates (c k : Nat) (s : State) : State :=
  forEach [0, 1, 2, 3] (fun p t =>
    match (tget (t.chan c).cal.est p).apply with
    | some (b, v) =>
      if b ≤ k then
        let t1 := modCal c (fun x => { x with
          applied := tset x.applied p (some v)
          est := tmod x.est p fun e => { e with apply := none, last := .applied, appliedAt := t.time.boundary k } }) t
        let t2 := raisePipe c 3 (putEstimate c v t1)
        if (t2.chan c).cal.recordAt.all fun r => r + 60000000000 ≤ t2.time.elapsed then saveEstimates c t2 else t2
      else t
    | none => t) s

/-- CAL_TIME_LIMIT, R242, R244. -/
def execCalTimeLimit (ch param : Nat) (s : State) : Host.Outcome State Fault Refusal :=
  if 32 ≤ ch then .refused (.noSuchUnit "channel" ch)
  else
    let x := s.chan ch
    let e := tget x.cal.est param
    if param < 4 && x.enabled && estRuns x param && e.completeAt.isNone then
      .next (insufficient ch param (advanceTo (e.emptiedAt + timeLimit x.head param) s))
    else .next s

/-- CAL_RECORD_WRITE, R258. Estimates applied since the record was last written reach it 60 s after that write. -/
def execCalRecordWrite (ch : Nat) (s : State) : Host.Outcome State Fault Refusal :=
  if 32 ≤ ch then .refused (.noSuchUnit "channel" ch)
  else
    let x := s.chan ch
    match x.head.pairing, x.cal.recordAt with
    | some p, some r =>
      if x.head.state == .paired && x.cal.stored != some (p.idHash, x.cal.applied) then
        .next (saveEstimates ch (advanceElapsed (r + 60000000000) s))
      else .next s
    | _, _ => .next s

/-- R259. At CHAN_START stored estimates of the Paired head take effect, those pinned excepted. -/
def restoreEstimates (c : Nat) (s : State) : State :=
  let x := s.chan c
  match x.cal.stored with
  | some (h, vals) =>
    if x.head.state == .paired && x.head.pairing.any (fun p => p.idHash == h) then
      forEach [0, 1, 2, 3] (fun p t =>
        match tget vals p with
        | some v => if pinned s c p then t else putEstimate c v (modCal c (fun y => { y with applied := tset y.applied p (some v) }) t)
        | none => t) s
    else s
  | none => s

/-! ### The 0x0Dxx commands (R260 to R264) -/

/-- The parameters a mask names. -/
def maskParams (m : Nat) : List Nat := [0, 1, 2, 3].filter fun p => bitOf m p

/-- R475. The channel byte of an audit record is the command's CSEL, which of a command to one channel is its number. -/
def auditChan (c : Ctx) : Byte := BitVec.ofNat 8 c.q.csel.toNat

/-- R260, R471, R475. One audit record, or INTERNAL with no effect. -/
def calAudited (code : Nat) (c : Ctx) (s : State) : Reply × State :=
  tickAudited 0x30 ([BitVec.ofNat 8 code, auditChan c] ++ le 1 (c.q.u 16 1) ++ [0#8] ++ (if code = 2 then le 2 (c.q.u 18 2) else [0#8, 0#8])) c s

/-- CAL_ENABLE, R261, R262. -/
def calEnableB : Behaviour where
  reserved q := q.u 16 1 < 16 && q.zero 17 3
  run c s := calAudited 1 c s
  effect c s := forEach c.members (fun m t =>
    restartEst m [0, 1, 2, 3] (modCal m (fun x => { x with
      enable := BitVec.ofNat 4 (c.q.u 16 1) }) t)) s

/-- R257. A pin that passes step 12 stops estimates whose boundary is still to come: their outcome is HELD. -/
def pinNow (mask c : Nat) (s : State) : State :=
  forEach (maskParams mask) (fun p t =>
    match (tget (t.chan c).cal.est p).apply with
    | some (_, v) => hold c p v (tget (t.chan c).cal.est p).applyGrey (modEst c p (fun e => { e with apply := none }) t)
    | none => t) s

/-- CAL_PIN, R255, R257. MASK 0 changes nothing and leaves no audit record. -/
def calPinB : Behaviour where
  reserved q := q.u 16 1 < 16 && q.zero 17 1 && q.zero 20 4
  fields _ c := need (c.q.u 18 2 ≤ 4095) St.range
  run c s :=
    if c.q.zero 16 1 then (.wait .tick, s)
    else match calAudited 2 c s with
      | (.wait w, s1) => (.wait w, forEach c.members (pinNow (c.q.u 16 1)) s1)
      | r => r
  effect c s := forEach c.members (fun m => modCal m fun x => { x with
    pins := x.pins ||| BitVec.ofNat 4 (c.q.u 16 1)
    thr := Vector.ofFn fun i => if c.q.bit 16 i.val then c.q.u 18 2 else tget x.thr i.val }) s

/-- CAL_UNPIN, R255. -/
def calUnpinB : Behaviour where
  reserved q := q.u 16 1 < 16 && q.zero 17 3
  run c s := if c.q.zero 16 1 then (.wait .tick, s) else calAudited 3 c s
  effect c s := forEach c.members (fun m => modCal m fun x => { x with pins := x.pins &&& ~~~(BitVec.ofNat 4 (c.q.u 16 1)) }) s

/-- CAL_RESET, R262. -/
def calResetB : Behaviour where
  reserved q := q.u 16 1 < 16 && q.zero 17 3
  run c s := if c.q.zero 16 1 then (.wait .tick, s) else calAudited 4 c s
  effect c s := forEach c.members (fun m t =>
    forEach (maskParams (c.q.u 16 1)) (fun p => discardParam m p) (restartEst m (maskParams (c.q.u 16 1)) t)) s

/-- R263. LAST's code. -/
def CalLast.code : CalLast → Nat
  | .none => 0 | .applied => 1 | .disagree => 2 | .outOfBounds => 3 | .held => 4 | .insufficient => 5

/-- R263. DETAIL of a parameter. -/
def calDetail (x : Chan) (p : Nat) : List Byte :=
  let e := tget x.cal.est p
  let y := x.cfg.pipe
  fit 16 (match e.estimate with
    | some (.black l) => l.flatMap (le 2) ++ (List.range 4).flatMap fun i => le 2 (y.black[i]?.getD 0)
    | some (.shading g) => le 2 e.node ++ le 2 (g[e.node]?.getD 0) ++ le 2 (y.shading[e.node]?.getD 4096)
    | some (.defect m) =>
      let force := y.defectStatic ++ y.defectEst
      le 4 m.length ++ le 4 force.length ++ le 4 (interMap m force).length
    | some (.colour r b) => le 2 r ++ le 2 b ++ le 2 y.gainR ++ le 2 y.gainB ++ le 2 e.grey.1 ++ le 2 e.grey.2
    | none =>
      if p = 0 then zeros 8 ++ (List.range 4).flatMap fun i => le 2 (y.black[i]?.getD 0)
      else if p = 1 then zeros 4 ++ le 2 (y.shading[0]?.getD 4096)
      else if p = 2 then zeros 4 ++ le 4 (y.defectStatic.length + y.defectEst.length)
      else zeros 4 ++ le 2 y.gainR ++ le 2 y.gainB)

/-- CAL_QUERY, R263. -/
def calQueryB : Behaviour where
  reserved q := q.zero 17 3
  fields _ c := need (c.q.u 16 1 ≤ 3) St.range
  run c s :=
    let x := s.chan (c.members.headD 0)
    let p := c.q.u 16 1
    let e := tget x.cal.est p
    (.done St.ok (le 1 p ++ le 1 (b2n (estRuns x p) + 2 * b2n (x.cal.pins.getLsbD p) + 4 * b2n e.insufficient
        + 8 * b2n (p == 0 && darkFloor x.head))
      ++ le 1 e.last.code ++ le 1 0 ++ le 2 e.evenFill ++ le 2 e.oddFill ++ le 2 (needed x.head p) ++ le 2 0 ++ le 4 x.cal.gen
      ++ le 8 e.appliedAt ++ le 4 e.agree ++ le 4 e.drift ++ calDetail x p), s)

end Sys2Proof.Machine
end

