-- ==== Sys2Proof/Machine/Micro.lean ====
section
/-!
DEFINITION. The microword and the run of an open-region routine at a hook point (R482 to R494, R496, R498, R499). Vendor code
is not in the spec; what its jobs do is in the chapters of the engines.
-/
namespace Sys2Proof.Machine

/-- R482. Bits [hi:lo] of a microword. -/
def mw (w : BitVec 160) (hi lo : Nat) : Nat := bitsOf w.toNat hi lo

/-- R491. The word at an address of a control store; 0 where nothing supplies it. -/
def SeqClass.word (c : SeqClass) (a : Nat) : BitVec 160 := ((c.store.find? fun p => p.1 == a).map Prod.snd).getD 0

/-- A port at a hook: its plane with the row that is processed, the lowest row offset it exposes, whether it may write,
bits of a sample. A port the hook does not have reads 0. -/
structure HPort where
  plane : Plane
  lo : Int
  wr : Bool
  bits : Nat
deriving DecidableEq, Repr, Inhabited

/-- R493. What an invocation sees: row, samples per row, cap of its counters, and the job parameters. -/
structure Invocation where
  row : Nat
  w : Nat
  cap : Nat
  jp : List Nat
deriving DecidableEq, Repr, Inhabited

/-- The registers of a sequencer while a routine runs. -/
structure Micro where
  v : Vector (BitVec 32) 16
  ct : Vector Nat 4
  acc : BitVec 32
  z : Bool
  n : Bool
  c : Bool
  o : Bool
  col : Vector Nat 4
  ports : Vector HPort 4
  stack : List Nat
  pc : Nat
  /-- R496. Cycles since the last poll. -/
  gap : Nat
  maxGap : Nat
  cycles : Nat
deriving DecidableEq, Repr, Inhabited

/-- R509. LAST_FAULT's codes for a word that is stopped. -/
def faultReserved : Nat := 2
def faultOperand : Nat := 3
def faultOpen : Nat := 4
def faultWatchdog : Nat := 6

/-! ### Legality of a word in the open region (R482 to R489, R494, R499) -/

def seqop (w : BitVec 160) : Nat := mw w 16 14
def target (w : BitVec 160) : Nat := mw w 13 0
def portCtl (w : BitVec 160) (i : Nat) : Nat := mw w (82 + 12 * i) (71 + 12 * i)
def ctCtl (w : BitVec 160) (i : Nat) : Nat := mw w (134 + 4 * i) (131 + 4 * i)

/-- R487. Row and column offset of a port control. -/
def rowSel (p : Nat) : Int := sext 3 (p / 16)
def colOff (p : Nat) : Int := sext 4 (p / 128)

/-- R482, R483, R487, R488. Every reserved bit is 0. -/
def reservedClear (w : BitVec 160) : Bool :=
  mw w 23 20 == 0 && mw w 52 52 == 0 && mw w 60 60 == 0 && mw w 130 127 == 0
    && ([0, 1, 2, 3].all fun i => portCtl w i < 2048 && ctCtl w i < 8)

/-- R484. An operand code that is listed. -/
def operandListed (a : Nat) : Bool :=
  a ≤ 0x043 || (0x048 ≤ a && a ≤ 0x04B) || (0x050 ≤ a && a ≤ 0x052) || (0x060 ≤ a && a ≤ 0x07F) || 0x100 ≤ a

/-- R484, R494. An operand that open code may not use. -/
def operandVendor (a : Nat) : Bool := (0x010 ≤ a && a ≤ 0x03F) || 0x100 ≤ a

/-- R490. A condition code that is listed, and one open code may not use. -/
def condListed (c : Nat) : Bool :=
  c ≤ 4 || (0x08 ≤ c && c ≤ 0x0B) || (0x10 ≤ c && c ≤ 0x13) || c == 0x18 || (0x20 ≤ c && c ≤ 0x22) || (0x30 ≤ c && c ≤ 0x37)
def condVendor (c : Nat) : Bool := c == 0x18 || (0x20 ≤ c && c ≤ 0x22)

def inOpen (a : Nat) : Bool := 0x3800 ≤ a && a ≤ 0x3FFF

/-- R499. The reason for which a word of the open region is stopped before it acts; none where it may act. `taken` is its condition. -/
def illegal (taken : Bool) (w : BitVec 160) (m : Micro) : Option Nat :=
  let a := mw w 41 33
  let b := mw w 51 43
  let op := mw w 58 53
  let cond := mw w 31 24
  let ports := [0, 1, 2, 3].map fun i => (portCtl w i, tget m.ports i)
  if !reservedClear w then some faultReserved
  else if !operandListed a || !operandListed b || !condListed cond || 0x10 < op || [0, 1, 2, 3].any (fun i => 5 < ctCtl w i)
    || (mw w 42 42 == 1 && 0x40 ≤ a) || ([0, 1, 5, 6, 7].contains (seqop w) && cond != 0)
    || (seqop w == 5 && ctCtl w (mw w 19 18) != 0)
    || ports.any (fun p => 2 ≤ p.1 % 4 && (rowSel p.1 != 0 || colOff p.1 != 0)) then some faultOperand
  else if operandVendor a || operandVendor b || condVendor cond || mw w 124 123 != 0 || seqop w == 7
    || ([1, 2, 3, 5, 6].contains (seqop w) && !inOpen (target w))
    || (seqop w == 6 && !inOpen (target w + m.acc.toNat % 16))
    || ports.any (fun p => (2 ≤ p.1 % 4 && !p.2.wr) || (p.1 % 2 == 1 && (rowSel p.1 < p.2.lo || 0 < rowSel p.1))) then some faultOpen
  else if seqop w = 3 && taken && 4 ≤ m.stack.length then some faultOpen
  else none

/-! ### One word -/

/-- R487, R213. The sample a port control reads; mirrored at the edges. -/
def portRead (e : Invocation) (p : HPort) (ctl col : Nat) : Nat :=
  at2 p.plane (reflect p.plane.length ((e.row : Int) + rowSel ctl)) (reflect e.w ((col : Int) + colOff ctl))

/-- R484. The value of an operand. A port operand without a read in the word is open (choice 6). -/
def operand (e : Invocation) (w : BitVec 160) (m : Micro) (a : Nat) : BitVec 32 :=
  if a < 0x10 then tget m.v a
  else if 0x040 ≤ a && a ≤ 0x043 then BitVec.ofNat 32 (tget m.ct (a - 0x40))
  else if 0x048 ≤ a && a ≤ 0x04B then
    (let i := a - 0x48
     if portCtl w i % 2 = 1 then BitVec.ofNat 32 (portRead e (tget m.ports i) (portCtl w i) (tget m.col i))
     else BitVec.ofInt 32 (Config.microOpen 20 m.pc i))
  else if a = 0x050 then BitVec.ofInt 32 (sext 13 (mw w 159 147))
  else if a = 0x051 then m.acc
  else if 0x060 ≤ a && a ≤ 0x07F then BitVec.ofNat 32 (e.jp[a - 0x60]?.getD 0)
  else 0

/-- R490. The condition on the state the previous word left. -/
def condition (e : Invocation) (m : Micro) (c : Nat) : Bool :=
  if c = 0 then true
  else if c = 1 then m.z
  else if c = 2 then m.n
  else if c = 3 then m.c
  else if c = 4 then m.o
  else if 0x08 ≤ c && c ≤ 0x0B then tget m.ct (c - 8) == 0
  else if 0x10 ≤ c && c ≤ 0x13 then e.w ≤ tget m.col (c - 0x10) + 1
  else if 0x30 ≤ c && c ≤ 0x37 then bitOf (e.jp[6]?.getD 0) (c - 0x30)
  else false

def minS (a b : BitVec 32) : BitVec 32 := if a.toInt ≤ b.toInt then a else b
def maxS (a b : BitVec 32) : BitVec 32 := if a.toInt ≤ b.toInt then b else a

/-- R485. The operation; none where it has no result. -/
def aluResult (op : Nat) (a b : BitVec 32) : Option (BitVec 32) :=
  if op = 0x01 then some a
  else if op = 0x02 then some b
  else if op = 0x03 then some (a + b)
  else if op = 0x04 then some (a - b)
  else if op = 0x05 then some (a &&& b)
  else if op = 0x06 then some (a ||| b)
  else if op = 0x07 then some (a ^^^ b)
  else if op = 0x08 then some (minS a b)
  else if op = 0x09 then some (maxS a b)
  else if op = 0x0A then some (BitVec.ofNat 32 (min a.toNat b.toNat))
  else if op = 0x0B then some (BitVec.ofNat 32 (max a.toNat b.toNat))
  else if op = 0x0C then some (BitVec.ofNat 32 (a.toInt - b.toInt).natAbs)
  else if op = 0x0D then some (a * b)
  else if op = 0x0E then some (BitVec.ofInt 32 (a.toInt * b.toInt / 4294967296))
  else if op = 0x10 then some (BitVec.ofNat 32 ((a.toNat + b.toNat + 1) / 2))
  else none

/-- R486. Rotation, rounding and shift of a result. A rounding sum beyond 32 bits is open (choice 6). -/
def shifted (sh : Nat) (r : BitVec 32) : BitVec 32 :=
  let k := sh % 32
  let kind := sh / 32 % 4
  let rnd (v : Int) (lo hi : Int) : Int :=
    if bitOf sh 7 && 0 < k then
      (let t := v + (2 ^ (k - 1) : Nat)
       if lo ≤ t ∧ t ≤ hi then t else Config.microOpen 24 v k)
    else v
  if kind = 0 then r <<< k
  else if kind = 1 then BitVec.ofInt 32 (rnd (r.toNat : Nat) 0 4294967295 / (2 ^ k : Nat))
  else if kind = 2 then BitVec.ofInt 32 (rnd r.toInt (-2147483648) 2147483647 / (2 ^ k : Nat))
  else r.rotateRight k

/-- R486. Saturation of the shifted value, taken as signed. -/
def saturated (mode : Nat) (r : BitVec 32) : BitVec 32 :=
  if mode = 1 then BitVec.ofInt 32 (clampI 0 255 r.toInt)
  else if mode = 2 then BitVec.ofInt 32 (clampI 0 65535 r.toInt)
  else if mode = 3 then BitVec.ofInt 32 (clampI (-32768) 32767 r.toInt)
  else r

/-- R485, R486. C and V of an operation. The polarity of a borrow, and C and V of any other operation, are open (choice 6). -/
def carryOf (op : Nat) (a b : BitVec 32) : Bool × Bool :=
  if op = 0x03 then
    (4294967296 ≤ a.toNat + b.toNat, decide ((a + b).toInt ≠ a.toInt + b.toInt))
  else if op = 0x04 || op = 0x0F then
    (xor (a.toNat < b.toNat) (decide (Config.microOpen 21 0 1 = 0)), decide ((a - b).toInt ≠ a.toInt - b.toInt))
  else (decide (Config.microOpen 22 op 0 = 0), decide (Config.microOpen 22 op 1 = 0))

/-- R487, R489. Port `i` writes `r` at its column, where the row has it. A result wider than the sample, or none, is open. -/
def portWrite (e : Invocation) (r : Option (BitVec 32)) (pc : Nat) (col : Nat) (p : HPort) : HPort :=
  if e.w ≤ col then p
  else
    let v := match r with
      | some x => if x.toNat < 2 ^ p.bits then x.toNat else (Config.microOpen 25 x.toNat p.bits).toNat % 2 ^ p.bits
      | none => (Config.microOpen 26 pc p.bits).toNat % 2 ^ p.bits
    { p with plane := p.plane.set e.row ((p.plane[e.row]?.getD []).set col v) }

/-- R487. STEP of a port control. -/
def stepCol (ctl col acc : Nat) : Nat :=
  let k := ctl / 4 % 4
  if k = 0 then col else if k = 1 then col + 1 else if k = 2 then col + 2 else acc % 4096

/-- R488, R494. A counter control; a load is clamped to the cap. -/
def stepCt (e : Invocation) (w : BitVec 160) (acc old ctl : Nat) : Nat :=
  let load (v : Nat) : Nat := min v (e.cap - 1)
  if ctl = 1 then old - 1
  else if ctl = 2 then (old + 1) % 65536
  else if ctl = 3 then load (mw w 159 147)
  else if ctl = 4 then load (acc % 65536)
  else if ctl = 5 then load (((e.jp[1]?.getD 0) + 65535) % 65536)
  else old

/-- R483, R490. The condition of a word, inverted by INV. -/
def wordTaken (e : Invocation) (w : BitVec 160) (m : Micro) : Bool := xor (condition e m (mw w 31 24)) (mw w 17 17 == 1)

/-- R489. What one legal word does; the next address is none where the routine's own entry is popped. -/
def runWord (e : Invocation) (w : BitVec 160) (m : Micro) : Micro × Bool :=
  let cond := wordTaken e w m
  let a := operand e w m (mw w 41 33)
  let b := operand e w m (mw w 51 43)
  let op := mw w 58 53
  let res := (aluResult op a b).map fun r => saturated (mw w 70 69) (shifted (mw w 68 61) r)
  let cmp := if op = 0x0F then some (a - b) else res
  let cv := carryOf op a b
  let fl := mw w 59 59 == 1
  let acc := m.acc.toNat
  let col := Vector.ofFn fun (i : Fin 4) => stepCol (portCtl w i.val) (tget m.col i.val) acc
  let ports := Vector.ofFn fun (i : Fin 4) =>
    if 2 ≤ portCtl w i.val % 4 then portWrite e res m.pc (tget m.col i.val) (tget m.ports i.val) else tget m.ports i.val
  let ct0 := Vector.ofFn fun (i : Fin 4) => stepCt e w acc (tget m.ct i.val) (ctCtl w i.val)
  let lc := mw w 19 18
  let looping := seqop w == 5 && tget ct0 lc != 0
  let ct := if looping then tmod ct0 lc (· - 1) else ct0
  let q := seqop w
  let go := m.pc + 1
  let next :=
    if q = 1 then target w
    else if q = 2 || q = 3 then (if cond then target w else go)
    else if q = 4 then (if cond then m.stack.headD 0 else go)
    else if q = 5 then (if looping then target w else go)
    else if q = 6 then target w + acc % 16
    else go
  let stack := if q = 3 && cond then go :: m.stack else if q = 4 && cond then m.stack.tail else m.stack
  let gap := if mw w 32 32 = 1 then 0 else m.gap + 1
  ({ m with
    v := match res with | some r => (if mw w 42 42 = 1 then tset m.v (mw w 41 33) r else m.v) | none => m.v
    acc := res.getD m.acc
    z := if fl then cmp.all (· == 0) else m.z
    n := if fl then cmp.any (·.getMsbD 0) else m.n
    c := if fl then cv.1 else m.c
    o := if fl then cv.2 else m.o
    col := col, ports := ports, ct := ct, stack := stack, pc := next
    gap := gap, maxGap := max m.maxGap gap, cycles := m.cycles + 1 }, q == 4 && cond && m.stack.length ≤ 1)

/-- How the run of a routine ends: with its RETURN, stopped at a word for a reason, by the watchdog, or cut by the cycle
meter. -/
inductive RunEnd where
  | returned | stopped (reason pc : Nat) | watchdog (pc : Nat) | metered
deriving DecidableEq, Repr, Inhabited

/-- R489, R496 to R499. Run words until the routine ends. `left` is the number of cycles the job's meter leaves; once they are used, the
next word that is a poll point takes the overrun (R67, R497). `k` bounds the words run. -/
def runMicro (cl : SeqClass) (e : Invocation) (left : Nat) : Nat → Micro → RunEnd × Micro
  | 0, m => (.metered, m)
  | k + 1, m =>
    let w := cl.word m.pc
    if !inOpen m.pc then (.stopped faultOpen m.pc, m)
    else match illegal (wordTaken e w m) w m with
      | some r => (.stopped r m.pc, m)
      | none =>
        let t := runWord e w m
        if left ≤ t.1.cycles && mw w 32 32 == 1 then (.metered, t.1)
        else if t.2 then (.returned, t.1)
        else if 256 ≤ t.1.gap then (.watchdog m.pc, t.1)
        else runMicro cl e left k t.1

/-- What a run may last: the cycles its meter leaves, and as many as may pass without a poll. -/
def runFuel (left : Nat) : Nat := left + 257

/-- R493. The registers at entry to a routine. ACC, flags and counters are as vendor code left them: open (choice 6). -/
def entryMicro (entry : Nat) (e : Invocation) (ports : Vector HPort 4) : Micro :=
  let g (k : Nat) : Int := Config.microOpen 23 ((e.jp[7]?.getD 0) * 65536 + e.row : Nat) k
  { (default : Micro) with
    ct := Vector.ofFn fun i => (g (8 + i.val)).toNat % 65536
    acc := BitVec.ofInt 32 (g 0), z := decide (g 1 = 0), n := decide (g 2 = 0), c := decide (g 3 = 0), o := decide (g 4 = 0)
    ports := ports, stack := [0], pc := entry }

/-- R494. Cap of the counters of an invocation. -/
def capOf (w span : Nat) : Nat := cdiv (w * span) 16

/-- R495. Booked cycles of one invocation. -/
def invocationCycles (r : Routine) (w span : Nat) : Nat := r.fixc + cdiv (r.pers * w * span) 256 + 16

/-- What the hooks of a job leave: planes, the first row not processed and why, the longest gap, and how many invocations
exceeded their booking. -/
structure Hooked where
  ports : Vector HPort 4
  cut : Option (Nat × RunEnd)
  maxGap : Nat
  overs : Nat
  cycles : Nat
  /-- Cycles of each invocation, the first row first. -/
  used : List Nat
deriving DecidableEq, Repr, Inhabited

/-- R492, R495, R497. Invoke a routine for rows `row` on, `n` of them, until one does not return. `jp` gives the job parameters
of a row, `left` the cycles that the job's meter leaves to this hook by the end of a row. -/
def hookRows (cl : SeqClass) (r : Routine) (w span : Nat) (left : Nat → Nat) (jp : Nat → List Nat) : Nat → Nat → Hooked → Hooked
  | _, 0, h => h
  | row, n + 1, h =>
    let e : Invocation := { row := row, w := w, cap := capOf w span, jp := jp row }
    let k := left row - h.cycles
    let t := runMicro cl e k (runFuel k) (entryMicro r.entry e h.ports)
    let h1 := { h with
      maxGap := max h.maxGap t.2.maxGap, cycles := h.cycles + t.2.cycles + 16, used := h.used ++ [t.2.cycles + 16]
      overs := h.overs + b2n (invocationCycles r w span < t.2.cycles + 16) }
    match t.1 with
    | .returned => hookRows cl r w span left jp (row + 1) n { h1 with ports := t.2.ports }
    | x => { h1 with cut := some (row, x) }

/-- A port of a hook, by plane. -/
def hport (p : Plane) (wr : Bool) (bits : Nat) : HPort := ⟨p, 0, wr, bits⟩

/-- A routine that may run: attached, present and enabled. -/
def hookRoutine (cl : SeqClass) (h : Option Hook) : Option (Hook × Routine) :=
  match h with
  | none => none
  | some k => ((cl.routines[k.routine]?).filter fun r => !r.disabled).map fun r => (k, r)

/-- R493. Job parameters of a row. -/
def jobParams (row w rows ch unit format flags counter capture : Nat) (h : Hook) : List Nat :=
  [row, w, rows, ch, unit, format, flags, counter % 4294967296, capture % 4294967296, capture / 4294967296]
    ++ List.replicate 14 0 ++ h.params

end Sys2Proof.Machine
end

