-- ==== Sys2Proof/Machine/Cost.lean ====
section
/-!
DEFINITION. What a pipeline frame and its hooks cost (R62, R495), and the measures of a stream's picture.
-/
namespace Sys2Proof.Machine

/-- R580. Setup cycles of a PIPE frame, and of an access unit or a decoded picture. -/
def pipeSetup : Nat := 8192
def codeSetup : Nat := 16384

/-- R495. Rows a hook is invoked for and samples per row, for the windows of a channel or, at H4 and H5, the source window of stream `st`. -/
def hookUnits (x : ChanCfg) (st h : Nat) (k : Hook) : List (Nat × Nat) :=
  let wins (good : Nat → Bool) : List Window := (List.range 4).filterMap fun i =>
    if bitOf k.mask i then (tget x.windows i).filter fun w => good w.format else none
  let src (i : Nat) : List Window :=
    if bitOf k.mask i then ((tget x.windows (tget x.streams i).win).filter fun w => isCoding w.format).toList else []
  if h = 0 || h = 1 then (x.bind.map fun b => (b.height, b.width)).toList
  else if h = 2 then (wins isDisplay).map fun w => (w.outH, w.outW * (if w.format = 1 then 3 else 2))
  else if h = 3 then (wins isVision).map fun w => (w.outH * (if w.format = 0x21 then 3 else 1), w.outW)
  else (src st).map fun w => if h = 4 then (w.outH, w.outW) else (w.outH / 2, w.outW / 2)

/-- R495. Booked cycles of the hooks of a job; a disabled routine's attachments keep their bookings (R499). -/
def hookCycles (s : State) (x : ChanCfg) (st : Nat) (hs : List Nat) : Nat :=
  sumOf hs fun h =>
    match tget x.hooks h with
    | none => 0
    | some k =>
      match (tget s.cls (if h < 4 then 0 else 1)).routines[k.routine]? with
      | none => 0
      | some r => sumOf (hookUnits x st h k) fun u => u.1 * invocationCycles r u.2 k.span

/-- R62. Base cycles of a pipeline frame are its cost without hooks and setup. -/
def pipeBase (total hooks : Nat) : Nat := (total - 100 * hooks - 100 * pipeSetup) / 100

/-- Pixels of the bound frame. -/
def inputPixels (x : ChanCfg) : Nat := (x.bind.map fun b => b.width * b.height).getD 0

/-- R62. Cost of a pipeline frame in hundredths of a cycle. -/
def pipeCost (s : State) (x : ChanCfg) : Nat :=
  let wins := x.windows.toList.filterMap id
  (if x.pipe.mosaic = 6 then 125 else if x.pipe.mosaic = 7 then 50 else 100) * inputPixels x
    + sumOf wins (fun w => 25 * w.outW * w.outH + (if w.format = 0x22 && w.pyramid then 34 * w.outW * w.outH else 0))
    + 100 * hookCycles s x 0 [0, 1, 2, 3] + 100 * pipeSetup

/-- R61. What the completion path of a PIPE, ENC, ITP or DEC job costs at most, in cycles, for `n` lines, CTUs or blocks undone. -/
def completionCost (j : MeterJob) (n : Nat) : Nat :=
  match j with
  | .pipe _ => n + 1024
  | .enc _ _ => 8 * n + 2048
  | .itp _ _ => 2 * n
  | .dec _ => 16 * n + 2048

/-- R66, R580. Cycles that the meter leaves to hook routines by the time `done` of `n` lines or units have been processed: the job's
allocation `alloc` less its setup, what the engine and its stalls have spent on the work itself, and the completion cost of the rest. The
last two are open but never more than the published cost of the work `base` allows, so that routines within their booking never make
the meter act (choice 112). -/
def hookLeft (j : MeterJob) (id_ alloc setup base n done : Nat) : Nat :=
  let most := base * done / max 1 n + completionCost j (n - done) + 1
  alloc - setup - min (base - 1) (Config.stageUse id_ done % most)

/-- R66, R68. The line or unit at which what hooks have used (each entry a line or unit and cycles) meets what the meter leaves at it. -/
def meterLine (left : Nat → Nat) (used : List (Nat × Nat)) : Option Nat :=
  ((used.map Prod.fst).mergeSort (fun a b => a ≤ b)).find? fun i => left i ≤ sumOf (used.filter fun u => u.1 ≤ i) Prod.snd

/-- R61. Work units of an engine in 100 ns. -/
def engineRate (e : Engine) : Nat :=
  if e < 4 then 80 else if e < 11 then 60 else if e < 13 then 9000 else 400

/-- R511, R518. The domain whose level scales an engine; none for a memory controller. -/
def engineDomain (e : Engine) : Option Nat :=
  if e < 4 then some 2
  else if e = 4 ∨ e = 5 ∨ e = 8 ∨ e = 9 then some 3
  else if e = 6 ∨ e = 7 ∨ e = 10 then some 4
  else if e = 13 then some 1 else none

/-- R545. A lost rail has stopped an engine's clocks, or those of the memory controllers, without which no engine produces anything. -/
def engineStopped (s : State) (e : Engine) : Bool :=
  (tget s.power.domains 6).stopped || (match engineDomain e with | some d => (tget s.power.domains d).stopped | none => false)

end Sys2Proof.Machine
end

