-- ==== Sys2Proof/Machine/PipeJob.lean ====
section
/-!
DEFINITION. A pipeline job: its hooks, its windows with their headers, the record it may truncate, and PIPE_JOB_END (R28, R66
to R68, R204 to R232, R449, R492 to R499).
-/
namespace Sys2Proof.Machine

/-! ### Jobs and engines -/

/-- R579, R64. The booking in force of a job: a newer one counts from its boundary on. -/
def inForce (s : State) (k : JobKey) : Option Booking := (s.bookings.filter fun b => b.key == k && b.held).getLast?

/-- The engine on which a job is placed, if it is booked. -/
def engineOf (s : State) (k : JobKey) : Option Engine := (inForce s k).map Booking.engine

/-- R545. The engine of a job produces nothing. -/
def stalled (s : State) (k : JobKey) : Bool := (engineOf s k).any (engineStopped s) || (tget s.power.domains 6).stopped

/-- R65, R66. A job's metered frets: all that it was booked for where its completion path finished it, else an open number up to that
(choice 6). -/
def meterJob (k : JobKey) (cut : Bool) (s : State) : State :=
  match inForce s k with
  | none => s
  | some b =>
    let use := if cut then b.frets else Config.freeNat s.fresh % (b.frets + 1)
    { s with fresh := s.fresh + 1, meters := tmod s.meters b.engine fun m => { m with now := m.now + use } }

/-- R65. An overrun on the engine of a job. -/
def meterOverrun (k : JobKey) (s : State) : State :=
  match engineOf s k with
  | none => s
  | some e => { s with meters := tmod s.meters e fun m => { m with overruns := satAdd 65535 m.overruns 1 } }

/-- The sequencer of a job. -/
def seqOf (s : State) (k : JobKey) : Option Nat := (engineOf s k).filter (· < 8)

/-- R67, R498, R499. What the end of a routine reports: FRET_OVERRUN on the cause bit given, SEQ_WATCHDOG, or SEQ_FAULT, and
the routine that lay in the open region is disabled from the next boundary. -/
def reportRoutine (k : JobKey) (routine : Nat) (e : RunEnd) (overrun : State → State) (s : State) : State :=
  let q := (seqOf s k).getD 0
  let bad (pc reason : Nat) (t : State) : State :=
    modCls (q / 4) (fun c => { c with failing := routine :: c.failing })
      (modSeq q (fun x => { x with lastPc := pc, lastReason := reason }) t)
  match e with
  | .returned => s
  | .metered => overrun (meterOverrun k s)
  | .watchdog pc => raise (224 + q) 0 (modSeq q (fun x => { x with watchdogs := satAdd 65535 x.watchdogs 1 }) (bad pc faultWatchdog s))
  | .stopped r pc => raise (232 + q) 0 (modSeq q (fun x => { x with faults := satAdd 65535 x.faults 1 }) (bad pc r s))

/-- R495, R509. The counters of a sequencer after a hook has run. -/
def countHook (k : JobKey) (h : Hooked) (s : State) : State :=
  match seqOf s k with
  | none => s
  | some q => modSeq q (fun x => { x with hookOver := satAdd 65535 x.hookOver h.overs, maxGap := max x.maxGap (min 65535 h.maxGap) }) s

/-! ### Headers (R229, R449) -/

def pipeKey (c : Nat) : JobKey := ⟨0, c, 0⟩

/-- R229. FLAGS of a frame, without IR and SEALED. -/
def frameFlags (f : Frame) : Nat :=
  (match f.outcome with | .complete => 0 | .truncated => 1 | .dropped => 2) + 4 * b2n f.late + 8 * b2n f.fifoOvf + 16 * b2n f.pipeOvr
    + 32 * b2n f.unsettled + 64 * b2n f.reasons.exposureGain + 128 * b2n f.reasons.mode + 256 * b2n f.reasons.bind

/-- R449. A vision window is sealed. -/
def windowSealed (s : State) (w : Window) : Bool := s.hasVision && isVision w.format && !w.unsealed

/-- R438, R449. The CMAC of a sealed header over the payload. -/
def headerSeal (s : State) (c : Nat) (head payload : List Byte) : List Byte :=
  if s.tarn.tampered then zeros 16
  else mac (sealLeaf s c ((s.chan c).head.state == .paired)) (head ++ hash payload)

/-- R229. The header of window `i`. -/
def windowHeader (s : State) (c i : Nat) (f : Frame) (w : Window) (payload : List Byte) : List Byte :=
  let body := le 1 c ++ le 1 i ++ le 1 w.format ++ le 1 (if w.pyramid then 4 else 0) ++ le 2 w.outW ++ le 2 w.outH ++ le 8 f.counter
    ++ le 8 f.capture ++ le 2 (frameFlags f + 512 * b2n w.ir + 1024 * b2n (windowSealed s w))
    ++ le 2 (if f.outcome == .truncated then truncRow w f.truncLine else 0xFFFF) ++ le 4 payload.length ++ le 4 f.calGen ++ zeros 12
  body ++ (if windowSealed s w then headerSeal s c body payload else zeros 16)

/-! ### One pass with its hooks -/

/-- What the hooks and stages of a frame have made: the linear planes, or those of a YUV422 frame, the first line not processed with its
reason, and the cycles of each invocation with its line. -/
structure Pass where
  taps : Tapped
  cut : Option (Nat × Nat × RunEnd)
  seen : List Hooked
  used : List (Nat × Nat)
deriving DecidableEq, Repr, Inhabited

/-- The earlier of two cuts. -/
def earlier (a b : Option (Nat × Nat × RunEnd)) : Option (Nat × Nat × RunEnd) :=
  match a, b with
  | some x, some y => if y.1 < x.1 then some y else some x
  | none, y => y
  | x, none => x

/-- R66. The cycles the meter of a pipeline job leaves to hooks by the end of a line, for the settings the frame is bound to. -/
def pipeLeft (s : State) (c : Nat) (f : Frame) (line : Nat) : Nat :=
  let cost := pipeCost s f.cfg
  hookLeft (.pipe c) f.counter (cost / 100) pipeSetup (pipeBase cost (hookCycles s f.cfg 0 [0, 1, 2, 3])) ((f.cfg.bind.map Bind.height).getD 0)
    (line + 1)

/-- Run hook `h` of a frame over ports, for `n` rows of `w` samples; `left` gives the cycles the meter leaves by the end of a row. -/
def runHook (s : State) (c : Nat) (f : Frame) (h unit fmt w n rows : Nat) (left : Nat → Nat) (ports : Vector HPort 4) : Option (Nat × Hooked) :=
  (hookRoutine (tget s.cls (if h < 4 then 0 else 1)) (tget f.cfg.hooks h)).map fun kr =>
    (kr.1.routine, hookRows (tget s.cls (if h < 4 then 0 else 1)) kr.2 w kr.1.span left
      (fun row => jobParams row w rows c unit fmt (frameFlags f) f.counter f.capture kr.1) 0 n ⟨ports, none, 0, 0, 0, []⟩)

/-- The cycles of a hook's invocations, each with the line it belongs to. -/
def usedBy (r : Option (Nat × Hooked)) (line : Nat → Nat) : List (Nat × Nat) :=
  match r with
  | some (_, h) => (List.range h.used.length).map fun i => (line i, h.used[i]?.getD 0)
  | none => []

/-- The cut a hook leaves, as a line. -/
def cutOf (r : Option (Nat × Hooked)) (line : Nat → Nat) : Option (Nat × Nat × RunEnd) :=
  match r with
  | some (k, h) => h.cut.map fun x => (line x.1, k, x.2)
  | none => none

/-- The plane of port `i` after a hook, or as it was. -/
def hookPlane (r : Option (Nat × Hooked)) (i : Nat) (p : Plane) : Plane :=
  match r with
  | some (_, h) => (tget h.ports i).plane
  | none => p

/-- R204, R492. Stages 1 to 9 of a frame with H0 and H1. -/
def onePass (s : State) (c : Nat) (f : Frame) : Pass :=
  let p := f.cfg.pipe
  if p.mosaic = 7 then ⟨{ toned := [], linear := [], ir := [], yuv := some (yuvPlanes f) }, none, [], []⟩
  else
    let raw := rawPlane f
    let w := (raw.headD []).length
    let dt := (f.cfg.bind.map Bind.dt).getD 0
    let got := min f.lines.length (if f.truncLine = 0xFFFF then f.lines.length else f.truncLine)
    let r0 := runHook s c f 0 0 dt w (min raw.length got) raw.length (pipeLeft s c f)
      (Vector.ofFn fun i => if i.val = 0 then hport raw true 24 else if i.val = 1 then ⟨raw, -2, false, 24⟩ else hport [] false 24)
    let lin := linearPlanes p (hookPlane r0 0 raw)
    let g (k : Nat) : Plane := lin[k]?.getD []
    let r1 := runHook s c f 1 0 dt w raw.length raw.length (pipeLeft s c f)
      (Vector.ofFn fun i => if i.val < 3 then hport (g i.val) true 24 else hport (g 3) false 24)
    let lin1 := (List.range 3).map (fun k => hookPlane r1 k (g k)) ++ (lin[3]?.toList)
    let tone := (s.chan c).toneMeans.find? fun t => t.1 == p.mosaic
    let direct := tone.any fun t => t.2.1 + 1 == f.counter
    ⟨tapsOf p lin1 (tone.map fun t => t.2.2) direct, earlier (cutOf r0 id) (cutOf r1 id), (r0.toList ++ r1.toList).map Prod.snd,
      usedBy r0 id ++ usedBy r1 id⟩

/-- R231. The last input line an output row needs. -/
def lastLine (w : Window) (i : Nat) : Nat := (rowSupport w i).foldl max 0

/-- What a hook over a picture leaves: its planes, the cut, what was counted, and the cycles of its invocations. -/
structure HookedPlanes where
  planes : List Plane
  cut : Option (Nat × Nat × RunEnd)
  seen : List Hooked
  used : List (Nat × Nat)
deriving DecidableEq, Repr, Inhabited

/-- R492. H2 or H3 over a window's planes. -/
def hookWindow (s : State) (c : Nat) (f : Frame) (i : Nat) (w : Window) (xs : List Plane) : HookedPlanes :=
  let h := if isVision w.format then 3 else 2
  if isCoding w.format || !((tget f.cfg.hooks h).any fun k => bitOf k.mask i) then ⟨xs, none, [], []⟩
  else
    let bits := if w.format = 0x22 then 16 else 8
    let all := xs.flatten
    let width := (all.headD []).length
    let line (row : Nat) : Nat := lastLine w (row % w.outH)
    let r := runHook s c f h i w.format width all.length all.length (fun row => pipeLeft s c f (line row))
      (Vector.ofFn fun k => if k.val = 0 then hport all true bits else hport [] false bits)
    let out := hookPlane r 0 all
    ⟨if xs.length ≤ 1 then [out] else (List.range xs.length).map fun k => (out.drop (k * w.outH)).take w.outH,
      cutOf r line, (r.toList).map Prod.snd, usedBy r line⟩

/-- A pipeline job's result: the frame as its record now stands, the windows, and what the hooks did. -/
structure PipeResult where
  frame : Frame
  formed : List (Nat × Window × List Plane)
  cut : Option (Nat × Nat × RunEnd)
  seen : List Hooked
  linear : List Plane
deriving DecidableEq, Repr, Inhabited

/-- R68. The record truncated from the first line not processed, where that is earlier. -/
def Frame.overrun (line : Nat) (f : Frame) : Frame :=
  { f with pipeOvr := true, outcome := .truncated, truncLine := min f.truncLine line }

/-- R28, R68, R497. The pass over a frame; `ext` is a line at which the meter, the watchdog or a halted sequencer ends it. -/
def pipeResult (s : State) (c : Nat) (ext : Option Nat) (f : Frame) : PipeResult :=
  let pass := onePass s c f
  let p := f.cfg.pipe
  let wins := (List.range 4).filterMap fun i => (tget f.cfg.windows i).map fun w => (i, w)
  let done := wins.map fun iw => (iw.1, iw.2, hookWindow s c f iw.1 iw.2 (windowPlanes p f.truncLine pass.taps iw.2))
  let hooks := done.foldl (fun a d => earlier a d.2.2.cut) pass.cut
  let cut := earlier hooks ((meterLine (pipeLeft s c f) (pass.used ++ done.flatMap fun d => d.2.2.used)).map fun l => (l, 0, RunEnd.metered))
  let line := match cut, ext with
    | some x, some e => some (min x.1 e)
    | some x, none => some x.1
    | none, e => e
  let g := match line with | some l => f.overrun l | none => f
  { frame := g
    formed := done.map fun d => (d.1, d.2.1, match line with | some _ => blackWindow p g.truncLine d.2.1 d.2.2.planes | none => d.2.2.planes)
    cut := cut.filter fun x => ext.all fun e => x.1 < e
    seen := pass.seen ++ done.flatMap fun d => d.2.2.seen
    linear := pass.taps.linear }

/-- R231, R229. The items of a frame's windows: the samples of a coding window, the header and payload of another. A dropped
record has headers alone. -/
def formItem (s : State) (c : Nat) (f : Frame) (d : Nat × Window × List Plane) : Nat × Formed :=
  let w := d.2.1
  let payload := if f.outcome == .dropped then [] else windowBytes f.truncLine w d.2.2
  if isCoding w.format then (d.1, ⟨[], payload⟩) else (d.1, ⟨windowHeader s c d.1 f w payload, payload⟩)

/-- R96, R173. The record of the last closed frame after its pipeline job. -/
def rewriteRecord (c : Nat) (old new : Frame) (s : State) : State :=
  modChan c (fun x => { x with
    lastRec := x.lastRec.map fun r => if r.counter = new.counter then new else r
    trunc := satAdd 0xFFFF x.trunc (b2n (old.outcome == .complete && new.outcome == .truncated))
    ovrPipe := satAdd 0xFFFF x.ovrPipe (b2n (new.pipeOvr && !old.pipeOvr)) }) s

/-- R215. The luma means of a record that is not dropped. -/
def keepTone (c : Nat) (f : Frame) (lin : List Plane) (s : State) : State :=
  if f.cfg.pipe.mosaic = 7 then s
  else modChan c (fun x => { x with
    toneMeans := (f.cfg.pipe.mosaic, f.counter, lumaMeans f.cfg.pipe lin) :: x.toneMeans.filter fun t => t.1 != f.cfg.pipe.mosaic }) s

/-- R28, R67, R232, R499. The pipeline job of channel `c` finishes. A halted sequencer's jobs are finished by the completion
unit from the first line on. -/
def pipeJobEnd (c : Nat) (s : State) : State :=
  let x := s.chan c
  match x.pipeJob with
  | none => s
  | some f =>
    if stalled s (pipeKey c) then modChan c (fun y => { y with pipeJob := none, pipeCut := none }) s
    else if f.outcome == .dropped then
      let forms := (List.range 4).filterMap fun i =>
        (tget f.cfg.windows i).bind fun w => if isCoding w.format then none else some (formItem s c f (i, w, []))
      modChan c (fun y => { y with pipeJob := none, pipeCut := none, encNext := some f, formed := forms }) s
    else
      let halted := (seqOf s (pipeKey c)).any fun q => (tget s.seqs q).halted
      let ext := if halted then some 0 else x.pipeCut.map Prod.fst
      let r := pipeResult s c ext f
      let s1 := meterJob (pipeKey c) r.frame.pipeOvr (forEach r.seen (countHook (pipeKey c)) s)
      let s2 := match r.cut with
        | some (_, k, e) => reportRoutine (pipeKey c) k e (raisePipe c 0) s1
        | none => s1
      let s3 := keepTone c r.frame r.linear (rewriteRecord c f r.frame s2)
      let forms := r.formed.map (formItem s c r.frame)
      modChan c (fun y => { y with pipeJob := none, pipeCut := none, encNext := some r.frame, formed := forms }) s3

/-- PIPE_JOB_END, R28. -/
def execPipeJobEnd (ch : Nat) (s : State) : Host.Outcome State Fault Refusal :=
  if 32 ≤ ch then .refused (.noSuchUnit "channel" ch) else .next (pipeJobEnd ch s)

end Sys2Proof.Machine
end

