-- ==== Sys2Proof/Machine/Rate.lean ====
section
/-!
DEFINITION. Levels, the declared HRD, its feasibility, the access-unit ceiling, and the QP and CTU rules of rate control (R265,
R271, R289, R310 to R323). The level tables are those of Annex A of H.265 and H.264, to which R271 and R310 refer (choice 11).
-/
namespace Sys2Proof.Machine

/-- A level: largest picture, largest sample rate, NAL HRD rate and buffer in bits, least compression ratio, and picture memory
of the decoded picture buffer (macroblocks in H.264). H.265 counts luma samples, H.264 macroblocks. -/
structure Level where
  idc : Nat
  size : Nat
  rate : Nat
  br : Nat
  cpb : Nat
  minCr : Nat
  dpb : Nat
deriving DecidableEq, Repr, Inhabited

/-- Choice 11. Annex A of H.265, levels 1 to 5.1, Main tier; rates and buffers in 1,000 bits. -/
def levels265 : List Level := [
  ⟨30, 36864, 552960, 128, 350, 2, 0⟩, ⟨60, 122880, 3686400, 1500, 1500, 2, 0⟩, ⟨63, 245760, 7372800, 3000, 3000, 2, 0⟩,
  ⟨90, 552960, 16588800, 6000, 6000, 2, 0⟩, ⟨93, 983040, 33177600, 10000, 10000, 2, 0⟩,
  ⟨120, 2228224, 66846720, 12000, 12000, 4, 0⟩, ⟨123, 2228224, 133693440, 20000, 20000, 4, 0⟩,
  ⟨150, 8912896, 267386880, 25000, 25000, 6, 0⟩, ⟨153, 8912896, 534773760, 40000, 40000, 8, 0⟩]

/-- Choice 11. Annex A of H.264, levels 1 to 5.1 without 1b. -/
def levels264 : List Level := [
  ⟨10, 99, 1485, 64, 175, 2, 396⟩, ⟨11, 396, 3000, 192, 500, 2, 900⟩, ⟨12, 396, 6000, 384, 1000, 2, 2376⟩,
  ⟨13, 396, 11880, 768, 2000, 2, 2376⟩, ⟨20, 396, 11880, 2000, 2000, 2, 2376⟩, ⟨21, 792, 19800, 4000, 4000, 2, 4752⟩,
  ⟨22, 1620, 20250, 4000, 4000, 2, 8100⟩, ⟨30, 1620, 40500, 10000, 10000, 2, 8100⟩, ⟨31, 3600, 108000, 14000, 14000, 4, 18000⟩,
  ⟨32, 5120, 216000, 20000, 20000, 4, 20480⟩, ⟨40, 8192, 245760, 20000, 25000, 4, 32768⟩,
  ⟨41, 8192, 245760, 50000, 62500, 2, 32768⟩, ⟨42, 8704, 522240, 50000, 62500, 2, 34816⟩,
  ⟨50, 22080, 589824, 135000, 135000, 2, 110400⟩, ⟨51, 36864, 983040, 240000, 240000, 2, 184320⟩]

def is265 (codec : Nat) : Bool := codec < 2

/-- R265. The level a codec and level_idc name. -/
def levelOf (codec idc : Nat) : Option Level := (if is265 codec then levels265 else levels264).find? fun l => l.idc == idc

/-- Picture size in the level's units; H.264 pads to macroblocks (R268). -/
def picUnits (codec w h : Nat) : Nat := if is265 codec then w * h else cdiv w 16 * cdiv h 16

/-- R271. Size and sides of a picture against a level. -/
def sizeFits (codec : Nat) (l : Level) (w h : Nat) : Bool :=
  let a := if is265 codec then w else cdiv w 16
  let b := if is265 codec then h else cdiv h 16
  picUnits codec w h ≤ l.size && a * a ≤ 8 * l.size && b * b ≤ 8 * l.size

/-- R271. Maximum pictures of the decoded picture buffer. -/
def maxDpb (codec : Nat) (l : Level) (w h : Nat) : Nat :=
  if is265 codec then
    (if 4 * (w * h) ≤ l.size then 16 else if 2 * (w * h) ≤ l.size then 12 else if 4 * (w * h) ≤ 3 * l.size then 8 else 6)
  else min 16 (l.dpb / max 1 (picUnits codec w h))

/-- R271. The sample rate at interval `dt` ns is within the level. -/
def rateFits (codec : Nat) (l : Level) (w h dt : Nat) : Bool := picUnits codec w h * 1000000000 ≤ l.rate * dt

/-- R310. Largest NAL HRD rate and buffer. -/
def nalFactor (codec : Nat) : Nat := if is265 codec then 1100 else if codec = 4 then 1500 else 1200

/-- Feasibility. L_AU in bytes: the smaller of the MinCR bounds of the first and of every later access unit. -/
def lAu (codec : Nat) (l : Level) (w h dt : Nat) : Nat :=
  if is265 codec then
    (let n := if codec = 1 then 15 else 12
     min (n * max (w * h * 300) l.rate / (8 * 300 * l.minCr)) (n * l.rate * dt / (8 * 1000000000 * l.minCr)))
  else
    min (384 * max (picUnits codec w h * 172) l.rate / (172 * l.minCr)) (384 * l.rate * dt / (1000000000 * l.minCr))

/-! ### Pictures -/

def ctuCols (w : Nat) : Nat := cdiv w 32
def ctuRows (h : Nat) : Nat := cdiv h 32
def ctuCount (d : Nat × Nat) : Nat := ctuCols d.1 * ctuRows d.2

def isCavlc (c : StreamCfg) : Bool := c.codec == 2 || (c.codec != 0 && c.codec != 1 && c.cavlc)

/-- R289. The bytes that skip completion of `n` CTUs with `k` slices not begun may add. -/
def skipBound (c : StreamCfg) (n k : Nat) : Nat := if isCavlc c then 64 * k + 8 * (k + 1) else 4 * n + 64 * k + 8

/-- The largest all-skip picture. -/
def allSkip (c : StreamCfg) (d : Nat × Nat) : Nat := 640 + skipBound c (ctuCount d) c.slices

/-- D in ninths of a ns (Feasibility). -/
def delay9 (h : Hrd) : Nat := h.initDelay * 100000

/-- R313. The conditions that need no picture: something is delivered, the initial fill fits the CPB, and where the interval is known CBR
filler fits between floor and ceiling. -/
def feasibleRate (h : Hrd) (r : Nat) (dt : Option Nat) : Bool :=
  let d9 := delay9 h
  r != 0 && h.cpbSize != 0 && d9 != 0 && r * d9 ≤ h.cpbSize * 9000000000
    && (h.vbr || dt.all fun t => 9 * 64 * 1000000000 + r * (9 * t) ≤ r * d9)

/-- R313. Whether a declaration at rate `r` is feasible for a picture size and interval. -/
def feasible (c : StreamCfg) (h : Hrd) (r : Nat) (d : Nat × Nat) (dt : Nat) : Bool :=
  feasibleRate h r (some dt) && 8 * allSkip c d * 9000000000 ≤ r * min (9 * dt) (delay9 h)
    && (match levelOf c.codec c.level with | some l => allSkip c d ≤ lAu c.codec l d.1 d.2 dt | none => true)

/-- R313. The rate the test uses. -/
def testRate (c : StreamCfg) (h : Hrd) : Nat := if h.vbr then h.bitRate else (if c.target = 0 then h.bitRate else c.target)

/-- The interval between access units of a channel, where its rate is known. -/
def auInterval (s : State) (x : ChanCfg) : Option Nat :=
  x.rate.map fun r => r.div * (if s.time.period = 0 then 33333333 else s.time.period)

/-- The size of a stream's source window. -/
def streamDims (x : ChanCfg) (c : StreamCfg) : Option (Nat × Nat) :=
  ((tget x.windows c.win).filter fun w => isCoding w.format).map fun w => (w.outW, w.outH)

/-- R313. The declaration of a stream is feasible, as far as picture size and rate are known. -/
def hrdFits (s : State) (x : ChanCfg) (c : StreamCfg) : Bool :=
  match c.hrd with
  | none => false
  | some h =>
    let r := testRate c h
    match (if c.set then streamDims x c else none), auInterval s x with
    | some d, some dt => feasible c h r d dt
    | _, dt => feasibleRate h r dt

/-- R314. The ceiling that DMC and SEAL book. -/
def auCap (s : State) (x : ChanCfg) (c : StreamCfg) : Nat :=
  match c.hrd, streamDims x c, auInterval s x, levelOf c.codec c.level with
  | some h, some d, some dt, some l => min (h.bitRate * delay9 h / 72000000000) (lAu c.codec l d.1 d.2 dt)
  | some h, _, _, _ => h.bitRate * delay9 h / 72000000000
  | none, _, _, _ => 0

/-! ### The ledger (R315) -/

/-- R315. The access-unit ceiling at rate `r` for an access unit eligible at `e` whose model arrival starts at `tai`. -/
def capBytes (h : Hrd) (r e tai l : Nat) : Nat :=
  min (((r : Int) * (9 * ((e : Int) - tai) + delay9 h) / 72000000000).toNat) l

/-- R315. The CBR floor. -/
def floorBytes (r e dt tai : Nat) : Nat :=
  let n : Int := (r : Int) * ((e : Int) + dt - tai)
  if n ≤ 0 then 0 else ((n + 7999999999) / 8000000000).toNat

/-- R315. When the access unit of `n` bytes has arrived. -/
def arrivalEnd (r tai n : Nat) : Nat := tai + cdiv (8000000000 * n) r

/-! ### Starting QP (R322, R325) -/

/-- R322. T in units of 1 / 72e9 bit. -/
def targetBits (c : StreamCfg) (h : Hrd) (r dt cap v n : Nat) : Int :=
  let t : Int := 72 * (c.target * dt : Nat) + 144000000000 * (cap : Nat) - (r * delay9 h : Nat)
  clampI (8 * skipBound c n c.slices * 72000000000 : Nat) ((8 * 72000000000 : Nat) * ((cap : Int) - v)) t

/-- R322. round(6 log2 (v / T)), held to -4 to 4; `t` in units of 1 / 72e9. -/
def qpStep (v : Nat) (t : Int) : Int :=
  let y := t.toNat
  let x := v * 72000000000
  let n := sumOf (List.range 8) fun k => b2n (if k < 4 then decide (y ^ 12 ≤ x ^ 12 * 2 ^ (7 - 2 * k)) else decide (y ^ 12 * 2 ^ (2 * k - 7) ≤ x ^ 12))
  (n : Int) - 4

/-- R321, R322. Starting QP. -/
def startQp (c : StreamCfg) (lastP : Option (Nat × Nat)) (t : Int) (intra : Bool) : Nat :=
  let q : Int := if c.qpFixedEn then c.qpFixed else match lastP with | some (q0, v) => q0 + qpStep v t | none => 32
  (clampI c.qpMin c.qpMax (if intra then q + c.iDelta else q)).toNat

/-- R325. The ceiling is less than the last IDR's size scaled by its QP. -/
def belowEstimate (cap : Nat) (last : Option (Nat × Nat)) (q : Nat) : Bool :=
  match last with
  | none => false
  | some (q0, n) => if q ≤ q0 then cap ^ 6 < n ^ 6 * 2 ^ (q0 - q) else cap ^ 6 * 2 ^ (q - q0) < n ^ 6

/-! ### Within the picture (R318) -/

/-- A CTU as coded: its QP, its blocks, and whether ego candidates were evaluated for it. -/
structure CtuUnit where
  qp : Nat
  blocks : List PredBlock
  ego : Bool
deriving DecidableEq, Repr, Inhabited

/-- What the CTU loop has done: bytes used, QP offset, bytes of the slices begun (last first), whether a CTU exceeded the host's
bound, the CTU at which the skip floor struck, the next CTU, the CTUs coded (last first), and whether ego candidates were evaluated. -/
structure CtuRun where
  used : Nat
  off : Nat
  lens : List Nat
  past : Bool
  stopped : Option Nat
  next : Nat
  units : List CtuUnit
  ego : Bool
deriving DecidableEq, Repr, Inhabited

/-- Nothing coded yet. -/
def CtuRun.none : CtuRun := ⟨0, 0, [], false, .none, 0, [], false⟩

/-- R286. First CTU of slice `k`. -/
def sliceFirst (c : StreamCfg) (d : Nat × Nat) (k : Nat) : Nat := k * ctuRows d.2 / c.slices * ctuCols d.1

/-- R286. Slices whose first CTU is after `i`. -/
def slicesAfter (c : StreamCfg) (d : Nat × Nat) (i : Nat) : Nat := ((List.range c.slices).filter fun k => i < sliceFirst c d k).length

/-- R318, R320. CTUs from `i`, `n` of them; `code` searches and codes a CTU at a QP after those before it (last first), and gives its bytes,
the slice header with them where it begins a slice. `bound` is the QP above which the host's policy is overridden (R323). -/
def ctuLoop (c : StreamCfg) (d : Nat × Nat) (code : List CtuUnit → Nat → Nat → Nat × CtuUnit) (budget q bound : Nat) :
    Nat → Nat → CtuRun → CtuRun
  | 0, _, r => r
  | n + 1, i, r =>
    let cnt := ctuCount d
    let rest := skipBound c (cnt - i - 1) (slicesAfter c d i)
    let left := budget - r.used - rest
    let m := cnt - i
    let o1 := if 0 < i && 5 * left * i < 4 * r.used * m then r.off + 1 else r.off
    let o2 := if 0 < i && 2 * left * i < r.used * m then o1 + 1 else o1
    let o3 := if 0 < o2 && (if 0 < i then 2 * r.used * m < left * i else 0 < left) then o2 - 1 else o2
    let qp := min 51 (q + o3)
    let t := code r.units i qp
    let b := t.1
    if budget - rest < r.used + b then
      { r with off := o3, stopped := some i, past := r.past || bound < qp, next := i, ego := r.ego || t.2.ego }
    else
      let lens := if (List.range c.slices).any (fun k => sliceFirst c d k == i) then b :: r.lens
        else match r.lens with | a :: l => (a + b) :: l | [] => [b]
      ctuLoop c d code budget q bound n (i + 1)
        { r with used := r.used + b, off := o3, lens := lens, past := r.past || bound < qp, next := i + 1, units := t.2 :: r.units
                 ego := r.ego || t.2.ego }

/-- R288, R289. Bytes the completion path spends on slice `k`, of which CTUs from `i` are left; open within the bound. A slice not yet begun
takes its header of `head` bytes, start code included. -/
def completion (c : StreamCfg) (d : Nat × Nat) (id_ : List Nat) (head i k : Nat) : Nat :=
  let a := sliceFirst c d k
  let e := if k + 1 < c.slices then sliceFirst c d (k + 1) else ctuCount d
  if e ≤ i then 0
  else
    let most := if isCavlc c then 8 + (if i ≤ a then 64 else 0) else 4 * (e - max a i) + (if i ≤ a then 64 else 0)
    let least := if i ≤ a then min 64 head else 0
    least + Config.ctuBytes (k :: 1 :: id_) i % (most + 1 - least)

/-- R286, R288. Bytes of every slice, first first, when the loop ended at CTU `i`. -/
def sliceLens (c : StreamCfg) (d : Nat × Nat) (id_ : List Nat) (head : Nat → Nat) (r : CtuRun) : List Nat :=
  let coded := r.lens.reverse
  (List.range c.slices).map fun k => (coded[k]?.getD 0) + completion c d id_ (head k) r.next k

end Sys2Proof.Machine
end

