-- ==== Sys2Proof/Machine/Ego.lean ====
section
/-!
DEFINITION. The ego projection: where a sample of a coded window was seen in a reference, by the camera's enrolled geometry (R304),
the vehicle's motion (R305) and the window's mapping (R224), under R307. Lengths are in metres, angles in radians, times in
seconds, all exact. The spec computes with real numbers and states no precision: sine, cosine, square root and arc tangent are computed to
within 2^-48, and what a value may lie off that is open (choice 115).
-/
namespace Sys2Proof.Machine

/-! ### Real functions -/

/-- Sum of the first `n` terms of a series: `term` from the last term on, `next` the factor to the following one. -/
def series (next : Nat → Rat) : Nat → Nat → Rat → Rat
  | 0, _, _ => 0
  | n + 1, k, t => t + series next n (k + 1) (t * next k)

/-- The value computed, and an open deviation of at most 2^-48. -/
def nearly (place : Nat) (x q : Rat) : Rat :=
  let e := Config.realError place x
  let lim : Rat := 1 / 281474976710656
  q + (if lim < e then lim else if e < -lim then -lim else e)

/-- Cosine, and sine over its argument, of an angle whose square is `z`. -/
def cosSeries (z : Rat) : Rat := series (fun k => -z / ((2 * k + 1) * (2 * k + 2) : Nat)) 32 0 1
def sincSeries (z : Rat) : Rat := series (fun k => -z / ((2 * k + 2) * (2 * k + 3) : Nat)) 32 0 1

def sinOf (t : Rat) : Rat := if t = 0 then 0 else nearly 0 t (t * sincSeries (t * t))
def cosOf (t : Rat) : Rat := if t = 0 then 1 else nearly 1 t (cosSeries (t * t))

/-- The largest `r` below `2^n` with `r * r` at most `m`, above a start. -/
def rootFrom (m : Nat) : Nat → Nat → Nat
  | 0, r => r
  | n + 1, r => rootFrom m n (if (r + 2 ^ n) * (r + 2 ^ n) ≤ m then r + 2 ^ n else r)

/-- Square root of a number that is not negative. -/
def sqrtOf (q : Rat) : Rat :=
  if q ≤ 0 then 0 else if q = 1 then 1 else nearly 2 q ((rootFrom (q * 2 ^ 128).floor.toNat 128 0 : Nat) / 2 ^ 64)

/-- Arc tangent over its argument, of an argument whose square is `z`; halved three times before the series. -/
def atanSeries (z : Rat) : Rat := series (fun k => -z * (2 * k + 1 : Nat) / (2 * k + 3 : Nat)) 24 0 1
def atancOf (z : Rat) : Rat :=
  let half (q : Rat) : Rat := q / (1 + sqrtOf (1 + q * q))
  if z = 0 then 1
  else
    let q := sqrtOf z
    let h := half (half (half q))
    nearly 3 z (8 * h * atanSeries (h * h) / q)

/-- The ratio `m` of an undistorted radius to the distorted one, whose square times K1 is `a`: the root of m + a m^3 = 1 by bisection. -/
def ratioFrom (a : Rat) : Nat → Rat → Rat → Rat
  | 0, lo, _ => lo
  | n + 1, lo, hi =>
    let m := (lo + hi) / 2
    if m + a * m * m * m ≤ 1 then ratioFrom a n m hi else ratioFrom a n lo m

/-- R304. That ratio; none where no ray has the distorted radius (the model turns back beyond 3 |K1| r^2 = 1). -/
def undistort (a : Rat) : Option Rat :=
  if a = 0 then some 1
  else if 0 < a then some (nearly 4 a (ratioFrom a 64 0 1))
  else if -27 * a ≤ 4 then some (nearly 4 a (ratioFrom a 64 1 (3 / 2))) else none

/-! ### Geometry -/

/-- A point or direction in the vehicle frame (x forward, y left, z up) or in a camera frame whose x is the optical axis. -/
structure Vec3 where
  x : Rat
  y : Rat
  z : Rat
deriving DecidableEq, Repr, Inhabited

def Vec3.plus (a b : Vec3) : Vec3 := ⟨a.x + b.x, a.y + b.y, a.z + b.z⟩
def Vec3.minus (a b : Vec3) : Vec3 := ⟨a.x - b.x, a.y - b.y, a.z - b.z⟩
def Vec3.times (k : Rat) (a : Vec3) : Vec3 := ⟨k * a.x, k * a.y, k * a.z⟩
def Vec3.square (a : Vec3) : Rat := a.x * a.x + a.y * a.y + a.z * a.z

/-- R304. Rotations about x, y and z by the right-hand rule. -/
def rotX (t : Rat) (v : Vec3) : Vec3 := ⟨v.x, v.y * cosOf t - v.z * sinOf t, v.y * sinOf t + v.z * cosOf t⟩
def rotY (t : Rat) (v : Vec3) : Vec3 := ⟨v.x * cosOf t + v.z * sinOf t, v.y, v.z * cosOf t - v.x * sinOf t⟩
def rotZ (t : Rat) (v : Vec3) : Vec3 := ⟨v.x * cosOf t - v.y * sinOf t, v.x * sinOf t + v.y * cosOf t, v.z⟩

/-- R303. An angle in microradians. -/
def micro (n : Int) : Rat := n / 1000000

/-- R304. From the camera frame to the vehicle frame: ROLL about the axis, then PITCH about y, then YAW about z; and back. -/
def toVehicle (g : Geometry) (v : Vec3) : Vec3 := rotZ (micro g.yaw) (rotY (micro g.pitch) (rotX (micro g.roll) v))
def toCamera (g : Geometry) (v : Vec3) : Vec3 := rotX (-micro g.roll) (rotY (-micro g.pitch) (rotZ (-micro g.yaw) v))

/-- R303. Intrinsics and K1 as numbers, and the camera's centre in metres. -/
def fixed16 (n : Int) : Rat := n / 65536
def Geometry.k (g : Geometry) : Rat := g.k1 / 16384
def Geometry.centre (g : Geometry) : Vec3 := ⟨g.tx / 1000, g.ty / 1000, g.tz / 1000⟩

/-- R304. The direction in the vehicle frame of a bound-frame pixel: image right is -y and image down is -z of the camera frame.
None where the lens model has no ray at that pixel: beyond where its radial term turns back, and beyond an angle of a half turn. -/
def rayOf (g : Geometry) (px py : Rat) : Option Vec3 :=
  let dx := (px - fixed16 g.cx) / fixed16 g.fx
  let dy := (py - fixed16 g.cy) / fixed16 g.fy
  let r2 := dx * dx + dy * dy
  if g.model = 0 then (undistort (g.k * r2)).map fun m => toVehicle g ⟨1, -(m * dx), -(m * dy)⟩
  else if r2 ≤ 98696044 / 10000000 then
    let m := if r2 = 0 then 1 else nearly 5 r2 (sincSeries r2)
    some (toVehicle g ⟨if r2 = 0 then 1 else nearly 6 r2 (cosSeries r2), -(m * dx), -(m * dy)⟩)
  else none

/-- R304, R307. The bound-frame pixel at which a point, given from the camera's centre, is seen. None behind the camera, and where the
pinhole's radial term has turned back. -/
def pixelOf (g : Geometry) (p : Vec3) : Option (Rat × Rat) :=
  let v := toCamera g p
  if v.x ≤ 0 then none
  else
    let x := -v.y / v.x
    let y := -v.z / v.x
    let r2 := x * x + y * y
    if g.model = 0 && g.k * r2 < -1 / 3 then none
    else
      let d := if g.model = 0 then 1 + g.k * r2 else atancOf r2
      some (fixed16 g.cx + fixed16 g.fx * (d * x), fixed16 g.cy + fixed16 g.fy * (d * y))

/-- R224. The input position of an output position on one axis, and its inverse. -/
def toInput (crop size out : Nat) (i : Rat) : Rat := crop + (i + 1 / 2) * size / out - 1 / 2
def toOutput (crop size out : Nat) (c : Rat) : Rat := (c - crop + 1 / 2) * out / size - 1 / 2

/-- R224. MIRROR reverses the order of an output row. -/
def mirrored (w : Window) (u : Rat) : Rat := if w.mirror then (w.outW : Rat) - 1 - u else u

/-- R307. Ground point of a ray from the camera's centre within FAR, else the far point. -/
def pointOf (g : Geometry) (d : Vec3) : Vec3 :=
  let c := g.centre
  let far : Rat := g.far / 10
  let k := c.z / -d.z
  if d.z < 0 && k * k * d.square ≤ far * far then c.plus (d.times k) else c.plus (d.times (far / sqrtOf d.square))

/-- R307. A point carried by the vehicle's motion back over `dt`: R305's units are cm/s and 1/1,024 rad/s. -/
def moved (m : Ego) (dt : Rat) (p : Vec3) : Vec3 :=
  let psi := m.yaw / 1024 * dt
  let theta := m.pitch / 1024 * dt
  let s := m.speed / 100 * dt
  (rotZ psi (rotY theta p)).plus ⟨s * cosOf (psi / 2), s * sinOf (psi / 2), 0⟩

/-- R307. To nearest, ties away from zero. -/
def roundAway (q : Rat) : Int := if 0 ≤ q then (q + 1 / 2).floor else -(1 / 2 - q).floor

/-- R307. The ego candidate of a window position against a reference captured `dt` earlier, in quarter samples. A vehicle at rest gives
(0, 0) (R309). -/
def egoCandidate (g : Geometry) (m : Ego) (w : Window) (dt : Rat) (u v : Nat) : Option (Int × Int) :=
  (rayOf g (toInput w.cropX w.cropW w.outW (mirrored w u)) (toInput w.cropY w.cropH w.outH v)).bind fun d =>
    if m.speed = 0 ∧ m.yaw = 0 ∧ m.pitch = 0 then some (0, 0)
    else (pixelOf g ((moved m dt (pointOf g d)).minus g.centre)).map fun p =>
      (roundAway (4 * (mirrored w (toOutput w.cropX w.cropW w.outW p.1) - u)),
       roundAway (4 * (toOutput w.cropY w.cropH w.outH p.2 - v)))

/-- R295. The samples of a CTU at which candidates 6 to 10 are projected. -/
def egoSample (k : Nat) : Nat × Nat := [(16, 16), (8, 8), (24, 8), (8, 24), (24, 24)].getD (k - 6) (16, 16)

end Sys2Proof.Machine
end

