-- ==== Sys2Proof/Machine/Interp.lean ====
section
/-!
DEFINITION. Reference samples: padding, the interpolation filters of H.265 and H.264 (R301), and the measures of a block's
difference from a reference (R298 to R300). Filters and padding are those of the two standards, which the rules name (choice 113).
-/
namespace Sys2Proof.Machine

/-- R298. A sample of a plane; one outside it repeats the nearest inside. -/
def padded (p : Plane) (x y : Int) : Int :=
  (at2 p (clampI 0 ((p.length : Int) - 1) y).toNat (clampI 0 (((p.headD []).length : Int) - 1) x).toNat : Nat)

/-- Sum over the taps of a filter, the first of them `first` places before. -/
def tapSum (taps : List Int) (first : Nat) (g : Int → Int) : Int :=
  (List.range taps.length).foldl (fun (a : Int) (i : Nat) => a + (taps[i]?.getD 0) * g ((i : Int) - (first : Int))) 0

/-! ### H.265 -/

/-- R301. The 8-tap luma filters of the quarter phases, and the 4-tap chroma filters of the eighth phases. -/
def taps265 (f : Nat) : List Int :=
  [[0, 0, 0, 64, 0, 0, 0, 0], [-1, 4, -10, 58, 17, -5, 1, 0], [-1, 4, -11, 40, 40, -11, 4, -1], [0, 1, -5, 17, 58, -10, 4, -1]].getD f []
def tapsChroma265 (f : Nat) : List Int :=
  [[0, 64, 0, 0], [-2, 58, 10, -2], [-4, 54, 16, -2], [-6, 46, 28, -4], [-4, 36, 36, -4], [-4, 28, 46, -6], [-2, 16, 54, -4],
    [-2, 10, 58, -2]].getD f []

/-- R301. A sample of H.265 at a place and a phase on each axis: rows, then columns, at 14 bits, then rounded to the sample's bits. -/
def sample265 (bits first : Nat) (taps : Nat → List Int) (p : Plane) (x y : Int) (fx fy : Nat) : Nat :=
  let row (j : Int) : Int := tapSum (taps fx) first fun i => padded p (x + i) (y + j)
  let v : Int :=
    if fx = 0 ∧ fy = 0 then padded p x y * (2 ^ (14 - bits) : Nat)
    else if fy = 0 then row 0 / (2 ^ (bits - 8) : Nat)
    else if fx = 0 then tapSum (taps fy) first (fun j => padded p x (y + j)) / (2 ^ (bits - 8) : Nat)
    else tapSum (taps fy) first (fun j => row j / (2 ^ (bits - 8) : Nat)) / 64
  (clampI 0 (2 ^ bits - 1 : Nat) ((v + (2 ^ (13 - bits) : Nat)) / (2 ^ (14 - bits) : Nat))).toNat

/-! ### H.264 -/

/-- R301. The 6-tap luma filter. -/
def taps264 : List Int := [1, -5, 20, 20, -5, 1]

def clip8 (v : Int) : Nat := (clampI 0 255 v).toNat

/-- R301. A luma sample at quarter phases: half samples by the 6-tap filter, quarter samples by the mean of the two nearest. -/
def luma264 (p : Plane) (x y : Int) (fx fy : Nat) : Nat :=
  let g (i j : Int) : Nat := (padded p (x + i) (y + j)).toNat
  let row (j : Int) : Int := tapSum taps264 2 fun i => padded p (x + i) (y + j)
  let col (i : Int) : Int := tapSum taps264 2 fun j => padded p (x + i) (y + j)
  let b (j : Int) : Nat := clip8 ((row j + 16) / 32)
  let h (i : Int) : Nat := clip8 ((col i + 16) / 32)
  let mid : Nat := clip8 ((tapSum taps264 2 row + 512) / 1024)
  let mean (u v : Nat) : Nat := (u + v + 1) / 2
  match fx, fy with
  | 0, 0 => g 0 0
  | 0, 1 => mean (g 0 0) (h 0)
  | 0, 2 => h 0
  | 0, _ => mean (g 0 1) (h 0)
  | 1, 0 => mean (g 0 0) (b 0)
  | 1, 1 => mean (b 0) (h 0)
  | 1, 2 => mean (h 0) mid
  | 1, _ => mean (h 0) (b 1)
  | 2, 0 => b 0
  | 2, 1 => mean (b 0) mid
  | 2, 2 => mid
  | 2, _ => mean mid (b 1)
  | _, 0 => mean (g 1 0) (b 0)
  | _, 1 => mean (b 0) (h 1)
  | _, 2 => mean mid (h 1)
  | _, _ => mean (h 1) (b 1)

/-- R301. A chroma sample at eighth phases, bilinear. -/
def chroma264 (p : Plane) (x y : Int) (fx fy : Nat) : Nat :=
  let g (i j : Int) : Nat := (padded p (x + i) (y + j)).toNat
  ((8 - fx) * (8 - fy) * g 0 0 + fx * (8 - fy) * g 1 0 + (8 - fx) * fy * g 0 1 + fx * fy * g 1 1 + 32) / 64

/-- R301. What a vector in quarter samples predicts of component `k` at a place of it; chroma is at half the luma grid. -/
def predicted (h265 : Bool) (bits k : Nat) (p : Plane) (x y : Nat) (vx vy : Int) : Nat :=
  let d : Int := if k = 0 then 4 else 8
  let px : Int := (x : Int) + vx / d
  let py : Int := (y : Int) + vy / d
  let fx := (vx % d).toNat
  let fy := (vy % d).toNat
  if h265 then (if k = 0 then sample265 bits 3 taps265 p px py fx fy else sample265 bits 1 tapsChroma265 p px py fx fy)
  else if k = 0 then luma264 p px py fx fy else chroma264 p px py fx fy

/-! ### Differences -/

/-- A block by its place and size in luma samples. -/
structure Rect where
  x : Nat
  y : Nat
  w : Nat
  h : Nat
deriving DecidableEq, Repr, Inhabited

/-- The part of a block that lies in a cell. -/
def Rect.meet (a b : Rect) : Rect :=
  let x := max a.x b.x
  let y := max a.y b.y
  ⟨x, y, min (a.x + a.w) (b.x + b.w) - x, min (a.y + a.h) (b.y + b.h) - y⟩

/-- R298. SAD of a block at an integer vector. -/
def sadOf (src ref : Plane) (r : Rect) (vx vy : Int) : Nat :=
  sumOf (List.range r.h) fun j => sumOf (List.range r.w) fun i =>
    ((at2 src (r.y + j) (r.x + i) : Int) - padded ref ((r.x + i : Nat) + vx) ((r.y + j : Nat) + vy)).natAbs

/-- R299. SAD of a block of a CTU, as the sum of what it takes of each 8 x 8 sub-block. -/
def blockSad (src ref : Plane) (cx cy : Nat) (r : Rect) (vx vy : Int) : Nat :=
  sumOf (List.range 16) fun k => sadOf src ref (r.meet ⟨cx + 8 * (k % 4), cy + 8 * (k / 4), 8, 8⟩) vx vy

/-- R300. Half the sum of the absolute 4 x 4 Hadamard transforms of a block's differences at a vector in quarter samples. -/
def satdOf (h265 : Bool) (bits : Nat) (src ref : Plane) (r : Rect) (vx vy : Int) : Nat :=
  let diff (i j : Nat) : Int := (at2 src j i : Int) - (predicted h265 bits 0 ref i j vx vy : Nat)
  let sign (k i : Nat) : Int := if (k % 2 * (i % 2) + k / 2 * (i / 2)) % 2 = 0 then 1 else -1
  let cell (x y : Nat) : Nat := sumOf (List.range 16) fun k =>
    ((List.range 16).foldl (fun (a : Int) i => a + sign (k % 4) (i % 4) * sign (k / 4) (i / 4) * diff (x + i % 4) (y + i / 4)) 0).natAbs
  (sumOf (List.range (r.h / 4)) fun b => sumOf (List.range (r.w / 4)) fun a => cell (r.x + 4 * a) (r.y + 4 * b)) / 2

end Sys2Proof.Machine
end

