-- ==== Sys2Proof/Machine/Motion.lean ====
section
/-!
DEFINITION. Motion search of a CTU against a reference: the candidates, their order and duplicates, the integer and fractional
costs and the refinements (R285, R295 to R302, R306 to R308); and the 0x04xx motion commands (R293, R303 to R305). The predictors of a
vector are those of the two standards (choice 113).
-/
namespace Sys2Proof.Machine

/-- R297. A component in quarter samples rounded to integer samples, to nearest with ties toward zero. -/
def roundQuarter (v : Int) : Int := if 0 ≤ v then (v + 1) / 4 else -((-v + 1) / 4)

/-- R298. Bits of one component of a vector difference. -/
def mvBits (c : Int) : Nat := if c = 0 then 1 else 2 * Nat.log2 c.natAbs + 3

/-- R298. λ at a QP: the largest `n` with n - 1/2 at most 16 x 2^((QP - 12) / 6). -/
def lambda (qp : Nat) : Nat :=
  ((List.range 2048).filter fun n => n = 0 || decide ((2 * n - 1) ^ 6 * 2 ^ 12 ≤ 32 ^ 6 * 2 ^ qp)).getLast?.getD 0

/-- R297. The vector range of the codec and level in integer samples, each component from minus its bound to one less: H.265
2^15 quarter samples, H.264 2,048 samples across and Annex A's range down (choice 11). -/
def vectorRange (codec level : Nat) : Nat × Nat :=
  if is265 codec then (8192, 8192)
  else (2048, if level ≤ 10 then 64 else if level ≤ 20 then 128 else if level ≤ 30 then 256 else 512)

/-- What the search of one CTU against one reference has to go by. -/
structure Search where
  h265 : Bool
  bits : Nat
  lim : Nat × Nat
  /-- R268. POC of the picture, its coded size, and its source luma. -/
  poc : Nat
  dims : Nat × Nat
  src : Plane
  /-- R278. The reference, and whether it stands in the list as a long-term one. -/
  ref : RefPic
  refLong : Bool
  /-- R295. The newest short-term and the newest long-term reference. -/
  short : Option RefPic
  long : Option RefPic
  ctu : Rect
  /-- R286. First luma row of the slice. -/
  top : Nat
  /-- Blocks of the picture coded before this CTU. -/
  done : List PredBlock
  /-- R285. Where the CTU lies in columns already refreshed: the luma columns refreshed before this picture. -/
  fence : Option Nat
  ego : List (Option (Int × Int))
  /-- What names the content, for what the standards leave to the encoder. -/
  content : List Nat
deriving DecidableEq, Repr, Inhabited

/-! ### Neighbours and scaling -/

/-- The block that covers a sample. -/
def blockAt (l : List PredBlock) (x y : Int) : Option PredBlock :=
  l.find? fun b => decide ((b.x : Int) ≤ x ∧ x < (b.x + b.w : Nat) ∧ (b.y : Int) ≤ y ∧ y < (b.y + b.h : Nat))

/-- R296. A block of the current picture that may be looked at: in the picture, in the slice, coded, and in no region forbidden to the CTU. -/
def Search.near (s : Search) (x y : Int) : Option PredBlock :=
  if x < 0 ∨ (s.dims.1 : Int) ≤ x ∨ y < s.top ∨ (s.dims.2 : Int) ≤ y ∨ s.fence.any (fun e => (e : Int) ≤ x) then none else blockAt s.done x y

/-- R296. Its motion; none for an intra block. -/
def Search.motion (s : Search) (x y : Int) : Option Motion := (s.near x y).bind PredBlock.motion

/-- A vector scaled by POC distance, as both standards' temporal prediction scales it: `b` is the distance wanted, `d` its own. -/
def scaleVector (b d : Int) (v : Int × Int) : Int × Int :=
  let td := clampI (-128) 127 d
  let tb := clampI (-128) 127 b
  if td = 0 ∨ td = tb then v
  else
    let q (x y : Int) : Int := if (0 ≤ x) = (0 ≤ y) then (x.natAbs / y.natAbs : Nat) else -(x.natAbs / y.natAbs : Nat)
    let tx := q (16384 + (td.natAbs / 2 : Nat)) td
    let f := clampI (-4096) 4095 ((tb * tx + 32) / 64)
    let part (c : Int) : Int :=
      let p := f * c
      let m : Int := ((p.natAbs + 127) / 256 : Nat)
      clampI (-32768) 32767 (if p < 0 then -m else m)
    (part v.1, part v.2)

/-- R296. A vector as a candidate for the reference: scaled by POC distance; unscaled where it points at a long-term reference, or is used
against one. -/
def Search.scaled (s : Search) (m : Motion) : Int × Int :=
  if m.long || s.refLong then (m.x, m.y) else scaleVector ((s.poc : Int) - s.ref.poc) m.dist (m.x, m.y)

/-- R285, R308. A block predicted by a vector in quarter samples keeps its support, interpolation included, at least 8 luma samples inside
the refreshed columns of its reference. What is inside is taken from the boundary with columns not refreshed (choice 114). -/
def Search.supports (s : Search) (r : Rect) (v : Int × Int) : Bool :=
  s.fence.isNone || s.dims.1 ≤ s.ref.edge ||
    (let luma : Int := (r.x + r.w : Nat) - 1 + v.1 / 4 + (if v.1 % 4 = 0 then 0 else if s.h265 then 4 else 3)
     let chroma : Int := ((r.x + r.w) / 2 : Nat) - 1 + v.1 / 8 + (if v.1 % 8 = 0 then 0 else if s.h265 then 2 else 1)
     decide (luma + 8 < s.ref.edge ∧ 2 * chroma + 1 + 8 < s.ref.edge))

/-! ### Candidates -/

/-- R295. The samples of a CTU that candidates 1 to 5 and 11 start from. -/
def Search.centre (s : Search) : Int × Int := ((s.ctu.x + 16 : Nat), (s.ctu.y + 16 : Nat))

/-- R295, R296, R306, R308. Candidate `k` (1 to 12) in quarter samples, where it is available. -/
def candidateOf (s : Search) (k : Nat) : Option (Int × Int) :=
  let x : Int := s.ctu.x
  let y : Int := s.ctu.y
  let stored (p : RefPic) : Option Motion := (blockAt p.field s.centre.1 s.centre.2).bind PredBlock.motion
  if k = 1 then (s.short.bind stored).map s.scaled
  else if k = 2 then (s.motion (x - 1) (y + 31)).map s.scaled
  else if k = 3 then (s.motion (x + 31) (y - 1)).map s.scaled
  else if k = 4 then (s.motion (x + 32) (y - 1)).map s.scaled
  else if k = 5 then (s.motion (x - 1) (y - 1)).map s.scaled
  else if k ≤ 10 then (s.ego[k - 6]?).bind id
  else if k = 11 then (s.long.bind stored).map fun m => (m.x, m.y)
  else some (0, 0)

/-- R297. A candidate rounded to integer samples and clamped. -/
def clampVector (lim : Nat × Nat) (v : Int × Int) : Int × Int :=
  (clampI (-(lim.1 : Int)) ((lim.1 : Int) - 1) (roundQuarter v.1), clampI (-(lim.2 : Int)) ((lim.2 : Int) - 1) (roundQuarter v.2))

/-- R297, R308. The candidates evaluated, in order, each with its number: the unavailable ones and later duplicates passed over. -/
def evaluated (s : Search) : List (Nat × Int × Int) :=
  (List.range 12).foldl (fun l i =>
    match candidateOf s (i + 1) with
    | none => l
    | some q =>
      let v := clampVector s.lim q
      if l.any (fun y => y.2 == v) || !s.supports s.ctu (4 * v.1, 4 * v.2) then l else l ++ [(i + 1, v)]) []

/-! ### The predictor of a vector (choice 113) -/

/-- The median of three. -/
def median (a b c : Int) : Int := max (min a b) (min (max a b) c)

/-- H.264's predictor: the neighbour that alone points at the same reference, else the median; by shape for 16x8 and 8x16. -/
def Search.predictor264 (s : Search) (r : Rect) : Int × Int :=
  let x : Int := r.x
  let y : Int := r.y
  let a := s.near (x - 1) y
  let b := s.near x (y - 1)
  let c := (s.near (x + r.w) (y - 1)).orElse fun _ => s.near (x - 1) (y - 1)
  let b1 := if b.isNone && c.isNone then a else b
  let c1 := if b.isNone && c.isNone then a else c
  let mv (o : Option PredBlock) : Int × Int := match o.bind PredBlock.motion with | some m => (m.x, m.y) | none => (0, 0)
  let same (o : Option PredBlock) : Bool := (o.bind PredBlock.motion).any fun m => m.counter == s.ref.counter
  let one := [a, b1, c1].filter same
  let usual := if one.length = 1 then mv (one.headD none)
    else (median (mv a).1 (mv b1).1 (mv c1).1, median (mv a).2 (mv b1).2 (mv c1).2)
  if r.w = 16 ∧ r.h = 8 then (if r.y % 16 = 0 then (if same b then mv b else usual) else if same a then mv a else usual)
  else if r.w = 8 ∧ r.h = 16 then (if r.x % 16 = 0 then (if same a then mv a else usual) else if same c then mv c else usual)
  else usual

/-- H.265's temporal predictor: the block below and right of a block in the newest short-term reference where it lies in the same CTU row,
else the one at its centre. -/
def Search.temporal (s : Search) (r : Rect) : Option (Int × Int) :=
  s.short.bind fun p =>
    let at_ (x y : Nat) : Option Motion := (blockAt p.field ((x / 16 * 16 : Nat) : Int) ((y / 16 * 16 : Nat) : Int)).bind PredBlock.motion
    let low := if (r.y + r.h) / 32 = r.y / 32 then at_ (r.x + r.w) (r.y + r.h) else none
    ((low.orElse fun _ => at_ (r.x + r.w / 2) (r.y + r.h / 2)).filter fun m => m.long == s.refLong).map s.scaled

/-- H.265's two predictors: one from the left, one from above, then the temporal one and (0, 0). -/
def Search.predictors265 (s : Search) (r : Rect) : List (Int × Int) :=
  let x : Int := r.x
  let y : Int := r.y
  let pick (l : List (Option Motion)) (scale : Bool) : Option (Int × Int) :=
    match (l.filterMap id).find? fun m => m.counter == s.ref.counter with
    | some m => some (m.x, m.y)
    | none => if scale then ((l.filterMap id).find? fun m => m.long == s.refLong).map s.scaled else none
  let left := [s.motion (x - 1) (y + r.h), s.motion (x - 1) (y + r.h - 1)]
  let a := pick left true
  let b := pick [s.motion (x + r.w) (y - 1), s.motion (x + r.w - 1) (y - 1), s.motion (x - 1) (y - 1)] (left.all Option.isNone)
  let l := match a, b with
    | some u, some v => if u = v then [u] else [u, v]
    | u, v => u.toList ++ v.toList
  ((if l.length < 2 then l ++ (s.temporal r).toList else l) ++ [(0, 0), (0, 0)]).take 2

/-- R298. The standard's predictor for a block against the reference; which of H.265's two an encoder signals is its own choice. -/
def Search.predictor (s : Search) (r : Rect) : Int × Int :=
  if s.h265 then
    (let l := s.predictors265 r
     l.getD (Config.modeOf [0, r.x, r.y, r.w, r.h, s.ref.counter] s.content % 2) (0, 0))
  else s.predictor264 r

/-! ### Costs and refinement -/

/-- R298. λ times the bits of a vector in quarter samples, by its difference from the predictor of a block, over 16. -/
def vectorCost (s : Search) (r : Rect) (lam : Nat) (v : Int × Int) : Nat :=
  let p := s.predictor r
  lam * (mvBits (v.1 - p.1) + mvBits (v.2 - p.2)) / 16

/-- The luma of a reference. -/
def RefPic.luma (p : RefPic) : Plane := p.planes.headD []

/-- R298. Integer cost of a position of a block: SAD and the vector's bits. -/
def intCost (s : Search) (r : Rect) (lam : Nat) (v : Int × Int) : Nat :=
  blockSad s.src s.ref.luma s.ctu.x s.ctu.y r v.1 v.2 + vectorCost s r lam (4 * v.1, 4 * v.2)

/-- R300. Fractional cost of a vector in quarter samples: SATD and the vector's bits. -/
def fracCost (s : Search) (r : Rect) (lam : Nat) (v : Int × Int) : Nat :=
  satdOf s.h265 s.bits s.src s.ref.luma r v.1 v.2 + vectorCost s r lam v

/-- The part of a block that lies in the picture. -/
def Search.clip (s : Search) (r : Rect) : Rect := r.meet ⟨0, 0, s.dims.1, s.dims.2⟩

/-- R297. The winning candidate: lowest cost for the 32x32 block, the earlier on a tie. -/
def winner (s : Search) (lam : Nat) : Option (Nat × Int × Int) :=
  (evaluated s).foldl (fun b x => match b with
    | none => some x
    | some y => if intCost s (s.clip s.ctu) lam x.2 < intCost s (s.clip s.ctu) lam y.2 then some x else some y) none

/-- The first of `l` whose cost is below that of `b` and of all before it, else `b`. -/
def leastFrom (cost : Int × Int → Nat) (b : Int × Int) (l : List (Int × Int)) : Int × Int :=
  l.foldl (fun b x => if cost x < cost b then x else b) b

/-- R299. The 289 positions within 8 samples of a vector in raster order, without those that R285 forbids the block and those beyond the
vector range. -/
def around (s : Search) (r : Rect) (v : Int × Int) : List (Int × Int) :=
  ((List.range 289).map fun i => ((v.1 + (i % 17 : Nat) - 8, v.2 + (i / 17 : Nat) - 8) : Int × Int)).filter fun x =>
    s.supports r (4 * x.1, 4 * x.2) && decide (-(s.lim.1 : Int) ≤ x.1 ∧ x.1 < s.lim.1 ∧ -(s.lim.2 : Int) ≤ x.2 ∧ x.2 < s.lim.2)

/-- R299. Integer refinement of a block: the position of least cost. Among equals the rule names none: the centre, then the first in raster
order (choice 114). -/
def refine (s : Search) (r : Rect) (lam : Nat) (v : Int × Int) : Int × Int := leastFrom (intCost s r lam) v (around s r v)

/-- R300. The 8 neighbours of a quarter-sample vector at a step, in raster order. -/
def neighbours (step : Int) (v : Int × Int) : List (Int × Int) :=
  [(-1, -1), (0, -1), (1, -1), (-1, 0), (1, 0), (-1, 1), (0, 1), (1, 1)].map fun d => (v.1 + step * d.1, v.2 + step * d.2)

/-- R300, R308. Fine refinement of an integer vector, in quarter samples: the best of the half-sample positions, then of the
quarter-sample positions around it; a tie goes to the earlier stage and then to raster order. -/
def refineFine (s : Search) (r : Rect) (lam : Nat) (v : Int × Int) : Int × Int :=
  let q := (4 * v.1, 4 * v.2)
  let open_ (step : Int) (u : Int × Int) : List (Int × Int) := (neighbours step u).filter (s.supports r)
  let h := leastFrom (fracCost s r lam) q (open_ 2 q)
  leastFrom (fracCost s r lam) h (open_ 1 h)

/-- R299. The prediction blocks of a unit of `n` samples a side: whole, two halves one above the other, two side by side. -/
def shapes (x y n : Nat) : List Rect :=
  [⟨x, y, n, n⟩, ⟨x, y, n, n / 2⟩, ⟨x, y + n / 2, n, n / 2⟩, ⟨x, y, n / 2, n⟩, ⟨x + n / 2, y, n / 2, n⟩]

/-- R299. Prediction blocks of a CTU: three shapes at CU sizes 32, 16 and 8 in H.265, four shapes of each macroblock in H.264. -/
def predictionBlocks (h265 : Bool) (x y : Nat) : List Rect :=
  let grid (n : Nat) : List (Nat × Nat) := (List.range (32 / n * (32 / n))).map fun i => (x + n * (i % (32 / n)), y + n * (i / (32 / n)))
  if h265 then [32, 16, 8].flatMap fun n => (grid n).flatMap fun p => shapes p.1 p.2 n
  else (grid 16).flatMap fun p => shapes p.1 p.2 16 ++ (List.range 4).map fun i => ⟨p.1 + 8 * (i % 2), p.2 + 8 * (i / 2), 8, 8⟩

def blockCount (h265 : Bool) : Nat := if h265 then 5 + 4 * 5 + 16 * 5 else 4 * 9

/-- R299, R300, R302. The vectors of the prediction blocks of a CTU in quarter samples, none where no candidate is available. ITP refines the
first `refined` blocks; those after them keep their integer vectors. -/
def blockVectors (s : Search) (fine : Bool) (refined lam : Nat) : List (Rect × Int × Int) :=
  match winner s lam with
  | none => []
  | some w => (predictionBlocks s.h265 s.ctu.x s.ctu.y).zipIdx.map fun b =>
    let r := s.clip b.1
    let v := refine s r lam w.2
    (b.1, if fine && b.2 < refined then refineFine s r lam v else (4 * v.1, 4 * v.2))

/-- R295, R306, R307. The ego candidates of a CTU against a reference captured `dt` ns before the picture. -/
def egoOf (g : Option Geometry) (m : Option Ego) (w : Option Window) (cols i : Nat) (dt : Int) : List (Option (Int × Int)) :=
  match g, m, w with
  | some g, some m, some w => (List.range 5).map fun j =>
    let p := egoSample (6 + j)
    egoCandidate g m w ((dt : Rat) / 1000000000) (32 * (i % cols) + p.1) (32 * (i / cols) + p.2)
  | _, _, _ => []

/-- R275, R306. Ego candidates were evaluated. -/
def egoUsed (l : List Search) : Bool := l.any fun x => (evaluated x).any fun y => 6 ≤ y.1 && y.1 ≤ 10

/-! ### Commands -/

/-- ENC_MOTION_SET, R293. -/
def encMotionSetB : Behaviour where
  reserved q := q.u 17 1 < 2 && q.zero 18 2
  fields _ c := need (c.q.u 16 1 ≤ 1) St.range
  later s c m := need (!c.q.bit 17 0 || (s.chan m).cal.geometry.isSome) St.range
  run _ s := (.wait .tick, s)
  effect c s := forEach c.members (fun m => modCfg m fun x => { x with fine := c.q.u 16 1 == 1, ego := c.q.bit 17 0 }) s

/-- R303. The geometry a request names. -/
def geometryOf (q : Request) : Geometry :=
  { fx := q.u 16 4, fy := q.u 20 4, cx := q.i 24 4, cy := q.i 28 4, yaw := q.i 32 4, pitch := q.i 36 4, roll := q.i 40 4
    tx := q.i 44 2, ty := q.i 46 2, tz := q.i 48 2, far := q.u 50 2, model := q.u 52 1, k1 := q.i 54 2 }

/-- R304. Every field is 0: the geometry is cleared. -/
def geometryClear (q : Request) : Bool := isZeros (q.bytes 16 40)

/-- R303. Ranges that do not depend on the binding. -/
def geometryGood (g : Geometry) : Bool :=
  0 < g.fx && g.fx ≤ 16384 * 65536 && 0 < g.fy && g.fy ≤ 16384 * 65536 && 0 ≤ g.cx && 0 ≤ g.cy
    && decide (-3141593 ≤ g.yaw ∧ g.yaw ≤ 3141593) && decide (-1570796 ≤ g.pitch ∧ g.pitch ≤ 1570796)
    && decide (-3141593 ≤ g.roll ∧ g.roll ≤ 3141593) && decide (1 ≤ g.tz) && 10 ≤ g.far && g.model ≤ 1 && (g.model == 0 || g.k1 == 0)

/-- R303. The principal point lies in the bound frame. -/
def geometryFits (g : Geometry) (b : Option Bind) : Bool :=
  b.all fun x => decide (g.cx ≤ (x.width * 65536 : Nat)) && decide (g.cy ≤ (x.height * 65536 : Nat))

/-- ENC_GEOMETRY_SET, R303, R304. -/
def encGeometrySetB : Behaviour where
  reserved q := q.zero 53 1 && q.zero 56 8
  fields _ c := need (geometryClear c.q || geometryGood (geometryOf c.q)) St.range
  later s c m := if geometryClear c.q then need (!(s.chan m).cfg.ego) St.range
    else need (geometryFits (geometryOf c.q) (s.chan m).cfg.bind) St.range
  run c s := tickAudited 0x31 (le 1 (c.members.headD 0) ++ zeros 3 ++ slice (hash (c.q.bytes 16 48)) 0 16) c s
  effect c s := forEach c.members (fun m => modCal m fun x =>
    { x with geometry := if geometryClear c.q then none else some (geometryOf c.q) }) s

/-- R305. P, or 33,333,333 ns while the tick is not running. -/
def tickPeriod (s : State) : Nat := if s.time.tickRun then s.time.period else 33333333

/-- ENC_EGO_UPDATE, R305. TIME is judged at execution. -/
def encEgoUpdateB : Behaviour where
  reserved q := q.zero 22 2
  member s c _ :=
    let t := c.q.u 24 8
    need (t ≤ s.time.dev && s.time.dev ≤ t + 2 * tickPeriod s && s.ego.all fun e => e.time < t) St.range
  run c s := (.done St.ok [], { s with ego := some ⟨c.q.i 16 2, c.q.i 18 2, c.q.i 20 2, c.q.u 24 8, s.time.passed⟩ })

/-- R306. The stored update is fresh at boundary `k`: it was accepted in tick k - 1 or k - 2. -/
def egoFresh (s : State) (k : Nat) : Bool := s.ego.any fun e => 0 < e.at_ && (e.at_ == k || e.at_ + 1 == k)

/-- R306. At boundary `k` the stored update is taken for the encode tick, and a stale one raises EGO_STALE. -/
def takeEgo (k : Nat) (s : State) : State :=
  { s with egoTaken := if egoFresh s k then s.ego else none }

end Sys2Proof.Machine
end

