-- ==== Sys2Proof/Machine/Nal.lean ====
section
/-!
DEFINITION. The NAL units around the slices of an access unit, and the slice headers (R265 to R268, R274 to R278, R285, R310, R311). The
order and names of the syntax elements are those of ITU-T H.264 and H.265 (choice 116); the spec gives the values, and an element that it
does not fix has an open value (Config.syntaxElement).
-/
namespace Sys2Proof.Machine

/-! ### Bits -/

/-- u(n): `n` bits, the most significant first. -/
def bitsU (n v : Nat) : List Bool := (List.range n).map fun i => v.testBit (n - 1 - i)

/-- ue(v) and se(v): exponential Golomb codes. -/
def bitsUe (v : Nat) : List Bool := List.replicate (Nat.log2 (v + 1)) false ++ bitsU (Nat.log2 (v + 1) + 1) (v + 1)
def bitsSe (v : Int) : List Bool := bitsUe (if 0 < v then 2 * v.toNat - 1 else 2 * v.natAbs)

/-- A flag. -/
def flag (b : Bool) : List Bool := [b]

/-- Element `k` that the spec does not fix: one of `n` values. -/
def open_ (k n : Nat) : Nat := Config.syntaxElement k % n
def openFlag (k : Nat) : List Bool := [decide (open_ k 2 = 1)]

/-- Bits to bytes, the first bit the most significant; zeros fill the last byte. -/
def toBytes : Nat → List Bool → List Byte
  | 0, _ => []
  | _, [] => []
  | k + 1, l => BitVec.ofNat 8 ((List.range 8).foldl (fun a i => 2 * a + b2n (l[i]?.getD false)) 0) :: toBytes k (l.drop 8)

def packed (l : List Bool) : List Byte := toBytes (l.length / 8 + 1) l

/-- rbsp trailing bits: a one, and zeros to the byte. -/
def trailing (l : List Bool) : List Byte := packed (l ++ [true])

/-- Emulation prevention: a byte 0x03 between two zeros and a byte of at most 3. -/
def emulate : Nat → List Byte → List Byte
  | _, [] => []
  | z, b :: bs =>
    if z ≥ 2 ∧ b.toNat ≤ 3 then 0x03#8 :: b :: emulate (if b = 0 then 1 else 0) bs else b :: emulate (if b = 0 then z + 1 else 0) bs

/-- R274, R278. The NAL unit header of a kind: H.265 layer 0 and temporal sub-layer 0; in H.264 nal_ref_idc 1 for what pictures refer to. `idr`
tells the slice types apart: IDR_N_LP or TRAIL_R, and 5 or 1. -/
def nalHeader (h265 idr : Bool) (k : NalKind) : List Byte :=
  if h265 then
    (let t : Nat := match k with
      | .aud => 35 | .vps => 32 | .sps => 33 | .pps => 34 | .bufferingPeriod | .pictureTiming | .recoveryPoint | .frameSei => 39
      | .sealSei => 40 | .slice => if idr then 20 else 1 | .filler => 38
     [BitVec.ofNat 8 (2 * t), 0x01#8])
  else
    (let t : Nat := match k with
      | .aud => 9 | .vps => 0 | .sps => 0x27 | .pps => 0x28 | .bufferingPeriod | .pictureTiming | .recoveryPoint | .frameSei | .sealSei => 6
      | .slice => if idr then 0x25 else 0x21 | .filler => 12
     [BitVec.ofNat 8 t])

/-- A NAL unit of the bits given, trailing bits and emulation prevention included. -/
def nalOf (h265 : Bool) (k : NalKind) (l : List Bool) : Nal := ⟨k, nalHeader h265 false k ++ emulate 0 (trailing l), 0⟩

/-- R274. A SEI NAL unit with one message: type, size, payload. -/
def seiBytes (h265 : Bool) (k : NalKind) (type : Nat) (payload : List Byte) : List Byte :=
  nalHeader h265 false k ++ emulate 0 (le 1 type ++ le 1 payload.length ++ payload ++ [0x80#8])

/-- A SEI payload of bits; a one and zeros fill the last byte where bits are left over. -/
def seiPayload (l : List Bool) : List Byte := if l.length % 8 = 0 then (packed l).take (l.length / 8) else trailing l

/-- R275, R276. The payload of a user_data_unregistered message: `last` is the last byte of the UUID. -/
def userData (last : Byte) (body : List Byte) : List Byte :=
  [0x5a#8, 0x0c#8, 0x3e#8, 0x12#8, 0x6b#8, 0x7d#8, 0x4f#8, 0x19#8, 0x9e#8, 0x2a#8, 0xc3#8, 0x20#8, 0x0e#8, 0x5c#8, 0x0d#8, last] ++ body

/-- R276, R277, R318. The seal SEI: its size is fixed for the stream, so zero bytes follow it up to the size that emulation prevention can give
it at most (choice 117). -/
def sealMost (h265 : Bool) : Nat := (if h265 then 2 else 1) + 2 + 16 + 64 + 1 + 31
def sealNal (h265 : Bool) (record : List Byte) : Nal :=
  let b := seiBytes h265 .sealSei 5 (userData 0x02#8 record)
  ⟨.sealSei, b, sealMost h265 - b.length⟩

/-! ### What parameter sets and headers say -/

/-- R265 to R268, R310, R311. What the syntax elements of an access unit come from. -/
structure AuSyntax where
  cfg : StreamCfg
  hrd : Hrd
  /-- Size of the source window, and its bit depth. -/
  dims : Nat × Nat
  bits : Nat
  csc : BitVec 8
  /-- R268. Interval between access units in ns. -/
  dt : Nat
  /-- R324. The HRD rate in force. -/
  rate : Nat
  /-- R311. initial_cpb_removal_delay, and access units since the last buffering period. -/
  delay : Nat
  sinceBp : Nat
  idr : Bool
  intra : Bool
  /-- R268. POC, and access units since the last IDR as frame_num. -/
  poc : Nat
  /-- R278, R282. References the picture predicts from, in the order of its list; those it keeps besides; and the long-term ones. -/
  refs : List RefPic
  short : List RefPic
  long : List RefPic
  recover : Bool
  /-- R285. Length of the refresh cycle that begins. -/
  cycle : Nat
  qp : Nat
deriving DecidableEq, Repr, Inhabited

/-- R268. colour_primaries and matrix_coeffs of CSC. -/
def colourCode (csc : BitVec 8) : Nat := if csc.toNat % 4 = 0 then 6 else if csc.toNat % 4 = 1 then 1 else 9

/-- R268. video_signal_type and chroma_loc of the VUI: transfer_characteristics 2, siting type 0. -/
def vuiColour (x : AuSyntax) : List Bool :=
  flag false ++ flag false ++ flag true ++ bitsU 3 (open_ 2 6) ++ flag (x.csc.getLsbD 2) ++ flag true ++ bitsU 8 (colourCode x.csc) ++ bitsU 8 2
    ++ bitsU 8 (colourCode x.csc) ++ flag true ++ bitsUe 0 ++ bitsUe 0

/-- R265. profile_tier_level: Main tier, the profile of CODEC, LEVEL. -/
def profileTierLevel (x : AuSyntax) : List Bool :=
  let p := if x.cfg.codec = 1 then 2 else 1
  bitsU 2 0 ++ flag false ++ bitsU 5 p ++ (List.range 32).map (fun j => j == p || (p == 1 && j == 2)) ++ flag true ++ flag false
    ++ openFlag 3 ++ flag true ++ bitsU 43 0 ++ openFlag 4 ++ bitsU 8 x.cfg.level

/-- R271. Pictures of the decoded picture buffer less one. -/
def dpbLess1 (x : AuSyntax) : Nat := x.cfg.refs + x.cfg.ltrs

/-- R266. H.265 video parameter set. -/
def vps265 (x : AuSyntax) : List Bool :=
  bitsU 4 0 ++ flag true ++ flag true ++ bitsU 6 0 ++ bitsU 3 0 ++ flag true ++ bitsU 16 0xFFFF ++ profileTierLevel x ++ flag true
    ++ bitsUe (dpbLess1 x) ++ bitsUe 0 ++ bitsUe 0 ++ bitsU 6 0 ++ bitsUe 0 ++ flag false ++ flag false

/-- R310, R311. The HRD of H.265: NAL only, one schedule, rate and size at scale 0, which represents every multiple of 64 and of 16. -/
def hrd265 (x : AuSyntax) : List Bool :=
  flag true ++ flag false ++ flag false ++ bitsU 4 0 ++ bitsU 4 0 ++ bitsU 5 23 ++ bitsU 5 23 ++ bitsU 5 23
    ++ flag false ++ flag false ++ flag false ++ bitsUe 0
    ++ bitsUe (x.rate / 64 - 1) ++ bitsUe (x.hrd.cpbSize / 16 - 1) ++ flag (!x.hrd.vbr)

/-- R266, R268. H.265 sequence parameter set. -/
def sps265 (x : AuSyntax) : List Bool :=
  let vui := vuiColour x ++ flag false ++ flag false ++ flag false ++ flag false
    ++ flag true ++ bitsU 32 x.dt ++ bitsU 32 1000000000 ++ flag false ++ flag true ++ hrd265 x ++ flag false
  bitsU 4 0 ++ bitsU 3 0 ++ flag true ++ profileTierLevel x ++ bitsUe 0 ++ bitsUe 1 ++ bitsUe x.dims.1 ++ bitsUe x.dims.2 ++ flag false
    ++ bitsUe (x.bits - 8) ++ bitsUe (x.bits - 8) ++ bitsUe 12 ++ flag true ++ bitsUe (dpbLess1 x) ++ bitsUe 0 ++ bitsUe 0
    ++ bitsUe 0 ++ bitsUe 2 ++ bitsUe 0 ++ bitsUe 3 ++ bitsUe 1 ++ bitsUe 1 ++ flag false ++ flag false ++ flag true ++ flag false
    ++ bitsUe 0 ++ flag true ++ bitsUe 0 ++ flag true ++ flag true ++ flag true ++ vui ++ flag false

/-- Whether slices filter across their edges, an element of the picture parameter set of H.265. -/
def acrossSlices : List Bool := openFlag 8

/-- R266. H.265 picture parameter set: sign data hiding and cu_qp_delta on, one QP per CTU. -/
def pps265 : List Bool :=
  bitsUe 0 ++ bitsUe 0 ++ flag false ++ flag false ++ bitsU 3 0 ++ flag true ++ flag false ++ bitsUe 0 ++ bitsUe 0 ++ bitsSe 0 ++ openFlag 5
    ++ flag false ++ flag true ++ bitsUe 0 ++ bitsSe ((open_ 6 25 : Nat) - 12) ++ bitsSe ((open_ 7 25 : Nat) - 12) ++ flag false ++ flag false
    ++ flag false ++ flag false ++ flag false ++ flag false ++ acrossSlices ++ flag false ++ flag false ++ flag false ++ bitsUe 0 ++ flag false
    ++ flag false

def profile264 (codec : Nat) : Nat := if codec = 2 then 66 else if codec = 3 then 77 else 100

/-- R310, R311. The HRD of H.264. -/
def hrd264 (x : AuSyntax) : List Bool :=
  bitsUe 0 ++ bitsU 4 0 ++ bitsU 4 0 ++ bitsUe (x.rate / 64 - 1) ++ bitsUe (x.hrd.cpbSize / 16 - 1) ++ flag (!x.hrd.vbr)
    ++ bitsU 5 23 ++ bitsU 5 23 ++ bitsU 5 23 ++ bitsU 5 (open_ 9 32)

/-- R267, R268. H.264 sequence parameter set: sizes in macroblocks, with the cropping rectangle. -/
def sps264 (x : AuSyntax) : List Bool :=
  let w := cdiv x.dims.1 16
  let h := cdiv x.dims.2 16
  let vui := vuiColour x ++ flag true ++ bitsU 32 x.dt ++ bitsU 32 2000000000 ++ openFlag 10 ++ flag true ++ hrd264 x ++ flag false ++ flag false
    ++ flag false ++ flag false
  let padded := 16 * w != x.dims.1 || 16 * h != x.dims.2
  bitsU 8 (profile264 x.cfg.codec) ++ flag (x.cfg.codec == 2) ++ flag (x.cfg.codec == 2 || (x.cfg.codec == 3 && open_ 11 2 == 1)) ++ bitsU 6 0
    ++ bitsU 8 x.cfg.level ++ bitsUe 0
    ++ (if x.cfg.codec = 4 then bitsUe 1 ++ bitsUe 0 ++ bitsUe 0 ++ flag false ++ flag false else [])
    ++ bitsUe 12 ++ bitsUe 2 ++ bitsUe (x.cfg.refs + x.cfg.ltrs) ++ flag false ++ bitsUe (w - 1) ++ bitsUe (h - 1) ++ flag true ++ flag true
    ++ flag padded ++ (if padded then bitsUe 0 ++ bitsUe ((16 * w - x.dims.1) / 2) ++ bitsUe 0 ++ bitsUe ((16 * h - x.dims.2) / 2) else [])
    ++ flag true ++ vui

/-- R265, R267. H.264 picture parameter set. -/
def pps264 (x : AuSyntax) : List Bool :=
  bitsUe 0 ++ bitsUe 0 ++ flag (!isCavlc x.cfg) ++ flag false ++ bitsUe 0 ++ bitsUe 0 ++ bitsUe 0 ++ flag false ++ bitsU 2 0 ++ bitsSe 0
    ++ bitsSe 0 ++ bitsSe ((open_ 6 25 : Nat) - 12) ++ flag false ++ openFlag 5 ++ flag false
    ++ (if x.cfg.codec = 4 then flag true ++ flag false ++ bitsSe ((open_ 7 25 : Nat) - 12) else [])

/-- R311. The buffering period message. -/
def bufferingPeriod (x : AuSyntax) : List Bool :=
  if is265 x.cfg.codec then bitsUe 0 ++ flag false ++ openFlag 12 ++ bitsU 24 (open_ 13 16777216) ++ bitsU 24 x.delay ++ bitsU 24 0
  else bitsUe 0 ++ bitsU 24 x.delay ++ bitsU 24 0

/-- R311. The picture timing message: 1 per access unit in H.265 (coded less one), 2 in H.264. -/
def pictureTiming (x : AuSyntax) : List Bool :=
  if is265 x.cfg.codec then bitsU 24 (x.sinceBp - 1) ++ bitsU 24 0 else bitsU 24 (2 * x.sinceBp) ++ bitsU 24 0

/-- R285. The recovery point message: N - 1 pictures. -/
def recoveryPoint (x : AuSyntax) : List Bool :=
  if is265 x.cfg.codec then bitsSe ((x.cycle - 1 : Nat) : Int) ++ openFlag 14 ++ flag false
  else bitsUe (x.cycle - 1) ++ openFlag 14 ++ flag false ++ bitsU 2 0

/-- R274. The NAL units before the frame SEI, in order. -/
def headNals (x : AuSyntax) (sets cycleStart : Bool) : List Nal :=
  let h := is265 x.cfg.codec
  let sei (k : NalKind) (type : Nat) (l : List Bool) : Nal := ⟨k, seiBytes h k type (seiPayload l), 0⟩
  let least := if x.intra then 0 else 1
  [nalOf h .aud (bitsU 3 (least + open_ 15 (3 - least)))]
    ++ (if sets then (if h then [nalOf h .vps (vps265 x), nalOf h .sps (sps265 x), nalOf h .pps pps265] else [nalOf h .sps (sps264 x), nalOf h .pps (pps264 x)])
        ++ [sei .bufferingPeriod 0 (bufferingPeriod x)] else [])
    ++ [sei .pictureTiming 1 (pictureTiming x)] ++ (if cycleStart then [sei .recoveryPoint 6 (recoveryPoint x)] else [])

/-! ### Slice headers -/

/-- The references of H.265's slice header: the short-term picture set, and the long-term ones with whether the picture uses them. -/
def refs265 (x : AuSyntax) : List Bool :=
  let used (p : RefPic) : Bool := x.refs.any fun q => q.counter == p.counter
  let shorts := if x.recover then [] else x.short
  let longs := x.long.filter fun p => !shorts.any fun q => q.counter == p.counter
  let deltas := (List.range shorts.length).map fun i =>
    (match i with | 0 => x.poc | k + 1 => ((shorts[k]?).map RefPic.poc).getD 0) - ((shorts[i]?).map RefPic.poc).getD 0
  flag false ++ bitsUe shorts.length ++ bitsUe 0 ++ deltas.flatMap (fun d => bitsUe (d - 1) ++ flag true)
    ++ bitsUe longs.length ++ longs.flatMap (fun p => bitsU 16 (p.poc % 65536) ++ flag (used p) ++ flag false)

/-- R266, R278, R286. The header of slice `k` of an H.265 picture, byte aligned. -/
def header265 (x : AuSyntax) (k : Nat) : List Byte :=
  let n := ctuCount x.dims
  trailing (flag (k == 0) ++ (if x.idr then openFlag 16 else []) ++ bitsUe 0
    ++ (if k = 0 then [] else bitsU (Nat.log2 (2 * n - 1)) (sliceFirst x.cfg x.dims k))
    ++ bitsUe (if x.intra then 2 else 1) ++ (if x.idr then [] else bitsU 16 (x.poc % 65536) ++ refs265 x ++ flag true) ++ flag true ++ flag true
    ++ (if x.intra then [] else
        flag (x.refs.length != 1) ++ (if x.refs.length = 1 then [] else bitsUe (x.refs.length - 1) ++ bitsUe 0) ++ bitsUe 0)
    ++ bitsSe ((x.qp : Int) - 26) ++ (if acrossSlices = [true] then openFlag 17 else []))

/-- The list modification of an H.264 picture: absent where the standard's own order is R278's. -/
def list264 (x : AuSyntax) : List Bool :=
  let isShort (p : RefPic) : Bool := !x.recover && x.short.any fun q => q.counter == p.counter
  let usual := (if x.recover then [] else x.short) ++ (x.long.filter fun p => !isShort p).mergeSort fun a b => a.slot ≤ b.slot
  let step (st : List Bool × Nat) (p : RefPic) : List Bool × Nat :=
    if isShort p then (st.1 ++ bitsUe 0 ++ bitsUe (st.2 - p.poc - 1), p.poc) else (st.1 ++ bitsUe 2 ++ bitsUe p.slot, st.2)
  if usual.map RefPic.counter = x.refs.map RefPic.counter then flag false
  else flag true ++ (x.refs.foldl step ([], x.poc)).1 ++ bitsUe 3

/-- R267, R280, R282. The reference marking of an H.264 picture: what a recovery picture makes unused, a picture that turns long-term as it
leaves the short-term ones, and the number of slots with the slot of the picture itself. -/
def marking264 (x : AuSyntax) : List Bool :=
  if x.idr then openFlag 16 ++ flag false
  else
    let isLong (p : RefPic) : Bool := x.long.any fun q => q.counter == p.counter
    let leaving := if x.recover then x.short else x.short.drop (x.cfg.refs - 1)
    let unused := if x.recover then x.short.filter fun p => !isLong p else []
    let turned := leaving.filter isLong
    let slot (p : RefPic) : Nat := ((x.long.find? fun q => q.counter == p.counter).map RefPic.slot).getD 0
    let cmds := unused.flatMap (fun p => bitsUe 1 ++ bitsUe (x.poc - p.poc - 1))
      ++ (if turned.isEmpty then [] else bitsUe 4 ++ bitsUe x.cfg.ltrs)
      ++ turned.flatMap (fun p => bitsUe 3 ++ bitsUe (x.poc - p.poc - 1) ++ bitsUe (slot p))
    if cmds.isEmpty then flag false else flag true ++ cmds ++ bitsUe 0

/-- R267, R278, R286. The header of slice `k` of an H.264 picture; what is left of its last byte starts the slice data (CABAC: ones, CAVLC: open). -/
def header264 (x : AuSyntax) (k : Nat) : List Byte :=
  let l := bitsUe (k * ctuRows x.dims.2 / x.cfg.slices * 2 * cdiv x.dims.1 16) ++ bitsUe ((if x.intra then 2 else 0) + 5 * open_ 18 2) ++ bitsUe 0
    ++ bitsU 16 (x.poc % 65536) ++ (if x.idr then bitsUe (open_ 19 65536) else [])
    ++ (if x.intra then [] else flag (x.refs.length != 1) ++ (if x.refs.length = 1 then [] else bitsUe (x.refs.length - 1)) ++ list264 x)
    ++ marking264 x ++ (if x.intra || isCavlc x.cfg then [] else bitsUe (open_ 20 3)) ++ bitsSe ((x.qp : Int) - 26)
  let rest := (8 - l.length % 8) % 8
  (packed (l ++ if isCavlc x.cfg then bitsU rest (open_ 21 256) else List.replicate rest true)).take ((l.length + rest) / 8)

/-- The start of slice `k`'s NAL unit: its NAL unit header and slice header. -/
def sliceHead (x : AuSyntax) (k : Nat) : List Byte :=
  let h := is265 x.cfg.codec
  nalHeader h x.idr .slice ++ emulate 0 (if h then header265 x k else header264 x k)

/-- R327. The filler NAL unit that brings a size up by at least `n` bytes. -/
def fillerNal (h265 : Bool) (n : Nat) : Nal :=
  let hdr := nalHeader h265 false .filler
  ⟨.filler, hdr ++ List.replicate (n - (5 + hdr.length)) 0xFF#8 ++ [0x80#8], 0⟩

/-! ### Sizes -/

/-- R312. Bytes of NAL units as emitted, start codes included. -/
def nalBytes (l : List Nal) : Nat := sumOf l fun n => 4 + n.bytes.length + n.pad

/-- R274. An access unit as its byte stream. -/
def auBytes (a : AccessUnit) : List Byte := a.nals.flatMap fun n => [0#8, 0#8, 0#8, 1#8] ++ n.bytes ++ zeros n.pad

/-- R276. The sealed bytes. -/
def sealedBytes (l : List Nal) : List Byte :=
  (l.filter fun n => n.kind != .sealSei).flatMap fun n => le 4 n.bytes.length ++ n.bytes

end Sys2Proof.Machine
end

