-- ==== Sys2Proof/Machine/Decoder.lean ====
section
/-!
DEFINITION. The decoder: the 0x05xx commands, decode ticks, concealment, the choice of the output picture and its header, and
DEC_JOB_END (R333 to R351, R356, R357).
-/
namespace Sys2Proof.Machine

/-! ### Bitstreams (R333; the header bytes of NAL units are those of H.264 and H.265, choice 12) -/

/-- The NAL units of an Annex B byte stream, last first: `z` zeros have just passed, `cur` is the unit in progress (last byte first). -/
def nalUnits : Nat → Option (List Byte) → List (List Byte) → List Byte → List (List Byte)
  | _, cur, l, [] => (match cur with | some c => c.reverse :: l | none => l)
  | z, cur, l, b :: bs =>
    if b = 0 then nalUnits (z + 1) cur l bs
    else if b = 1 ∧ 2 ≤ z then nalUnits 0 (some []) (match cur with | some c => c.reverse :: l | none => l) bs
    else nalUnits 0 (cur.map fun c => b :: (List.replicate z 0#8 ++ c)) l bs

/-- The NAL units of an access unit in order. -/
def auNals (bs : List Byte) : List (List Byte) := ((nalUnits 0 none [] bs).reverse).filter fun n => !n.isEmpty

/-- Bytes without emulation prevention. -/
def unescape : Nat → List Byte → List Byte
  | _, [] => []
  | z, b :: bs => if 2 ≤ z ∧ b = 3 then unescape 0 bs else b :: unescape (if b = 0 then z + 1 else 0) bs

/-- A number coded as bytes 0xFF and a last one, and what follows. -/
def ffCoded : Nat → List Byte → Nat × List Byte
  | _, [] => (0, [])
  | 0, l => (0, l)
  | k + 1, b :: bs => if b = 0xFF#8 then (let r := ffCoded k bs
                                          (255 + r.1, r.2)) else (b.toNat, bs)

/-- The messages of a SEI NAL unit after its header: type and payload. -/
def seiMessages : Nat → List Byte → List (Nat × List Byte)
  | 0, _ => []
  | k + 1, bs =>
    if bs.length < 2 ∨ bs = [0x80#8] then []
    else
      let t := ffCoded bs.length bs
      let n := ffCoded t.2.length t.2
      (t.1, n.2.take n.1) :: seiMessages k (n.2.drop n.1)

/-- R334, R275. The 44 bytes of the frame SEI with VERSION 1; every other SEI message is ignored. -/
def frameSeiOf (codec : Nat) (bs : List Byte) : Option (List Byte) :=
  let uuid := userData 0x01#8 []
  let seis := (auNals bs).filter fun n => if is265 codec then field n 0 1 / 2 % 64 == 39 else field n 0 1 % 32 == 6
  let bodies := seis.flatMap fun n => seiMessages n.length (unescape 0 (n.drop (if is265 codec then 2 else 1)))
  ((bodies.find? fun m => m.1 == 5 && m.2.take 16 == uuid && field m.2 16 1 == 1 && 60 ≤ m.2.length)).map fun m => slice m.2 16 44

/-- The first slice header of an access unit. -/
def firstSlice (codec : Nat) (bs : List Byte) : Option Nat :=
  ((auNals bs).map fun n => field n 0 1).find? fun b => if is265 codec then b / 2 % 64 < 32 else 1 ≤ b % 32 && b % 32 ≤ 5

/-- R342. The access unit is an IRAP picture (in H.264, an IDR picture). -/
def isIrap (codec : Nat) (u : FedUnit) : Bool :=
  (firstSlice codec u.bytes).any fun b => if is265 codec then 16 ≤ b / 2 % 64 && b / 2 % 64 ≤ 23 else b % 32 == 5

/-- R342. The access unit is a non-reference picture. -/
def isNonRef (codec : Nat) (u : FedUnit) : Bool :=
  (firstSlice codec u.bytes).any fun b => if is265 codec then b / 2 % 64 < 16 && b / 2 % 2 == 0 else b / 32 % 4 == 0

/-! ### Pictures -/

/-- 32 x 32 units across and down. -/
def unitCols (d : DecStream) : Nat := cdiv d.width 32
def unitCount (d : DecStream) : Nat := cdiv d.width 32 * cdiv d.height 32

/-- R230. Bytes of a sample in the decoded layout. -/
def sampleBytes (d : DecStream) : Nat := if d.bit10 then 2 else 1

/-- Bytes of a decoded picture. -/
def pictureBytes (d : DecStream) : Nat := d.width * d.height * 3 / 2 * sampleBytes d

/-- A luma sample of a picture in the decoded layout, as its bytes spell it; beyond its edges the nearest. -/
def lumaAt (d : DecStream) (bs : List Byte) (r c : Int) : Nat :=
  let i := (clampI 0 (d.height - 1 : Nat) r).toNat * d.width + (clampI 0 (d.width - 1 : Nat) c).toNat
  field bs (sampleBytes d * i) (sampleBytes d)

/-- A chroma sample `j` (0 Cb, 1 Cr). -/
def chromaAt (d : DecStream) (bs : List Byte) (j : Nat) (r c : Int) : Nat :=
  let i := d.width * d.height + (clampI 0 (d.height / 2 - 1 : Nat) r).toNat * d.width + 2 * (clampI 0 (d.width / 2 - 1 : Nat) c).toNat + j
  field bs (sampleBytes d * i) (sampleBytes d)

/-- A picture in the decoded layout from its samples. -/
def layout (d : DecStream) (y : Nat → Nat → Nat) (ch : Nat → Nat → Nat → Nat) : List Byte :=
  ((List.range d.height).flatMap fun r => (List.range d.width).flatMap fun c => le (sampleBytes d) (y r c))
    ++ ((List.range (d.height / 2)).flatMap fun r => (List.range d.width).flatMap fun c => le (sampleBytes d) (ch (c % 2) r (c / 2)))

/-- R344. The black picture, with every unit concealed. -/
def blackPicture (d : DecStream) : DecPicture :=
  let k := if d.bit10 then 256 else 1
  { (default : DecPicture) with
    bytes := layout d (fun _ _ => 16 * k) (fun _ _ _ => 128 * k)
    marks := List.replicate (unitCount d) 1, vectors := List.replicate (unitCount d) none }

/-! ### Concealment (R344 to R346) -/

/-- R345. The component-wise median of three or four values: the lower middle of four. -/
def lowerMedian (l : List Int) : Int := ((l.mergeSort (· ≤ ·))[(l.length - 1) / 2]?).getD 0

/-- R345. The vector of the neighbours' vectors, in quarter samples; `co` is the co-located unit's. -/
def combine (l : List (Int × Int)) (co : Int × Int) : Int × Int :=
  match l with
  | [] => co
  | [v] => v
  | [v, w] => (Int.tdiv (v.1 + w.1) 2, Int.tdiv (v.2 + w.2) 2)
  | l => (lowerMedian (l.map Prod.fst), lowerMedian (l.map Prod.snd))

/-- R345. To nearest whole samples, ties toward zero. -/
def wholeSamples (v : Int) : Int := if 0 ≤ v then (v + 1) / 4 else -((-v + 1) / 4)

/-- R345. A vector in whole samples whose block lies within the reference padded by 64 samples. -/
def inReach (first size total : Nat) (v : Int) : Int := clampI (-64 - (first : Int)) ((total : Int) + 64 - (size : Int) - first) v

/-- R345. The copy vector of unit `u`, in whole samples, from the vectors to its left, above, above right and below. -/
def copyVector (d : DecStream) (r : DecResult) (lost : Nat → Bool) (ref : Option DecPicture) (done : List (Option (Int × Int))) (u : Nat) :
    Int × Int :=
  let cols := unitCols d
  let x := u % cols
  let at_ (b : Bool) (i : Nat) : Option (Int × Int) := if b then (done[i]?).join else none
  let below : Option (Int × Int) := if u + cols < unitCount d && !lost (u + cols) then (r.vectors[u + cols]?).join else none
  let near := [at_ (0 < x) (u - 1), at_ (cols ≤ u) (u - cols), at_ (cols ≤ u && x + 1 < cols) (u - cols + 1), below].filterMap id
  let co := (ref.bind fun p => (p.vectors[u]?).join).getD (0, 0)
  let v := combine near co
  (inReach (32 * x) (min 32 (d.width - 32 * x)) d.width (wholeSamples v.1),
    inReach (32 * (u / cols)) (min 32 (d.height - 32 * (u / cols))) d.height (wholeSamples v.2))

/-- R344, R345. Vectors of all units in raster order, in quarter samples: those decoded, those extrapolated, and zero where an
overrun cut. -/
def unitVectors (d : DecStream) (r : DecResult) (cut : Nat) (ref : Option DecPicture) : List (Option (Int × Int)) :=
  let lost (u : Nat) : Bool := cut ≤ u || r.lostUnits.contains u
  (List.range (unitCount d)).foldl (fun done u =>
    done ++ [if cut ≤ u then some (0, 0)
      else if lost u then (let v := copyVector d r lost ref done u
                           some (4 * v.1, 4 * v.2))
      else (r.vectors[u]?).join]) []

/-- R346. A decoded unit predicts from a unit that is concealed or derived, or from a stand-in (R344). -/
def isDerived (dpb : List DecPicture) (uses : List UnitUse) : Bool :=
  uses.any fun x => match x.ref with
    | none => true
    | some o => match dpb.find? fun p => p.order == o with
      | none => true
      | some p => x.units.any fun i => (p.marks[i]?).getD 0 != 0

/-- R345. The reference of a concealed unit. -/
def concealRef (d : DecStream) (r : DecResult) : Option DecPicture :=
  match r.listRef.bind fun o => d.dpb.find? fun p => p.order == o with
  | some p => some p
  | none => d.dpb.head?

/-- R344 to R346. The decoded picture with what was lost concealed; with no picture to copy from, what is copied is open. -/
def conceal (d : DecStream) (fresh : Nat) (u : FedUnit) (r : DecResult) (cut : Nat) : DecPicture :=
  let ref := concealRef d r
  let vs := unitVectors d r cut ref
  let src := match ref with | some p => p.bytes | none => fit (pictureBytes d) (Config.freeBytes fresh (pictureBytes d))
  let copied (u : Nat) : Bool := cut ≤ u || r.lostUnits.contains u
  let vec (u : Nat) : Int × Int := ((vs[u]?).join.getD (0, 0))
  let unit (r c : Nat) : Nat := r / 32 * unitCols d + c / 32
  { order := r.order
    bytes := layout d
      (fun y x => let u := unit y x
        if copied u then lumaAt d src (y + (vec u).2 / 4) (x + (vec u).1 / 4) else lumaAt d r.picture y x)
      (fun j y x => let u := unit (2 * y) (2 * x)
        if copied u then chromaAt d src j (y + roundTo 20 ((vec u).2 / 4) 2) (x + roundTo 20 ((vec u).1 / 4) 2)
        else chromaAt d r.picture j y x)
    marks := (List.range (unitCount d)).map fun u => if copied u then 1 else if isDerived d.dpb ((r.uses[u]?).getD []) then 2 else 0
    vectors := vs, sei := frameSeiOf d.codec u.bytes, overrun := cut < unitCount d, error := r.streamError }

/-! ### Output (R343, R349 to R351) -/

/-- R351. The unit map. -/
def unitMap : List Nat → List Byte
  | a :: b :: c :: e :: rest => BitVec.ofNat 8 (a + 4 * b + 16 * c + 64 * e) :: unitMap rest
  | [] => []
  | [a] => [BitVec.ofNat 8 a]
  | [a, b] => [BitVec.ofNat 8 (a + 4 * b)]
  | [a, b, c] => [BitVec.ofNat 8 (a + 4 * b + 16 * c)]

/-- R350. FORMAT of a ring DT, or of a transmit data type. -/
def outFormat (dt : Nat) : Nat := if dt = 0x18 then 0x10 else if dt = 0x19 then 0x11 else if dt = 0x1E then 0x02 else dt

/-- R349. A sample as 8 bits, rounded to nearest. -/
def to8 (d : DecStream) (v : Nat) : Nat :=
  if d.bit10 then (let x := v / 64
                   min 255 (if x % 4 = 2 then x / 4 + Config.half x 4 % 2 else (x + 1) / 4))
  else v

/-- R349. Chroma of row `r` of 4:2:2: the mean of the two nearest chroma rows. -/
def chroma422At (d : DecStream) (bs : List Byte) (j r c : Nat) : Nat :=
  let a := to8 d (chromaAt d bs j (r / 2 : Nat) c)
  let b := to8 d (chromaAt d bs j ((r / 2 : Nat) + (if r % 2 = 0 then -1 else 1)) c)
  if (a + b) % 2 = 1 then (a + b) / 2 + Config.half (a + b) 2 % 2 else (a + b) / 2

/-- R349. The picture in the format of its output. -/
def converted (d : DecStream) (bs : List Byte) : List Byte :=
  let f := outFormat d.outDt
  if f = 0x02 then
    (List.range d.height).flatMap fun (r : Nat) => (List.range (d.width / 2)).flatMap fun (c : Nat) =>
      le 1 (to8 d (lumaAt d bs r (2 * c : Nat))) ++ le 1 (chroma422At d bs 0 r c)
        ++ le 1 (to8 d (lumaAt d bs r (2 * c + 1 : Nat))) ++ le 1 (chroma422At d bs 1 r c)
  else if f = 0x10 && d.bit10 then
    layout { d with bit10 := false } (fun r c => to8 d (lumaAt d bs r c)) (fun j r c => to8 d (chromaAt d bs j r c))
  else bs

/-- R350. The header of an output picture; `outcome` is 0 decoded, 1 with concealed units, 2 repeated. -/
def outHeader (d : DecStream) (h capture outcome : Nat) (p : DecPicture) (payload map : Nat) : List Byte :=
  let sei := p.sei.getD []
  let rflags := field sei 20 2
  let flags := outcome + 4 * b2n p.overrun + 8 * b2n p.error + 16 * b2n (p.marks.contains 2) + 32 * b2n p.sei.isSome
    + 64 * b2n (bitOf rflags 5) + 128 * b2n (bitOf rflags 10) + 256 * b2n (bitOf rflags 14)
  le 1 (0x80 + h) ++ le 1 0xFF ++ le 1 (outFormat d.outDt) ++ le 1 0 ++ le 2 d.width ++ le 2 d.height ++ le 8 d.outCount ++ le 8 capture
    ++ le 2 flags ++ le 2 0xFFFF ++ le 4 payload ++ le 4 map ++ le 8 (field sei 4 8) ++ le 4 (field sei 12 4) ++ zeros 16

/-- R343, R350. A picture is the output of the tick that began at device time `capture`. -/
def putOut (h capture outcome : Nat) (p : DecPicture) (d : DecStream) : DecStream :=
  let pay := if d.outMode = 1 then converted d p.bytes else []
  let map := unitMap p.marks
  { d with
    ready := some ⟨d.outCount, capture, outHeader d h capture outcome p pay.length map.length, pay, map⟩
    last := some p, outCount := d.outCount + 1 }

/-- R343, R344. The tick outputs a repetition, or black before any picture has been output. -/
def repeatOut (h capture : Nat) (error : Bool) (d : DecStream) : DecStream :=
  let p := d.last.getD (blackPicture d)
  let d1 := putOut h capture 2 { p with overrun := false, error := error } d
  { d1 with last := d.last, repeated := satAdd 0xFFFF d.repeated 1 }

/-- R344. A repetition on stream `h`, with PICTURE_CONCEALED. -/
def repeatPicture (h : Nat) (error : Bool) (s : State) : State :=
  raiseDec h 1 (modDec h (repeatOut h (s.time.boundary s.lastBoundary) error) s)

/-- The first in output order. -/
def firstInOrder : List DecPicture → Option DecPicture
  | [] => none
  | p :: ps => match firstInOrder ps with
    | none => some p
    | some q => if q.order < p.order then some q else some p

/-! ### Decode ticks (R342, R343) -/

def decKey (h : Nat) : JobKey := ⟨8, h, 0⟩

/-- R342 step 1. What waits from the newest IRAP on, where one waits behind the oldest. -/
def fromIrap (codec : Nat) (l : List FedUnit) : List FedUnit :=
  match (List.range l.length).reverse.find? fun i => 0 < i && (l[i]?.any (isIrap codec)) with
  | some i => l.drop i
  | none => l

/-- R342 step 2. -/
def dropNonRef (codec : Nat) : List FedUnit → List FedUnit
  | [] => []
  | [u] => [u]
  | u :: v :: rest => if isNonRef codec u then dropNonRef codec (v :: rest) else u :: v :: rest

/-- R338, R342. The stream's decode tick that begins at the last boundary. -/
def decodeTick (h : Nat) (s : State) : State :=
  let d := s.decS h
  let k := s.lastBoundary
  if !d.isOpen || k < d.openedAt || k % d.div != d.slot || stalled s (decKey h) then s
  else
    let fed := d.units.filter fun u => u.fedAt < s.time.boundary k
    let rest := d.units.filter fun u => !(u.fedAt < s.time.boundary k)
    let left := dropNonRef d.codec (fromIrap d.codec fed)
    let gone := fed.length - left.length
    match left with
    | u :: us =>
      modDec h (fun x => { x with
        units := us ++ rest, job := some u, cut := none, feedEmpty := false
        discarded := satAdd 0xFFFF x.discarded gone, core := ((engineOf s (decKey h)).getD 9) - 8 }) s
    | [] => repeatPicture h false (raiseDec h 4 (modDec h (fun x => { x with units := rest, job := none, feedEmpty := true }) s))

/-- R335, R343. STREAM_ERROR events of a decode. -/
def streamErrors (h n : Nat) (s : State) : State :=
  if n = 0 then s else raiseDec h 3 (modDec h (fun x => { x with errors := satAdd 0xFFFF x.errors n }) s)

/-- R343. Pictures await output, in output order, up to the reorder depth; then the first is output. -/
def chooseOut (h capture : Nat) (p : DecPicture) (irap : Bool) (d : DecStream) : DecStream × Bool :=
  let wait := if irap then [p] else d.awaiting ++ [p]
  let d1 := { d with
    awaiting := wait, discarded := satAdd 0xFFFF d.discarded (if irap then d.awaiting.length else 0) }
  if d.reorder < wait.length then
    match firstInOrder wait with
    | some q => (putOut h capture (if q.marks.contains 1 then 1 else 0) q { d1 with awaiting := wait.erase q }, true)
    | none => (d1, false)
  else (d1, false)

/-- R343 to R346. The decode job of stream `h` finishes with what the core found. -/
def decJobEnd (h : Nat) (r : DecResult) (s : State) : State :=
  let d := s.decS h
  match d.job with
  | none => s
  | some u =>
    if stalled s (decKey h) then modDec h (fun x => { x with job := none, cut := none }) s else
    let past := r.reorderExceeded && !d.reorderErr
    let s1 := streamErrors h (b2n r.streamError + b2n past)
      (modDec h (fun x => { x with job := none, reorderErr := x.reorderErr || past }) (meterJob (decKey h) d.cut.isSome s))
    if !r.decodable then repeatPicture h r.streamError (modDec h (fun x => { x with cut := none }) s1)
    else
      let n := unitCount d
      let cut := d.cut.getD n
      let p := conceal d s1.fresh u r cut
      let lost := r.lostUnits.any fun u => u < cut && u < n
      let t := s.time.boundary s.lastBoundary
      let kept := p :: (d.dpb.filter fun q => r.keeps.contains q.order)
      let d1 := { s1.decS h with
        dpb := kept, cut := none, decoded := (d.decoded + 1) % 4294967296
        slicesConc := satAdd 0xFFFF d.slicesConc (b2n lost) }
      let c := chooseOut h t p r.irap d1
      let s2 := { modDec h (fun _ => c.1) s1 with fresh := s1.fresh + 1 }
      let s3 := when lost (raiseDec h 0) s2
      if c.2 then s3 else repeatPicture h false s3

/-- DEC_JOB_END, R343 to R346. -/
def execDecJobEnd (h : Nat) (r : DecResult) (s : State) : Host.Outcome State Fault Refusal :=
  if 32 ≤ h then .refused (.noSuchUnit "decode stream" h) else .next (decJobEnd h r s)

/-- A decode job whose end no event has reported by its boundary: what the core found is open (choice 6). -/
def decJobLate (h : Nat) (s : State) : State :=
  match (s.decS h).job with
  | none => s
  | some u => decJobEnd h (Config.decode [h, s.fresh] u.bytes) { s with fresh := s.fresh + 1 }

/-! ### Commands -/

/-- R4. The decoder is present on the CM3200 only. -/
def decPresent (s : State) : Bool := 0 < s.nDec

/-- The stream a DEC_OPEN names. -/
def openOf (q : Request) : DecStream :=
  { (default : DecStream) with
    isOpen := true, codec := q.u 17 1, level := q.u 18 1, bit10 := q.bit 19 0, width := q.u 20 2, height := q.u 22 2
    div := q.u 24 1, slot := q.u 25 1, phase := q.u 26 1, reorder := q.u 27 1, bitRate := q.u 28 4 }

/-- The master tick period a command reckons with before the tick runs. -/
def periodOf (s : State) : Nat := if s.time.period = 0 then 33333333 else s.time.period

/-- R62, R337. Cost of a decoded picture in hundredths of a cycle. -/
def decCost (d : DecStream) : Nat :=
  let a := if is265 d.codec then 64 else 16
  100 * (cdiv d.width a * a * (cdiv d.height a * a) + 16384)

/-- R338. Feed buffer in bytes. -/
def feedBytes (d : DecStream) (period : Nat) : Nat := max 1048576 (cdiv (d.bitRate * 1000 * 4 * d.div * period) 8000000000)

/-- DEC_OPEN, R336 to R338. A bit rate above the level's is a value of two fields (R106). -/
def decOpenB : Behaviour where
  reserved q := q.u 19 1 < 2
  present s _ := decPresent s
  fields _ c :=
    let q := c.q
    let d := openOf q
    firstOf [need (d.div != 0) St.badSelector, need (d.width != 0 && d.height != 0) St.badLength,
      need (d.bitRate != 0 && (levelOf d.codec d.level).all fun l => d.bitRate * 1000 ≤ l.br * nalFactor d.codec) St.hrdInfeasible,
      need (q.u 16 1 < 32 && d.codec ≤ 4 && (levelOf d.codec d.level).isSome && (!d.bit10 || d.codec == 1)
        && d.width % 2 == 0 && 16 ≤ d.width && d.width ≤ 4096 && d.height % 2 == 0 && 16 ≤ d.height && d.height ≤ 4096
        && d.div ≤ 8 && d.slot < d.div && d.phase < 64 && d.reorder ≤ 4 && d.width * d.height ≤ 8847360
        && (levelOf d.codec d.level).any (fun l => sizeFits d.codec l d.width d.height)) St.range]
  later s c _ :=
    let d := openOf c.q
    let old := s.decS (c.q.u 16 1)
    need (!old.isOpen && old.closing.all (fun k => k < s.lastBoundary)
      && (levelOf d.codec d.level).any fun l => rateFits d.codec l d.width d.height (d.div * periodOf s)) St.range
  run _ s := (.wait .tick, s)
  effect c s := modDec (c.q.u 16 1) (fun _ => { openOf c.q with openedAt := s.lastBoundary }) s

/-- R339, R340. Chunks and bytes that a stream holds. -/
def heldChunks (d : DecStream) : Nat := sumOf d.units FedUnit.chunks + (d.partial_.map FedUnit.chunks).getD 0
def heldBytes (d : DecStream) : Nat := sumOf d.units (fun u => u.bytes.length) + (d.partial_.map fun u => u.bytes.length).getD 0

/-- R339 to R341. Append a chunk; the last of an access unit completes it. -/
def feed (h : Nat) (bytes : List Byte) (last : Bool) (s : State) : State :=
  let now := s.time.dev
  modDec h (fun d =>
    if bytes.isEmpty && !last then d
    else if bytes.isEmpty && d.partial_.isNone then d
    else
      let u := d.partial_.getD ⟨[], 0, 0⟩
      let v : FedUnit := ⟨u.bytes ++ bytes, u.chunks + b2n (!bytes.isEmpty), now⟩
      if last then { d with units := d.units ++ [v], partial_ := none, lastFeed := now } else { d with partial_ := some v }) s

/-- DEC_FEED, R339 to R341. -/
def decFeedB : Behaviour where
  reserved q := q.u 17 1 < 2 && q.zero 18 2
  present s _ := decPresent s
  fields _ c := firstOf [need (c.q.u 16 1 < 32) St.range, dmaRange (c.q.dma 20)]
  member s c _ :=
    let d := s.decS (c.q.u 16 1)
    let n := (c.q.dma 20).2
    let nothing := n = 0 && (!c.q.bit 17 0 || d.partial_.isNone)
    firstOf [need (!d.isOpen || nothing || (d.units.length < 4 && heldChunks d < 32 && heldBytes d + n ≤ feedBytes d (periodOf s))) St.busy,
      need d.isOpen St.range]
  run c s :=
    if (c.q.dma 20).2 = 0 then (.done St.ok [], feed (c.q.u 16 1) [] (c.q.bit 17 0) s)
    else (.wait (.dma (c.q.dma 20).1 (c.q.dma 20).2), s)
  resume c _ s := (.done St.ok [], if (s.decS (c.q.u 16 1)).isOpen then feed (c.q.u 16 1) c.data (c.q.bit 17 0) s else s)

/-- DEC_CLOSE, R356. -/
def decCloseB : Behaviour where
  reserved q := q.zero 17 3
  present s _ := decPresent s
  fields _ c := need (c.q.u 16 1 < 32) St.range
  run _ s := (.wait .tick, s)
  effect c s :=
    let h := c.q.u 16 1
    if (s.decS h).isOpen then
      modDec h (fun d => { (default : DecStream) with closing := some s.lastBoundary, ready := d.ready, outMode := d.outMode, outFlow := d.outFlow
                                                      outVc := d.outVc, outDt := d.outDt, outRate := d.outRate, phase := d.phase
                                                      width := d.width, height := d.height, bit10 := d.bit10, codec := d.codec }) s
    else s

/-- DEC_QUERY, R357. -/
def decQueryB : Behaviour where
  reserved q := q.zero 17 3
  present s _ := decPresent s
  fields _ c := need (c.q.u 16 1 < 32) St.range
  run c s :=
    let h := c.q.u 16 1
    let d := s.decS h
    if !d.isOpen then (.done St.ok (le 1 h ++ zeros 2 ++ [0xFF#8] ++ zeros 28), s)
    else (.done St.ok (le 1 h ++ le 1 (1 + 2 * d.outMode + 4 * b2n d.feedEmpty + 8 * b2n d.partial_.isSome) ++ le 1 d.units.length
      ++ (if d.core = 0 then [0xFF#8] else le 1 (d.core - 1)) ++ le 4 d.decoded ++ le 4 (d.outCount - 1) ++ le 2 d.repeated ++ le 2 d.slicesConc
      ++ le 2 d.overruns ++ le 2 d.errors ++ le 2 d.discarded ++ zeros 2 ++ le 8 d.lastFeed), s)

end Sys2Proof.Machine
end

