-- ==== Sys2Proof/Machine/Coding.lean ====
section
/-!
DEFINITION. One access unit: its type, its plan, its CTUs with their motion and reconstruction, its NAL units, and what it leaves to the
next (R274 to R289, R301, R302, R308, R315 to R327). What the mode decision, the transform and the entropy coding make of content is open
(choice 6); what a block is predicted from is not.
-/
namespace Sys2Proof.Machine

/-- R279, R287, R326. What a picture is coded as. -/
inductive PicType where
  | idr | blackIdr | p | skip | converted
deriving DecidableEq, Repr, Inhabited

/-- Whether a picture type is intra. -/
def PicType.intra (t : PicType) : Bool := t == .idr || t == .blackIdr

/-- What coding one access unit needs, gathered at its encode tick. -/
structure Coding where
  c : Nat
  st : Nat
  f : Frame
  cfg : StreamCfg
  run : StreamRun
  hrd : Hrd
  dims : Nat × Nat
  bits : Nat
  dt : Nat
  eligible : Nat
  /-- R227, R279. The record is usable and its window was written. -/
  usable : Bool
  /-- The planes coded: Y, Cb and Cr of the window, padded under R268. -/
  src : List Plane
  fine : Bool
  /-- R306, R307. Geometry, the update taken for the tick, and the window that maps its samples. -/
  geometry : Option Geometry
  ego : Option Ego
  window : Option Window
deriving DecidableEq, Repr, Inhabited

/-- What names the content of a picture. -/
def Coding.content (k : Coding) : List Nat :=
  [k.c, k.st, k.f.counter, k.cfg.codec, k.cfg.level, k.dims.1, k.dims.2, b2n k.fine] ++ (k.src.flatten.flatten)

/-- R268. Coded size: H.264 pads to macroblocks. -/
def codedSize (codec : Nat) (d : Nat × Nat) : Nat × Nat := if is265 codec then d else (16 * cdiv d.1 16, 16 * cdiv d.2 16)

/-- R268. A plane padded to a size by its last column and row. -/
def padPlane (w h : Nat) (p : Plane) : Plane := mkPlane h w fun r c => (padded p c r).toNat

/-- R61, R288. Units of completion in a CTU. -/
def unitsPer (codec : Nat) : Nat := if is265 codec then 1 else 4

/-! ### Requests, references and the plan -/

/-- R282. The newest confirmed long-term reference. -/
def confirmed (r : StreamRun) : Option RefPic :=
  r.recovery.bind fun g => r.long.find? fun p => ((g : Int) - p.counter) % 4294967296 < 2147483648

/-- R279, R282, R284. The requests as they stand before the picture: periodic IDR, and a recovery with nothing confirmed. -/
def requests (c : StreamCfg) (r : StreamRun) : StreamRun :=
  let r1 := if !c.refreshCols && 0 < c.refreshPeriod && c.refreshPeriod ≤ r.sinceIdr then { r with idrPending := true } else r
  if r1.recovery.isSome && (confirmed r1).isNone then { r1 with idrPending := true, recoveryIdr := true, recovery := none } else r1

/-- R278. The references held, short-term first, newest first; one that is both stands once. -/
def StreamRun.held (r : StreamRun) : List RefPic := r.short ++ r.long.filter fun p => !r.short.any fun q => q.counter == p.counter

/-- R324. The rate that governs a picture: the new one from the IDR of a rate change on. -/
def rateFor (h : Hrd) (r : StreamRun) (idr : Bool) : Nat :=
  if h.vbr then h.bitRate else if idr then r.nextRate.getD r.ledgerRate else r.ledgerRate

/-- R315. t_ai. -/
def modelArrival (h : Hrd) (r : StreamRun) (e : Nat) : Nat := if r.first then e else if h.vbr then max r.tafPrev e else r.tafPrev

/-- R275. The 44 bytes of the frame SEI. -/
def frameSei (s : State) (k : Coding) (flags tl : Nat) : List Byte :=
  le 1 1 ++ le 1 k.c ++ le 1 k.st ++ le 1 k.cfg.win ++ le 8 k.f.capture ++ le 8 k.f.counter ++ le 2 flags ++ le 2 tl
    ++ le 4 k.f.calGen ++ le 8 s.tarn.bootEpoch ++ le 8 s.lastBoundary

/-- The most that the frame SEI's NAL unit takes, whatever its flags are. -/
def frameMost (h265 : Bool) : Nat := (if h265 then 2 else 1) + 2 + 16 + 44 + 1 + 22

/-- V: the non-VCL bytes before the picture is coded, with the frame SEI at its most, and the seal SEI (choice 117). -/
def nonVcl (h265 : Bool) (l : List Nal) : Nat := nalBytes l + 4 + frameMost h265 + 4 + sealMost h265

/-- R282. The picture is a recovery picture. -/
def recovers (k : Coding) (r : StreamRun) (ty : PicType) : Bool := k.usable && (ty == .p || ty == .converted) && (confirmed r).isSome

/-- R278, R282. The references a picture is predicted from. -/
def pickedRefs (k : Coding) (r : StreamRun) (ty : PicType) : List RefPic :=
  if ty.intra then [] else if recovers k r ty then (confirmed r).toList else r.held

/-- R322, R325. The ceiling, V, T and starting QP of a picture, with what its headers say. -/
structure Plan where
  rate : Nat
  tai : Nat
  cap : Nat
  syn : AuSyntax
  heads : List Nal
  v : Nat
  q : Nat
deriving DecidableEq, Repr, Inhabited

/-- R285, R326. The refresh cycle the picture is in: its index and length. -/
def cycleOf (k : Coding) (r : StreamRun) (ty : PicType) : Option (Nat × Nat) :=
  match ty with
  | .converted => some (0, if k.cfg.refreshCols then k.cfg.refreshPeriod else min 8 (ctuCols k.dims.1))
  | .p => match r.cycle with
    | some c => some c
    | none => if k.cfg.refreshCols && 0 < k.cfg.refreshPeriod then some (0, k.cfg.refreshPeriod) else none
  | _ => none

/-- R274, R311, R315, R322. Everything that is fixed before the picture is coded. -/
def planOf (k : Coding) (r : StreamRun) (ty : PicType) (cyc : Option (Nat × Nat)) : Plan :=
  let rate := rateFor k.hrd r (ty == .idr)
  let tai := modelArrival k.hrd r k.eligible
  let l := match levelOf k.cfg.codec k.cfg.level with | some x => lAu k.cfg.codec x k.dims.1 k.dims.2 k.dt | none => 0
  let cap := capBytes k.hrd rate k.eligible tai l
  let delay := if k.hrd.vbr then k.hrd.initDelay
    else ((9 * ((k.eligible : Int) - tai) + delay9 k.hrd) * 90000 / 9000000000).toNat
  let start := cyc.any fun c => c.1 == 0
  let syn : AuSyntax :=
    { cfg := k.cfg, hrd := k.hrd, dims := k.dims, bits := k.bits, csc := k.f.cfg.pipe.csc, dt := k.dt, rate := rate, delay := delay
      sinceBp := r.sinceBp, idr := ty.intra, intra := ty.intra, poc := if ty.intra then 0 else r.poc, refs := pickedRefs k r ty
      short := if ty.intra then [] else r.short, long := if ty.intra then [] else r.long, recover := recovers k r ty
      cycle := (cyc.map Prod.snd).getD 0, qp := 0 }
  let heads := headNals syn (ty.intra || start) start
  let v := nonVcl (is265 k.cfg.codec) heads
  let cfg := if k.hrd.vbr then k.cfg else { k.cfg with target := rate }
  let t := targetBits cfg k.hrd rate k.dt cap v (ctuCount k.dims)
  let q := startQp k.cfg r.lastP t ty.intra
  { rate := rate, tai := tai, cap := cap, syn := { syn with qp := q }, heads := heads, v := v, q := q }

/-- R279, R287, R325. The type of the next picture. A request of the first access unit of a run is never converted. -/
def picType (k : Coding) (r : StreamRun) : PicType :=
  let held := !r.held.isEmpty
  if !k.usable then (if held then .skip else .blackIdr)
  else if r.idrPending then
    (let p := planOf k r .idr none
     if held && !r.idrRate && !r.idrFirst && belowEstimate p.cap r.lastIdr p.q then .converted else .idr)
  else if held then .p else .idr

/-! ### The blocks of a CTU -/

/-- R285. First CTU column of picture `j` of a cycle of length `n`, and of the picture after it. -/
def cycleColumn (cols j n : Nat) : Nat := min cols (j * cdiv cols (max 1 n))

/-- R285. A CTU column is coded intra in the picture. -/
def intraColumn (cols : Nat) (cyc : Option (Nat × Nat)) (col : Nat) : Bool :=
  cyc.any fun c => cycleColumn cols c.1 c.2 ≤ col && col < cycleColumn cols (c.1 + 1) c.2

/-- R285. The luma columns refreshed before the picture, where a CTU column lies in them. -/
def fenceOf (cols : Nat) (cyc : Option (Nat × Nat)) (col : Nat) : Option Nat :=
  (cyc.filter fun c => decide (col < cycleColumn cols c.1 c.2)).map fun c => 32 * cycleColumn cols c.1 c.2

/-- A vector against a search's reference, as motion. -/
def Search.asMotion (s : Search) (v : Int × Int) : Motion := ⟨v.1, v.2, s.ref.counter, (s.poc : Int) - s.ref.poc, s.refLong⟩

/-- H.265's merge candidates of a block, those that R285 does not allow left out; in H.264 the one motion of a skipped macroblock. -/
def mergeList (ss : List Search) (r : Rect) : List Motion :=
  match ss with
  | [] => []
  | s :: _ =>
    let x : Int := r.x
    let y : Int := r.y
    let l : List Motion :=
      if s.h265 then
        (([s.motion (x - 1) (y + r.h - 1), s.motion (x + r.w - 1) (y - 1), s.motion (x + r.w) (y - 1), s.motion (x - 1) (y + r.h),
            s.motion (x - 1) (y - 1)].filterMap id) ++ ((s.temporal r).map s.asMotion).toList ++ [s.asMotion (0, 0)])
      else
        let still (o : Option PredBlock) : Bool := match o with
          | none => true
          | some b => b.motion.any fun m => m.counter == s.ref.counter && m.x == 0 && m.y == 0
        [s.asMotion (if still (s.near (x - 1) y) || still (s.near x (y - 1)) then (0, 0) else s.predictor264 r)]
    (l.filter fun m => (ss.find? fun z => z.ref.counter == m.counter).any fun z => z.supports r (m.x, m.y)).take 5

/-- A skipped block: by merging, or intra DC with no residual where the CTU is intra (R288). -/
def skippedBlock (ss : List Search) (id_ content : List Nat) (r : Rect) : PredBlock :=
  let l := mergeList ss r
  ⟨r.x, r.y, r.w, r.h, l[Config.modeOf (2 :: r.x :: r.y :: id_) content % max 1 l.length]?, true⟩

/-- R299. A coded block: one of the vectors found for it, or a merge candidate; intra where there is none. -/
def interBlock (ss : List Search) (found : List (Nat × Rect × Int × Int)) (id_ content : List Nat) (r : Rect) : PredBlock :=
  let mine := found.filterMap fun v => if v.2.1 = r then (ss[v.1]?).map fun s => s.asMotion v.2.2 else none
  let l := mine ++ (match ss with | s :: _ => if s.h265 then mergeList ss r else [] | [] => [])
  ⟨r.x, r.y, r.w, r.h, l[Config.modeOf (3 :: r.x :: r.y :: r.w :: r.h :: id_) content % max 1 l.length]?, false⟩

/-- Blocks one after another, each seeing those before it. -/
def inTurn (ss : List Search) (make : List Search → Rect → PredBlock) (rs : List Rect) : List PredBlock :=
  rs.foldl (fun l r => l ++ [make (ss.map fun s => { s with done := s.done ++ l }) r]) []

/-- The blocks of one unit of `n` samples a side in one of its shapes: 0 intra, 1 to 3 the shapes of R299, 4 skipped. -/
def shaped (ss : List Search) (found : List (Nat × Rect × Int × Int)) (id_ content : List Nat) (x y n mode : Nat) : List PredBlock :=
  let whole : Rect := ⟨x, y, n, n⟩
  if mode = 0 ∨ ss = [] then [⟨x, y, n, n, none, false⟩]
  else if mode = 4 then [skippedBlock ss id_ content whole]
  else
    let rs := (shapes x y n)
    inTurn ss (fun z => interBlock z found id_ content) (if mode = 1 then rs.take 1 else if mode = 2 then (rs.drop 1).take 2 else rs.drop 3)

/-- R266. The coding units of H.265 from `n` samples a side down to 8, split where they reach out of the picture or the encoder splits. -/
def codingUnits (found : List (Nat × Rect × Int × Int)) (dims : Nat × Nat) (id_ content : List Nat) :
    Nat → List Search → Nat → Nat → Nat → List PredBlock
  | 0, ss, x, y, n => if dims.1 ≤ x ∨ dims.2 ≤ y then [] else shaped ss found id_ content x y n (Config.modeOf (4 :: x :: y :: n :: id_) content % 5)
  | k + 1, ss, x, y, n =>
    let mode := Config.modeOf (4 :: x :: y :: n :: id_) content % 6
    if dims.1 ≤ x ∨ dims.2 ≤ y then []
    else if dims.1 < x + n ∨ dims.2 < y + n ∨ mode = 5 then
      (List.range 4).foldl (fun l i =>
        l ++ codingUnits found dims id_ content k (ss.map fun s => { s with done := s.done ++ l }) (x + n / 2 * (i % 2)) (y + n / 2 * (i / 2)) (n / 2)) []
    else shaped ss found id_ content x y n mode

/-- R267, R288. The macroblocks of a 32x32 unit of H.264; those from `coded` on are completed. -/
def macroblocks (ss : List Search) (found : List (Nat × Rect × Int × Int)) (dims : Nat × Nat) (id_ content : List Nat) (coded x y : Nat) :
    List PredBlock :=
  (List.range 4).foldl (fun l i =>
    let mx := x + 16 * (i % 2)
    let my := y + 16 * (i / 2)
    let zs := ss.map fun s => { s with done := s.done ++ l }
    let mode := Config.modeOf (5 :: mx :: my :: id_) content % 6
    if dims.1 ≤ mx ∨ dims.2 ≤ my then l
    else if coded ≤ i then l ++ [skippedBlock zs id_ content ⟨mx, my, 16, 16⟩]
    else if mode = 5 ∧ ss ≠ [] then
      l ++ inTurn zs (fun z => interBlock z found id_ content) ((List.range 4).map fun j => ⟨mx + 8 * (j % 2), my + 8 * (j / 2), 8, 8⟩)
    else l ++ shaped zs found id_ content mx my 16 mode) []

/-- What the CTUs of a picture are coded with. -/
structure Picture where
  k : Coding
  run : StreamRun
  ty : PicType
  cyc : Option (Nat × Nat)
  plan : Plan
  /-- Units at which an overrun or a fault ended the job; blocks ITP left undone. -/
  cut : Option Nat
  itpCut : Option Nat
deriving DecidableEq, Repr, Inhabited

/-- R293, R308. A CTU is searched: in a P picture, outside intra columns. -/
def Picture.searched (p : Picture) (i : Nat) : Bool :=
  !p.ty.intra && p.k.usable && !intraColumn (ctuCols p.k.dims.1) p.cyc (i % ctuCols p.k.dims.1)

/-- R295. The searches of CTU `i`, one for each reference, after the blocks before it. -/
def Picture.searches (p : Picture) (done : List PredBlock) (i : Nat) : List Search :=
  let k := p.k
  let cols := ctuCols k.dims.1
  if !p.searched i then []
  else
    p.plan.syn.refs.map fun ref =>
      { h265 := is265 k.cfg.codec, bits := k.bits, lim := vectorRange k.cfg.codec k.cfg.level, poc := p.plan.syn.poc
        dims := codedSize k.cfg.codec k.dims, src := k.src.headD [], ref := ref
        refLong := p.plan.syn.recover || !p.run.short.any fun q => q.counter == ref.counter
        short := if p.plan.syn.recover then none else p.run.short.head?, long := p.run.long.head?
        ctu := ⟨32 * (i % cols), 32 * (i / cols), 32, 32⟩
        top := 32 * (((List.range k.cfg.slices).map fun j => sliceFirst k.cfg k.dims j / cols).filter fun r => r ≤ i / cols).getLastD 0
        done := done, fence := fenceOf cols p.cyc (i % cols)
        ego := egoOf k.geometry k.ego k.window cols i ((k.f.capture : Int) - ref.capture), content := k.content }

/-- R302. Blocks of the searches before CTU `i`, and of the whole picture: what ITP is given to refine. -/
def Picture.blocksBefore (p : Picture) (i : Nat) : Nat :=
  ((List.range i).filter p.searched).length * p.plan.syn.refs.length * blockCount (is265 p.k.cfg.codec)
def Picture.refined (p : Picture) : Nat := p.blocksBefore (ctuCount p.k.dims) - p.itpCut.getD 0

/-- R318. CTU `i` at a QP after those before it (last first): its bytes, and what it is. The search uses that QP (R320). In H.264 a cut within
the CTU leaves its last macroblocks to the completion path. -/
def Picture.code (p : Picture) (before : List CtuUnit) (i qp : Nat) : Nat × CtuUnit :=
  let k := p.k
  let content := k.content
  let cols := ctuCols k.dims.1
  let x := 32 * (i % cols)
  let y := 32 * (i / cols)
  let ss := p.searches (before.flatMap CtuUnit.blocks) i
  let n := blockCount (is265 k.cfg.codec)
  let found := ss.zipIdx.flatMap fun s =>
    (blockVectors s.1 k.fine (p.refined - p.blocksBefore i - s.2 * n) (lambda qp)).map fun v => (s.2, v.1, v.2)
  let dims := codedSize k.cfg.codec k.dims
  let id_ := [i, qp]
  let blocks := if is265 k.cfg.codec then codingUnits found dims id_ content 2 ss x y 32
    else macroblocks ss found dims id_ content (match p.cut with | some m => m - 4 * i | none => 4) x y
  let head := sumOf ((List.range k.cfg.slices).filter fun j => sliceFirst k.cfg k.dims j == i) fun j => 4 + (sliceHead p.plan.syn j).length
  let coded := blocks.flatMap fun b => [b.x, b.y, b.w, b.h, b2n b.skipped] ++
    (match b.motion with | some m => [(m.x + 65536).toNat, (m.y + 65536).toNat, m.counter] | none => [])
  (head + Config.ctuBytes (id_ ++ coded ++ content) qp, ⟨qp, blocks, egoUsed ss⟩)

/-- R318, R287, R288. The CTUs of a picture: coded one by one up to a cut, or completed whole. -/
def Picture.codeAll (p : Picture) : CtuRun :=
  let n := ctuCount p.k.dims
  if p.ty == .skip || p.ty == .blackIdr then .none
  else
    let bound := if p.k.cfg.qpFixedEn then p.k.cfg.qpFixed else p.k.cfg.qpMax
    let last := match p.cut with | some m => cdiv m (unitsPer p.k.cfg.codec) | none => n
    ctuLoop p.k.cfg p.k.dims p.code (p.plan.cap - p.plan.v) p.plan.q bound (min n last) 0 .none

/-- R288. The blocks of the CTUs from `i` on, `n` of them, by the completion path: skipped, or intra in an IDR and in intra columns. -/
def Picture.completed (p : Picture) : Nat → Nat → List PredBlock → List PredBlock
  | 0, _, l => l
  | n + 1, i, l =>
    let ss := p.searches l i
    let d := codedSize p.k.cfg.codec p.k.dims
    let cols := ctuCols p.k.dims.1
    let x := 32 * (i % cols)
    let y := 32 * (i / cols)
    let side := if is265 p.k.cfg.codec then 8 else 16
    let cells := ((List.range (32 / side * (32 / side))).map fun j =>
      (⟨x + side * (j % (32 / side)), y + side * (j / (32 / side)), side, side⟩ : Rect)).filter fun r => r.x < d.1 && r.y < d.2
    let whole := is265 p.k.cfg.codec && x + 32 ≤ d.1 && y + 32 ≤ d.2
    let bs := inTurn ss (fun z => skippedBlock z [i, 52] p.k.content) (if whole then [⟨x, y, 32, 32⟩] else cells)
    Picture.completed p n (i + 1) (l ++ bs)

/-- R287. The blocks of a skip picture: none moves from the newest reference; of a black IDR: intra. -/
def Picture.still (p : Picture) : List PredBlock :=
  let d := codedSize p.k.cfg.codec p.k.dims
  let m := (p.run.held.head?).map fun r => (⟨0, 0, r.counter, (p.plan.syn.poc : Int) - r.poc, !p.run.short.any fun q => q.counter == r.counter⟩ : Motion)
  [⟨0, 0, d.1, d.2, if p.ty.intra then none else m, true⟩]

/-- R301. A reconstructed sample of component `c`: of a block with motion, what its vector predicts (ITP's samples where it lies between) and
what residual and loop filters add; of an intra block, what it reconstructs. -/
def Picture.sample (p : Picture) (blocks : List PredBlock) (qp : Nat → Nat) (c r i : Nat) : Nat :=
  let k := p.k
  let x := if c = 0 then i else 2 * i
  let y := if c = 0 then r else 2 * r
  let u := qp (y / 32 * ctuCols k.dims.1 + x / 32)
  match blockAt blocks x y with
  | none => 0
  | some b =>
    match b.motion.bind fun m => (p.plan.syn.refs.find? fun z => z.counter == m.counter).map fun z => (m, z) with
    | some (m, z) =>
      (clampI 0 (2 ^ k.bits - 1 : Nat) ((predicted (is265 k.cfg.codec) k.bits c (z.planes[c]?.getD []) i r m.x m.y : Nat)
        + Config.residual [c, r, i, u, b2n b.skipped] k.content)).toNat
    | none => Config.intraSample [c, r, i, u, b2n b.skipped] k.content % 2 ^ k.bits

/-- R287, R301. The samples of the picture as a decoder reconstructs them. -/
def Picture.reconstruct (p : Picture) (blocks : List PredBlock) (qp : Nat → Nat) : List Plane :=
  let d := codedSize p.k.cfg.codec p.k.dims
  let pipe := p.k.f.cfg.pipe
  if p.ty == .skip then (p.run.held.head?.map RefPic.planes).getD []
  else if p.ty == .blackIdr then
    [mkPlane d.2 d.1 fun _ _ => lumaBlack pipe p.k.bits, mkPlane (d.2 / 2) (d.1 / 2) fun _ _ => 128 * 2 ^ (p.k.bits - 8),
      mkPlane (d.2 / 2) (d.1 / 2) fun _ _ => 128 * 2 ^ (p.k.bits - 8)]
  else (List.range 3).map fun c => if c = 0 then mkPlane d.2 d.1 (p.sample blocks qp 0) else mkPlane (d.2 / 2) (d.1 / 2) (p.sample blocks qp c)

/-! ### What a picture leaves -/

/-- R280. Mark a picture long-term: slots in turn, each replacing the oldest. -/
def markLong (ltrs : Nat) (p : RefPic) (r : StreamRun) : StreamRun :=
  { r with long := { p with slot := r.ltrNext % max 1 ltrs } :: r.long.filter (fun x => x.slot != r.ltrNext % max 1 ltrs)
           ltrNext := r.ltrNext + 1, ltrDue := false }

/-- R285. What was refreshed before a cycle begins counts for nothing in it. -/
def RefPic.unrefreshed (p : RefPic) : RefPic := { p with edge := 0 }

/-- R278 to R285. The references and counts after a picture. -/
def afterPicture (k : Coding) (r : StreamRun) (ty : PicType) (recover encOvr : Bool) (cyc : Option (Nat × Nat)) (planes : List Plane)
    (field : List PredBlock) : StreamRun :=
  let poc := if ty.intra then 0 else r.poc
  let cols := ctuCols k.dims.1
  let p : RefPic := ⟨k.f.counter, k.f.capture, 0, poc, planes, field, match cyc with | some c => 32 * cycleColumn cols (c.1 + 1) c.2 | none => 0⟩
  let rz := if cyc.any (fun c => c.1 == 0) then { r with short := r.short.map RefPic.unrefreshed, long := r.long.map RefPic.unrefreshed } else r
  let r0 := if ty.intra then { rz with short := [], long := [], ltrNext := 0 } else if recover then { rz with short := [] } else rz
  let r1 := { r0 with short := (p :: r0.short).take (max 1 k.cfg.refs), poc := poc + 1, first := false }
  let due := r1.ltrDue || (0 < k.cfg.ltrPeriod && (r1.sinceLtr + 1) % k.cfg.ltrPeriod == 0)
  let r2 := if !k.usable then r1
    else if ty == .idr then { r1 with sinceIdr := 1, sinceLtr := 1, ltrDue := k.cfg.ltrPeriod == 1 }
    else if ty == .converted then { r1 with sinceIdr := 1, sinceLtr := r1.sinceLtr + 1, ltrDue := due }
    else { r1 with sinceIdr := r1.sinceIdr + 1, sinceLtr := r1.sinceLtr + 1, ltrDue := due }
  if k.usable && ty == .p && r2.ltrDue && 0 < k.cfg.ltrs && 0 < k.cfg.ltrPeriod && !encOvr then markLong k.cfg.ltrs p r2 else r2

/-- A coded access unit and what it leaves. -/
structure Coded where
  au : AccessUnit
  run : StreamRun
  clamp : Bool
deriving DecidableEq, Repr, Inhabited

/-- R274 to R289, R315 to R327. Code one access unit. `cut` is the unit at which an overrun, a watchdog or a fault ended the job, `itpCut` how
many blocks ITP left undone. -/
def codeAu (s : State) (k : Coding) (r0 : StreamRun) (cut itpCut : Option Nat) : Coded :=
  let h265 := is265 k.cfg.codec
  let r := requests k.cfg r0
  let ty := picType k r
  let cyc := cycleOf k r ty
  let start := cyc.any fun c => c.1 == 0
  let plan := planOf k r ty cyc
  let recover := recovers k r ty
  let n := ctuCount k.dims
  let pic : Picture := ⟨k, r, ty, cyc, plan, cut, itpCut⟩
  let run := pic.codeAll
  let coded := run.units.reverse
  let own := coded.flatMap CtuUnit.blocks
  let blocks := if ty == .skip || ty == .blackIdr then pic.still else pic.completed (n - run.next) run.next own
  let planes := pic.reconstruct blocks fun i => ((coded[i]?).map CtuUnit.qp).getD plan.q
  let encOvr := cut.any fun i => i < n * unitsPer k.cfg.codec
  let floor := run.stopped.isSome
  let skip := !k.usable
  let flags := frameFlags k.f % 512 + 512 * b2n encOvr + 1024 * b2n skip + 2048 * b2n floor + 4096 * b2n (ty == .converted)
    + 8192 * b2n recover + 16384 * (r.sealKeyBits % 2) + 32768 * b2n run.ego
  let tl := if k.f.outcome == .truncated then k.f.truncLine else 0xFFFF
  let sei : Nal := ⟨.frameSei, seiBytes h265 .frameSei 5 (userData 0x01#8 (frameSei s k flags tl)), 0⟩
  let lens := sliceLens k.cfg k.dims k.content (fun j => 4 + (sliceHead plan.syn j).length) run
  let vectors := blocks.flatMap fun b => match b.motion with | some m => [(m.x + 65536).toNat, (m.y + 65536).toNat] | none => []
  let slices := (List.range k.cfg.slices).map fun j =>
    (let h := sliceHead plan.syn j
     ⟨.slice, h ++ fit ((lens[j]?.getD 0) - 4 - h.length) (Config.sliceBytes (j :: run.next :: coded.map CtuUnit.qp ++ vectors) k.content), 0⟩ : Nal)
  let sealN : Nal := ⟨.sealSei, zeros (sealMost h265), 0⟩
  let base := plan.heads ++ [sei] ++ (if h265 then [] else [sealN]) ++ slices
  let size0 := nalBytes base + (if h265 then 4 + sealMost h265 else 0)
  let want := if k.hrd.vbr then 0 else floorBytes plan.rate k.eligible k.dt plan.tai
  let fill := if size0 < want then [fillerNal h265 (want - size0)] else []
  let nals := base ++ fill ++ (if h265 then [sealN] else [])
  let size := nalBytes nals
  let vcl := 8 * nalBytes slices
  let idrDone := ty == .idr
  let satisfied := ty == .idr || ty == .converted
  let r1 := afterPicture k r ty recover encOvr cyc planes blocks
  let r2 := { r1 with
    idrPending := if satisfied then false else r1.idrPending
    idrRate := if idrDone then false else r1.idrRate
    idrFirst := if idrDone then false else r1.idrFirst
    nextRate := if idrDone then none else r1.nextRate
    ledgerRate := if k.hrd.vbr then k.hrd.bitRate else plan.rate
    recovery := if recover || idrDone then none else r1.recovery
    recoveryIdr := if satisfied then false else r1.recoveryIdr
    cycle := cyc.bind fun c => if c.1 + 1 < c.2 then some (c.1 + 1, c.2) else none
    tafPrev := arrivalEnd plan.rate plan.tai size
    lastP := if (ty == .p || ty == .converted) && !floor then some (plan.q, vcl) else r1.lastP
    lastIdr := if idrDone && !floor then some (plan.q, size) else r1.lastIdr
    sinceBp := if plan.heads.any (fun n => n.kind == .bufferingPeriod) then 1 else r1.sinceBp + 1
    dims := k.dims }
  { au :=
      { channel := k.c, stream := k.st, counter := k.f.counter, capture := k.f.capture, h265 := h265, nals := nals
        paramSets := ty.intra || start, idr := idrDone, skip := skip, encOvr := encOvr, skipFloor := floor, iToP := ty == .converted
        ltrRecovery := recover
        recovered := recover || (idrDone && (r.recovery.isSome || r.recoveryIdr)) || (ty == .converted && r.recoveryIdr)
        flags := BitVec.ofNat 16 flags, truncLine := tl, sealed_ := false, eligible := s.lastBoundary + 1, bytes := size }
    run := r2, clamp := run.past }

end Sys2Proof.Machine
end

