-- ==== Sys2Proof/Machine/Encoder.lean ====
section
/-!
DEFINITION. The encoder: the 0x04xx commands on streams, what an encode tick starts, the hooks on a picture, and ENC_JOB_END, ITP_JOB_END and
SEAL_JOB_END (R265 to R291, R310 to R324, R447, R448, R492).
-/
namespace Sys2Proof.Machine

/-! ### Commands -/

/-- R270. The configuration a request names, over what the stream keeps. -/
def streamOf (q : Request) (c : StreamCfg) : StreamCfg :=
  { c with
    set := true, enable := q.bit 20 0, win := q.u 17 1, codec := q.u 18 1, level := q.u 19 1, cavlc := q.bit 20 1
    slices := q.u 21 1, refs := q.u 22 1, ltrs := q.u 23 1 }

/-- R271. Checks of a stream against its window at the boundary; the rate where it is known. -/
def streamFits (s : State) (x : ChanCfg) (c : StreamCfg) : Bool :=
  match tget x.windows c.win, levelOf c.codec c.level with
  | some w, some l =>
    isCoding w.format && (w.format != 0x11 || c.codec == 1) && c.refs + c.ltrs + 1 ≤ maxDpb c.codec l w.outW w.outH
      && sizeFits c.codec l w.outW w.outH && (auInterval s x).all (fun dt => rateFits c.codec l w.outW w.outH dt)
      && c.slices ≤ ctuRows w.outH
  | _, _ => false

/-- R271. All fields but SLICES and ENABLE agree. -/
def sameStream (a b : StreamCfg) : Bool :=
  a.win == b.win && a.codec == b.codec && a.level == b.level && a.cavlc == b.cavlc && a.refs == b.refs && a.ltrs == b.ltrs

/-- R271. Format of a stream's source window. -/
def streamFormat (x : ChanCfg) (c : StreamCfg) : Option Nat := ((tget x.windows c.win).filter fun w => isCoding w.format).map Window.format

/-- R279, R282, R315. What a run starts from: an IDR request, the ledger anew at the rate declared, and the size and format of its window. A
recovery still to be coded stays pending. -/
def StreamRun.begin_ (x : ChanCfg) (c : StreamCfg) (r : StreamRun) : StreamRun :=
  { r with
    idrPending := true, idrRate := false, idrFirst := true, first := true, lastP := none, cycle := none
    dims := (streamDims x c).getD r.dims, format := (streamFormat x c).getD r.format
    ledgerRate := (c.hrd.map (testRate c)).getD 0, nextRate := none }

/-- R291. What an enabling clears. R273: on a disabled channel the stream waits for its start. -/
def StreamRun.enabled (waits : Bool) (r : StreamRun) : StreamRun :=
  { r with
    short := [], long := [], ltrNext := 0, lastIdr := none, core := 0xFF, auCount := 0, lastFrame := 0, lastBytes := 0
    skipPics := 0, ovr := 0, poc := 0, sinceIdr := 0, sinceLtr := 0, ltrDue := false, recovery := none, recoveryIdr := false
    waits := waits, runFrom := 0 }

/-- R273, R279. The channel starts at boundary `k`: a stream that has waited for it codes no frame exposed before. -/
def StreamRun.start (x : ChanCfg) (c : StreamCfg) (k : Nat) (r : StreamRun) : StreamRun :=
  if !c.enable then r else { r.begin_ x c with waits := false, runFrom := if r.waits then k else r.runFrom }

/-- R272. A stream's configuration takes effect. -/
def putStream (c st : Nat) (n : StreamCfg) (s : State) : State :=
  let old := tget (s.chan c).cfg.streams st
  let s1 := modStream c st (fun _ => n) s
  if n.enable && !old.enable then modRun c st (fun r => (r.enabled (!(s.chan c).enabled)).begin_ (s1.chan c).cfg n) s1 else s1

/-- ENC_STREAM_SET, R270 to R272. -/
def encStreamSetB : Behaviour where
  reserved q := q.u 20 1 < 4 && q.zero 24 16
  fields _ c :=
    let q := c.q
    need (q.u 16 1 ≤ 1 && q.u 17 1 ≤ 3 && q.u 18 1 ≤ 4 && (levelOf (q.u 18 1) (q.u 19 1)).isSome && (3 ≤ q.u 18 1 || !q.bit 20 1)
      && 1 ≤ q.u 21 1 && q.u 21 1 ≤ 16 && 1 ≤ q.u 22 1 && q.u 22 1 ≤ 2 && q.u 23 1 ≤ 2) St.range
  member s c _ := need (!(c.q.bit 20 0 && loadBusy s c.f c.q.tag 1 0)) St.busy
  later s c m :=
    let x := (s.chan m).cfg
    let old := tget x.streams (c.q.u 16 1)
    let n := streamOf c.q old
    firstOf [need (!n.enable || hrdFits s x n) St.hrdInfeasible, need (streamFits s x n && (!old.enable || sameStream old n)) St.range]
  run _ s := (.wait .tick, s)
  effect c s := forEach c.members (fun m t =>
    let n := streamOf c.q (tget (t.chan m).cfg.streams (c.q.u 16 1))
    putStream m (c.q.u 16 1) n t) s

/-- R310. The HRD a request names. -/
def hrdOf (q : Request) : Hrd := ⟨q.bit 17 0, q.u 20 4, q.u 24 4, q.u 28 4⟩

/-- R329. The flows that carry a stream have no limit below a rate. -/
def carries (s : State) (c st m : Nat) : Bool := (s.fcfg m).src == .coded c st
def limitsAllow (s : State) (c st r : Nat) : Bool :=
  (idx 256 fun m => carries s c st m && (s.fcfg m).limit != 0 && (s.fcfg m).limit * 1000 < r).isEmpty

/-- ENC_HRD_SET, R310, R313, R329. -/
def encHrdSetB : Behaviour where
  reserved q := q.zero 18 2 && q.zero 32 4
  fields _ c :=
    let h := hrdOf c.q
    firstOf [need (c.q.u 16 1 ≤ 1 && c.q.u 17 1 ≤ 1) St.range,
      need (h.bitRate != 0 && h.cpbSize != 0 && h.initDelay != 0) St.hrdInfeasible,
      need (h.bitRate % 64 == 0 && h.cpbSize % 16 == 0 && h.initDelay ≤ 90000) St.range]
  later s c m :=
    let x := (s.chan m).cfg
    let st := c.q.u 16 1
    let old := tget x.streams st
    let h := hrdOf c.q
    if old.enable then need (old.hrd == some h) St.range
    else firstOf [need (limitsAllow s m st h.bitRate && hrdFits s x { old with hrd := some h, target := h.bitRate }) St.hrdInfeasible,
      need ((levelOf old.codec old.level).all fun l =>
        !old.set || (h.bitRate ≤ l.br * nalFactor old.codec && h.cpbSize ≤ l.cpb * nalFactor old.codec)) St.range]
  run _ s := (.wait .tick, s)
  effect c s := forEach c.members (fun m t =>
    let old := tget (t.chan m).cfg.streams (c.q.u 16 1)
    if old.hrd == some (hrdOf c.q) && old.enable then t
    else modStream m (c.q.u 16 1) (fun x => { x with hrd := some (hrdOf c.q), target := (hrdOf c.q).bitRate }) t) s

/-- R324. A rate takes effect: in CBR it becomes the declared rate, and an IDR request is made pending. -/
def putRate (c st r : Nat) (s : State) : State :=
  let x := tget (s.chan c).cfg.streams st
  let s1 := modStream c st (fun y => { y with target := r }) s
  if x.enable && x.hrd.any (fun h => !h.vbr) then modRun c st (fun y => { y with idrPending := true, idrRate := true, nextRate := some r }) s1
  else s1

/-- ENC_RATE_SET, R324, R313, R329. -/
def encRateSetB : Behaviour where
  reserved q := q.zero 17 3
  fields _ c := firstOf [need (c.q.u 16 1 ≤ 1) St.range, need (!c.q.zero 20 4) St.hrdInfeasible, need (c.q.u 20 4 % 64 == 0) St.range]
  later s c m :=
    let x := (s.chan m).cfg
    let st := c.q.u 16 1
    let old := tget x.streams st
    match old.hrd with
    | none => some St.hrdInfeasible
    | some h => firstOf [
        need (limitsAllow s m st (if h.vbr then h.bitRate else c.q.u 20 4) && hrdFits s x { old with target := c.q.u 20 4 }) St.hrdInfeasible,
        need (c.q.u 20 4 ≤ h.bitRate) St.range]
  run _ s := (.wait .tick, s)
  effect c s := forEach c.members (fun m => putRate m (c.q.u 16 1) (c.q.u 20 4)) s

/-- ENC_QP_SET, R321. -/
def encQpSetB : Behaviour where
  reserved q := q.u 17 1 < 2 && q.zero 22 2
  fields _ c :=
    let q := c.q
    need (q.u 16 1 ≤ 1 && q.u 18 1 ≤ 51 && q.u 18 1 ≤ q.u 19 1 && q.u 19 1 ≤ 51
      && (if q.bit 17 0 then q.u 18 1 ≤ q.u 20 1 && q.u 20 1 ≤ q.u 19 1 else q.zero 20 1)
      && decide (-12 ≤ q.i 21 1 ∧ q.i 21 1 ≤ 12)) St.range
  run _ s := (.wait .tick, s)
  effect c s := forEach c.members (fun m => modStream m (c.q.u 16 1) fun x => { x with
    qpFixedEn := c.q.bit 17 0, qpMin := c.q.u 18 1, qpMax := c.q.u 19 1, qpFixed := c.q.u 20 1, iDelta := c.q.i 21 1 }) s

/-- ENC_REFRESH_SET, R284. -/
def encRefreshSetB : Behaviour where
  reserved q := q.zero 22 6
  fields _ c := need (c.q.u 16 1 ≤ 1 && c.q.u 17 1 ≤ 1 && (c.q.u 17 1 == 0 || !c.q.zero 18 2)) St.range
  later s c m :=
    let x := (s.chan m).cfg
    need (c.q.u 17 1 == 0 || (streamDims x (tget x.streams (c.q.u 16 1))).all fun d => c.q.u 18 2 ≤ ctuCols d.1) St.range
  run _ s := (.wait .tick, s)
  effect c s := forEach c.members (fun m => modStream m (c.q.u 16 1) fun x => { x with
    refreshCols := c.q.u 17 1 == 1, refreshPeriod := c.q.u 18 2, ltrPeriod := c.q.u 20 2 }) s

/-- ENC_LTR_RECOVER, R282. -/
def encLtrRecoverB : Behaviour where
  reserved q := q.zero 17 3
  fields _ c := need (c.q.u 16 1 ≤ 1) St.range
  run _ s := (.wait .tick, s)
  effect c s := forEach c.members (fun m t =>
    if (tget (t.chan m).cfg.streams (c.q.u 16 1)).enable then modRun m (c.q.u 16 1) (fun r => { r with recovery := some (c.q.u 20 4) }) t else t) s

/-- ENC_FORCE_IDR, R281. -/
def encForceIdrB : Behaviour where
  run _ s := (.wait .tick, s)
  effect c s := forEach c.members (fun m => forEach [0, 1] (fun st t =>
    if (tget (t.chan m).cfg.streams st).enable then modRun m st (fun r => { r with idrPending := true }) t else t)) s

/-- R291. One entry of ENC_QUERY. -/
def encEntry (x : Chan) (st : Nat) : List Byte :=
  let c := tget x.cfg.streams st
  let r := tget x.runs st
  if !c.enable then zeros 3 ++ [0xFF#8] ++ zeros 16
  else le 1 (1 + 2 * b2n r.idrPending + 4 * b2n (r.recovery.isSome || r.recoveryIdr) + 8 * b2n r.sealUnpaired + 16 * b2n r.cycle.isSome)
    ++ le 1 c.codec ++ le 1 c.level ++ le 1 r.core ++ le 4 r.auCount ++ le 4 r.lastFrame ++ le 4 r.lastBytes ++ le 2 r.skipPics ++ le 2 r.ovr

/-- ENC_QUERY, R291. -/
def encQueryB : Behaviour where
  run c s := (.done St.ok (encEntry (s.chan (c.members.headD 0)) 0 ++ encEntry (s.chan (c.members.headD 0)) 1), s)

/-! ### The start of an encode tick (R29, R447) -/

/-- R427, R448. The generations a seal record carries: HEAD, CHAN, DEV, EVID. -/
def sealGens (s : State) (c : Nat) (paired : Bool) : List Byte :=
  le 4 (if paired then (s.node (headSlot c)).gen else 0) ++ le 4 (s.node (chanSlot c)).gen ++ le 4 (s.node 6).gen ++ le 4 (s.node 5).gen

/-- R447, R448. Fix the seal key of a stream's access unit. -/
def fixSeal (c st : Nat) (s : State) : State :=
  let paired := (s.chan c).head.state == .paired
  modRun c st (fun r => { r with
    sealKey := if s.tarn.tampered then [] else sealLeaf s c paired
    sealKeyBits := b2n (!paired) + 2 * b2n (!s.tarn.evid) + 4 * b2n s.tarn.tampered
    sealGens := sealGens s c paired, sealUnpaired := !paired }) s

/-- R29, R273. At the boundary that begins their encode tick, the streams of a channel take its frame. -/
def startEncode (c : Nat) (s : State) : State :=
  let x := s.chan c
  match x.encNext with
  | none => s
  | some f =>
    let forms := x.formed.filter fun p => (tget f.cfg.windows p.1).any fun w => isCoding w.format
    let s1 := modChan c (fun y => { y with encNext := none, formed := [], encFormed := forms }) s
    forEach [0, 1] (fun st t =>
      let r := tget (t.chan c).runs st
      if (tget (t.chan c).cfg.streams st).enable && !r.waits && r.runFrom ≤ f.boundary then
        fixSeal c st (modRun c st (fun r => { r with job := some f, cut := none, itpCut := none, itpDone := false, current := none }) t)
      else t) s1

/-! ### The jobs of the encode tick -/

def encKey (c st : Nat) : JobKey := ⟨4, c, st⟩
def itpKey (c st : Nat) : JobKey := ⟨5, c, st⟩

/-- R61, R288. Units of completion of the picture a stream's job codes: CTUs, in H.264 macroblocks. -/
def encUnits (s : State) (c st : Nat) : Nat :=
  let x := s.chan c
  let k := tget x.cfg.streams st
  let r := tget x.runs st
  ctuCount ((r.job.bind fun f => streamDims f.cfg k).getD r.dims) * unitsPer k.codec

/-- R62. Cost of an access unit on ENC in hundredths of a cycle. -/
def encCost (s : State) (x : ChanCfg) (st : Nat) : Nat :=
  let c := tget x.streams st
  let px := match streamDims x c with | some d => d.1 * d.2 | none => 0
  (if x.fine then 115 else 100) * px + 204800 * c.slices + 1638400 + 100 * hookCycles s x st [4, 5]

/-- R230, R268. The planes of a coding window from its bytes. -/
def sourcePlanes (w : Window) (bytes : List Byte) : List Plane :=
  let n := if w.format = 0x10 then 1 else 2
  let at_ (i : Nat) : Nat := field bytes (n * i) n / (if n = 1 then 1 else 64)
  let ch (j : Nat) : Plane := mkPlane (w.outH / 2) (w.outW / 2) fun r c => at_ (w.outW * w.outH + r * w.outW + 2 * c + j)
  [mkPlane w.outH w.outW fun r c => at_ (r * w.outW + c), ch 0, ch 1]

/-- R268. The planes as coded. -/
def paddedSource (codec : Nat) (d : Nat × Nat) (xs : List Plane) : List Plane :=
  let q := codedSize codec d
  (List.range xs.length).map fun i => if i = 0 then padPlane q.1 q.2 (xs.headD []) else padPlane (q.1 / 2) (q.2 / 2) (xs[i]?.getD [])

/-- R33, R32. What H4 and H5 and their cost are bound to: the channel's settings at the encode tick, on the windows of the frame. -/
def encBound (s : State) (k : Coding) : ChanCfg := { (s.chan k.c).cfg with windows := k.f.cfg.windows }

/-- R66. The cycles the meter of an encode job leaves to hooks when `done` of its units have been coded. -/
def encLeft (s : State) (k : Coding) (done : Nat) : Nat :=
  let x := encBound s k
  let cost := encCost s x k.st
  hookLeft (.enc k.c k.st) k.f.counter (cost / 100) codeSetup ((cost - 100 * hookCycles s x k.st [4, 5] - 100 * codeSetup) / 100)
    (ctuCount k.dims * unitsPer k.cfg.codec) done

/-- R492. H4 and H5 on the encoder's copy of a picture: its planes, and the unit from which its rows are not prepared. -/
def hookSource (s : State) (k : Coding) (w : Window) : HookedPlanes :=
  let x := encBound s k
  let f := { k.f with cfg := x }
  let g (i : Nat) : Plane := k.src[i]?.getD []
  let on (h : Nat) : Bool := (tget x.hooks h).any fun a => bitOf a.mask k.st
  let units (rows row : Nat) : Nat := row / rows * ctuCols w.outW * unitsPer k.cfg.codec
  let r4 := if on 4 then runHook s k.c f 4 k.st w.format w.outW w.outH w.outH (fun row => encLeft s k (units 32 row))
      (Vector.ofFn fun i => if i.val = 0 then hport (g 0) true k.bits else hport [] false k.bits) else none
  let r5 := if on 5 then runHook s k.c f 5 k.st w.format (w.outW / 2) (w.outH / 2) (w.outH / 2) (fun row => encLeft s k (units 16 row))
      (Vector.ofFn fun i => if i.val < 2 then hport (g (i.val + 1)) true k.bits else hport [] false k.bits) else none
  let used := usedBy r4 (units 32) ++ usedBy r5 (units 16)
  { planes := [hookPlane r4 0 (g 0), hookPlane r5 0 (g 1), hookPlane r5 1 (g 2)]
    cut := earlier (earlier (cutOf r4 (units 32)) (cutOf r5 (units 16))) ((meterLine (encLeft s k) used).map fun l => (l, 0, RunEnd.metered))
    seen := (r4.toList ++ r5.toList).map Prod.snd, used := used }

/-- Gather what coding needs; none where the stream has no job. -/
def codingOf (s : State) (c st : Nat) : Option (Coding × Option Window) :=
  let x := s.chan c
  let cfg := tget x.cfg.streams st
  let r := tget x.runs st
  match r.job, cfg.hrd with
  | some f, some h =>
    let pic := (x.encFormed.find? fun p => p.1 == cfg.win).map Prod.snd
    let w := (tget f.cfg.windows cfg.win).filter fun y => isCoding y.format
    let there := pic.isSome && w.isSome
    some ({ c := c, st := st, f := f, cfg := cfg, run := r, hrd := h
            dims := (w.map fun y => (y.outW, y.outH)).getD r.dims
            bits := codingBits ((w.map Window.format).getD r.format)
            dt := (f.cfg.rate.map Rate.div).getD 1 * s.time.period
            eligible := s.time.boundary (s.lastBoundary + 1)
            usable := f.outcome == .complete && there
            src := (match w, pic with | some y, some p => sourcePlanes y p.payload | _, _ => [])
            fine := x.cfg.fine, geometry := x.cal.geometry, ego := if x.cfg.ego then s.egoTaken else none
            window := (tget x.cfg.windows cfg.win).orElse fun _ => w }, w)
  | _, _ => none

/-- R29, R66, R288. The encode job of a stream finishes. -/
def encJobEnd (c st : Nat) (s : State) : State :=
  match codingOf s c st with
  | none => s
  | some (k, w) =>
    if k.run.current.isSome then s
    else if stalled s (encKey c st) then modRun c st (fun r => { r with job := none, cut := none, itpCut := none }) s
    else
      let hooked : HookedPlanes := match w with | some y => if k.usable then hookSource s k y else ⟨k.src, none, [], []⟩ | none => ⟨k.src, none, [], []⟩
      let halted := (seqOf s (encKey c st)).any fun q => (tget s.seqs q).halted
      let ext := if halted then some 0 else k.run.cut
      let cut := match hooked.cut, ext with
        | some a, some b => some (min a.1 b)
        | some a, none => some a.1
        | none, b => b
      let d := codeAu s { k with src := paddedSource k.cfg.codec k.dims hooked.planes } k.run cut k.run.itpCut
      let core := ((engineOf s (encKey c st)).getD 4) - 4
      let s1 := meterJob (encKey c st) d.au.encOvr (forEach hooked.seen (countHook (encKey c st)) s)
      let s2 := match hooked.cut with
        | some (l, rt, e) => if ext.all (fun b => l < b) then reportRoutine (encKey c st) rt e (raiseEnc c 0) s1 else s1
        | none => s1
      let s3 := modRun c st (fun _ => { d.run with current := some d.au, core := core }) s2
      let s4 := if d.au.skipFloor then raiseEnc c 3 s3 else s3
      let s5 := if d.au.iToP then raiseEnc c 4 s4 else s4
      let s6 := modChan c (fun y => { y with ovrEnc := satAdd 0xFFFF y.ovrEnc (b2n d.au.encOvr) }) s5
      if d.clamp then
        forEach (idx 256 fun m => carries s c st m) (fun m => modFlow m fun y => { y with hrdClamp := satAdd 0xFFFF y.hrdClamp 1 }) (raiseEnc c 2 s6)
      else s6

/-- ENC_JOB_END, R29. -/
def execEncJobEnd (ch st : Nat) (s : State) : Host.Outcome State Fault Refusal :=
  if 32 ≤ ch ∨ 2 ≤ st then .refused (.noSuchUnit "stream" (2 * ch + st)) else .next (encJobEnd ch st s)

/-- R301, R308. ITP finishes: its use is metered; the samples it formed are those the coded access unit predicts from. A skip picture gives
it nothing to do. -/
def itpJobEnd (c st : Nat) (s : State) : State :=
  let r := tget (s.chan c).runs st
  if (s.chan c).cfg.fine && r.job.isSome && !r.itpDone then
    let s1 := modRun c st (fun x => { x with itpDone := true }) s
    if (codingOf s c st).any fun k => k.1.usable then meterJob (itpKey c st) r.itpCut.isSome s1 else s1
  else s

/-- ITP_JOB_END, R301, R302. -/
def execItpJobEnd (ch st : Nat) (s : State) : Host.Outcome State Fault Refusal :=
  if 32 ≤ ch ∨ 2 ≤ st then .refused (.noSuchUnit "stream" (2 * ch + st)) else .next (itpJobEnd ch st s)

/-- R448. The seal record of an access unit. -/
def sealRecord (s : State) (r : StreamRun) (a : AccessUnit) : List Byte :=
  let body := le 1 1 ++ le 1 r.sealKeyBits ++ le 1 a.channel ++ le 1 a.stream ++ le 2 a.flags.toNat ++ le 2 a.truncLine ++ le 8 a.capture
    ++ le 8 a.counter ++ le 8 s.tarn.bootEpoch ++ r.sealGens
  body ++ (if bitOf r.sealKeyBits 2 then zeros 16 else mac r.sealKey (body ++ hash (sealedBytes a.nals)))

/-- R276, R447. Put the seal record into the seal SEI. A tamper during the tick leaves a CMAC of zeros (R438). -/
def sealAu (s : State) (r0 : StreamRun) (a : AccessUnit) : AccessUnit :=
  let r := if s.tarn.tampered then { r0 with sealKeyBits := r0.sealKeyBits % 4 + 4 } else r0
  { a with nals := a.nals.map fun n => if n.kind = .sealSei then sealNal a.h265 (sealRecord s r a) else n, sealed_ := true }

/-- R447. The seal job of a stream finishes, the encode job first. -/
def sealJobEnd (c st : Nat) (s : State) : State :=
  let s1 := encJobEnd c st s
  modRun c st (fun r => { r with current := r.current.map fun a => if a.sealed_ then a else sealAu s1 r a }) s1

/-- SEAL_JOB_END, R447, R448. -/
def execSealJobEnd (ch st : Nat) (s : State) : Host.Outcome State Fault Refusal :=
  if 32 ≤ ch ∨ 2 ≤ st then .refused (.noSuchUnit "stream" (2 * ch + st)) else .next (sealJobEnd ch st s)

/-- R96, R291, R282. An access unit becomes eligible: the counters of its stream, ENC_DONE, LTR_RECOVERED. -/
def releaseCounts (c st : Nat) (a : AccessUnit) (s : State) : State :=
  let s1 := modRun c st (fun r => { r with
    job := none, current := none, cut := none, itpCut := none
    auCount := (r.auCount + 1) % 4294967296, lastFrame := a.counter % 4294967296, lastBytes := a.bytes
    skipPics := satAdd 0xFFFF r.skipPics (b2n a.skip), ovr := satAdd 0xFFFF r.ovr (b2n a.encOvr) }) s
  let s2 := raiseEncDone c s1
  if a.recovered then raiseEnc c 5 s2 else s2

end Sys2Proof.Machine
end

