-- ==== Sys2Proof/Machine/Idle.lean ====
section
/-!
DEFINITION. What passes while no command waits: the clock of device time.
-/
namespace Sys2Proof.Machine

/-- R38. The disciplined increment of one 250 MHz period, in units of 2^-32 ns: 4 ns nominal, scaled by the frequency
correction in 10^-12. -/
def increment (corr : Int) : Nat := (4 * 4294967296 + corr * (4 * 4294967296) / 1000000000000).toNat

/-- R38. The timebase runs: the block is out of reset and REFCLK_IN runs (R566). -/
def State.clockRuns (s : State) : Bool := s.time.refclk && !s.boot.inReset

/-- R38. One period of the 250 MHz clock. -/
def clock (t : TimeBase) : TimeBase :=
  let v := t.frac + increment t.corr
  { t with dev := t.dev + v / 4294967296, frac := v % 4294967296, elapsed := t.elapsed + 4 }

/-- The idle block: one clock period passes. Device time has no behaviour beyond 2^64 - 1 (02, Corners). -/
def idle (s : State) : Host.Outcome State Fault Refusal :=
  if s.clockRuns then
    (if (clock s.time).dev < 18446744073709551616 then .next { s with time := clock s.time } else .fault .endOfTime)
  else .next s

end Sys2Proof.Machine
end

