-- ==== Sys2Proof/Machine/Packets.lean ====
section
/-!
DEFINITION. The Ethernet route: header templates, the packetizing of access units, and the fields a device fills in each packet
(R369 to R373).
-/
namespace Sys2Proof.Machine

/-! ### Templates (R370) -/

def tmplFlags (t : List Byte) : Nat := field t 1 1
def tmplVlan (t : List Byte) : Nat := b2n (bitOf (tmplFlags t) 0)
def tmplV6 (t : List Byte) : Bool := bitOf (tmplFlags t) 1
def tmplCsum (t : List Byte) : Bool := bitOf (tmplFlags t) 2
def tmplMtu (t : List Byte) : Nat := field t 2 2
def tmplHlen (t : List Byte) : Nat := field t 4 1
def tmplHdr (t : List Byte) : List Byte := slice t 16 (tmplHlen t)

/-- Bytes of the IP header, and where it starts in the packet. -/
def tmplIp (t : List Byte) : Nat := if tmplV6 t then 40 else 20
def ipAt (t : List Byte) : Nat := 14 + 4 * tmplVlan t
def rtpAt (t : List Byte) : Nat := ipAt t + tmplIp t + 8

/-- R370. The template is good. -/
def tmplGood (t : List Byte) : Bool :=
  let h := tmplHdr t
  let e := ipAt t
  field t 0 1 == 1 && tmplFlags t < 8 && 1280 ≤ tmplMtu t && tmplMtu t ≤ 9000 && tmplHlen t == rtpAt t + 12
    && isZeros (slice t 5 11) && isZeros (slice t (16 + tmplHlen t) (112 - tmplHlen t))
    && (tmplVlan t == 0 || unbe (slice h 12 2) == 0x8100)
    && unbe (slice h (e - 2) 2) == (if tmplV6 t then 0x86DD else 0x0800)
    && (if tmplV6 t then field h (e + 6) 1 == 17 else field h e 1 % 16 == 5 && field h (e + 9) 1 == 17)
    && field h (rtpAt t) 1 == 0x80 && 96 ≤ field h (rtpAt t + 1) 1 % 128

/-- R372. Payload bytes of a packet. -/
def tmplQ (t : List Byte) : Nat := tmplMtu t - tmplIp t - 36

/-- R371. The template's IPv4 identification, RTP sequence number and timestamp. -/
def tmplIpId (t : List Byte) : Nat := if tmplV6 t then 0 else unbe (slice (tmplHdr t) (ipAt t + 4) 2)
def tmplSeq (t : List Byte) : Nat := unbe (slice (tmplHdr t) (rtpAt t + 2) 2)
def tmplTs0 (t : List Byte) : Nat := unbe (slice (tmplHdr t) (rtpAt t + 4) 4)

/-! ### Packetizing (R372; payload structures of RFC 7798 and RFC 6184) -/

/-- Aggregation of NAL units: its payload header, then each with its size. -/
def aggregate (h265 : Bool) (ns : List Nal) : List Byte :=
  let b0 (n : Nal) : Nat := field n.bytes 0 1
  let b1 (n : Nal) : Nat := field n.bytes 1 1
  let least (g : Nal → Nat) : Nat := ns.foldl (fun a n => min a (g n)) 255
  let head : List Byte :=
    if h265 then
      (let layer := least fun n => b0 n % 2 * 32 + b1 n / 8
       [BitVec.ofNat 8 (48 * 2 + layer / 32), BitVec.ofNat 8 (layer % 32 * 8 + least fun n => b1 n % 8)])
    else [BitVec.ofNat 8 (24 + 32 * ns.foldl (fun a n => max a (b0 n / 32 % 4)) 0)]
  head ++ ns.flatMap fun n => be 2 n.bytes.length ++ n.bytes

/-- A packet that carries whole NAL units. -/
def wholePacket (bytes : List Byte) (ns : List Nal) : Packet := ⟨bytes, nalBytes ns, 0, false⟩
where nalBytes (l : List Nal) : Nat := sumOf l fun n => 4 + n.bytes.length + n.pad

/-- Fragmentation units of a NAL unit's body, `most` bytes each; `first` is the one that starts it. -/
def fragments (h265 : Bool) (head : List Byte) (most : Nat) : Nat → Bool → List Byte → List Packet
  | 0, _, _ => []
  | k + 1, first, body =>
    let take := body.take most
    let rest := body.drop most
    let b0 := field head 0 1
    let fu (t : Nat) : Byte := BitVec.ofNat 8 (128 * b2n first + 64 * b2n rest.isEmpty + t)
    let hdr : List Byte :=
      if h265 then [BitVec.ofNat 8 (b0 / 128 * 128 + 49 * 2 + b0 % 2), BitVec.ofNat 8 (field head 1 1), fu (b0 / 2 % 64)]
      else [BitVec.ofNat 8 (b0 / 32 * 32 + 28), fu (b0 % 32)]
    ⟨hdr ++ take, take.length + (if first then 4 + head.length else 0), 0, false⟩
      :: (if rest.isEmpty then [] else fragments h265 head most k false rest)

/-- One NAL unit on its own, or in fragments. -/
def oneNal (h265 : Bool) (q : Nat) (n : Nal) : List Packet :=
  if n.bytes.length ≤ q then [wholePacket n.bytes [n]]
  else
    let h := if h265 then 2 else 1
    fragments h265 (n.bytes.take h) (q - h - 1) n.bytes.length true (n.bytes.drop h)

/-- The NAL units other than slices that fit one aggregation packet, `used` bytes taken. -/
def greedy (q : Nat) : Nat → List Nal → List Nal × List Nal
  | _, [] => ([], [])
  | used, n :: ns =>
    if n.kind != .slice && used + 2 + n.bytes.length ≤ q then
      (let r := greedy q (used + 2 + n.bytes.length) ns
       (n :: r.1, r.2))
    else ([], n :: ns)

/-- R372. The packets of an access unit's NAL units, with fuel for each NAL unit. -/
def packNals (h265 : Bool) (q : Nat) : Nat → List Nal → List Packet
  | 0, _ => []
  | _, [] => []
  | k + 1, n :: ns =>
    let g := greedy q (if h265 then 2 else 1) (n :: ns)
    if 2 ≤ g.1.length then wholePacket (aggregate h265 g.1) g.1 :: packNals h265 q k g.2
    else oneNal h265 q n ++ packNals h265 q k ns

/-- The last packet of an item is marked. -/
def markLast : List Packet → List Packet
  | [] => []
  | [p] => [{ p with last := true }]
  | p :: ps => p :: markLast ps

/-- R372. The packets of an access unit. -/
def packetize (h265 : Bool) (q : Nat) (ns : List Nal) : List Packet := markLast (packNals h265 q ns.length ns)

/-! ### The packet as sent (R371, R373) -/

/-- Bytes put into a list at an offset. -/
def put (off : Nat) (bs l : List Byte) : List Byte := l.take off ++ bs ++ l.drop (off + bs.length)

/-- Sum of the 16-bit big-endian words of a byte string. -/
def words : List Byte → Nat
  | [] => 0
  | [a] => 256 * a.toNat
  | a :: b :: rest => 256 * a.toNat + b.toNat + words rest

/-- The internet checksum. -/
def checksum (bs : List Byte) : Nat :=
  let n := words bs
  let m := n % 65536 + n / 65536
  65535 - (m % 65536 + m / 65536) % 65536

/-- R371. The RTP header of a packet. -/
def rtpHeader (t : List Byte) (marker : Bool) (seq ts : Nat) : List Byte :=
  let h := slice (tmplHdr t) (rtpAt t) 12
  put 1 [BitVec.ofNat 8 (field h 1 1 % 128 + 128 * b2n marker)] (put 2 (be 2 seq) (put 4 (be 4 ts) h))

/-- R371. The frame from its Ethernet header on, around an RTP packet. -/
def ipPacket (t : List Byte) (ipId : Nat) (rtp : List Byte) : List Byte :=
  let e := ipAt t
  let h := tmplIp t
  let udpLen := 8 + rtp.length
  let eth := slice (tmplHdr t) 0 e
  let ip0 := slice (tmplHdr t) e h
  let ip1 := if tmplV6 t then put 4 (be 2 udpLen) ip0 else put 2 (be 2 (h + udpLen)) (put 4 (be 2 ipId) (put 10 (zeros 2) ip0))
  let ip := if tmplV6 t then ip1 else put 10 (be 2 (checksum ip1)) ip1
  let udp0 := put 4 (be 2 udpLen ++ zeros 2) (slice (tmplHdr t) (e + h) 8)
  let pseudo := if tmplV6 t then slice ip 8 32 ++ be 4 udpLen ++ zeros 3 ++ [17#8] else slice ip 12 8 ++ [0#8, 17#8] ++ be 2 udpLen
  let sum := checksum (pseudo ++ udp0 ++ rtp)
  let udp := if tmplV6 t || tmplCsum t then put 6 (be 2 (if sum = 0 then 65535 else sum)) udp0 else udp0
  eth ++ ip ++ udp ++ rtp

/-- R371. RTP timestamp. -/
def rtpTime (ts0 capture : Nat) : Nat := (ts0 + capture * 9 / 100000) % 4294967296

/-- R377. Wire size of a MAC packet with `n` bytes of RTP payload: the frame with its FCS, at least 64 bytes, plus 20. -/
def macWire (t : List Byte) (n : Nat) : Nat := max 64 (tmplHlen t + n + 4) + 20

/-- R376. Wire size of a ring segment. -/
def hostWire (mps b : Nat) : Nat := b + 24 * cdiv b (max 1 mps)

end Sys2Proof.Machine
end

