-- ==== Sys2Proof/Machine/Egress.lean ====
section
/-!
DEFINITION. Egress: what flows queue, the scheduler of the three ports, host rings, transmit ports, credits and samples, and
their events (R353 to R355, R359 to R361, R364 to R390, R418).
-/
namespace Sys2Proof.Machine

/-! ### Reservation (R377, R382 to R386) -/

/-- R377. Port capacity in b/s. -/
def portCap (s : State) (p : Nat) : Nat :=
  if p < 2 then 10000000000
  else s.lanes * (if 160 ≤ s.gts10 then 14000000000 else if 80 ≤ s.gts10 then 7000000000 else if 50 ≤ s.gts10 then 4000000000 else 2000000000)

def tmplOf (s : State) (m : Nat) : List Byte := (s.fcfg m).template.getD (zeros 128)

/-- R377. l_max of a flow. -/
def lMax (s : State) (m : Nat) : Nat :=
  let c := s.fcfg m
  if c.route < 2 then tmplMtu (tmplOf s m) + 38 + 4 * tmplVlan (tmplOf s m) else if c.route = 2 then hostWire s.mps 2048 else 0

/-- R359, R347. The decode stream whose output a flow carries. -/
def decOf (s : State) (m : Nat) : Option Nat :=
  if (s.fcfg m).src == .decoded then (idx 32 fun h => (s.decS h).outMode == 1 && (s.decS h).outFlow == m).head? else none

/-- R328. The HRD rate in force of the coded stream a flow carries, held up by access units at an earlier rate. -/
def hrdRate (s : State) (m : Nat) : Nat :=
  match (s.fcfg m).src with
  | .coded c st =>
    let x := tget (s.chan c).cfg.streams st
    let r := tget (s.chan c).runs st
    let base := match x.hrd with | some h => if h.vbr then h.bitRate else x.target | none => 0
    let old := if r.nextRate.isSome then r.ledgerRate else 0
    ((s.flow m).items ++ (s.flow m).going).foldl (fun a i => max a i.rate) (max base old)
  | _ => 0

/-- R383. Item interval of a flow's source in ns. -/
def itemInterval (s : State) (m : Nat) : Nat :=
  let chan (c : Nat) : Nat := ((s.chan c).cfg.rate.map Rate.div).getD 1
  periodOf s * (match (s.fcfg m).src with
    | .coded c _ => chan c | .window c _ => chan c | .raw c => chan c
    | .decoded => ((decOf s m).map fun h => max 1 (s.decS h).div).getD 1
    | .none => 1)

/-- R383. W of a flow. -/
def flowW (s : State) (m : Nat) : Nat :=
  let c := s.fcfg m
  let r := max (c.reserve * 1000) (hrdRate s m)
  let t := tmplOf s m
  let slices := match c.src with | .coded ch st => (tget (s.chan ch).cfg.streams st).slices | _ => 1
  let h := tmplIp t
  let qoe : Nat × Nat × Nat :=
    if c.route < 2 then (let o := 38 + 4 * tmplVlan t + h + 39
                         (tmplMtu t - h - 36, o, o * (slices + 3) + 32))
    else (let o := 24 * cdiv 2048 (max 1 s.mps)
          (2048, o, o + 56))
  if r = 0 ∨ 3 ≤ c.route then 0
  else cdiv (r * (qoe.1 + qoe.2.1)) (max 1 qoe.1) + cdiv (8 * qoe.2.2 * 1000000000) (itemInterval s m)

/-- The flows that hold an allotment on a scheduled port. -/
def holders (s : State) (p : Nat) : List Nat := idx 256 fun m => (s.fcfg m).route == p && ((s.flow m).active || (s.flow m).stopping)

/-- R385. The scheduling delay bound L of a port, in ns. -/
def delayBound (s : State) (p : Nat) : Nat :=
  let on := idx 256 fun m => (s.fcfg m).route == p && (s.flow m).active
  let top := on.foldl (fun a m => max a (lMax s m)) 0
  cdiv (8 * (2 * top + sumOf (on.filter fun m => 0 < flowW s m) (lMax s)) * 1000000000) (max 1 (portCap s p)) + 2000

/-- R366, R159. A flow counts as active from the admission of its FLOW_START. -/
def flowOn (s : State) (m : Nat) : Bool := (s.flow m).active || pendingOn s (· == .flowStart) m

/-- R360 to R374. What QUIESCE_REQUIRED guards: the flow is active, or stopped with bytes still under way (choice 56). -/
def flowBusy (s : State) (m : Nat) : Bool := flowOn s m || (s.flow m).stopping

/-! ### Exceptions and items (R368, R387, R418) -/

/-- R387. An exception of a flow: its bit in EXC and one count on its source. -/
def exception (m bit : Nat) (s : State) : State :=
  raiseFlow m (modFlow m (fun x => { x with exc := x.exc ||| BitVec.ofNat 16 (2 ^ bit) }) s)

/-- Serial comparison of 64-bit tags (R379): the later of two. -/
def serialMax (a b : Nat) : Nat := if (a - b : Int) % 18446744073709551616 < 9223372036854775808 then a else b

/-- R379. The flow becomes backlogged now: its next packet starts at max(V, F). -/
def backlog (m : Nat) (s : State) : State :=
  let p := (s.fcfg m).route
  if p < 3 then modFlow m (fun x => { x with tag := serialMax (tget s.ports p).vtime x.tag }) s else s

/-- R366, R368, R373. An item becomes eligible on a flow. -/
def offer (m : Nat) (it : Item) (s : State) : State :=
  let x := s.flow m
  if (s.fcfg m).crypt != 0 && x.orphaned && (s.fcfg m).route < 2 then exception m 5 s
  else if 128 ≤ x.items.length then exception m 2 s
  else
    let s1 := when x.items.isEmpty (backlog m) s
    modFlow m (fun y => { y with items := y.items ++ [it] }) s1

/-- The flows that queue the items of a source, and those that are configured to. -/
def takers (s : State) (src : FlowSrc) : List Nat := idx 256 fun m => (s.fcfg m).src == src && (s.flow m).active
def consumers (s : State) (src : FlowSrc) : List Nat := idx 256 fun m => (s.fcfg m).src == src

/-- R418. Counters of a source's items that hold a buffer, in any of its flows; and those no flow has begun. -/
def heldItems (s : State) (ms : List Nat) : List Nat :=
  (ms.flatMap fun m => ((s.flow m).items ++ (s.flow m).going).map Item.counter).eraseDups
def takeable (s : State) (ms : List Nat) : List Nat :=
  (heldItems s ms).filter fun k => ms.all fun m => ((s.flow m).items.all fun i => i.counter != k || !i.begun) && (s.flow m).going.all fun i => i.counter != k

/-- R418. With no buffer free, the oldest item that no flow has begun is discarded on every flow. -/
def freeBuffer (ms : List Nat) (s : State) : State :=
  if (heldItems s ms).length < 2 + 2 * ms.length then s
  else match takeable s ms with
    | [] => s
    | k :: ks =>
      let old := ks.foldl min k
      forEach (ms.filter fun m => (s.flow m).items.any fun i => i.counter == old)
        (fun m t => exception m 2 (modFlow m (fun x => { x with items := x.items.filter fun i => i.counter != old, pollAt := none }) t)) s

/-- R359, R418. Offer an item of a source to its active flows. -/
def offerAll (src : FlowSrc) (it : Nat → Item) (s : State) : State :=
  let on := takers s src
  let s1 := freeBuffer (consumers s src) s
  forEach on (fun m => offer m (it m)) s1

/-- An item as queued now. -/
def newItem (s : State) (counter capture bytes : Nat) (data : List Byte) : Item :=
  { (default : Item) with counter := counter, capture := capture, eligible := s.time.boundary s.lastBoundary, left := bytes, data := data }

/-- R29, R366, R372. An access unit becomes eligible on its flows. -/
def offerAu (a : AccessUnit) (rate : Nat) (s : State) : State :=
  let src := FlowSrc.coded a.channel a.stream
  let s1 := when a.paramSets (fun t => forEach (takers t src) (fun m => modFlow m fun x => { x with passOver := false }) t) s
  let on := (takers s1 src).filter fun m => !(s1.flow m).passOver
  let s2 := freeBuffer (consumers s1 src) s1
  let data := auBytes a
  forEach on (fun m t =>
    let it := { newItem t a.counter a.capture data.length data with rate := rate }
    offer m (if (t.fcfg m).route < 2 then { it with parts := some (packetize a.h265 (tmplQ (tmplOf t m)) a.nals), data := [] } else it) t) s2

/-- R28. A display or vision window becomes eligible on its flows. -/
def offerWindow (c i : Nat) (f : Frame) (g : Formed) (s : State) : State :=
  let data := g.header ++ g.payload
  offerAll (.window c i) (fun _ => newItem s f.counter f.capture data.length data) s

/-! ### CSI-2 transmit (R352 to R355, R364, R365) -/

/-- A byte string in lines of at most 4,096 bytes. -/
def embLines : Nat → List Byte → List (List Byte)
  | 0, _ => []
  | _, [] => []
  | k + 1, bs => bs.take 4096 :: embLines k (bs.drop 4096)

/-- R352. Bytes of picture line `r` of a decoded picture on a transmit port. -/
def txLineBytes (dt w r : Nat) : Nat :=
  if dt = 0x1E then 2 * w else if dt = 0x19 then (if r % 2 = 0 then w else 2 * w) * 5 / 4 else if r % 2 = 0 then w else 2 * w

/-- R353. The picture lines of an output picture: 4:2:0 lines carry luma alone and luma with chroma in turn. -/
def txLines (d : DecStream) (payload : List Byte) : List (List Byte) :=
  let e := { d with bit10 := d.outDt == 0x19 }
  (List.range d.height).map fun (r : Nat) =>
    if d.outDt = 0x1E then
      fit (2 * d.width) (Config.pack 0x1E ((slice payload (2 * d.width * r) (2 * d.width)).map BitVec.toNat))
    else
      let y (c : Nat) : Nat := lumaAt e payload (r : Int) (c : Int)
      let samples := if r % 2 = 0 then (List.range d.width).map y
        else (List.range (d.width / 2)).flatMap fun (c : Nat) =>
          [chromaAt e payload 0 ((r / 2 : Nat) : Int) (c : Int), y (2 * c), chromaAt e payload 1 ((r / 2 : Nat) : Int) (c : Int), y (2 * c + 1)]
      fit (txLineBytes d.outDt d.width r) (Config.pack d.outDt samples)

/-- R353. Device time at which a CSI-2 frame eligible now is due. -/
def txDue (s : State) (phase : Nat) : Nat := s.time.boundary s.lastBoundary + phase * s.time.period / 64

/-- R343, R350, R353. The output picture of a decode stream becomes eligible. -/
def offerDecoded (h : Nat) (s : State) : State :=
  let d := s.decS h
  match d.ready with
  | none => s
  | some o =>
    let m := d.outFlow
    let s1 := modDec h (fun x => { x with ready := none }) s
    if d.outMode = 1 && (s1.fcfg m).src == .decoded && (s1.flow m).active then
      (let s1 := freeBuffer [m] s1
       let data := o.header ++ o.payload ++ o.map
       let it := newItem s1 o.counter o.capture data.length data
       if (s1.fcfg m).route = 3 then
         offer m { it with data := [], emb := embLines (data.length) (o.header ++ o.map), lines := txLines d o.payload, dueAt := txDue s1 d.phase } s1
       else offer m it s1)
    else s1

/-- R364. The header of a raw frame. -/
def rawHeader (c : Nat) (f : Frame) (b : Bind) (payload : Nat) : List Byte :=
  le 1 c ++ le 1 0xFE ++ le 1 b.dt ++ le 1 0 ++ le 2 b.width ++ le 2 b.height ++ le 8 f.counter ++ le 8 f.capture ++ le 2 (frameFlags f)
    ++ le 2 (if f.outcome == .truncated then f.truncLine else 0xFFFF) ++ le 4 payload ++ le 4 f.calGen ++ zeros 12 ++ zeros 16

/-- R364. The picture lines of a raw frame: as stored, zero samples from the first truncated line on, none of a dropped record. -/
def rawLines (f : Frame) (b : Bind) : List (List Byte) :=
  if f.outcome == .dropped then []
  else (List.range b.height).map fun r =>
    if f.truncLine ≤ r then zeros (lineBytes b.dt b.width) else fit (lineBytes b.dt b.width) ((f.lines[r]?).getD [])

/-- R364. A raw frame becomes eligible at its ingress deadline. -/
def offerRaw (c : Nat) (f : Frame) (s : State) : State :=
  match f.cfg.bind with
  | none => s
  | some b =>
    let lines := rawLines f b
    let n := sumOf lines List.length
    let emb := rawHeader c f b n :: (if f.outcome == .dropped then [] else embLines 3 f.emb)
    forEach (takers s (.raw c)) (fun m t =>
      offer m { newItem t f.counter f.capture (64 + f.emb.length + n) [] with emb := emb, lines := lines, dueAt := txDue t (t.fcfg m).phase } t) s

/-- R354. Transmit time of one frame in ns, multiplied by 4 x RATE. -/
def txTime4 (rate bytes packets : Nat) : Nat :=
  8000 * (bytes + 6 * packets + 8) + 4 * rate * (200 * (packets + 2) + (if 2500 < rate then 10000 else 0))

/-- Long packets and payload bytes of a CSI-2 frame. -/
def Item.longs (i : Item) : List (List Byte) := i.emb ++ i.lines

/-- R354. What a flow sends on a transmit port: divisor, phase of the tick its frames are due in, bytes and long packets. -/
def txLoad (s : State) (m : Nat) : Option (Nat × Nat × Nat × Nat) :=
  match (s.fcfg m).src with
  | .raw c =>
    let x := (s.chan c).cfg
    match x.bind, x.rate with
    | some b, some r => some (r.div, (r.slot + (if r.phase = 0 then 0 else 1)) % max 1 r.div,
        64 + (if b.emb then 8192 else 0) + b.height * lineBytes b.dt b.width, 1 + (if b.emb then 2 else 0) + b.height)
    | _, _ => none
  | .decoded => (decOf s m).map fun h =>
      let d := s.decS h
      let e := 64 + cdiv (unitCount d) 4
      (max 1 d.div, (d.slot + 1) % max 1 d.div, e + sumOf (List.range d.height) (txLineBytes d.outDt d.width), cdiv e 4096 + d.height)
  | _ => none

/-- The flows routed to a transmit port. -/
def onTx (s : State) (p : Nat) : List Nat := idx 256 fun m => (s.fcfg m).route == 3 && (s.fcfg m).port == p

/-- R354. The frames due within any one tick on port `p` need at most 0.92 of it. -/
def txFits (s : State) (p : Nat) : Bool :=
  let loads := (onTx s p).filterMap (txLoad s)
  let l := loads.foldl (fun a x => Nat.lcm a (max 1 x.1)) 1
  let rate := (tget s.tx p).rate
  (List.range l).all fun t => sumOf (loads.filter fun x => t % max 1 x.1 == x.2.1) (fun x => txTime4 rate x.2.2.1 x.2.2.2) * 100 ≤ 92 * periodOf s * (4 * rate)

/-- R365. The virtual channel a flow holds on its transmit port. -/
def vcOf (s : State) (m : Nat) : Option Nat :=
  match (s.fcfg m).src with
  | .raw _ => some (s.fcfg m).vc
  | .decoded => (decOf s m).map fun h => (s.decS h).outVc
  | _ => none

/-- R365. The virtual channels on a port are distinct and at most 4, as flow `m` now has it. -/
def vcFits (s : State) (m : Nat) : Bool :=
  let p := (s.fcfg m).port
  match vcOf s m with
  | none => true
  | some v =>
    let others := ((onTx s p).filter (· != m)).filterMap (vcOf s)
    !others.contains v && others.eraseDups.length + 1 ≤ 4

/-- R355. Another flow on the port is active at a different rate. -/
def txRateBusy (s : State) (p m rate : Nat) : Bool := (tget s.tx p).rate != rate && (onTx s p).any fun g => g != m && flowOn s g

/-! ### Stopping (R361, R367) -/

/-- The scheduled port of a flow has a packet of it. -/
def underWay (s : State) (m : Nat) : Bool :=
  let p := tget s.ports (s.fcfg m).route
  ((s.fcfg m).route < 3 && (p.staged.any (fun g => g.flow == m) || p.sending.any fun g => g.flow == m))
    || ((s.fcfg m).route == 3 && (tget s.tx (s.fcfg m).port).busy == some m)

/-- R367, R386. Once nothing of a stopped flow is under way, its allotment returns to FREE. -/
def settleFlow (m : Nat) (s : State) : State :=
  let x := s.flow m
  if x.stopping && x.items.isEmpty && x.going.isEmpty && !underWay s m then
    modPort (s.fcfg m).route (fun p => { p with free := p.free + x.credit })
      (modFlow m (fun y => { y with stopping := false, credit := 0, allot := 0 }) s)
  else s

/-- R367. A flow is deactivated: items with no byte dequeued are discarded, and the rest of an item goes on on a MAC alone. -/
def stopFlow (m : Nat) (s : State) : State :=
  let x := s.flow m
  if !x.active then s
  else
    let mac := (s.fcfg m).route < 2
    let s1 := modFlow m (fun y => { y with active := false, stopping := true, items := if mac then y.items.filter Item.begun else [], pollAt := none }) s
    let s2 := if (s.fcfg m).route = 3 then
        (let p := (s.fcfg m).port
         modTx p (fun t => { t with queue := t.queue.filter (· != m) }) s1) else s1
    settleFlow m s2

/-- R387, R361. The item of a ring flow is abandoned: its remaining segments are discarded with their credits returned. -/
def abandon (m counter : Nat) (s : State) : State :=
  let own (g : Staged) : Bool := g.flow == m && g.counter == counter
  let back := match (tget s.ports 2).staged with | some g => if own g then g.wire else 0 | none => 0
  modPort 2 (fun p => { p with staged := p.staged.filter fun g => !own g })
    (modFlow m (fun x => { x with
      credit := x.credit + back, items := x.items.filter fun i => i.counter != counter, going := x.going.filter fun i => i.counter != counter }) s)

/-- R361. A port without the packets of a flow; another flow's staged packet is sent in their place. -/
def dropFlow (m : Nat) (q : Port) : Port :=
  let staged := q.staged.filter fun g => g.flow != m
  let sending := q.sending.filter fun g => g.flow != m
  if sending.isNone then { q with sending := staged, staged := none } else { q with staged := staged }

/-- R361. The flows of an absent function stop at once on HOST, with no further DMA. -/
def stopHost (f : Nat) (s : State) : State :=
  forEach (idx 256 fun m => (s.fcfg m).func == some f && (s.fcfg m).route == 2 && ((s.flow m).active || (s.flow m).stopping)) (fun m t =>
    let mine (o : Option Staged) : Nat := match o with | some g => if g.flow = m then g.wire else 0 | none => 0
    let p := tget t.ports 2
    let t1 := modPort 2 (dropFlow m) t
    settleFlow m (modFlow m (fun x => { x with
      active := false, stopping := true, items := [], going := [], pollAt := none, credit := x.credit + mine p.staged + mine p.sending }) t1)) s

/-! ### The scheduler (R376 to R380, R386) -/

/-- R380. The time a packet of `l` wire bytes takes at a flow's limit, in ns. -/
def limitTime (limit l : Nat) : Nat := cdiv (8 * l * 1000000) (max 1 limit)

/-- R375, R376. The segments of a ring item posted with `blen` bytes, fuel a segment, and the write-back after them. -/
def segments : Nat → Nat → List Byte → List Packet
  | 0, off, _ => [⟨[], 0, off, true⟩]
  | k + 1, off, bs =>
    if bs.isEmpty then [⟨[], 0, off, true⟩]
    else ⟨bs.take 2048, (bs.take 2048).length, off, false⟩ :: segments k (off + (bs.take 2048).length) (bs.drop 2048)

/-- Wire size of a flow's next packet. -/
def nextWire (s : State) (m : Nat) (p : Packet) : Nat :=
  if (s.fcfg m).route = 2 then hostWire s.mps (if p.last then 32 else p.bytes.length)
  else macWire (tmplOf s m) (p.bytes.length + (if (s.fcfg m).crypt = 0 then 0 else 16))

/-- R380. Calendar-eligible: from the first whole microsecond at or after e. -/
def calendarOpen (s : State) (m : Nat) : Bool := (s.fcfg m).limit == 0 || cdiv (s.flow m).eligibleAt 1000 * 1000 ≤ s.time.dev

/-- R378. The next packet of a candidate flow of port `p`, with its wire size. -/
def candidate (s : State) (p m : Nat) : Option (Item × Packet × Nat) :=
  let x := s.flow m
  if (s.fcfg m).route = p ∧ (x.active ∨ x.stopping) ∧ 0 < (s.fcfg m).weight then
    match x.items with
    | [] => none
    | it :: _ =>
      match it.parts with
      | some (pk :: _) =>
        let l := nextWire s m pk
        if calendarOpen s m && l ≤ x.credit then some (it, pk, l) else none
      | _ => none
  else none

/-- R379. Cost of a packet in virtual time. -/
def wfqCost (s : State) (m l : Nat) : Nat := cdiv (l * 65536) (max 1 (s.fcfg m).weight)

/-- R379. The finish tag of a flow's next packet. -/
def finishTag (s : State) (m l : Nat) : Nat := ((s.flow m).tag + wfqCost s m l) % 18446744073709551616

/-- R378. The flow selected: the least g among reserved flows whose time has come, else the least finish tag. -/
def selectFlow (s : State) (p : Nat) : Option Nat :=
  let cs := idx 256 fun m => (candidate s p m).isSome
  let reserved := cs.filter fun m => 0 < flowW s m && (s.flow m).guaranteed ≤ s.time.dev
  let tagOf (m : Nat) : Nat := match candidate s p m with | some c => finishTag s m c.2.2 | none => 0
  let least (l : List Nat) (lt : Nat → Nat → Bool) : Option Nat :=
    l.foldl (fun b m => match b with | none => some m | some n => if lt m n then some m else some n) none
  match least reserved (fun a b => (s.flow a).guaranteed < (s.flow b).guaranteed) with
  | some m => some m
  | none => least cs fun a b => tagOf a != tagOf b && serialMax (tagOf a) (tagOf b) == tagOf b

/-- R375. The write-back of a slot: bytes 16 to 31. -/
def writeBack (it : Item) : List Byte :=
  le 4 (min it.data.length it.blen) ++ le 2 (b2n (it.blen < it.data.length) + 2 * b2n it.waited) ++ zeros 2 ++ le 8 it.counter

/-- R371, R373. The frame sent for a packet of an access unit. -/
def macFrame (s : State) (m : Nat) (it : Item) (pk : Packet) : List Byte :=
  let t := tmplOf s m
  let x := s.flow m
  let hdr := rtpHeader t pk.last x.rtpSeq (rtpTime (it.ts0.getD (tmplTs0 t)) it.capture)
  let body := if (s.fcfg m).crypt = 0 then pk.bytes
    else fit (pk.bytes.length + 16) (Config.srtp (s.fcfg m).crypt x.key (x.roc * 65536 + x.rtpSeq) hdr pk.bytes)
  ipPacket t x.ipId (hdr ++ body)

/-- R378 to R380, R386. Dequeue the next packet of flow `m` on port `p`. -/
def dequeue (p m : Nat) (it : Item) (pk : Packet) (l : Nat) (s : State) : State × Staged :=
  let x := s.flow m
  let c := s.fcfg m
  let now := s.time.dev
  let mac := p < 2
  let rest := (it.parts.getD []).drop 1
  let it1 := { it with parts := some rest, left := it.left - pk.item, begun := true, ts0 := some (it.ts0.getD (tmplTs0 (tmplOf s m))) }
  let g : Staged :=
    if mac then { flow := m, counter := it.counter, wire := l, part := pk, bytes := macFrame s m it pk, addr := 0 }
    else if pk.last then { flow := m, counter := it.counter, wire := l, part := pk, bytes := writeBack it, addr := ((c.ring.map Prod.fst).getD 0) + 32 * x.slot }
    else { flow := m, counter := it.counter, wire := l, part := pk, bytes := pk.bytes, addr := it.addr + pk.off }
  let w := flowW s m
  let e := if c.limit = 0 then x.eligibleAt
    else max x.eligibleAt (now - limitTime c.limit (lMax s m)) + limitTime c.limit l
  let wheel := if c.limit = 0 ∨ e ≤ now then 0 else if e - now < 4096000 then 1 else 2
  let s1 := modFlow m (fun y => { y with
    items := if rest.isEmpty then y.items.drop 1 else it1 :: y.items.drop 1
    going := if rest.isEmpty then y.going ++ [it1] else y.going
    credit := y.credit - l, tag := finishTag s m l, eligibleAt := e, wheel := wheel
    guaranteed := if w = 0 then y.guaranteed else max y.guaranteed now + cdiv (8 * l * 1000000000) w
    rtpSeq := if mac then (y.rtpSeq + 1) % 65536 else y.rtpSeq
    roc := if mac && y.rtpSeq == 65535 then y.roc + 1 else y.roc
    ipId := if mac then (y.ipId + 1) % 65536 else y.ipId }) s
  (modPort p (fun q => { q with vtime := serialMax q.vtime x.tag }) s1, g)

/-- R377. When a packet that starts at elapsed time `t` has been sent on a MAC. -/
def macEnd (l t : Nat) : Nat := t + cdiv (8 * l) 10

/-- R378, R386. A port without a staged packet selects the next: it is sent at once when the port is free. -/
def packetDequeue (p : Nat) (s : State) : State :=
  if (tget s.ports p).staged.isSome then s
  else match selectFlow s p with
    | none => s
    | some m =>
      match candidate s p m with
      | none => s
      | some (it, pk, l) =>
        let r := dequeue p m it pk l s
        modPort p (fun q =>
          if q.sending.isNone then { q with sending := some r.2, doneAt := macEnd l s.time.elapsed } else { q with staged := some r.2 }) r.1

/-- PACKET_DEQUEUE, R378. -/
def execPacketDequeue (port : Nat) (s : State) : Host.Outcome State Fault Refusal :=
  if 3 ≤ port then .refused (.noSuchUnit "scheduled port" port) else .next (packetDequeue port s)

/-- Counters of a completed packet (R97). -/
def countPacket (m n : Nat) (pkt au : Bool) (s : State) : State :=
  modFlow m (fun x => { x with
    bytes := (x.bytes + n) % 18446744073709551616, pkts := (x.pkts + b2n pkt) % 18446744073709551616
    aus := (x.aus + b2n au) % 18446744073709551616 }) s

/-- An item has left its flow. -/
def itemGone (m counter : Nat) (s : State) : State :=
  modFlow m (fun x => { x with going := x.going.filter fun i => i.counter != counter }) s

/-- R387, R388. A MAC packet's transmission ends. -/
def macDone (p : Nat) (g : Staged) (s : State) : State :=
  let m := g.flow
  if (tget s.ports p).up then
    (let whole := g.part.last && (s.flow m).lost != some g.counter
     let s1 := countPacket m g.part.item true whole (emit (.packet p m g.bytes) s)
     if g.part.last then itemGone m g.counter (when whole (raiseFlow m) s1) else s1)
  else
    let s1 := if (s.flow m).lost = some g.counter then s
      else exception m 3 (modFlow m (fun x => { x with lost := some g.counter }) s)
    if g.part.last then itemGone m g.counter s1 else s1

/-- R375, R387. A ring segment completes: it is written, and the write-back with CTRL after it ends the item. -/
def hostDone (g : Staged) (ok : Bool) (s : State) : State :=
  let m := g.flow
  match (s.fcfg m).func with
  | none => s
  | some f =>
    if !ok then exception m 4 (abandon m g.counter s)
    else if g.part.last then
      (let short := bitOf (field g.bytes 4 2) 0
       let n := ((s.fcfg m).ring.map Prod.snd).getD 32 / 32
       let s1 := emit (.dmaWrite f (g.addr + 12) (zeros 4)) (emit (.dmaWrite f (g.addr + 16) g.bytes) s)
       let s2 := modFlow m (fun x => { x with slot := (x.slot + 1) % max 1 n }) (countPacket m 0 true (!short) s1)
       itemGone m g.counter (raiseFlow m (when short (exception m 1) s2)))
    else countPacket m g.part.item false false (emit (.dmaWrite f g.addr g.bytes) s)

/-- R386 to R388. The packet in transmission completes, its credit returns, and the staged one follows. -/
def packetTxComplete (p : Nat) (ok : Bool) (s0 : State) : State :=
  match (tget s0.ports p).sending with
  | none => s0
  | some g =>
    let s := if p < 2 then advanceElapsed (tget s0.ports p).doneAt s0 else s0
    let s1 := modFlow g.flow (fun x => { x with credit := x.credit + g.wire }) (modPort p (fun q => { q with sending := none }) s)
    let s2 := if p < 2 then macDone p g s1 else hostDone g ok s1
    let s3 := modPort p (fun q => match q.staged with
      | some n => { q with staged := none, sending := some n, doneAt := macEnd n.wire q.doneAt }
      | none => q) s2
    settleFlow g.flow s3

/-- PACKET_TX_COMPLETE, R386. -/
def execPacketTxComplete (port : Nat) (ok : Bool) (s : State) : Host.Outcome State Fault Refusal :=
  if 3 ≤ port then .refused (.noSuchUnit "scheduled port" port) else .next (packetTxComplete port ok s)

/-- R380. The next calendar slot of a port begins, at the next whole microsecond: flows whose slot has come leave the fine wheel,
and each 4,096 µs those of a coarse slot move to it. -/
def calendarSlot (p : Nat) (s0 : State) : State :=
  let t := (s0.time.dev / 1000 + 1) * 1000
  let s := advanceTo t s0
  forEach (idx 256 fun m => (s.fcfg m).route == p && (s.flow m).wheel != 0) (fun m => modFlow m fun x => { x with
    wheel := if x.wheel = 1 then (if cdiv x.eligibleAt 1000 * 1000 ≤ t then 0 else 1)
      else if x.eligibleAt / 4096000 ≤ t / 4096000 then (if cdiv x.eligibleAt 1000 * 1000 ≤ t then 0 else 1) else 2 }) s

/-- CALENDAR_SLOT, R380. -/
def execCalendarSlot (port : Nat) (s : State) : Host.Outcome State Fault Refusal :=
  if 3 ≤ port then .refused (.noSuchUnit "scheduled port" port) else .next (if s.clockRuns then calendarSlot port s else s)

/-! ### Host rings (R375) -/

/-- R375. A read of the next slot for the item at the head of the queue. -/
def ringPoll (m : Nat) (ok : Bool) (addr blen : Nat) (ctrl : Word) (s0 : State) : State :=
  let x := s0.flow m
  match x.items with
  | [] => s0
  | it :: rest =>
    if (s0.fcfg m).route != 2 || !x.active || it.parts.isSome || !x.going.isEmpty then s0
    else
      let s := match x.pollAt with | some t => advanceElapsed t s0 | none => s0
      if !ok then exception m 4 (modFlow m (fun y => { y with items := rest, pollAt := none }) s)
      else if !ctrl.getLsbD 0 then
        when (!it.waited) (exception m 0)
          (modFlow m (fun y => { y with items := { it with waited := true } :: rest, pollAt := some (s.time.elapsed + 10000) }) s)
      else
        let body := it.data.take blen
        modFlow m (fun y => { y with
          items := { it with parts := some (segments body.length 0 body), left := body.length, addr := addr, blen := blen } :: rest
          pollAt := none }) s

/-- RING_SLOT_POLL, R375. -/
def execRingSlotPoll (flow : Nat) (ok : Bool) (addr blen : Nat) (ctrl : Word) (s : State) : Host.Outcome State Fault Refusal :=
  if 256 ≤ flow then .refused (.noSuchUnit "flow" flow) else .next (ringPoll flow ok addr blen ctrl s)

/-! ### Transmit ports (R353, R387) -/

/-- The first due frame of a flow. -/
def dueItem (s : State) (m : Nat) : Option Item := (s.flow m).items.find? Item.due

/-- R353. The next frame in due order starts when the port is free. -/
def startTx (p : Nat) (s : State) : State :=
  let t := tget s.tx p
  match t.busy, t.queue with
  | none, m :: rest =>
    match dueItem s m with
    | none => modTx p (fun x => { x with queue := rest }) s
    | some it =>
      let n := it.longs.length
      let dur := cdiv (txTime4 t.rate (sumOf it.longs List.length) n) (4 * max 1 t.rate)
      modTx p (fun x => { x with queue := rest, busy := some m, doneAt := s.time.elapsed + dur })
        (modFlow m (fun x => { x with items := x.items.filter fun i => i.counter != it.counter, going := [{ it with left := 0, begun := true }] }) s)
  | _, _ => s

/-- Where a due frame stands in its port's queue: by due instant, then in handle or flow order. -/
def insertDue (key : Nat → Nat × Nat) (m : Nat) : List Nat → List Nat
  | [] => [m]
  | n :: ns => if (key m).1 < (key n).1 ∨ ((key m).1 = (key n).1 ∧ (key m).2 < (key n).2) then m :: n :: ns else n :: insertDue key m ns

/-- R353, R381. The flow's next CSI-2 frame falls due; a suspended flow sends nothing for it. -/
def txFrameDue (m : Nat) (s0 : State) : State :=
  match (s0.flow m).items.find? fun i => !i.due with
  | none => s0
  | some it =>
    if (s0.fcfg m).route != 3 then s0
    else
      let s := advanceTo it.dueAt s0
      if (s.fcfg m).weight = 0 then modFlow m (fun x => { x with items := x.items.filter fun i => i.counter != it.counter }) s
      else
        let p := (s.fcfg m).port
        let s1 := modFlow m (fun x => { x with items := x.items.map fun i => if i.counter = it.counter then { i with due := true } else i }) s
        let key (g : Nat) : Nat × Nat := (((dueItem s1 g).map Item.dueAt).getD 0, (decOf s1 g).getD g)
        startTx p (modTx p (fun t => { t with queue := insertDue key m t.queue }) s1)

/-- TX_FRAME_DUE, R353. -/
def execTxFrameDue (flow : Nat) (s : State) : Host.Outcome State Fault Refusal :=
  if 256 ≤ flow then .refused (.noSuchUnit "flow" flow) else .next (txFrameDue flow s)

/-- R353, R387. The frame's Frame End is sent, and the next due frame starts. -/
def txFrameSent (p : Nat) (s0 : State) : State :=
  match (tget s0.tx p).busy with
  | none => s0
  | some m =>
    let s := advanceElapsed (tget s0.tx p).doneAt s0
    match (s.flow m).going.head? with
    | none => modTx p (fun t => { t with busy := none }) s
    | some it =>
      let bytes := sumOf it.longs List.length
      let s1 := emit (.csi2Frame p ((vcOf s m).getD 0) (it.counter % 65535 + 1) it.emb.flatten it.lines) s
      let s2 := modTx p (fun t => { t with busy := none }) (modFlow m (fun x => { x with going := [] }) s1)
      startTx p (settleFlow m (raiseFlow m (countPacket m bytes true true s2)))

/-- TX_FRAME_SENT, R387. -/
def execTxFrameSent (port : Nat) (s : State) : Host.Outcome State Fault Refusal :=
  if 4 ≤ port then .refused (.noSuchUnit "transmit port" port) else .next (txFrameSent port s)

/-! ### Samples, links and received frames (R369, R377, R388, R389) -/

/-- R389. Bytes queued and not yet dequeued, and the delay of the oldest such item in ns. -/
def flowDepth (s : State) (m : Nat) : Nat := if (s.flow m).active then sumOf (s.flow m).items Item.left else 0
def flowDelay (s : State) (m : Nat) : Nat :=
  if (s.flow m).active then (((s.flow m).items.head?).map fun i => s.time.dev - i.eligible).getD 0 else 0

/-- R389. Sample `i` of the tick. -/
def flowSample (i : Nat) (s0 : State) : State :=
  if s0.time.tickRun && 0 < s0.time.passed then
    (let s := advanceTo (s0.time.boundary s0.lastBoundary + i * s0.time.period / 16) s0
     forEach (List.range s.nFlow) (fun m => modFlow m fun x => { x with
       samples := tset x.samples i (min 65535 (cdiv (flowDepth s m) 256), min 65535 (cdiv (flowDelay s m) 4000)), newest := i }) s)
  else s0

/-- FLOW_SAMPLE, R389. -/
def execFlowSample (i : Nat) (s : State) : Host.Outcome State Fault Refusal :=
  if 16 ≤ i then .refused (.noSuchUnit "sample" i) else .next (flowSample i s)

/-- MAC_LINK_DOWN, R388. -/
def execMacLinkDown (mac : Nat) (s : State) : Host.Outcome State Fault Refusal :=
  if 2 ≤ mac then .refused (.noSuchUnit "MAC" mac) else .next (modPort mac (fun p => { p with up := false }) s)

/-- MAC_LINK_UP, R388. -/
def execMacLinkUp (mac : Nat) (s : State) : Host.Outcome State Fault Refusal :=
  if 2 ≤ mac then .refused (.noSuchUnit "MAC" mac) else .next (modPort mac (fun p => { p with up := true }) s)

/-- MAC_FRAME_RECEIVED, R369. -/
def execMacFrameReceived (mac : Nat) (s : State) : Host.Outcome State Fault Refusal :=
  if 2 ≤ mac then .refused (.noSuchUnit "MAC" mac) else .next { s with macOther := tmod s.macOther mac (· + 1) }

/-- PCIE_LINK_RETRAIN, R70, R377: the width and speed the link trained to, with what the host's configuration settles: the max payload size,
and PTM Enable (R53, choice 8). -/
def execPcieLinkRetrain (lanes : Nat) (l : LinkSetting) (s : State) : Host.Outcome State Fault Refusal :=
  .next { modTime (fun t => { t with ptmEn := l.ptm, ptmAt := if l.ptm then t.ptmAt else none }) s with
    lanes := lanes, gts10 := l.rate10, mps := l.mps }

end Sys2Proof.Machine
end

