-- ==== Sys2Proof/Machine/Flows.lean ====
section
/-!
DEFINITION. The 0x06xx commands and DEC_OUTPUT_SET (R347, R348, R360, R362, R363, R366, R367, R370, R373, R374, R381, R382, R390).
-/
namespace Sys2Proof.Machine

/-! ### Attachment (R360) -/

/-- FLOW_ATTACH, R360. -/
def flowAttachB : Behaviour where
  reserved q := q.zero 17 3
  fields _ c := need (c.q.u 16 1 < 16 || c.q.u 16 1 == 0xFF) St.range
  member s c m := firstOf [need (!flowBusy s m) St.quiesce, need (c.q.u 16 1 == 0xFF || s.fnPresent (c.q.u 16 1)) St.range]
  run c s := (.done St.ok [], forEach c.members (fun m t =>
    let f := c.q.u 16 1
    reroute (256 + m) (if f = 0xFF then 0 else f + 1) (modFcfg m (fun x => { x with func := if f = 0xFF then none else some f }) t)) s)

/-! ### Routes (R362, R363) -/

/-- R362. The source a request names. -/
def srcOf (q : Request) : FlowSrc :=
  match q.u 18 1 with
  | 1 => .coded (q.u 19 1) (q.u 20 1)
  | 2 => .window (q.u 19 1) (q.u 20 1)
  | 3 => .raw (q.u 19 1)
  | 4 => .decoded
  | _ => .none

/-- R362. The route a request sets, over what the flow keeps. -/
def routeOf (q : Request) (c : FlowCfg) : FlowCfg :=
  { c with route := q.u 16 1, port := q.u 17 1, src := srcOf q, vc := q.u 21 1, txRate := q.u 22 2, phase := q.u 24 1 }

/-- R359. Routes and sources that go together. -/
def routeGood (q : Request) : Bool :=
  match q.u 18 1 with
  | 0 => true
  | 1 => q.u 16 1 ≤ 2
  | 2 => q.u 16 1 == 2
  | 3 => q.u 16 1 == 3
  | _ => q.u 16 1 == 2 || q.u 16 1 == 3

/-- A flow's new route in force. Where its route or source changes, a decode stream that named the flow no longer feeds it (choice 47), and
a raw flow sets its port's rate (R355, R363, R365). -/
def putRoute (m : Nat) (n : FlowCfg) (s : State) : State :=
  let o := s.fcfg m
  let moved := o.route != n.route || o.port != n.port || o.src != n.src
  let fed := idx 32 fun h => moved && (s.decS h).outMode == 1 && (s.decS h).outFlow == m
  let s1 := forEach fed (fun h => modDec h fun d => { d with outMode := 0 }) (modFcfg m (fun _ => n) s)
  match n.src with
  | .raw _ => modTx n.port (fun t => { t with rate := n.txRate }) s1
  | _ => s1

/-- FLOW_ROUTE_SET, R362, R363, R365, R329. -/
def flowRouteSetB : Behaviour where
  reserved q := q.zero 25 3
  present s q := (q.u 16 1 != 3 || q.u 17 1 < s.nTx || (4 ≤ q.u 17 1 && 0 < s.nTx)) && (q.u 18 1 != 4 || 0 < s.nDec)
    && (q.u 18 1 == 0 || 4 ≤ q.u 18 1 || 32 ≤ q.u 19 1 || q.u 19 1 < s.nChan)
  fields _ c :=
    let q := c.q
    let k := q.u 18 1
    need (q.u 16 1 ≤ 3 && k ≤ 4 && (if q.u 16 1 = 3 then q.u 17 1 ≤ 3 else q.zero 17 1)
      && (if 1 ≤ k ∧ k ≤ 3 then q.u 19 1 < 32 else q.zero 19 1)
      && (if k = 1 then q.u 20 1 ≤ 1 else if k = 2 then q.u 20 1 ≤ 3 else q.zero 20 1)
      && (if k = 3 then q.u 21 1 ≤ 15 && 80 ≤ q.u 22 2 && q.u 22 2 ≤ 4500 && q.u 24 1 ≤ 63 else q.zero 21 4)
      && routeGood q) St.range
  member s c m := firstOf [need (!flowBusy s m) St.quiesce,
    need (c.q.u 18 1 != 3 || !txRateBusy s (c.q.u 17 1) m (c.q.u 22 2)) St.quiesce]
  later s c m :=
    let n := routeOf c.q (s.fcfg m)
    let t := putRoute m n s
    firstOf [need (match n.src with | .coded _ _ => n.limit == 0 || hrdRate t m ≤ n.limit * 1000 | _ => true) St.hrdInfeasible,
      need (match n.src with
        | .window ch w => (tget (s.chan ch).cfg.windows w).all fun x => !isCoding x.format
        | .raw _ => txFits t n.port && vcFits t m
        | _ => true) St.range]
  run _ s := (.wait .tick, s)
  effect c s := forEach c.members (fun m t => putRoute m (routeOf c.q (t.fcfg m)) t) s

/-! ### Templates, rings, rates and weights (R370, R373, R374, R381, R382) -/

/-- R370. On an active flow, FLAGS, MTU and HLEN stay as they are. -/
def tmplSame (a b : List Byte) : Bool := slice a 1 4 == slice b 1 4

/-- FLOW_TEMPLATE_SET, R370. The buffer is read before step 12. -/
def flowTemplateSetB : Behaviour where
  reserved q := q.zero 28 4
  fields _ c := firstOf [dmaRange (c.q.dma 16), need (128 ≤ (c.q.dma 16).2) St.badLength]
  run c s := (.wait (.dma (c.q.dma 16).1 128), s)
  resume c _ s :=
    let t := fit 128 c.data
    if !tmplGood t then (.done St.range [], s)
    else if c.members.any fun m => flowOn s m && !tmplSame t (tmplOf s m) then (.done St.range [], s)
    else (.wait .tick, s)
  effect c s := forEach c.members (fun m => modFcfg m fun x => { x with template := some (fit 128 c.data) }) s

/-- FLOW_RING_SET, R374. -/
def flowRingSetB : Behaviour where
  reserved q := q.zero 28 4
  fields _ c := firstOf [need ((c.q.dma 16).2 != 0) St.badLength,
    need ((c.q.dma 16).1 % 32 == 0 && (c.q.dma 16).2 % 32 == 0 && 64 ≤ (c.q.dma 16).2 && (c.q.dma 16).2 ≤ 1048576) St.range]
  member s _ m := need (!flowBusy s m) St.quiesce
  run _ s := (.wait .tick, s)
  effect c s := forEach c.members (fun m => modFcfg m fun x => { x with ring := some (c.q.dma 16) }) s

/-- FLOW_RATE_SET, R382, R329. -/
def flowRateSetB : Behaviour where
  later s c m :=
    let limit := c.q.u 20 4
    let t := modFcfg m (fun x => { x with reserve := c.q.u 16 4, limit := limit }) s
    let coded := match (s.fcfg m).src with | .coded _ _ => true | _ => false
    let short := limit != 0 && limit * 1000 < flowW t m
    firstOf [need (!(coded && short)) St.hrdInfeasible,
      need (if (s.fcfg m).route = 3 then c.q.zero 16 8
        else limit == 0 || (1000 ≤ limit && limit ≤ portCap s (s.fcfg m).route / 1000 && !short)) St.range]
  run _ s := (.wait .tick, s)
  effect c s := forEach c.members (fun m => modFcfg m fun x => { x with reserve := c.q.u 16 4, limit := c.q.u 20 4 }) s

/-- FLOW_WEIGHT_SET, R381. A flow that leaves suspension with items becomes backlogged (R379). -/
def flowWeightSetB : Behaviour where
  reserved q := q.zero 18 2
  run _ s := (.wait .tick, s)
  effect c s := forEach c.members (fun m t =>
    let woken := (t.fcfg m).weight == 0 && c.q.u 16 2 != 0 && !(t.flow m).items.isEmpty
    modFcfg m (fun x => { x with weight := c.q.u 16 2 }) (when woken (backlog m) t)) s

/-- R451. Lbits of a crypt mode. -/
def cryptBits (mode : Nat) : Nat := if mode = 1 then 224 else 352

/-- R431, R451. The SRTP leaf of a flow: master key and salt. -/
def srtpLeaf (s : State) (m mode : Nat) : List Byte :=
  leaf s (clientSlot m) 0x30 (le 2 m ++ le 1 mode ++ le 4 (s.node (clientSlot m)).start) (cryptBits mode)

/-- R451. START of a client steps. -/
def stepStart (m : Nat) (s : State) : State := modNode (clientSlot m) (fun n => { n with start := (n.start + 1) % 4294967296 }) s

/-- R373, R451. A FLOW_CRYPT_SET takes effect: on an active flow it gives a new context, derived from a new START (16, Corners; choice 121). -/
def newContext (m mode : Nat) (s : State) : State :=
  if !(s.flow m).active then s
  else if mode = 0 then modFlow m (fun x => { x with orphaned := false, key := [] }) s
  else
    let s1 := stepStart m s
    modFlow m (fun x => { x with orphaned := !keyUsable s1 (clientSlot m), key := srtpLeaf s1 m mode }) s1

/-- FLOW_CRYPT_SET, R373. -/
def flowCryptSetB : Behaviour where
  reserved q := q.zero 17 3
  fields _ c := need (c.q.u 16 1 ≤ 2) St.range
  member s c m :=
    need (if c.q.u 16 1 = 0 then (s.node (clientSlot m)).state != .orphaned else keyUsable s (clientSlot m)) St.orphanedKey
  later s _ m := need ((s.fcfg m).route < 2) St.range
  run _ s := (.wait .tick, s)
  effect c s := forEach c.members (fun m t => newContext m (c.q.u 16 1) (modFcfg m (fun x => { x with crypt := c.q.u 16 1 }) t)) s

/-! ### Starting and stopping (R366, R367, R451) -/

/-- R361. The flow's function has left since its FLOW_START was admitted, and it is on the HOST route: it does not start (choice 56). -/
def startBarred (m : Nat) (s : State) : Bool := (s.fcfg m).route == 2 && !(s.fcfg m).func.any fun f => s.fnPresent f

/-- R366, R379, R386, R451. A flow becomes active. -/
def startFlow (m : Nat) (s : State) : State :=
  if startBarred m s then s else
  let c := s.fcfg m
  let allot := 2 * lMax s m
  let s1 := when (c.crypt != 0) (stepStart m) s
  let s2 := when (c.route < 3) (modPort c.route fun p => { p with free := p.free - allot }) s1
  modFlow m (fun x => { x with
    active := true, stopping := false, passOver := (match c.src with | .coded _ _ => true | _ => false)
    items := [], going := [], slot := 0, pollAt := none, ipId := tmplIpId (tmplOf s m), rtpSeq := tmplSeq (tmplOf s m)
    tag := (tget s.ports c.route).vtime, credit := allot, allot := allot, exc := 0, lost := none, wheel := 0
    key := if c.crypt = 0 then [] else srtpLeaf s1 m c.crypt, roc := 0
    orphaned := c.crypt != 0 && !keyUsable s (clientSlot m) }) s2

/-- FLOW_START, R366, R361. -/
def flowStartB : Behaviour where
  member s _ m := need (!flowBusy s m) St.quiesce
  later s _ m :=
    let c := s.fcfg m
    need (c.src != .none && c.func.any (fun f => s.fnPresent f) && (2 ≤ c.route || c.template.isSome) && (c.route != 2 || c.ring.isSome)) St.range
  run _ s := (.wait .tick, s)
  effect c s := forEach c.members startFlow s

/-- FLOW_STOP, R367. -/
def flowStopB : Behaviour where
  run _ s := (.wait .tick, s)
  effect c s := forEach c.members stopFlow s

/-- FLOW_STATS, R390. -/
def flowStatsB : Behaviour where
  reserved q := q.zero 17 3
  fields _ c := need (c.q.u 16 1 ≤ 1) St.range
  run c s :=
    let m := c.members.headD 0
    let x := s.flow m
    let p := tget s.ports (s.fcfg m).route
    let books := if (s.fcfg m).route = 3 then zeros 12
      else le 4 x.credit ++ le 4 ((p.sending.map Staged.wire).getD 0) ++ le 4 p.free
    (.done St.ok (books ++ le 2 x.exc.toNat ++ le 1 x.newest ++ le 1 (c.q.u 16 1)
      ++ (List.range 8).flatMap fun i => (let e := tget x.samples (8 * c.q.u 16 1 + i)
                                          le 2 e.1 ++ le 2 e.2)), s)

/-! ### The output of a decode stream (R347, R348) -/

/-- R347. The output a request sets. -/
def outOf (q : Request) (d : DecStream) : DecStream :=
  { d with outMode := q.u 17 1, outFlow := q.u 18 2, outVc := q.u 20 1, outDt := q.u 21 1, outRate := q.u 22 2 }

/-- R348. DT and the fields of the route agree with the stream. -/
def outGood (route : Nat) (d : DecStream) : Bool :=
  if route = 2 then d.outVc == 0 && d.outRate == 0 && (d.outDt == 0x02 || d.outDt == (if d.bit10 then 0x11 else 0x10))
  else route == 3 && 80 ≤ d.outRate && d.outRate ≤ 4500 && (d.outDt == 0x18 || d.outDt == 0x1E || (d.outDt == 0x19 && d.bit10))

/-- R347, R355. The output in force; on a transmit port it sets the port's rate. -/
def putOutput (h : Nat) (n : DecStream) (s : State) : State :=
  let s1 := modDec h (fun _ => n) s
  if n.outMode = 1 && (s.fcfg n.outFlow).route == 3 then modTx (s.fcfg n.outFlow).port (fun t => { t with rate := n.outRate }) s1 else s1

/-- DEC_OUTPUT_SET, R347, R348, R354, R355, R365. -/
def decOutputSetB : Behaviour where
  present s q := decPresent s && (256 ≤ q.u 18 2 || q.u 18 2 < s.nFlow)
  flows q := if q.u 17 1 = 1 && q.u 18 2 < 256 then [q.u 18 2] else []
  fields _ c :=
    let q := c.q
    need (q.u 16 1 < 32 && q.u 17 1 ≤ 1 && q.u 18 2 < 256 && q.u 20 1 ≤ 15 && (q.u 22 2 == 0 || (80 ≤ q.u 22 2 && q.u 22 2 ≤ 4500))
      && (q.u 17 1 == 1 || q.zero 18 6)) St.range
  member s c _ :=
    let d := s.decS (c.q.u 16 1)
    let m := c.q.u 18 2
    firstOf [need (!(d.outMode == 1 && flowOn s d.outFlow) && !(c.q.u 17 1 == 1 && flowOn s m)) St.quiesce,
      need (c.q.u 17 1 == 0 || (s.fcfg m).route != 3 || !txRateBusy s (s.fcfg m).port m (c.q.u 22 2)) St.quiesce]
  later s c _ :=
    let h := c.q.u 16 1
    let m := c.q.u 18 2
    let n := outOf c.q (s.decS h)
    let t := putOutput h n s
    need ((s.decS h).isOpen && (c.q.u 17 1 == 0 ||
      ((s.fcfg m).func.isSome && (s.fcfg m).src == .decoded && outGood (s.fcfg m).route n
        && (idx 32 fun g => g != h && (s.decS g).outMode == 1 && (s.decS g).outFlow == m).isEmpty
        && ((s.fcfg m).route != 3 || (vcFits t m && txFits t (s.fcfg m).port))))) St.range
  run _ s := (.wait .tick, s)
  effect c s := if (s.decS (c.q.u 16 1)).isOpen then putOutput (c.q.u 16 1) (outOf c.q (s.decS (c.q.u 16 1))) s else s

end Sys2Proof.Machine
end

