-- ==== Sys2Proof/Machine/Heads.lean ====
section
/-!
DEFINITION. Camera heads: the control buses, identity checks, pairing, service life, and the 0x0Cxx commands (R180 to R202,
R583).
-/
namespace Sys2Proof.Machine

/-! ### The control bus (R180 to R186) -/

/-- R182. Address of channel `c`'s head on its bus. -/
def busAddress (c : Nat) (a : Attach) : Nat := if a.i2c then a.static_ else 0x10 + c

/-- R186. A transaction of this class may start now: in the last 400 µs before a boundary, only a sensor write. -/
def mayStart (s : State) (k : BusClass) : Bool :=
  k == .sensor || !s.time.tickRun || s.time.dev + 400000 ≤ s.time.boundary s.time.passed

/-- R186. Start the next transaction of bus `b`, if none is under way and one may start. -/
def busRun (b : Nat) (s : State) : State :=
  match tget s.buses b with
  | [] => s
  | x :: rest =>
    if x.active || !mayStart s x.cls then s
    else match (s.chan x.ch).cfg.attach, x.todo with
      | some a, t :: _ =>
        emit (.bus b (if x.use_ = .setdasa then a.static_ else busAddress x.ch a) t.wdata t.rlen t.rstart)
          { s with buses := tset s.buses b ({ x with active := true, since := s.time.elapsed } :: rest) }
      | _, _ => { s with buses := tset s.buses b rest }

/-- Put a transfer on channel `c`'s bus and start it if the bus is free. -/
def busSend (c : Nat) (x : BusXfer) (s : State) : State :=
  match (s.chan c).cfg.attach with
  | none => s
  | some a => busRun a.bus (busPush c x s)

/-- R583. A write of `data` at a register of the secure element. -/
def seWrite (addr : Nat) (data : List Byte) : Txn := ⟨be 2 addr ++ data, 0, false⟩

/-- R583, R186. Writes of at most 32 data bytes. -/
def seWrites (addr : Nat) (data : List Byte) : List Txn :=
  (List.range (cdiv data.length 32)).map fun i => seWrite (addr + 32 * i) ((data.drop (32 * i)).take 32)

/-- R583, R186. Reads of at most 32 data bytes. -/
def seReads (addr n : Nat) : List Txn := (List.range (n / 32)).map fun i => ⟨be 2 (addr + 32 * i), 32, true⟩

/-- R583. The write of SE_CMD. -/
def seCmd (code : Nat) : Txn := seWrite 0xFFA0 (le 1 code)

/-- R186. A device transfer of the identity check. -/
def checkXfer (c : Nat) (t : List Txn) : BusXfer := newXfer c .device .checkStep t

/-- R183, R186, R189. Transfers of channel `c` that `drop` names leave every bus, which then go on. -/
def dropXfers (drop : BusXfer → Bool) (s : State) : State :=
  forEach (List.range 8) busRun { s with buses := s.buses.map fun l => l.filter fun x => !drop x }

/-! ### Identity checks (R187 to R190) -/

/-- Change the check under way. -/
def modCheck (c : Nat) (g : Check → Check) (s : State) : State :=
  modHead c (fun h => match h.checks with
    | [] => h
    | k :: rest => { h with checks := g k :: rest }) s

def curCheck (s : State) (c : Nat) : Option Check := (s.chan c).head.checks.head?

/-- R189. Put a check in a channel's list of those due. -/
def addCheck (c : Nat) (why : CheckWhy) (s : State) : State :=
  if (s.chan c).cfg.attach.isSome then
    modHead c (fun h => { h with checks := h.checks ++ [{ (default : Check) with why := why, step := .due, dueAt := s.time.elapsed }] }) s
  else s

/-- R189. One automatic check is enough while it is due. -/
def addAuto (c : Nat) (s : State) : State :=
  if (s.chan c).head.checks.any fun k => k.why == .auto && k.step == .due then s else addCheck c .auto s

/-- R188. The certificate is of this identity block, and its issuer key, installed and hashing to ISSUER, signed it. -/
def certGood (s : State) (k : Check) : Bool :=
  slice k.cert 0 32 == hash k.ident && (s.roles.issuers.toList.any fun o => match o with
    | some key => hash key == slice k.ident 48 32 && verify key (hash (slice k.cert 0 128)) (slice k.cert 128 64)
    | none => false)

/-- R189. The head's signature over the nonce and the identity block verifies. -/
def challengeGood (k : Check) : Bool := !k.chalFail && verify (slice k.cert 32 64) (hash (k.nonce ++ k.ident)) k.sig

/-- R189. The check passed. -/
def checkPassed (s : State) (k : Check) : Bool := !k.readFail && certGood s k && challengeGood k

/-- R189, R583. Send the challenge, once its nonce is there. -/
def sendChallenge (c : Nat) (s : State) : State :=
  if s.tarn.trng = .latched then modCheck c (fun k => { k with chalFail := true, step := .judged }) s
  else match takeEntropy 32 s with
    | some (n, s1) =>
      busSend c (checkXfer c (seWrites 0xFF40 n ++ [seCmd 0x01])) (modCheck c (fun k => { k with nonce := n, step := .challenge }) s1)
    | none => modCheck c (fun k => { k with step := .nonce }) s

/-- R200. The life record of a paired head. -/
def lifeWeighted (l : Life) : Nat := l.cool + 3 * l.hot + 30 * l.cycles

def lifeRecord (l : Life) : List Byte :=
  le 4 (l.seq + 1) ++ le 4 l.cool ++ le 4 l.hot ++ le 4 l.cycles ++ le 4 (lifeWeighted l) ++ le 4 l.budget ++ zeros 8

/-- R442. The CONTEXT before firmware's own signed data: its first byte is 0, the rest the spec leaves open. -/
def ownContext : List Byte := 0#8 :: fit 15 (Config.freeBytes 0 15)

/-- R200. Signature of a life record under the channel node's key. -/
def lifeVerify (s : State) (c : Nat) (rec : List Byte) : Bool :=
  verify (tget s.tarn.pubChan c) (hash (ownContext ++ slice rec 0 32)) (slice rec 32 64)

/-- R200. For each counter, the greater of the mirror and the valid record of higher sequence. -/
def mergeLife (s : State) (c : Nat) (slots : List (List Byte)) (l : Life) : Life :=
  let good := slots.filter fun r => lifeVerify s c r
  let best := good.foldl (fun a r => match a with
    | none => some r
    | some b => if field b 0 4 < field r 0 4 then some r else some b) (none : Option (List Byte))
  match best with
  | none => l
  | some r => { l with seq := max l.seq (field r 0 4), cool := max l.cool (field r 4 4), hot := max l.hot (field r 8 4), cycles := max l.cycles (field r 12 4) }

/-- Drop the check under way. -/
def endCheck (c : Nat) (s : State) : State := modHead c (fun h => { h with checks := h.checks.tail }) s

/-- End the request of a check with a status. -/
def answerCheck (w : CheckWhy) (st : Byte) (s : State) : State :=
  match w with
  | .idGet f tag | .pair f tag => (match findExec s f tag Wait.isCheck with | some x => finish x st [] s | none => s)
  | _ => s

/-- R583, R200. Read life slot `k`. -/
def readSlot (c k : Nat) (s : State) : State :=
  busSend c (checkXfer c [seWrite 0xFFA2 (le 1 k), seCmd 0x04]) (modCheck c (fun x => { x with step := .slotCmd k }) s)

/-- R583, R193, R433. Write the channel node's public key to the head. -/
def writeKey (c : Nat) (s : State) : State :=
  busSend c (checkXfer c (seWrites 0xFF40 (fit 64 (tget s.tarn.pubChan c)) ++ [seCmd 0x02])) (modCheck c (fun x => { x with step := .keyWrite }) s)

/-- R200, R442. Write a signed life record. -/
def writeLife (c : Nat) (s : State) : State :=
  match (s.chan c).head.life, takeEntropy 32 s with
  | some l, some (n, s1) =>
    let r := lifeRecord l
    let sig := fit 64 (Config.ecdsaSign (privKey s (chanSlot c)) n (hash (ownContext ++ r)))
    busSend c (checkXfer c (seWrites 0xFF40 (r ++ sig) ++ [seCmd 0x03])) (modCheck c (fun x => { x with step := .lifeWrite, record := r }) s1)
  | _, _ => endCheck c (modHead c (fun h => { h with life := h.life.map fun l => { l with pushPending := true } }) s)

/-- R193. Budget of a HEAD_PAIR in minutes. -/
def pairBudget (q : Request) : Nat := 60 * (if q.u 16 2 = 0 then 45000 else q.u 16 2)

/-- R193 step 6, R429. With the key in the head: the audit record, the generations of the nodes (of a head that is replaced, its
invalidation takes the one before the new node's), and the program of the records in flash; the pairing waits for it and then for its
boundary. -/
def pairCommit (c f : Nat) (tag : BitVec 16) (k : Check) (s : State) : State :=
  match findExec s f tag Wait.isCheck with
  | none => endCheck c s
  | some x =>
    let h := (s.chan c).head
    let idh := hash k.ident
    let same := h.pairing.any fun p => p.idHash == idh && p.pubKey == slice k.cert 32 64
    let repl := h.pairing.isSome && !same
    let takes := if same then 0 else if repl then 2 else 1
    let gen := if same then (s.node (headSlot c)).gen else s.tarn.gctr + takes
    let life0 := if same then (h.life.orElse fun _ => h.mirror).getD default else default
    let life := { (mergeLife s c k.slots life0) with budget := pairBudget x.entry.req, pushFrom := s.time.elapsed, minuteAt := s.time.elapsed }
    if !gctrRoom s takes then endCheck c (finish x St.range [] s)
    else if auditGuard s then
      let s1 := audit 0x20 x.role x.slot f s.time.dev (le 1 c ++ le 1 (x.entry.req.u 18 1) ++ zeros 2 ++ le 4 gen ++ slice idh 0 12) s
      let s2 := modTarn (fun t => { t with
        gctr := if same then t.gctr else gen
        reserved := if repl then t.reserved ++ [(headSlot c, gen - 1)] else t.reserved }) s1
      let s3 := modHead c (fun y => { y with
        pairPending := some ⟨⟨idh, slice k.cert 32 64⟩, pairBudget x.entry.req, life, same, repl, gen, false⟩ }) s2
      flashQueue (.pairing c) (some (f, tag)) (updExec x { x with wait := .flash } (endCheck c s3))
    else endCheck c (finish x St.internal [] s)

/-- R200. A push has failed: it stays pending. -/
def pushFailed (c : Nat) (s : State) : State :=
  endCheck c (modHead c (fun h => { h with life := h.life.map fun l => { l with pushPending := true } }) s)

/-- R200. What a check that found the paired head goes on with once no key is to be written: a push writes its record. -/
def afterKey (c : Nat) (k : Check) (s : State) : State := if k.why == .push then writeLife c s else endCheck c s

/-- R193, R433. HEAD_PAIR goes on with the key, and so does any check of a paired head whose key has changed. -/
def afterLife (c : Nat) (k : Check) (s : State) : State :=
  match k.why with
  | .pair _ _ => writeKey c s
  | _ => if (s.chan c).head.keyUpdate then writeKey c s else afterKey c k s

/-- R201. Raise HEAD_WEAR and HEAD_EOL where a threshold is reached and not yet raised. -/
def raiseWear (c : Nat) (s : State) : State :=
  match (s.chan c).head.life with
  | none => s
  | some l =>
    let w := l.budget * 9 ≤ lifeWeighted l * 10 && !l.wear
    let e := l.budget ≤ lifeWeighted l && !l.eol
    when e (raiseIngress c 7) (when w (raiseIngress c 6)
      (modHead c (fun h => { h with life := h.life.map fun x => { x with wear := x.wear || w, eol := x.eol || e } }) s))

/-- R200. After the slots of a check have been read: the first check of a paired head after full reset takes the counters over. -/
def afterSlots (c : Nat) (k : Check) (s : State) : State :=
  match k.why with
  | .pair _ _ => afterLife c k s
  | _ => afterLife c k (raiseWear c (modHead c (fun h => { h with life := h.life.map (mergeLife s c k.slots) }) s))

/-- R189, R193, R200. Go on with a check when a step has ended, well or not, with what was read. -/
def headAdvance (c : Nat) (ok : Bool) (got : List Byte) (s : State) : State :=
  match curCheck s c with
  | none => s
  | some k =>
    match k.step with
    | .ident =>
      if ok then busSend c (checkXfer c (seReads 0xFE80 192)) (modCheck c (fun x => { x with ident := fit 128 got, step := .cert }) s)
      else modCheck c (fun x => { x with readFail := true, step := .judged }) s
    | .cert =>
      if ok then
        let s1 := modCheck c (fun x => { x with cert := fit 192 got }) s
        if certGood s { k with cert := fit 192 got } then sendChallenge c s1 else modCheck c (fun x => { x with step := .judged }) s1
      else modCheck c (fun x => { x with readFail := true, step := .judged }) s
    | .challenge =>
      if ok then modCheck c (fun x => { x with step := .waitSig, opAt := s.time.elapsed }) s
      else modCheck c (fun x => { x with chalFail := true, step := .judged }) s
    | .waitSig =>
      if ok then busSend c (checkXfer c (seReads 0xFF40 64)) (modCheck c (fun x => { x with step := .sig }) s)
      else modCheck c (fun x => { x with chalFail := true, step := .judged }) s
    | .sig => modCheck c (fun x => if ok then { x with sig := fit 64 got, step := .judged } else { x with chalFail := true, step := .judged }) s
    | .slotCmd n =>
      if ok then modCheck c (fun x => { x with step := .waitSlot n, opAt := s.time.elapsed }) s
      else if n = 0 then readSlot c 1 s else afterSlots c k s
    | .waitSlot n =>
      if ok then busSend c (checkXfer c (seReads 0xFF40 96)) (modCheck c (fun x => { x with step := .slot n }) s)
      else if n = 0 then readSlot c 1 s else afterSlots c k s
    | .slot n =>
      let k1 := if ok then { k with slots := k.slots ++ [fit 96 got] } else k
      let s1 := modCheck c (fun _ => k1) s
      if n = 0 then readSlot c 1 s1 else afterSlots c k1 s1
    | .keyWrite =>
      if ok then modCheck c (fun x => { x with step := .waitKey, opAt := s.time.elapsed }) s
      else (match k.why with
        | .pair _ _ => endCheck c (answerCheck k.why St.timeout s)
        | _ => afterKey c k s)
    | .waitKey =>
      (match k.why with
       | .pair f tag => if ok then pairCommit c f tag k s else endCheck c (answerCheck k.why St.timeout s)
       | _ => afterKey c k (modHead c (fun h => if ok then { h with keyUpdate := false } else h) s))
    | .lifeWrite =>
      if ok then modCheck c (fun x => { x with step := .waitLife, opAt := s.time.elapsed }) s else pushFailed c s
    | .waitLife =>
      endCheck c (modHead c (fun h => { h with life := h.life.map fun l =>
        if ok then { l with pushPending := false, seq := l.seq + 1, lastPush := s.time.dev }
        else { l with pushPending := true } }) s)
    | _ => s

/-- R186. The window in which checks and pushes start: from 2 ms after a boundary until 3 ms before the next. An event
before it carries time to its start (choice 2). Until boundary 0 of a tick no boundary has passed, and they start at any time
(DESIGN CHOICE 104). -/
def checkWindow (s : State) : Option State :=
  if !s.time.tickRun || s.time.passed = 0 then some s
  else
    let a := s.time.boundary s.lastBoundary + 2000000
    let s1 := advanceTo a s
    if s1.time.dev + 3000000 ≤ s.time.boundary s.time.passed then some s1 else none

/-- R186. Of the checks due on the bus of channel `c`, its own is the first: the one due earliest, and of those due at one instant the one
of the lowest channel. -/
def firstDue (s : State) (c : Nat) (k : Check) : Bool :=
  !(List.range 32).any fun d => d != c && (s.chan d).cfg.attach.map Attach.bus == (s.chan c).cfg.attach.map Attach.bus &&
    (curCheck s d).any fun x => x.step == .due && (x.dueAt < k.dueAt || (x.dueAt == k.dueAt && d < c))

/-- HEAD_CHECK_START, R186. -/
def execHeadCheckStart (ch : Nat) (s : State) : Host.Outcome State Fault Refusal :=
  match curCheck s ch with
  | some k =>
    if k.step = .due && (s.chan ch).cfg.attach.isSome && firstDue s ch k then
      match checkWindow s with
      | some t => .next (busSend ch (checkXfer ch (seReads 0xFE00 128)) (modCheck ch (fun x => { x with step := .ident, startedAt := t.time.elapsed }) t))
      | none => .next s
    else .next s
  | none => .next s

/-- R583. Time within which an operation of the secure element completes. -/
def seLimit (k : CheckStep) : Nat :=
  match k with
  | .waitSig => 30000000
  | .waitKey | .waitLife => 20000000
  | _ => 5000000

def isWaiting (k : CheckStep) : Bool :=
  match k with
  | .waitSig | .waitSlot _ | .waitKey | .waitLife => true
  | _ => false

/-- R583. The instant of the next poll of an operation that began at `opAt`: once per ms from its start. -/
def pollInstant (k : Check) (now : Nat) : Nat := k.opAt + ((now - k.opAt) / 1000000 + 1) * 1000000

/-- SE_STATUS_POLL, R583: a read of SE_STATUS goes on the bus, where the operation still has time. -/
def execSeStatusPoll (ch : Nat) (_ : Unit) (s : State) : Host.Outcome State Fault Refusal :=
  match curCheck s ch with
  | some k =>
    if isWaiting k.step && !k.polling then
      let s1 := advanceElapsed (pollInstant k s.time.elapsed) s
      .next (if k.opAt + seLimit k.step < s1.time.elapsed then headAdvance ch false [] s1
        else busSend ch (checkXfer ch [⟨be 2 0xFFA1, 1, true⟩]) (modCheck ch (fun x => { x with polling := true }) s1))
    else .next s
  | none => .next s

/-- R583. A poll has ended: 2 ends the operation well and 3 ends it failed, and so does any other status, or none, once its time is over. -/
def pollDone (c : Nat) (k : Check) (ok : Bool) (got : List Byte) (s : State) : State :=
  let s1 := modCheck c (fun x => { x with polling := false }) s
  let st := if ok then field got 0 1 else 1
  if st = 2 then headAdvance c true [] s1
  else if st = 3 || k.opAt + seLimit k.step ≤ s.time.elapsed then headAdvance c false [] s1
  else s1

/-- R190, R189. From the third consecutive failed transaction on the head counts as absent and the channel is Unverified; the third makes a
check due at the next Frame Start. -/
def countFailure (c : Nat) (s : State) : State :=
  raiseIngress c 8 (modHead c (fun h =>
    let n := h.failRun + 1
    if 3 ≤ n then { h with failRun := n, absent := true, startCheck := h.startCheck || n == 3, state := .unverified }
    else { h with failRun := n }) s)

/-- R240. A reading of TEMP_REG, signed, most significant byte first (choice 105). -/
def tempOf (got : List Byte) : Int := (BitVec.ofNat 16 (field got 0 1 * 256 + field got 1 1)).toInt

/-- R199. An operating minute of a paired head counts as hot, where its reading exceeds 85 °C or failed, or as cool. -/
def countMinute (c : Nat) (temp : Option Int) (s : State) : State :=
  let hot := match temp with | none => true | some t => 85 * 16 < t
  raiseWear c (modHead c (fun h => { h with life := h.life.map fun x => { x with hot := x.hot + b2n hot, cool := x.cool + b2n (!hot) } }) s)

/-- R185, R186. A transfer has ended. -/
def xferDone (x : BusXfer) (ok : Bool) (s : State) : State :=
  match x.use_ with
  | .hostXfer f tag =>
    (match findExec s f tag Wait.isBus with
     | some e => if ok then finish e St.ok (fit 16 x.got) s else finish e St.timeout [] s
     | none => s)
  | .checkStep =>
    (match curCheck s x.ch with
     | some k => if isWaiting k.step then pollDone x.ch k ok x.got s else headAdvance x.ch ok x.got s
     | none => s)
  | .temp minute =>
    let t := if ok then some (tempOf x.got) else none
    if minute then countMinute x.ch t s else modHead x.ch (fun h => { h with temps := (t :: h.temps).take 5 }) s
  | _ => s

/-- R186. What the end of a transaction of bus `b` that began at `since` moves: the time that a sensor write took is no part of the 50 ms of
the checks that run on that bus; and where another transaction was stretched past the boundary, the 1 ms of the sensor writes that wait runs
from its end. -/
def busShift (b : Nat) (y : BusXfer) (s : State) : State :=
  if y.cls == .sensor then
    { s with chans := s.chans.map fun x =>
      if x.cfg.attach.any fun a => a.bus == b then
        { x with head := { x.head with checks := x.head.checks.map fun k =>
          if k.step == .due then k else { k with startedAt := k.startedAt + (s.time.elapsed - y.since) } } }
      else x }
  else { s with buses := tmod s.buses b fun l => l.map fun z =>
    if z.cls == .sensor && s.time.elapsed - y.since > s.time.dev - s.time.boundary s.lastBoundary then { z with due := s.time.dev + 1000000 } else z }

/-- R185, R186. The transaction under way on bus `b`, the first of `x`, ends. Acknowledged, the next of its transfer follows, after the sensor
writes that wait; failed, the transfer ends with it. -/
def transactionEnds (b : Nat) (x : BusXfer) (r : BusResult) (s : State) : State :=
  let rest := (tget s.buses b).tail
  match r with
  | .ack data =>
    let n := (x.todo.head?.map Txn.rlen).getD 0
    let y := { x with active := false, todo := x.todo.tail, got := x.got ++ (if n = 0 then [] else fit n data) }
    let s1 := modHead x.ch (fun h => { h with failRun := 0 }) s
    if y.todo.isEmpty then busRun b (xferDone y true { s1 with buses := tset s1.buses b rest })
    else
      let first (z : BusXfer) : Bool := z.cls == .sensor && y.cls != .sensor
      busRun b { s1 with buses := tset s1.buses b (rest.filter first ++ [y] ++ rest.filter fun z => !first z) }
  | _ => busRun b (xferDone { x with active := false } false (countFailure x.ch { s with buses := tset s.buses b rest }))

/-- I3C_TRANSACTION_DONE, R186. -/
def execI3cTransactionDone (bus : Nat) (r : BusResult) (s : State) : Host.Outcome State Fault Refusal :=
  if 8 ≤ bus then .refused (.noSuchUnit "I3C controller" bus)
  else match tget s.buses bus with
  | [] => .next s
  | x :: _ =>
    if !x.active then .next s else .next (transactionEnds bus x r (busShift bus x s))

/-! ### Unpairing (R196, R198) -/

/-- R176. Mark records from the next expected frame on, with reason BIND. -/
def markBind (c : Nat) (s : State) : State := modChan c (Chan.mark 2 ⟨false, false, true⟩) s

/-- R196, R279. Every coded stream discards its references; its next access unit is intra. -/
def discardReferences (c : Nat) (s : State) : State :=
  modChan c (fun x => { x with runs := x.runs.map fun r => { r with
    short := [], long := [], ltrNext := 0, idrPending := true
    recoveryIdr := r.recoveryIdr || r.recovery.isSome, recovery := none } }) s

/-- R196, R429, R435. The head node takes a new generation (that of its replacement, where one is reserved) where GCTR can advance, and its
slot becomes FREE. -/
def freeHead (c : Nat) (s : State) : State :=
  let s1 := if gctrRoom s 1 || s.tarn.reserved.any (fun p => p.1 == headSlot c) then newGen (headSlot c) s else s
  raise 203 0 (modNode (headSlot c) (fun x => { x with state := .free, cell := s.tarn.mask }) s1)

/-- R196. Every effect of an unpairing but its audit record. -/
def unpairEffects (c : Nat) (s : State) : State :=
  let s1 := modHead c (fun h => { h with
    pairing := none, mirror := none
    closedMirrors := h.closedMirrors ++ ((h.life.orElse fun _ => h.mirror).map fun l => { l with closed := true }).toList
    life := none, keyUpdate := false, changeAt := none
    checks := h.checks.filter fun k => k.why != .push
    state := if h.state == .paired then .unpaired else h.state }) s
  discardReferences c (discardEstimates c (freeHead c s1))

/-- R475. DETAIL of an UNPAIR record. -/
def unpairDetail (s : State) (c cause : Nat) : List Byte :=
  le 1 c ++ le 1 cause ++ zeros 2 ++ le 4 (s.node (headSlot c)).gen ++ slice (((s.chan c).head.pairing.map Pairing.idHash).getD []) 0 12

/-- R198. A check has found another head on the paired channel, and the last boundary came at least 1 ms after it. -/
def headChangeDue (s : State) (c : Nat) : Bool :=
  match (s.chan c).head.changeAt with
  | none => false
  | some (t, _) => t + 1000000 + (s.time.dev - s.time.boundary s.lastBoundary) ≤ s.time.elapsed

/-- R198. At a boundary, the device acts on another head on the paired channel: the old head is unpaired, and the new one is Unpaired. -/
def headChange (c : Nat) (s : State) : State :=
  match (s.chan c).head.changeAt with
  | none => s
  | some (_, new) =>
    if headChangeDue s c then
      let old := ((s.chan c).head.pairing.map Pairing.idHash).getD []
      let s1 := unpairEffects c (auditDevice 0x22 (le 1 c ++ [0#8] ++ slice old 0 9 ++ slice new 0 9) s)
      markBind c (modHead c (fun x => { x with state := if x.state == .other then .unpaired else x.state }) s1)
    else s

/-! ### The end of a check (R190, R191, R201) -/

/-- R190. The head state after a check. -/
def stateAfter (s : State) (h : Head) (k : Check) : HeadState :=
  if checkPassed s k then
    match h.pairing with
    | none => .unpaired
    | some p => if p.idHash == hash k.ident && p.pubKey == slice k.cert 32 64 then .paired else .other
  else .unverified

/-- R245, R259. A check that passes has found another head than the last that passed, on a channel without a pairing record. -/
def headSwapped (h : Head) (k : Check) (ok : Bool) : Bool :=
  ok && h.pairing.isNone && !h.ident.isEmpty && (h.ident != k.ident || h.pubKey != slice k.cert 32 64)

/-- R176, R245, R259. The change of the answering head of a channel without a pairing record takes effect as it is detected (choice 106):
its estimates are lost, its windows restart, and its next frames are marked. -/
def swapEffects (c : Nat) (s : State) : State := noteChanges c (s.chan c).cfg (markBind c (discardEstimates c s))

/-- R190, R199. The effect of a check on the channel's head. -/
def judge (c : Nat) (k : Check) (s0 : State) : State :=
  let ok := checkPassed s0 k
  let s := if headSwapped (s0.chan c).head k ok then swapEffects c s0 else s0
  let st := stateAfter s (s.chan c).head k
  let s1 := modHead c (fun h => { h with
    state := st
    verified := ok
    ident := if ok then k.ident else h.ident
    pubKey := if ok then slice k.cert 32 64 else h.pubKey
    changeAt := if st == .other && h.changeAt.isNone then some (s.time.elapsed, hash k.ident) else h.changeAt
    life := if st == .paired && (h.absent || h.firstCheck) then h.life.map fun l => { l with cycles := l.cycles + 1 } else h.life
    absent := h.absent && !ok
    failRun := if ok then 0 else h.failRun
    passedAt := if h.startHeld && ok && st == .paired && h.passedAt.isNone then some s.time.elapsed else h.passedAt
    firstCheck := h.firstCheck && !ok }) s
  if st == .paired then raiseWear c s1 else s1

/-- R191. What HEAD_ID_GET writes. -/
def idGetBytes (s : State) (k : Check) : List Byte :=
  k.ident ++ k.cert ++ le 1 (if !certGood s k then 1 else if challengeGood k then 0 else 2) ++ zeros 7

/-- R189 to R193, R200, R433. After the head state is set, what the check was for goes on: HEAD_ID_GET transfers what was read; the first
check of a paired head after full reset reads its life slots, whatever it was made for. -/
def afterJudge (c : Nat) (k : Check) (timedOut first : Bool) (s : State) : State :=
  let found := checkPassed s k && (s.chan c).head.state == .paired
  let goOn (k : Check) (t : State) : State := if first then readSlot c 0 t else afterLife c k t
  match k.why with
  | .idGet f tag =>
    let s1 := match findExec s f tag Wait.isCheck with
      | none => s
      | some x => if k.readFail || k.cert.isEmpty then finish x St.timeout [] s
        else updExec x { x with wait := .dmaOut (x.entry.req.dma 16).1 (idGetBytes s k) [], since := s.time.elapsed } s
    if found then goOn { k with why := .auto } (modCheck c (fun x => { x with why := .auto }) s1) else endCheck c s1
  | .pair _ _ =>
    if checkPassed s k then readSlot c 0 s
    else endCheck c (answerCheck k.why (if timedOut then St.timeout else St.authFail) s)
  | .push => if found then goOn k s else pushFailed c s
  | .auto => if found then goOn k s else endCheck c s

/-- R189. The check under way has been judged, or its 50 ms are over. -/
def beforeJudged (k : CheckStep) : Bool :=
  match k with
  | .ident | .cert | .nonce | .challenge | .waitSig | .sig => true
  | _ => false

/-- HEAD_CHECK_DONE, R190. A check that is not yet judged times out 50 ms after its start. -/
def execHeadCheckDone (ch : Nat) (s : State) : Host.Outcome State Fault Refusal :=
  match curCheck s ch with
  | some k =>
    if k.step = .judged then
      .next (afterJudge ch k false (s.chan ch).head.firstCheck (judge ch k s))
    else if beforeJudged k.step then
      let s1 := advanceElapsed (k.startedAt + 50000000) s
      let k1 := { k with chalFail := true, readFail := k.readFail || k.cert.isEmpty, step := .judged }
      let s2 := dropXfers (fun x => x.ch == ch && x.use_ == .checkStep) s1
      .next (afterJudge ch k1 true (s.chan ch).head.firstCheck (judge ch k1 (modCheck ch (fun _ => k1) s2)))
    else .next s
  | none => .next s

/-! ### Frame Starts (R167, R189) -/

/-- R189. The first Frame Start after a NO_FRAME record or a third failed transaction makes a check due. -/
def checkOnStart (c : Nat) (s : State) : State :=
  if (s.chan c).head.startCheck then addAuto c (modHead c (fun h => { h with startCheck := false }) s) else s

/-- CSI2_FRAME_START, R167. -/
def execCsi2FrameStart (port vc : Nat) (ecc : HdrEcc) (s : State) : Host.Outcome State Fault Refusal :=
  if noPort port vc then .refused (.noSuchUnit "receive port" port)
  else .next (onPacket port vc ecc (fun c t => checkOnStart c (frameStart c port vc t)) s)

/-! ### Service life (R199 to R201) -/

/-- R199. The minute that ends now was an operating minute of a paired head: the channel enabled for all of it, and a record that closed
other than with NO_FRAME in it. A minute in which the head is Paired for only a part counts by the head state at its end (DESIGN CHOICE
107). -/
def operating (x : Chan) (now : Nat) : Bool :=
  x.enabled && x.enabledAt + 60000000000 ≤ now && now ≤ x.recordAt + 60000000000 && x.head.state == .paired

/-- R187, R199, R240. Put a read of TEMP_REG on the channel's bus: the register that bytes 36 and 37 of the identity block name, two bytes. -/
def readTemp (c : Nat) (minute : Bool) (s : State) : State :=
  busSend c (newXfer c .device (.temp minute) [⟨be 2 (field (s.chan c).head.ident 36 2), 2, true⟩]) s

/-- LIFE_MINUTE, R199. A minute ends. An operating one has its reading of TEMP_REG made then (choice 107), and is counted when that read
ends. -/
def execLifeMinute (ch : Nat) (_ : Unit) (s : State) : Host.Outcome State Fault Refusal :=
  match (s.chan ch).head.life with
  | none => .next s
  | some l =>
    let s1 := advanceElapsed (l.minuteAt + 60000000000) s
    let s2 := modHead ch (fun h => { h with life := h.life.map fun x => { x with minuteAt := s1.time.elapsed } }) s1
    .next (if operating (s1.chan ch) s1.time.elapsed then readTemp ch true s2 else s2)

/-- R200. Elapsed time at which a push is due: the next whole hour from pairing, or a minute after the last attempt of one that failed. -/
def pushDue (l : Life) : Nat :=
  let hour := l.pushFrom + 3600000000000
  if l.pushPending then min hour (l.tryAt + 60000000000) else hour

/-- LIFE_PUSH, R200: hourly from pairing, or a minute after a push that failed. The mirror is written, and a push is made where none is under
way. -/
def execLifePush (ch : Nat) (s : State) : Host.Outcome State Fault Refusal :=
  match (s.chan ch).head.life with
  | none => .next s
  | some l =>
    if (s.chan ch).head.pairing.isNone then .next s
    else
      let s1 := advanceElapsed (pushDue l) s
      let s2 := modHead ch (fun h => { h with
        mirror := h.life
        life := h.life.map fun x => { x with
          pushPending := true, tryAt := s1.time.elapsed
          pushFrom := x.pushFrom + (s1.time.elapsed - x.pushFrom) / 3600000000000 * 3600000000000 } }) s1
      .next (flashQueue (.pairing ch) none (if (s.chan ch).head.checks.any (fun k => k.why == .push) then s2 else addCheck ch .push s2))

/-- HEAD_TEMP_READ, R240: every 60 s, on a channel with a bus and a head that is Paired or Unpaired. -/
def execHeadTempRead (ch : Nat) (_ : Unit) (s : State) : Host.Outcome State Fault Refusal :=
  if 32 ≤ ch then .refused (.noSuchUnit "channel" ch)
  else
    let h := (s.chan ch).head
    let s1 := advanceElapsed (h.tempAt + 60000000000) s
    let s2 := modHead ch (fun h => { h with tempAt := h.tempAt + max 1 ((s1.time.elapsed - h.tempAt) / 60000000000) * 60000000000 }) s1
    .next (if (s.chan ch).cfg.attach.isSome && (h.state == .paired || h.state == .unpaired) then readTemp ch false s2 else s2)

/-! ### The 0x0Cxx commands -/

/-- R193, R194. Apply a pairing at its boundary. A head that it replaces, and that nothing has unpaired meanwhile, is unpaired; of the same
head only the budget changes, in the counters and in the mirror. -/
def applyPairing (c : Nat) (s : State) : State :=
  match (s.chan c).head.pairPending with
  | none => s
  | some p =>
    if !p.ready then s
    else if p.same then
      modHead c (fun h => { h with
        pairPending := none
        life := h.life.map fun l => { l with budget := p.budget }, mirror := h.mirror.map fun l => { l with budget := p.budget } }) s
    else
      let s1 := if (s.chan c).head.pairing.isSome then unpairEffects c (auditDevice 0x21 (unpairDetail s c 1) s) else s
      let s2 := modNode (headSlot c) (fun x => { x with state := .valid, gen := p.gen, parentGen := (s1.node (chanSlot c)).gen, label := p.pairing.idHash }) s1
      let s3 := computeKey (headSlot c) s2
      modHead c (fun h => { h with
        pairPending := none, pairing := some p.pairing, life := some p.life, mirror := some p.life
        state := if h.state != .unverified && hash h.ident == p.pairing.idHash && h.pubKey == p.pairing.pubKey then .paired else h.state }) s3

/-- HEAD_PAIR, R193. -/
def headPairB : Behaviour where
  reserved q := q.zero 19 1 && q.u 18 1 < 2
  fields _ c := need (c.q.u 16 2 == 0 || (1000 ≤ c.q.u 16 2 && c.q.u 16 2 ≤ 65000)) St.range
  member s c m := firstOf [
    need ((s.chan m).head.pairing.isNone || c.q.bit 18 0) St.denied,
    need (!deferredOn s isHeadCmd m && !pendingOn s (fun o => o == .headPolicySet || o == .headUnpair) m) St.busy,
    need (keyUsable s (chanSlot m)) St.orphanedKey,
    need ((s.chan m).cfg.attach.isSome && ((s.chan m).head.pairing.isSome || gctrRoom s 1)) St.range]
  run c s := (.wait (.check (c.members.headD 0)), addCheck (c.members.headD 0) (.pair c.f c.q.tag) s)
  resume c _ s :=
    (.done St.ok [], modHead (c.members.headD 0) (fun h => { h with pairPending := h.pairPending.map fun p => { p with ready := true } }) s)

/-- HEAD_UNPAIR, R196. -/
def headUnpairB : Behaviour where
  member s _ m := firstOf [need (!deferredOn s isHeadCmd m) St.busy, need (s.chan m).head.pairing.isSome St.headUnpaired,
    need (gctrRoom s 1) St.range]
  run c s := tickAudited 0x21 (unpairDetail s (c.members.headD 0) 0) c s
  effect c s := forEach c.members (fun m t => if (t.chan m).head.pairing.isSome then unpairEffects m t else t) s

/-- R181. The attachment a request names. -/
def attachOf (q : Request) : Attach := ⟨q.u 16 1, q.u 17 1, q.u 18 1, q.bit 19 0⟩

/-- R181. Attachments of other channels: those in force, those of every HEAD_POLICY_SET admitted and not yet in effect, and those of this
command. -/
def otherAttach (s : State) (c : Ctx) (m : Nat) : List Attach :=
  let pend (n : Nat) : List Attach := (s.exec.filter fun x => Op.ofCode x.entry.opcode.toNat == some .headPolicySet && x.members.contains n
    && x.entry.req.u 16 1 != 0xFF).map fun x => attachOf x.entry.req
  ((List.range 32).filter (· != m)).flatMap fun n =>
    (s.chan n).cfg.attach.toList ++ pend n ++ (if c.members.contains n then [attachOf c.q] else [])

/-- R183. A new attachment replaces the old one. What was under way on the old one is dropped: an automatic check and every transfer of a
check; a check made for a command or a push is made anew on the new attachment, and a host transfer not yet begun moves to it. -/
def reattach (c : Nat) (a : Attach) (s : State) : State :=
  let moved := (s.buses.toList.flatten.filter fun x => x.ch == c && !x.active && (x.use_ != .checkStep && x.use_ != .setdasa))
  let s1 := dropXfers (fun x => x.ch == c && (!x.active || x.use_ == .checkStep)) s
  let s2 := modHead c (fun h => { h with
    state := .unverified
    checks := (h.checks.filter fun k => k.why != .auto).map fun k => { (default : Check) with why := k.why, step := .due, dueAt := s.time.elapsed } })
    (modCfg c (fun x => { x with attach := some a }) s1)
  let s3 := if a.i2c then s2 else busPush c (newXfer c .device .setdasa [⟨le 1 (0x10 + c), 0, false⟩]) s2
  addAuto c (forEach (List.range 8) busRun (forEach moved (fun x t => busPush c x t) s3))

/-- HEAD_POLICY_SET, R181, R183. -/
def headPolicySetB : Behaviour where
  reserved q := q.u 19 1 < 4
  fields _ c :=
    let a := attachOf c.q
    let inRange (v : Nat) : Bool := 0x08 ≤ v && v ≤ 0x77
    if a.bus = 0xFF then need (a.static_ == 0 && a.native == 0 && !a.i2c) St.range
    else need (a.bus < 8 && inRange a.static_ && inRange a.native
      && (a.i2c || !((0x10 ≤ a.static_ && a.static_ ≤ 0x2F) || [0x3E, 0x5E, 0x6E, 0x76].contains a.static_))) St.range
  member s c m :=
    let a := attachOf c.q
    if a.bus = 0xFF then none
    else firstOf [need (!countsEnabled s m) St.quiesce, need (!deferredOn s isHeadCmd m) St.busy,
      need (!(otherAttach s c m).any fun o => o.bus == a.bus && (o.static_ == a.static_ || o.i2c != a.i2c)) St.range]
  run _ s := (.wait .tick, s)
  effect c s :=
    let a := attachOf c.q
    forEach c.members (fun m t =>
      let t1 := modCfg m (fun x => { x with allowUnpaired := c.q.bit 19 1 }) t
      if a.bus = 0xFF then t1 else reattach m a t1) s

/-- HEAD_ID_GET, R191. -/
def headIdGetB : Behaviour where
  fields _ c := firstOf [need ((c.q.dma 16).2 == 0 || 328 ≤ (c.q.dma 16).2) St.badLength, dmaRange (c.q.dma 16)]
  member s _ m := firstOf [need (!deferredOn s isHeadCmd m) St.busy, need (s.chan m).cfg.attach.isSome St.range]
  run c s :=
    if (c.q.dma 16).2 = 0 then (.done St.ok [], s)
    else (.wait (.check (c.members.headD 0)), addCheck (c.members.headD 0) (.idGet c.f c.q.tag) s)

/-- HEAD_LIFE_QUERY, R202. -/
def headLifeQueryB : Behaviour where
  run c s :=
    let m := c.members.headD 0
    let h := (s.chan m).head
    let l := if h.pairing.isSome then h.life.getD default else default
    let w := lifeWeighted l
    (.done St.ok (le 4 l.cool ++ le 4 l.hot ++ le 4 l.cycles ++ le 4 w ++ le 4 l.budget
      ++ le 2 (if l.budget = 0 then 0 else min 65535 (1000 * w / l.budget))
      ++ le 1 (b2n h.pairing.isSome + 2 * b2n l.wear + 4 * b2n l.eol + 8 * b2n l.pushPending + 16 * b2n h.verified)
      ++ le 1 (((s.chan m).cfg.attach.map Attach.bus).getD 0xFF) ++ le 8 l.lastPush), s)

/-- HEAD_I3C_XFER, R185. -/
def headI3cXferB : Behaviour where
  reserved q := q.zero 36 4 && q.u 19 1 < 2
  fields _ c :=
    let w := c.q.u 17 1
    firstOf [need (c.q.u 20 1 < 0xFE) St.denied,
      need (w ≤ 16 && c.q.u 18 1 ≤ 16 && isZeros (c.q.bytes (20 + min 16 w) (16 - w))) St.range]
  member s c m := firstOf [need (!deferredOn s isHeadCmd m) St.busy,
    need ((s.chan m).cfg.attach.any fun a => a.native == c.q.u 16 1) St.range]
  run c s :=
    let m := c.members.headD 0
    (.wait (.bus m), busSend m (newXfer m .host (.hostXfer c.f c.q.tag) [⟨c.q.bytes 20 (c.q.u 17 1), c.q.u 18 1, c.q.bit 19 0⟩]) s)

/-- R107, R108. A head command that misses its deadline: its check or transfer is dropped, and a check that timed out
leaves the channel Unverified (R191). -/
def cancelHead (c f : Nat) (tag : BitVec 16) (s : State) : State :=
  let mine (k : Check) : Bool := k.why == .idGet f tag || k.why == .pair f tag
  let ran := (s.chan c).head.checks.any fun k => mine k && k.step != .due
  let s1 := modHead c (fun h => { h with
    checks := h.checks.filter fun k => !mine k
    state := if ran then .unverified else h.state, verified := h.verified && !ran }) s
  dropXfers (fun x => x.ch == c && (x.use_ == .hostXfer f tag || (ran && x.use_ == .checkStep))) s1

/-- R193, R108. Deadline of a deferred head command, in ns from its start. -/
def headDeadline (o : Op) : Nat := if o = .headPair then 500000000 else if o = .headIdGet then 100000000 else 20000000

end Sys2Proof.Machine
end

