-- ==== Sys2Proof/Machine/ChanStart.lean ====
section
/-!
DEFINITION. CHAN_START (R159, R197, R228, R259, R271, R313).
-/
namespace Sys2Proof.Machine

/-- R159. A channel is started at the boundary that has just passed. -/
def startChan (c : Nat) (s : State) : State :=
  if (s.chan c).enabled then s
  else
    let s1 := modChan c (fun x => { x with
      enabled := true, runFrom := s.lastBoundary, seenStart := false, ignoring := false, enabledAt := s.time.elapsed, recordAt := s.time.elapsed
      lastRec := none, lastDropped := false, noFrame := false, toneMeans := []
      runs := Vector.ofFn fun i => (tget x.runs i.val).start x.cfg (tget x.cfg.streams i.val) s.lastBoundary }) s
    addAuto c (restartEst c [0, 1, 2, 3] (restoreEstimates c (markBind c s1)))

/-- R271. The luma sample rate of an enabled stream is within its level, for pictures of the size of its window, or while that is cleared of
the size it had. -/
def rateRuns (s : State) (x : ChanCfg) (c : StreamCfg) (r : StreamRun) : Bool :=
  let d := (streamDims x c).getD r.dims
  (levelOf c.codec c.level).all fun l => (auInterval s x).all fun dt => rateFits c.codec l d.1 d.2 dt

/-- R228, R159, R271. The channel's configuration can run. -/
def canRun (s : State) (c : Nat) : Bool :=
  let x := (s.chan c).cfg
  x.bind.isSome && x.rate.isSome && startWindows x
    && [0, 1].all fun st => !(tget x.streams st).enable || rateRuns s x (tget x.streams st) (tget (s.chan c).runs st)

/-- R313. The declarations of a channel's enabled streams are feasible. -/
def hrdsFit (s : State) (c : Nat) : Bool := (s.chan c).cfg.streams.toList.all fun k => !k.enable || hrdFits s (s.chan c).cfg k

/-- CHAN_START, R159, R197, R506. -/
def chanStartB : Behaviour where
  member s c m := firstOf [
    need (!countsEnabled s m) St.quiesce,
    need (!loadBusy s c.f c.q.tag 0 0) St.busy,
    need ((s.chan m).cfg.allowUnpaired || (s.chan m).head.state == .paired) St.headUnpaired]
  later s _ m := firstOf [need (hrdsFit s m) St.hrdInfeasible, need (canRun s m) St.range]
  run _ s := (.wait .tick, s)
  effect c s := forEach c.members startChan s

end Sys2Proof.Machine
end

