-- ==== Sys2Proof/Machine/Mailbox.lean ====
section
/-!
DEFINITION. BAR0: the value of every register, and the accesses that have a row of their own (R13 to R17, R42 to R44, R54,
R75 to R89, R94 to R98, R139 to R149).
-/
namespace Sys2Proof.Machine

def wOf (n : Nat) : Word := BitVec.ofNat 32 n

/-- R76. SYS_CAP0. -/
def sysCap0 (s : State) : Word :=
  wOf (s.nChan + 64 * s.nFlow + 32768 * s.nEnc + 262144 * s.nDec + 1048576 * s.nTx + 8388608 * s.nDmc
    + 33554432 * b2n s.hasVision + 67108864)

/-- R76. SYS_CAP1: 16 receive ports, 8 I3C controllers, 2 MACs, 4 pipelines, 8 sequencers, 15 virtual functions. -/
def sysCap1 : Word := wOf (16 + 32 * 8 + 512 * 2 + 2048 * 4 + 32768 * 8 + 524288 * 15)

/-- R76. SYS_CAP2: the channels present. -/
def sysCap2 (s : State) : Word := wOf (2 ^ s.nChan - 1)

/-- R76. SYS_ID. -/
def sysId (s : State) : Word :=
  wOf (0x3200 + 65536 * (match s.fuses.part with | .cm3200 => 0 | .cm3200e => 1 | .cm3116 => 2) + 16777216 * s.fuses.dieRev.toNat)

/-- R78. SYS_FW_STATE. -/
def sysFwState (s : State) : Word :=
  match s.boot.fw with
  | .boot => 0
  | .ready => 1
  | .failed => wOf (2 + 256 * (s.boot.bootErr % 256))

/-- R44. TIME_STATUS. -/
def timeStatus (t : TimeBase) : Word :=
  wOf ((match t.disc with | .free => 0 | .acquiring => 1 | .locked => 2 | .holdover => 3) + 4 * b2n t.ppsEn + 8 * b2n t.tickRun
    + 16 * b2n t.baseSet + 32 * b2n t.ptpTs + 65536 * min 65535 (if t.disc = .holdover then (t.elapsed - t.holdoverAt) / 1000000000 else t.holdoverS))

/-- R80. MBX_STATUS of a function. -/
def mbxStatus (s : State) (f : Nat) : Word :=
  let x := s.fn f
  wOf (x.reqQ.length + 256 * x.rspQ.length + 65536 * b2n x.reqOvf + 131072 * b2n s.ready)

/-- R98. A flow window is visible in function `f`. -/
def flowVisible (s : State) (f m : Nat) : Bool := m < s.nFlow && (f == 0 || (s.fcfg m).func == some f)

/-- R96, R97. A status window's word; PRESENT is bit 0 of word 1 and comes from the fuses. -/
def windowWord (w : Vector Word 16) (i : Nat) : Word := if i = 1 then tget w 1 ||| 1#32 else tget w i

/-- R139, R142. IRQ_SRC_CAUSE as function `f` reads it. -/
def srcCauseWord (s : State) (f n : Nat) : Word :=
  if srcStat s f n = 0 && (sourceKind n).getD false && (tget s.irq.src n).route != 0 then (tget s.irq.src n).cause else 0

/-- R141. IRQ_RUNNING of target `t`. -/
def irqRunning (s : State) (t : Nat) : Word :=
  let x := s.target t
  wOf (x.running + 256 * x.stack.length + 65536 * (match x.stack with | [] => 0 | (n, _) :: _ => n)
    + 2147483648 * b2n (bestSource s t).isSome)

/-- R141. IRQ_PENDn of target `t`. -/
def irqPend (s : State) (t n : Nat) : Word :=
  (List.range 32).foldl
    (fun a b => if (tget s.irq.src (32 * n + b)).route == t && srcPending s (32 * n + b) then a ||| wOf (2 ^ b) else a) 0

/-- R75. The value of the register at `off` of function `f`'s BAR0, without the action of a read; 0 where reserved (R16)
and for a write-only register (R14). -/
def bar0 (s : State) (f off : Nat) : Word :=
  let x := s.fn f
  let i := off / 4
  if off % 4 ≠ 0 then 0
  else if off = 0x0000 then sysId s
  else if off = 0x0004 then sysCap0 s
  else if off = 0x0008 then sysCap1
  else if off = 0x000C then sysCap2 s
  else if off = 0x0010 then wOf (f + 16 * b2n (f == 0) + 256 * (f + 1))
  else if off = 0x0014 then sysFwState s
  else if off = 0x0018 then wOf (2 ^ s.boot.cause)
  else if off = 0x0100 then wOf s.time.dev
  else if off = 0x0104 then x.timeHi
  else if off = 0x0108 then timeStatus s.time
  else if off = 0x010C then (if s.time.passed = 0 then 0 else wOf s.lastBoundary)
  else if off = 0x0110 then (if s.time.tickRun then wOf s.time.period else 0)
  else if off = 0x0114 then s.time.ptmSeq
  else if off = 0x0118 then x.ptmDev.setWidth 32
  else if off = 0x011C then (x.ptmDev >>> 32).setWidth 32
  else if off = 0x0120 then x.ptmRoot.setWidth 32
  else if off = 0x0124 then (x.ptmRoot >>> 32).setWidth 32
  else if 0x0200 ≤ off && off ≤ 0x023C then tget x.staging (i - 0x80)
  else if off = 0x0244 then mbxStatus s f
  else if off = 0x0248 then wOf (b2n x.rspIe)
  else if 0x02C0 ≤ off && off ≤ 0x02FC then tget x.rspData (i - 0xB0)
  else if off = 0x1008 then irqRunning s (f + 1)
  else if off = 0x100C then wOf (b2n (s.target (f + 1)).enable)
  else if off = 0x1010 then wOf (s.target (f + 1)).srcSel
  else if off = 0x1014 then srcCfgWord s f (s.target (f + 1)).srcSel
  else if off = 0x1018 then srcCauseWord s f (s.target (f + 1)).srcSel
  else if off = 0x101C then wOf (b2n (s.target (f + 1)).eoiEmpty)
  else if 0x1020 ≤ off && off ≤ 0x105C then irqPend s (f + 1) (i - 0x408)
  else if 0x2000 ≤ off && off < 0x2800 then
    (let c := (off - 0x2000) / 64
     if c < s.nChan then windowWord (s.chan c).window (i % 16) else 0)
  else if 0x4000 ≤ off && off < 0x8000 then
    (let m := (off - 0x4000) / 64
     if flowVisible s f m then windowWord (s.flow m).window (i % 16) else 0)
  else 0

/-- R17. The access is of 32 bits; its offset is aligned. An access to a function that is not present reaches nobody. -/
def goodAccess (s : State) (f off size : Nat) : Bool := size == 4 && off % 4 == 0 && s.fnPresent f

/-- Choice 9. A completed read of `v` by function `f`. -/
def completeRead (f : Nat) (v : Word) (s : State) : State :=
  if s.fnPresent f then modFn f (fun x => { x with readData := v }) s else s

/-- R42. The read of TIME_LO: the low half, with the high half latched. -/
def readTimeLo (f : Nat) (s : State) : State :=
  completeRead f (wOf s.time.dev) (modFn f (fun x => { x with timeHi := wOf (s.time.dev / 4294967296) }) s)

/-- TIME_LO_READ, R42. -/
def execTimeLoRead (f size : Nat) (s : State) : Host.Outcome State Fault Refusal :=
  .next (if goodAccess s f 0x100 size then readTimeLo f s else completeRead f 0 s)

/-- R54. The read of TIME_PTM_SEQ: the count, with both times latched. -/
def readPtmSeq (f : Nat) (s : State) : State :=
  completeRead f s.time.ptmSeq (modFn f (fun x => { x with ptmDev := s.time.ptmDev, ptmRoot := s.time.ptmRoot }) s)

/-- TIME_PTM_SEQ_READ, R54. -/
def execTimePtmSeqRead (f size : Nat) (s : State) : Host.Outcome State Fault Refusal :=
  .next (if goodAccess s f 0x114 size then readPtmSeq f s else completeRead f 0 s)

/-- R11, R81, R102. The 64 staged bytes. -/
def stagedBytes (x : Fn) : List Byte := x.staging.toList.flatMap fun w => le 4 w.toNat

/-- R102. A request entry read from 64 bytes. -/
def entryOf (bs : List Byte) : Entry :=
  { opcode := BitVec.ofNat 16 (field bs 0 2)
    req :=
      { tag := BitVec.ofNat 16 (field bs 2 2), prio := BitVec.ofNat 8 (field bs 4 1), plen := BitVec.ofNat 8 (field bs 5 1)
        rsv6 := BitVec.ofNat 8 (field bs 6 1), csel := BitVec.ofNat 8 (field bs 7 1), fsel := BitVec.ofNat 16 (field bs 8 2)
        rsv10 := BitVec.ofNat 48 (field bs 10 6), payload := slice bs 16 48 } }

/-- R82, R83. Put an entry at the tail of function `f`'s request queue, or set REQ_OVF when it is full. -/
def pushRequest (f : Nat) (e : Entry) (s : State) : State :=
  modFn f (fun x =>
    if x.reqQ.length < 64 then
      { x with reqQ := x.reqQ ++ [{ entry := e, waited := 0, pushedAt := s.time.elapsed, promoted := false }] }
    else { x with reqOvf := true }) s

/-- MBX_REQ_PUSH, R82. -/
def execMbxReqPush (f size : Nat) (value : Word) (s : State) : Host.Outcome State Fault Refusal :=
  .next (if goodAccess s f 0x240 size && value.getLsbD 0 then pushRequest f (entryOf (stagedBytes (s.fn f))) s else s)

/-- R103. The 64 bytes of a response entry. -/
def Response.toBytes (r : Response) : List Byte :=
  fit 64 (le 2 r.opcode.toNat ++ le 2 r.tag.toNat ++ [r.status] ++ le 1 (b2n r.replay) ++ le 1 r.payload.length ++ [0#8]
    ++ le 8 r.tick.toNat ++ r.payload)

/-- R88. The IDLE descriptor. -/
def idleDescriptor : Response :=
  { opcode := 0, tag := 0xFFFF#16, status := St.ok, replay := false, tick := 0, payload := [] }

/-- The 16 words of 64 bytes. -/
def wordsOf (bs : List Byte) : Vector Word 16 := Vector.ofFn fun i => wOf (field bs (4 * i.val) 4)

/-- R80, R88. The pop: the head response, or the IDLE descriptor on an empty queue, into MBX_RSP_DATA. -/
def popResponse (f : Nat) (s : State) : State :=
  let r := (s.fn f).rspQ.head?.getD idleDescriptor
  let d := wordsOf r.toBytes
  completeRead f (tget d 0) (modFn f (fun x => { x with rspQ := x.rspQ.tail, rspData := d }) s)

/-- MBX_RSP_POP, R88. -/
def execMbxRspPop (f size : Nat) (s : State) : Host.Outcome State Fault Refusal :=
  .next (if goodAccess s f 0x280 size then popResponse f s else completeRead f 0 s)

/-- R89. A write of RSP_IE; a change from 0 to 1 with responses waiting sends one message. -/
def writeMbxCtrl (f : Nat) (value : Word) (s : State) : State :=
  let x := s.fn f
  let s1 := modFn f (fun y => { y with rspIe := value.getLsbD 0 }) s
  if value.getLsbD 0 && !x.rspIe && !x.rspQ.isEmpty then sendMsix f 1 s1 else s1

/-- MBX_CTRL_WRITE, R89. -/
def execMbxCtrlWrite (f size : Nat) (value : Word) (s : State) : Host.Outcome State Fault Refusal :=
  .next (if goodAccess s f 0x248 size then writeMbxCtrl f value s else s)

/-- R141, R144. The word an acknowledge of source `n` returns. -/
def ackWord (s : State) (n : Nat) : Word :=
  let x := tget s.irq.src n
  let lvl := (sourceKind n).getD false
  wOf (n + 32768 + (if lvl then 0 else 65536 * x.count) + 16777216 * x.prio + 268435456 * b2n (!lvl && x.sat)
    + 536870912 * b2n lvl)

/-- R144. Acknowledge at target `f + 1`: push, then clear the count or mark the source in service. -/
def acknowledge (f : Nat) (s : State) : State :=
  match bestSource s (f + 1) with
  | none => completeRead f 0 s
  | some n =>
    let lvl := (sourceKind n).getD false
    let w := ackWord s n
    let p := (tget s.irq.src n).prio
    let s1 := modTgt (f + 1) (fun t => { t with stack := (n, p) :: t.stack }) s
    let s2 := modSrc n (fun x => if lvl then { x with insvc := true } else { x with count := 0, sat := false }) s1
    completeRead f w (resignal (f + 1) s2)

/-- IRQ_ACK, R144. -/
def execIrqAck (f size : Nat) (s : State) : Host.Outcome State Fault Refusal :=
  .next (if goodAccess s f 0x1000 size then acknowledge f s else completeRead f 0 s)

/-- R145, R146, R150. End of interrupt at target `f + 1`. A source that has been routed elsewhere is not sampled. -/
def endOfInterrupt (f : Nat) (s : State) : State :=
  match (s.target (f + 1)).stack with
  | [] => modTgt (f + 1) (fun t => { t with eoiEmpty := true }) s
  | (n, _) :: rest =>
    let s1 := modTgt (f + 1) (fun t => { t with stack := rest }) s
    let s2 := if (tget s.irq.src n).route == f + 1 then modSrc n (fun x => { x with insvc := false }) s1 else s1
    resignal (f + 1) s2

/-- IRQ_EOI, R145. -/
def execIrqEoi (f size : Nat) (value : Word) (s : State) : Host.Outcome State Fault Refusal :=
  .next (if goodAccess s f 0x1004 size && value.getLsbD 0 then endOfInterrupt f s else s)

/-- R142. A write of IRQ_SRC_CFG for the source function `f` selected. -/
def writeSrcCfg (f : Nat) (value : Word) (s : State) : State :=
  let n := (s.target (f + 1)).srcSel
  let prio := bitsOf value.toNat 3 0
  let en := value.getLsbD 4
  let route := bitsOf value.toNat 12 8
  let keep := f != 0 || 256 ≤ n
  if srcStat s f n ≠ 0 then s
  else if !keep && route > 16 then s
  else
    let s1 := modSrc n (fun x => { x with prio := prio, en := en }) s
    let s2 := if keep then s1 else reroute n route s1
    resignal (tget s2.irq.src n).route s2

/-- IRQ_SRC_CFG_WRITE, R142. -/
def execIrqSrcCfgWrite (f size : Nat) (value : Word) (s : State) : Host.Outcome State Fault Refusal :=
  .next (if goodAccess s f 0x1014 size then writeSrcCfg f value s else s)

/-- R139, R142. A W1C write of the cause word of the selected source, when it is a level source routed to the function's
own target. -/
def writeSrcCause (f : Nat) (value : Word) (s : State) : State :=
  let n := (s.target (f + 1)).srcSel
  if srcStat s f n = 0 && (sourceKind n).getD false && (tget s.irq.src n).route == f + 1 then
    resignal (f + 1) (modSrc n (fun x => { x with cause := x.cause &&& ~~~value }) s)
  else s

/-- IRQ_SRC_CAUSE_WRITE, R139. -/
def execIrqSrcCauseWrite (f size : Nat) (value : Word) (s : State) : Host.Outcome State Fault Refusal :=
  .next (if goodAccess s f 0x1018 size then writeSrcCause f value s else s)

/-- R149. A write of ENABLE: set while SIGNAL is 1, it sends one message. -/
def writeIrqCtrl (f : Nat) (value : Word) (s : State) : State :=
  let t := s.target (f + 1)
  let s1 := modTgt (f + 1) (fun x => { x with enable := value.getLsbD 0 }) s
  if value.getLsbD 0 && !t.enable && (bestSource s (f + 1)).isSome then sendMsix f 0 s1 else s1

/-- IRQ_CTRL_WRITE, R149. -/
def execIrqCtrlWrite (f size : Nat) (value : Word) (s : State) : Host.Outcome State Fault Refusal :=
  .next (if goodAccess s f 0x100C size then writeIrqCtrl f value s else s)

/-- R14, R80, R141. A write of a register without a row of its own: the staging words and IRQ_SRC_SEL take the value,
MBX_STATUS.REQ_OVF and IRQ_STATUS.EOI_EMPTY are cleared by 1, every other register ignores it. -/
def writeOther (f off : Nat) (value : Word) (s : State) : State :=
  if 0x0200 ≤ off && off ≤ 0x023C then modFn f (fun x => { x with staging := tset x.staging (off / 4 - 0x80) value }) s
  else if off = 0x0244 then modFn f (fun x => { x with reqOvf := x.reqOvf && !value.getLsbD 16 }) s
  else if off = 0x1010 then modTgt (f + 1) (fun t => { t with srcSel := bitsOf value.toNat 8 0 }) s
  else if off = 0x101C then modTgt (f + 1) (fun t => { t with eoiEmpty := t.eoiEmpty && !value.getLsbD 0 }) s
  else s

/-- REGISTER_WRITE, R14. -/
def execRegisterWrite (f offset size : Nat) (value : Word) (s : State) : Host.Outcome State Fault Refusal :=
  .next (if goodAccess s f offset size then writeOther f offset value s else s)

/-- R149. Unmask a vector (or, for vector 2, the function mask): messages held are sent. -/
def unmask (f v : Nat) (s : State) : State :=
  let s1 := modFn f (fun x => if v = 2 then { x with fnMask := false } else { x with vecMask := tset x.vecMask v false }) s
  forEach [0, 1] (fun i t =>
    if tget (t.fn f).held i && !(t.fn f).fnMask && !tget (t.fn f).vecMask i then
      emit (.msix f i) (modFn f (fun x => { x with held := tset x.held i false }) t)
    else t) s1

/-- MSIX_UNMASK, R149. -/
def execMsixUnmask (f vector : Nat) (s : State) : Host.Outcome State Fault Refusal :=
  .next (if s.fnPresent f then unmask f vector s else s)

/-- R84, R85. Instants of 33,333,333 ns from the push that have passed while the tick has not been running. -/
def stoppedAge (s : State) (q : QEntry) : Nat :=
  if s.time.tickRun then 0
  else (s.time.elapsed - q.pushedAt) / 33333333 - (s.time.stoppedAt - q.pushedAt) / 33333333

/-- R84, R85. The entry has waited across 8 boundaries, or their timed equivalent. -/
def promotedNow (s : State) (q : QEntry) : Bool := q.promoted || 8 ≤ q.waited + stoppedAge s q

/-- R84. Elapsed time at which an entry that is not promoted would be, while the tick is not running. -/
def promotionAt (s : State) (q : QEntry) : Nat :=
  q.pushedAt + 33333333 * (8 - q.waited + (s.time.stoppedAt - q.pushedAt) / 33333333)

/-- R84, R85. Promote every entry that is due. -/
def promoteDue (s : State) : State :=
  { s with fns := s.fns.map fun x => { x with reqQ := x.reqQ.map fun q => { q with promoted := promotedNow s q } } }

/-- R85. While the tick is not running, time is carried to the first promotion ahead (choice 2). -/
def promotionTime (s : State) : Nat :=
  let l := (s.fns.toList.flatMap fun x => x.reqQ).filter fun q => !promotedNow s q
  match l.map (promotionAt s) with
  | [] => s.time.elapsed
  | a :: as => as.foldl min a

/-- REQUEST_PROMOTION, R84. -/
def execRequestPromotion (s : State) : Host.Outcome State Fault Refusal :=
  .next (promoteDue (if s.time.tickRun then s else advanceElapsed (promotionTime s) s))

/-- R85, R56, R40. When the tick begins to count, or restarts, the timed ageing so far is added to the count of boundaries. -/
def foldAges (s : State) : State :=
  { s with fns := s.fns.map fun x => { x with reqQ := x.reqQ.map fun q => { q with waited := q.waited + stoppedAge s q } } }

end Sys2Proof.Machine
end

