-- ==== Sys2Proof/Machine/Memory.lean ====
section
/-!
DEFINITION. The memory controllers: memory contents, address orders, inline ECC, sealed lines, the write buffer, refresh and
patrol scrub, and the events CHUNK_SERVICE_DONE, REFRESH_DUE, REFRESH_ISSUE, REFRESH_FORCED, MR4_READ and PATROL_SCRUB (R392 to
R416, R421, R546, R547).
-/
namespace Sys2Proof.Machine

/-! ### Contents (R394, choice 13: a byte that nothing has written reads 0) -/

/-- One byte of memory. -/
def memGet (m : List Host.Cell) (a : Nat) : Byte :=
  match m with
  | [] => 0
  | (k, v) :: rest => if a = k then v else memGet rest a

/-- Write one byte; a byte that reads as an unlisted one leaves the list. -/
def memSet (a : Nat) (b : Byte) : List Host.Cell → List Host.Cell
  | [] => if b = 0 then [] else [(a, b)]
  | (k, v) :: rest =>
    if a < k then (if b = 0 then (k, v) :: rest else (a, b) :: (k, v) :: rest)
    else if a = k then (if b = 0 then rest else (a, b) :: rest)
    else (k, v) :: memSet a b rest

/-- Write a byte string from an address on. -/
def memWrite (a : Nat) : List Byte → List Host.Cell → List Host.Cell
  | [], m => m
  | b :: bs, m => memWrite (a + 1) bs (memSet a b m)

/-- The canonical form: addresses strictly rising, and no entry that reads as an unlisted byte. -/
def Memory.wf : List Host.Cell → Bool
  | [] => true
  | [(_, v)] => v != 0
  | (k, v) :: (l, w) :: rest => v != 0 && k < l && Memory.wf ((l, w) :: rest)

/-- R412. A byte as a read sees it: the newest write-buffer entry that holds it, else memory. -/
def seenByte (d : Dmc) (a : Nat) : Byte :=
  match d.wbuf.reverse.find? fun e => e.addr ≤ a && a < e.addr + e.data.length with
  | some e => (e.data[a - e.addr]?).getD 0
  | none => memGet d.memory a

/-! ### Addresses (R394 to R398, R416) -/

/-- R395. Channel, bank and row of a controller address, and the column byte in its page. -/
def chanOf (a : Nat) : Nat := bitsOf a 10 8
def bankOf (order a : Nat) : Nat :=
  if order = 0 then bitsOf a 17 14
  else if order = 1 then bitsOf a 14 11
  else Nat.xor (Nat.xor (bitsOf a 14 11) (bitsOf a 21 18)) (bitsOf a 25 22)
def rowOf (a : Nat) : Nat := a / 262144
def columnOf (order a : Nat) : Nat := a % 256 + 256 * (if order = 0 then bitsOf a 13 11 else bitsOf a 17 15)

/-- R398. Row and column of the check word of a sector's address. -/
def checkRow (rowBits order a : Nat) : Nat × Nat :=
  (15 * 2 ^ rowBits / 16 + rowOf a / 16, rowOf a % 16 * 128 + 2 * (columnOf order a / 32))

/-- R392. Installed size of a controller in bytes: eight channels. -/
def installed (density : Nat) : Nat := density * 1073741824
def rowBitsOf (density : Nat) : Nat := if density = 4 then 14 else if density = 8 then 15 else 16

/-- R416. The pool of controller `i`, in whole 64 KiB pages. -/
def poolBytes (i size : Nat) (regions : List (Nat × Nat)) : Nat :=
  (size - size / 16 - sumOf regions (fun r => r.2 + r.2 / 8) - (if i = 0 then 268435456 else 0)) / 65536 * 65536

/-- R408. The sealed line that holds an address. -/
def inSealed (d : Dmc) (a : Nat) : Bool := d.sealed_.any fun r => r.1 ≤ a && a < r.1 + r.2

/-! ### Errors (R405, R406, R410, R421, R546, R547) -/

/-- R421. LAST_MASTER. -/
def masterCode : Master → Nat
  | .firmware => 0 | .ingress _ => 1 | .pipe _ => 2 | .enc _ _ => 3 | .itp _ _ => 4 | .dec _ => 5 | .egress => 6 | .tx _ => 7
  | .tarn => 8 | .loader => 9 | .scrub => 10

/-- R421. Record the last error. -/
def lastError (i : Nat) (m : Master) (a kind : Nat) (s : State) : State :=
  modDmc i (fun d => { d with lastAddr := i * 17179869184 + a, lastKind := kind, lastMaster := masterCode m }) s

/-- R405. What ECC finds in a sector that is read. -/
def eccFound (i : Nat) (m : Master) (sector : Nat) (e : EccFinding) (s : State) : State :=
  match e with
  | .clean => s
  | .correctable => raise (192 + 2 * i) 0 (lastError i m sector 1 (modDmc i (fun d => { d with ce := satAdd 0xFFFFFFFF d.ce 1 }) s))
  | .uncorrectable =>
    raise (193 + 2 * i) 0 (lastError i m sector 2 (modDmc i (fun d => { d with
      ue := satAdd 0xFFFFFFFF d.ue 1, poison := if d.poison.contains sector then d.poison else sector :: d.poison }) s))

/-- R410. A sealed line whose tag does not verify is poisoned as a whole. -/
def tagFailed (i : Nat) (m : Master) (line : Nat) (s : State) : State :=
  raise 196 0 (lastError i m line 3 (modDmc i (fun d => { d with
    tagFail := satAdd 0xFFFFFFFF d.tagFail 1, poison := ([line, line + 32].filter fun x => !d.poison.contains x) ++ d.poison }) s))

/-- R546, R550. Firmware becomes degraded until full reset. -/
def degrade (s : State) : State := assertFaultN 4 (modBoot (fun b => { b with degraded := true }) s)

/-- R511. Some sequencer of a class is powered. -/
def classPowered (s : State) (cls : Nat) : Bool :=
  let on (d : Nat) : Bool := (tget s.power.domains d).on
  if cls = 0 then on 2 else on 3 || on 4

/-- R61, R497 to R499. A job is finished by its completion path, from a point that is open (choice 6). -/
def completeJob (j : MeterJob) (s : State) : State :=
  let n := Config.freeNat s.fresh
  let s1 := { s with fresh := s.fresh + 1 }
  match j with
  | .pipe c => modChan c (fun x => match x.pipeJob, x.pipeCut with
      | some f, none => { x with pipeCut := some (n % (1 + ((f.cfg.bind.map Bind.height).getD 0)), true) }
      | _, _ => x) s1
  | .enc c st => modRun c st (fun r => if r.job.isSome && r.cut.isNone then { r with cut := some (n % (1 + encUnits s c st)) } else r) s1
  | .itp c st => modRun c st (fun r => if r.job.isSome && r.itpCut.isNone then { r with itpCut := some n } else r) s1
  | .dec h => modDec h (fun d => if d.job.isSome && d.cut.isNone then { d with cut := some (n % (1 + unitCount d)) } else d) s1

/-- R67, R136. A job was finished by its completion path: the cause of its engine. -/
def raiseOverrun (j : MeterJob) (s : State) : State :=
  match j with
  | .pipe c => raisePipe c 0 s
  | .enc c _ => raiseEnc c 0 s
  | .itp c _ => raiseEnc c 1 s
  | .dec h => raiseDec h 2 s

/-- R65, R302. The job still runs on its engine: it has not ended and has not been cut. -/
def jobRuns (s : State) (j : MeterJob) : Bool :=
  match j with
  | .pipe c => (s.chan c).pipeJob.any (fun f => f.outcome != .dropped) && (s.chan c).pipeCut.isNone
  | .enc c st =>
    let r := tget (s.chan c).runs st
    r.job.isSome && r.cut.isNone && r.current.isNone
  | .itp c st =>
    let r := tget (s.chan c).runs st
    (s.chan c).cfg.fine && r.job.any (fun f => f.outcome == .complete) && r.itpCut.isNone && !r.itpDone && r.current.isNone
  | .dec h => (s.decS h).job.isSome && (s.decS h).cut.isNone

/-- R67, R136, R497. A job's engine takes an error completion as an engine fault. -/
def engineFault (j : MeterJob) (s : State) : State := if jobRuns s j then raiseOverrun j (completeJob j s) else s

/-- The job of a data-path master. -/
def masterJob : Master → Option MeterJob
  | .pipe c => some (.pipe c) | .enc c st => some (.enc c st) | .itp c st => some (.itp c st) | .dec h => some (.dec h)
  | _ => none

/-- R406, R546, R547. Poison has been read. Firmware rebuilds its own data, and a line of a sealed region whichever master read it. -/
def poisonRead (i : Nat) (c : Chunk) (sectors : List Nat) (s : State) : State :=
  let rewrite (t : State) : State := modDmc i (fun d => { d with poison := d.poison.filter fun x => !sectors.contains x }) t
  match c.owner with
  | .other => s
  | .reference ch st => if c.master == .scrub then s else modRun ch st (fun r => { r with idrPending := true }) s
  | .decoded h o u => if c.master == .scrub then s
      else modDec h (fun d => { d with dpb := d.dpb.map fun p => if p.order = o then { p with marks := p.marks.set u 1 } else p }) s
  | .firmware copy =>
    if c.master == .firmware || sectors.any (inSealed (s.dmcN i)) then (if copy then rewrite s else degrade s) else s
  | .microcode cls => if classPowered s cls then rewrite s else degrade s
  | .auditStaging => rewrite (modRoles (fun r => { r with auditLost := true }) s)

/-- R405, R411, R546, R547. A refused write's error completion, as its master takes it: a data-path engine as a fault, firmware as it takes
poison that it reads. -/
def errorCompletion (i : Nat) (c : Chunk) (sectors : List Nat) (s : State) : State :=
  match masterJob c.master with
  | some j => engineFault j s
  | none => poisonRead i c sectors s

/-! ### Chunks (R397, R399, R400, R404, R410 to R412) -/

/-- The multiples of `n` from an address range's first to its last. -/
def blocks (n a len : Nat) : List Nat := if len = 0 then [] else (List.range ((a + len - 1) / n - a / n + 1)).map fun k => (a / n + k) * n

/-- R400. Serving an address opens its row. -/
def openRow (i a : Nat) (s : State) : State :=
  modDmc i (fun d => { d with chans := tmod d.chans (chanOf a) fun ch => { ch with rows := tset ch.rows (bankOf d.order a) (some (rowOf a)) } }) s

/-- R409. The tag of a line. -/
def lineTag (s : State) (i line : Nat) (bs : List Byte) : List Byte := fit 8 (mac (tagKey s) (le 8 (i * 17179869184 + line) ++ fit 64 bs))

/-- R404, R412. The 64 bytes of a line as a read sees them. -/
def lineBytesAt (d : Dmc) (line : Nat) : List Byte := (List.range 64).map fun k => seenByte d (line + k)

/-- R410, R415. The tag of a sealed line does not verify: the chunk found the line corrupted, the key is erased, or the tag kept for
the line is not that of its bytes. A line that has no tag yet has not been written (R409). -/
def tagBad (s : State) (i : Nat) (c : Chunk) (line : Nat) : Bool :=
  c.badLines.contains line || s.tarn.tampered
    || ((s.dmcN i).tags.find? fun t => t.1 == line).any fun t => t.2 != lineTag s i line (lineBytesAt (s.dmcN i) line)

/-- R404, R405. ECC of the sectors a chunk reads. -/
def checkSectors (i : Nat) (c : Chunk) (secs : List Nat) (s : State) : State :=
  forEach secs (fun x t => eccFound i c.master x (((c.findings.find? fun f => f.1 == x).map Prod.snd).getD .clean) t) s

/-- R404 to R406, R410. A read of a range: ECC of each sector and the tag of each sealed line, and what poison does. -/
def readRange (i : Nat) (c : Chunk) (a len : Nat) (s : State) : State :=
  let secs := blocks 32 a len
  let s1 := checkSectors i c secs s
  let bad := (blocks 64 a len).filter fun l => inSealed (s.dmcN i) l && tagBad s i c l
  let s2 := forEach bad (tagFailed i c.master) s1
  let hit := secs.filter fun x => (s2.dmcN i).poison.contains x
  if hit.isEmpty then s2 else poisonRead i c hit s2

/-- R412. An entry for the write buffer. -/
def bufferWrite (i a : Nat) (bs : List Byte) (s : State) : State := modDmc i (fun d => { d with wbuf := d.wbuf ++ [⟨a, bs⟩] }) s

def setTag (i line : Nat) (tag : List Byte) (s : State) : State :=
  modDmc i (fun d => { d with tags := (line, tag) :: d.tags.filter fun t => t.1 != line }) s

def unpoison (i : Nat) (secs : List Nat) (s : State) : State :=
  modDmc i (fun d => { d with poison := d.poison.filter fun x => !secs.contains x }) s

/-- R404, R405. A write within a 64-byte block of an ordinary region: sectors covered in part are read and merged; on a
poisoned one the write is not performed. -/
def ordinaryWrite (i : Nat) (c : Chunk) (a : Nat) (bs : List Byte) (s : State) : State :=
  let secs := blocks 32 a bs.length
  let whole := secs.filter fun x => a ≤ x && x + 32 ≤ a + bs.length
  let part := secs.filter fun x => !whole.contains x
  let s1 := checkSectors i c part s
  match part.find? fun x => (s1.dmcN i).poison.contains x with
  | some x => errorCompletion i c [x] (raise (193 + 2 * i) 0 (lastError i c.master x 4 s1))
  | none => unpoison i whole (bufferWrite i a bs s1)

/-- R404, R410, R411. A write within one sealed line. One that covers it in part reads the line; a line that holds poison cannot verify
(choice 120). -/
def sealedWrite (i : Nat) (c : Chunk) (a : Nat) (bs : List Byte) (s : State) : State :=
  let line := a / 64 * 64
  let old := lineBytesAt (s.dmcN i) line
  let new := (old.take (a - line) ++ bs ++ old.drop (a - line + bs.length)).take 64
  let done (t : State) : State := bufferWrite i line new (setTag i line (lineTag t i line new) t)
  if bs.length = 64 then done (unpoison i [line, line + 32] s)
  else
    let s1 := checkSectors i c [line, line + 32] s
    if tagBad s i c line || (s1.dmcN i).poison.contains line || (s1.dmcN i).poison.contains (line + 32) then
      errorCompletion i c [line, line + 32] (tagFailed i c.master line s1)
    else done s1

/-- The pieces of a write, cut at 64-byte boundaries; fuel a piece. -/
def pieces : Nat → Nat → List Byte → List (Nat × List Byte)
  | 0, _, _ => []
  | _, _, [] => []
  | k + 1, a, bs =>
    let n := 64 - a % 64
    (a, bs.take n) :: pieces k (a + n) (bs.drop n)

/-- R164. The read side's count is 0: nothing is there, or only the entry that its copy of the write pointer, up to three 800 MHz cycles old,
does not show (whether it does is open, choice 29). -/
def fifoEmpty (now fresh : Nat) (x : RxPort) : Bool :=
  x.fill == 0 || (x.fill == 1 && decide (now < x.wroteAt + 4) && Config.freeNat fresh % 2 == 1)

/-- R163, R399. A served chunk takes its entries from the oldest line; a chunk holds bytes of one line. -/
def drainLine : List FifoLine → List FifoLine
  | [] => []
  | l :: ls => dropOldest (if l.per < l.entries then { l with entries := l.entries - l.per } :: ls else ls)

/-- R163, R164. The line FIFO of a port after one served chunk; the write side sees the drain some cycles later. -/
def drainFifo (now fresh : Nat) (x : RxPort) : RxPort :=
  if fifoEmpty now fresh x then x
  else
    let l := drainLine x.fifo
    let gone := x.fill - sumOf l FifoLine.entries
    { x with fifo := l, lag := min (x.lag + gone) (fifoH x), drainedAt := now }

def realTime (i : Nat) (c : Chunk) (s : State) : State :=
  let s1 := modDmc i (fun d => { d with maxWait := max d.maxWait (min 65535 c.waited) }) s
  match c.master with
  | .ingress p => modRx p (drainFifo s.time.elapsed s.fresh) { s1 with fresh := s.fresh + 1 }
  | _ => s1

def isRealTime : Master → Bool
  | .ingress _ => true
  | .tx _ => true
  | _ => false

/-- R412, R414. The oldest entry of the write buffer is issued to the memory. -/
def drainEntry (i : Nat) (s : State) : State :=
  match (s.dmcN i).wbuf with
  | [] => s
  | e :: rest => modDmc i (fun d => { d with wbuf := rest, memory := memWrite e.addr e.data d.memory }) (openRow i e.addr s)

/-- R412. Entries are issued, oldest first, until `n` more find room among the 64 (choice 120). -/
def makeRoom (i n : Nat) (s : State) : State :=
  forEach (List.range ((s.dmcN i).wbuf.length + n - 64)) (fun _ => drainEntry i) s

/-- R399, R404 to R412. One chunk is served. -/
def chunkDone (i : Nat) (c : Chunk) (s : State) : State :=
  let rt := isRealTime c.master
  match c.kind with
  | .read len =>
    let s1 := readRange i c c.addr len (openRow i c.addr s)
    if rt then realTime i c s1 else s1
  | .write data =>
    if rt then
      realTime i c (unpoison i (blocks 32 c.addr data.length) (modDmc i (fun d => { d with memory := memWrite c.addr data d.memory }) (openRow i c.addr s)))
    else
      let ps := pieces 5 c.addr data
      forEach ps (fun p t => if inSealed (s.dmcN i) p.1 then sealedWrite i c p.1 p.2 t else ordinaryWrite i c p.1 p.2 t) (makeRoom i ps.length s)
  | .drain => drainEntry i s

/-- Length of a chunk. -/
def chunkLen (c : Chunk) : Nat := match c.kind with | .read n => n | .write d => d.length | .drain => 0

/-- R397, R399. The chunk is one that a master can issue: at most 256 bytes within a 256-byte block, and all of it for a
real-time master. -/
def chunkGood (c : Chunk) : Bool :=
  c.addr % 256 + chunkLen c ≤ 256 && (!isRealTime c.master || (c.addr % 256 == 0 && chunkLen c == 256))

/-- CHUNK_SERVICE_DONE, R399. In self-refresh requests are held, and while it is entered only the buffer drains (R413). -/
def execChunkServiceDone (dmc : Nat) (c : Chunk) (s : State) : Host.Outcome State Fault Refusal :=
  let d := s.dmcN dmc
  if s.nDmc ≤ dmc then .refused (.noSuchUnit "memory controller" dmc)
  else if !chunkGood c then .refused (.noSuchUnit "chunk of bytes" (chunkLen c))
  else if c.kind != .drain && d.size < c.addr + chunkLen c then .fault (.noSuchAddress dmc c.addr)
  else if d.selfRef || d.leaving || (d.entering && c.kind != .drain) then .next s
  else .next (chunkDone dmc c s)

/-! ### Refresh (R401, R402) and scrub (R407) -/

def modMem (i ch : Nat) (g : MemChan → MemChan) (s : State) : State := modDmc i (fun d => { d with chans := tmod d.chans ch g }) s

/-- The channel exists and is not in self-refresh. -/
def refreshing (s : State) (i ch : Nat) : Option (Host.Outcome State Fault Refusal) :=
  if s.nDmc ≤ i then some (.refused (.noSuchUnit "memory controller" i))
  else if 8 ≤ ch then some (.refused (.noSuchUnit "memory channel" ch))
  else if !(s.dmcN i).trained || (s.dmcN i).selfRef then some (.next s)
  else none

/-- REFRESH_DUE, R401. Debt never exceeds 8. -/
def execRefreshDue (dmc mch : Nat) (s : State) : Host.Outcome State Fault Refusal :=
  match refreshing s dmc mch with
  | some o => o
  | none =>
    let n := min 8 ((tget (s.dmcN dmc).chans mch).debt + 1)
    .next (modDmc dmc (fun d => { d with debtMax := max d.debtMax n }) (modMem dmc mch (fun c => { c with debt := n }) s))

/-- R400, R401. One all-bank refresh: a refresh less is owed, and every row of the channel is closed. -/
def refreshOnce (i ch : Nat) (s : State) : State :=
  modMem i ch (fun c => { c with debt := c.debt - 1, rows := Vector.replicate 16 none }) s

/-- REFRESH_ISSUE, R401. -/
def execRefreshIssue (dmc mch : Nat) (s : State) : Host.Outcome State Fault Refusal :=
  match refreshing s dmc mch with
  | some o => o
  | none => .next (if 0 < (tget (s.dmcN dmc).chans mch).debt then refreshOnce dmc mch s else s)

/-- REFRESH_FORCED, R402. -/
def execRefreshForced (dmc mch : Nat) (s : State) : Host.Outcome State Fault Refusal :=
  match refreshing s dmc mch with
  | some o => o
  | none =>
    .next (if (tget (s.dmcN dmc).chans mch).debt = 8 then
        raise 198 0 (modDmc dmc (fun d => { d with forced := satAdd 0xFFFFFFFF d.forced 1 }) (refreshOnce dmc mch s))
      else s)

/-- MR4_READ, R401. The multiplier in quarters: 4, 2 or 1. -/
def execMr4Read (dmc mch : Nat) (mult : Nat) (s : State) : Host.Outcome State Fault Refusal :=
  match refreshing s dmc mch with
  | some o => o
  | none => if mult = 1 ∨ mult = 2 ∨ mult = 4 then .next (modMem dmc mch (fun c => { c with mult := mult }) s) else .next s

/-- PATROL_SCRUB, R407. -/
def execPatrolScrub (dmc sector : Nat) (e : EccFinding) (s : State) : Host.Outcome State Fault Refusal :=
  if s.nDmc ≤ dmc then .refused (.noSuchUnit "memory controller" dmc)
  else if (s.dmcN dmc).size < sector / 32 * 32 + 32 then .fault (.noSuchAddress dmc sector)
  else if (s.dmcN dmc).selfRef then .next s
  else .next (eccFound dmc .scrub (sector / 32 * 32) e (openRow dmc sector (modDmc dmc (fun d => { d with scrubbed := d.scrubbed + 1 }) s)))

/-- R415. Tamper: buffered writes to sealed regions are discarded, and the rest is drained. -/
def tamperBuffers (s : State) : State :=
  forEach [0, 1] (fun i => modDmc i fun d =>
    { d with memory := (d.wbuf.filter fun e => !inSealed d e.addr).foldl (fun m e => memWrite e.addr e.data m) d.memory, wbuf := [] }) s

/-! ### Commands (R421) -/

/-- R419. HELD, BOOKED and the objects of a controller's pool, in bytes. -/
def poolHeld (s : State) (i : Nat) : Nat := 65536 * sumOf (s.buffers.filter fun b => b.dmc == i && b.held) PoolBooking.pages
def poolBooked (s : State) (i : Nat) : Nat := 65536 * sumOf (s.buffers.filter fun b => b.dmc == i) PoolBooking.pages
def poolObjects (s : State) (i : Nat) : Nat := (((s.buffers.filter fun b => b.dmc == i).map PoolBooking.key).eraseDups).length

/-- R420. LOW_MARK in bytes, and the condition. -/
def lowMark (pool : Nat) : Nat := pool / 16 / 65536 * 65536
def poolLow (s : State) : Bool :=
  [0, 1].any fun i => (s.dmcN i).fitted && (s.dmcN i).pool - poolBooked s i < lowMark (s.dmcN i).pool

/-- R421. Controllers a query may name. -/
def dmcPresent (s : State) (q : Request) : Bool := 2 ≤ q.u 16 1 || q.u 16 1 < s.nDmc

/-- MEM_MAP_QUERY, R421, R582. -/
def memMapQueryB : Behaviour where
  reserved q := q.zero 17 3
  present s q := dmcPresent s q
  fields _ c := need (c.q.u 16 1 ≤ 1) St.range
  run c s :=
    let i := c.q.u 16 1
    let d := s.dmcN i
    if !d.fitted then (.done St.ok (le 1 i ++ zeros 15), s)
    else (.done St.ok (le 1 i ++ le 1 d.order ++ le 1 d.rowBits
      ++ le 1 (b2n d.trained + 2 * b2n d.selfRef + 4 * b2n (d.chans.toList.any fun c => c.mult < 4)) ++ le 2 d.rate ++ le 2 d.density
      ++ le 4 (d.size / 1048576) ++ le 4 (cdiv (sumOf d.sealed_ fun r => r.2 + r.2 / 8) 1048576)), s)

/-- MEM_POOL_QUERY, R421, R582. -/
def memPoolQueryB : Behaviour where
  reserved q := q.zero 17 3
  present s q := dmcPresent s q
  fields _ c := need (c.q.u 16 1 ≤ 1) St.range
  run c s :=
    let i := c.q.u 16 1
    let d := s.dmcN i
    if !d.fitted then (.done St.ok (zeros 32), s)
    else (.done St.ok (le 8 d.pool ++ le 8 (poolHeld s i) ++ le 8 (poolBooked s i) ++ le 4 (lowMark d.pool) ++ le 4 (poolObjects s i)), s)

/-- MEM_ERR_QUERY, R421, R582. -/
def memErrQueryB : Behaviour where
  reserved q := q.zero 17 3
  present s q := dmcPresent s q
  fields _ c := need (c.q.u 16 1 ≤ 1) St.range
  run c s :=
    let d := s.dmcN (c.q.u 16 1)
    if !d.fitted then (.done St.ok (zeros 32), s)
    else (.done St.ok (le 4 d.ce ++ le 4 d.ue ++ le 4 d.tagFail ++ le 4 d.forced ++ le 8 d.lastAddr ++ le 1 d.lastKind ++ le 1 d.lastMaster
      ++ le 2 d.maxWait ++ le 1 d.debtMax ++ zeros 3), s)

end Sys2Proof.Machine
end

