-- ==== Sys2Proof/Machine/Ledger.lean ====
section
/-!
DEFINITION. The fret ledger: capacities, what the configuration books, placement, the pools, the route rule, and the release
of replaced bookings (R61 to R65, R384, R416 to R420, R578, R579).
-/
namespace Sys2Proof.Machine

/-! ### Capacity (R61, R393, R518, R522, R527) -/

/-- R1, R61, R582. The part has the engine, and the board fits it. -/
def enginePresent (s : State) (e : Engine) : Bool :=
  if 4 ≤ e && e < 8 then e - 4 < s.nEnc
  else if e = 9 ∨ e = 10 then e - 9 < s.nDec
  else if e = 11 ∨ e = 12 then e - 11 < s.nDmc && (s.dmcN (e - 11)).fitted
  else e < 14

/-- R520. The level a domain's bookings count with: a lower frequency is booked at once. -/
def bookLevel (s : State) (d : Nat) : Nat := (tget s.power.domains d).levelNext.getD (tget s.power.domains d).level

/-- R61. Four times an engine's hundredths of a work unit in a ns, with its denominator; 0 where it has no capacity. -/
def capacity (s : State) (e : Engine) (level : Nat) : Nat × Nat :=
  if !enginePresent s e then (0, 1)
  else match engineDomain e with
    | none => if (s.dmcN (e - 11)).selfRef || (s.dmcN (e - 11)).entering then (0, 1) else (24 * (s.dmcN (e - 11)).rate, 5)
    | some d => if (tget s.power.domains d).on && !(tget s.power.domains d).failed then (engineRate e * (4 - level), 1) else (0, 1)

/-- R62. Frets of a cost on an engine; none where the engine has no capacity. -/
def fretsOf (s : State) (e : Engine) (level cost : Nat) : Option Nat :=
  let c := capacity s e level
  let den := c.1 * periodOf s
  if cost = 0 then some 0 else if den = 0 then none else some (cdiv (4096 * 4 * cost * c.2) den)

/-- R62 at the level that bookings count with. -/
def fretsNow (s : State) (e : Engine) (cost : Nat) : Option Nat :=
  fretsOf s e (((engineDomain e).map (bookLevel s)).getD 0) cost

/-! ### What a configuration books (R62, R578) -/

/-- A job to book: its key, the engines it may be placed on, its cost in hundredths, and its ticks. -/
structure Job where
  key : JobKey
  engines : List Engine
  cost : Nat
  div : Nat
  phase : Nat
deriving DecidableEq, Repr, Inhabited

/-- R62. Stored bytes of a raw pixel. -/
def rawUnit (dt : Nat) : Nat := if dt = 0x2A then 1 else if dt = 0x2F || dt = 0x27 then 4 else 2

/-- R230, R225. Payload bytes of a window. -/
def payloadBytes (w : Window) : Nat :=
  let n := w.outW * w.outH
  if w.format = 0x01 || w.format = 0x21 || w.format = 0x11 then 3 * n
  else if w.format = 0x02 then 2 * n
  else if w.format = 0x10 then n * 3 / 2
  else if w.format = 0x22 then
    (if w.pyramid then sumOf [1, 2, 4, 8, 16] (fun k => 2 * (w.outW / k * (w.outH / k))) else 2 * n)
  else n

/-- R417. Pages of `n` buffers of `b` bytes. -/
def pagesOf (n b : Nat) : Nat := n * cdiv b 65536

def pipes : List Engine := [0, 1, 2, 3]
def encs : List Engine := [4, 5, 6, 7]
def decs : List Engine := [9, 10]
def dmcs : List Engine := [11, 12]

/-- R28, R578. The residue of a channel's pipeline ticks; encode ticks are one later. -/
def pipePhase (r : Rate) : Nat := (r.slot + b2n (r.phase != 0)) % max 1 r.div

/-- R62. The jobs of a channel's frame. -/
def frameJobs (s : State) (c : Nat) (r : Rate) (b : Bind) : List Job :=
  let x := (s.chan c).cfg
  let bytes := b.width * b.height * rawUnit b.dt
  let raws := (consumers s (.raw c)).length
  [⟨⟨0, c, 0⟩, pipes, pipeCost s x, r.div, pipePhase r⟩,
   ⟨⟨1, c, 0⟩, dmcs, 100 * ((2 + raws) * bytes), r.div, pipePhase r⟩]

/-- The jobs of window `i` of a channel. -/
def windowJobs (s : State) (c i : Nat) (r : Rate) : List Job :=
  match tget (s.chan c).cfg.windows i with
    | none => []
    | some w =>
      let n := (consumers s (.window c i)).length
      if isCoding w.format then [⟨⟨2, c, i⟩, dmcs, 100 * payloadBytes w, r.div, pipePhase r⟩]
      else
        [⟨⟨2, c, i⟩, dmcs, 100 * ((64 + payloadBytes w) * (1 + n)), r.div, pipePhase r⟩]
          ++ (if isVision w.format && s.hasVision && !w.unsealed then [⟨⟨3, c, i⟩, [13], 409600, r.div, pipePhase r⟩] else [])

/-- The jobs of an enabled stream of a channel. A stream whose window is absent keeps what it has booked (R227). -/
def streamJobs (s : State) (c st : Nat) (r : Rate) : List Job :=
  let x := (s.chan c).cfg
  let t := (pipePhase r + 1) % max 1 r.div
    let k := tget x.streams st
    if !k.enable then []
    else match tget x.windows k.win, streamDims x k with
      | some w, some d =>
        let cap := auCap s x k
        let pic := payloadBytes w
        [⟨encKey c st, encs, encCost s x st, r.div, t⟩]
          ++ (if x.fine then [⟨itpKey c st, [8], 100 * d.1 * d.2, r.div, t⟩] else [])
          ++ [⟨⟨6, c, st⟩, dmcs, 100 * (5 * pic + 2 * cap), r.div, t⟩, ⟨⟨7, c, st⟩, [13], 100 * (cap + 4096), r.div, t⟩]
      | _, _ => (s.bookings.filter fun b => b.release.isNone && 4 ≤ b.key.kind && b.key.kind ≤ 7 && b.key.obj == c && b.key.sub == st).map
          fun b => ⟨b.key, [b.engine], b.cost, b.div, b.phase⟩

/-- R349. Bytes of the converted copy of an output picture. -/
def copyBytes (d : DecStream) : Nat :=
  if d.outMode ≠ 1 then 0
  else if d.outDt = 0x02 || d.outDt = 0x1E then 2 * d.width * d.height
  else if d.outDt = 0x18 && d.bit10 then d.width * d.height * 3 / 2 else 0

/-- The jobs of an open decode stream. -/
def decJobs (s : State) (h : Nat) : List Job :=
  let d := s.decS h
  let au := ((levelOf d.codec d.level).map fun l => lAu d.codec l d.width d.height (d.div * periodOf s)).getD 0
  [⟨⟨8, h, 0⟩, decs, decCost d, d.div, d.slot⟩,
   ⟨⟨9, h, 0⟩, dmcs, 100 * (5 * (pictureBytes d + copyBytes d) + 2 * au), d.div, d.slot⟩]

/-- The jobs of one kind of object of every enabled channel, ascending. -/
def chanJobs (s : State) (g : Nat → Rate → Bind → List Job) : List Job :=
  s.enabledChans.flatMap fun c => match (s.chan c).cfg.rate, (s.chan c).cfg.bind with
    | some r, some b => g c r b
    | _, _ => []

/-- R62, R578, R579. Everything a state's configuration books, in the order of placement: channels, then streams, then decode handles,
then windows (choice 70). -/
def jobsOf (s : State) : List Job :=
  chanJobs s (frameJobs s) ++ chanJobs s (fun c r _ => streamJobs s c 0 r ++ streamJobs s c 1 r)
    ++ (idx 32 fun h => (s.decS h).isOpen).flatMap (decJobs s)
    ++ chanJobs s (fun c r _ => (List.range 4).flatMap fun i => windowJobs s c i r)

/-! ### Phase totals and placement (R63, R64, R579) -/

/-- R63. The least common multiple of the divisors. -/
def lcmOf (bs : List Booking) (js : List Job) : Nat :=
  ((bs.map Booking.div) ++ (js.map Job.div)).foldl (fun a d => Nat.lcm a (max 1 d)) 1

/-- R63. Frets booked on an engine in phase `t`. -/
def phaseTotal (bs : List Booking) (e : Engine) (t : Nat) : Nat :=
  sumOf (bs.filter fun b => b.engine == e && t % max 1 b.div == b.phase) Booking.frets

/-- R63. The largest phase total of an engine. -/
def worstPhase (bs : List Booking) (e : Engine) (l : Nat) : Nat := (List.range l).foldl (fun a t => max a (phaseTotal bs e t)) 0

def fretLimit : Nat := 3768

/-- R579. Place one job: on the engine where the largest resulting phase total is least, the lowest-numbered of them. -/
def placeJob (s : State) (l from_ : Nat) (bs : List Booking) (j : Job) : Option (List Booking) :=
  let tries := j.engines.filterMap fun e => (fretsNow s e j.cost).map fun f =>
    let b : Booking := { key := j.key, engine := e, cost := j.cost, frets := f, div := j.div, phase := j.phase, from_ := from_, held := false, release := none }
    (worstPhase (bs ++ [b]) e l, b)
  let best := tries.foldl (fun (a : Option (Nat × Booking)) x => match a with
    | none => some x
    | some y => if x.1 < y.1 then some x else a) none
  match best with
  | some (w, b) => if w ≤ fretLimit then some (bs ++ [b]) else none
  | none => none

/-- R579. Place jobs one at a time. -/
def placeAll (s : State) (l from_ : Nat) : List Job → List Booking → Option (List Booking)
  | [], bs => some bs
  | j :: js, bs => (placeJob s l from_ bs j).bind (placeAll s l from_ js)

/-- R579. A booking stands for a job that the change does not re-cost. -/
def stands (b : Booking) (j : Job) : Bool :=
  b.release.isNone && b.key == j.key && b.cost == j.cost && b.div == j.div && b.phase == j.phase

/-! ### The pools (R416, R417, R419) -/

/-- R417. The buffers of the objects of a state's configuration: the row, its DMC job, and its pages. -/
def frameBuffers (s : State) (c : Nat) (r : Rate) (b : Bind) : List (JobKey × JobKey × Nat) :=
  [(⟨0, c, 0⟩, ⟨1, c, 0⟩, pagesOf ((if r.div = 1 then 3 else 2) + b2n (!(consumers s (.raw c)).isEmpty)) (b.width * b.height * rawUnit b.dt + 8192))]

def windowBuffers (s : State) (c : Nat) : List (JobKey × JobKey × Nat) :=
  (List.range 4).filterMap fun i => (tget (s.chan c).cfg.windows i).map fun w =>
    (⟨1, c, i⟩, ⟨2, c, i⟩, if isCoding w.format then pagesOf 2 (payloadBytes w)
      else pagesOf (2 + 2 * (consumers s (.window c i)).length) (64 + payloadBytes w))

/-- A stream whose window is absent keeps what it has booked (R227). -/
def streamBuffers (s : State) (c : Nat) : List (JobKey × JobKey × Nat) :=
  let x := (s.chan c).cfg
  [0, 1].flatMap fun st =>
    let k := tget x.streams st
    if !k.enable then []
    else match tget x.windows k.win, streamDims x k with
      | some w, some d =>
        [(⟨2, c, st⟩, ⟨6, c, st⟩, pagesOf (k.refs + k.ltrs + 1) (payloadBytes w + 16 * ctuCount d)),
         (⟨3, c, st⟩, ⟨6, c, st⟩, pagesOf (2 + 2 * (consumers s (.coded c st)).length) (auCap s x k))]
      | _, _ => (s.buffers.filter fun b => b.release.isNone && (b.key.kind == 2 || b.key.kind == 3) && b.key.obj == c && b.key.sub == st).map
          fun b => (b.key, ⟨6, c, st⟩, b.pages)

def decBuffers (s : State) (h : Nat) : List (JobKey × JobKey × Nat) :=
  let d := s.decS h
  let item := 64 + max (pictureBytes d) (copyBytes d) + cdiv (unitCount d) 4
  let dpb := ((levelOf d.codec d.level).map fun l => maxDpb d.codec l d.width d.height).getD 0 + 1
  [(⟨4, h, 0⟩, ⟨9, h, 0⟩, pagesOf dpb (pictureBytes d + 16 * unitCount d)),
   (⟨5, h, 0⟩, ⟨9, h, 0⟩, pagesOf ((if d.outMode = 1 then 4 else 2) * (1 + b2n (0 < copyBytes d))) item),
   (⟨6, h, 0⟩, ⟨9, h, 0⟩, pagesOf 1 (feedBytes d (periodOf s)))]

def buffersOf (s : State) : List (JobKey × JobKey × Nat) :=
  (s.enabledChans.flatMap fun c => match (s.chan c).cfg.rate, (s.chan c).cfg.bind with
    | some r, some b => frameBuffers s c r b ++ windowBuffers s c ++ streamBuffers s c
    | _, _ => []) ++ (idx 32 fun h => (s.decS h).isOpen).flatMap (decBuffers s)

/-- R416. The controller of an object, that of its DMC job. -/
def dmcOf (bs : List Booking) (job : JobKey) : Nat :=
  (((bs.filter fun b => b.release.isNone && b.key == job).getLast?).map fun b => b.engine - 11).getD 0

/-- R419. The buffers after a change whose jobs are `bs`; the replaced ones go at boundary `rel`. -/
def repool (s t : State) (from_ : Nat) (rel : JobKey → Nat) (bs : List Booking) : List PoolBooking :=
  let want := (buffersOf t).map fun o => (o.1, dmcOf bs o.2.1, o.2.2)
  let same (b : PoolBooking) (o : JobKey × Nat × Nat) : Bool := b.release.isNone && b.key == o.1 && b.dmc == o.2.1 && b.pages == o.2.2
  (s.buffers.map fun b => if b.release.isNone && !want.any (same b) then { b with release := some (rel b.key) } else b)
    ++ (want.filter fun o => !s.buffers.any fun b => same b o).map fun o =>
      { key := o.1, dmc := o.2.1, pages := o.2.2, from_ := from_, held := false, release := none }

/-- R419. The added pages fit each pool. -/
def poolsFit (s : State) (old new : List PoolBooking) : Bool :=
  [0, 1].all fun i =>
    let pages (l : List PoolBooking) : Nat := sumOf (l.filter fun b => b.dmc == i) PoolBooking.pages
    pages new == pages old || 65536 * pages new ≤ (s.dmcN i).pool

/-! ### A change (R63, R64, R419) -/

/-- What is booked: the jobs, and the buffers. -/
abbrev Books := List Booking × List PoolBooking

def withBooks (b : Books) (s : State) : State := { s with bookings := b.1, buffers := b.2 }

/-- R64, R579. A booking that a change with the jobs `js` removes or re-costs. -/
def replaced (js : List Job) (b : Booking) : Bool := b.release.isNone && !js.any (stands b)

/-- R63, R64, R419, R579. The books after a change whose configuration is that of `t`, effective at boundary `from_`: what it removes or
re-costs is taken out, the rest stands, and its new jobs are placed; then what was taken out is booked beside them until `rel`, and replaced
buffers until `relBuf`. None where it is not admitted. The change's own test does not count the frets that it replaces; a further command's
does. The spec does not say so of its own test (DESIGN CHOICE, choice 98). -/
def rebook (s t : State) (from_ : Nat) (rel relBuf : JobKey → Nat) : Option Books :=
  let js := jobsOf t
  let gone := (s.bookings.filter (replaced js)).map fun b => { b with release := some (rel b.key) }
  let new := js.filter fun j => !s.bookings.any fun b => stands b j
  match placeAll t (lcmOf s.bookings js) from_ new (s.bookings.filter fun b => !replaced js b) with
  | some l =>
    let books := gone ++ l
    if poolsFit t s.buffers (repool s t from_ relBuf books) then some (books, repool s t from_ relBuf books) else none
  | none => none

/-! ### When replaced bookings go (R64, R161, R162, R356) -/

/-- R27, R64. The boundary that ends the last job of frames whose FSYNC leaves before boundary `k`: `stage` 1 for the pipeline,
2 for the encoder. -/
def lastJobEnd (s : State) (c k stage : Nat) : Nat :=
  match (s.chan c).cfg.rate with
  | none => k
  | some r =>
    let d := max 1 r.div
    let b := k - 1 - (k - 1 - r.slot) % d
    if k = 0 ∨ k - 1 < r.slot ∨ ((s.chan c).enabled && decide (b < (s.chan c).runFrom)) then k
    else max k (b + d + b2n (r.phase != 0) + stage)

/-- R64. A command whose settings bind to a frame at FSYNC, or that stops a run. -/
def framesBound (o : Op) : Bool :=
  [Op.chanStop, .chanPipeSet, .chanWindowSet, .chanWindowClear, .chanLutLoad, .seqHookSet, .seqPatchApply].contains o

/-- R33, R64, R507. A command whose settings of the encode tick bind at the boundary itself. -/
def hooksBound (o : Op) : Bool := o == .seqHookSet || o == .seqPatchApply

/-- R64, R162, R356. The boundary at which a booking that a command replaces is released. -/
def releaseAt (s : State) (o : Op) (k : Nat) (key : JobKey) : Nat :=
  if framesBound o && key.kind ≤ 3 then lastJobEnd s key.obj k 1
  else if hooksBound o && key.kind ≤ 7 then k
  else if framesBound o && key.kind ≤ 7 then lastJobEnd s key.obj k 2
  else if o = .decClose && key.kind = 9 then k + 1 else k

/-- R162, R356, R419. The boundary at which the buffers of a replaced object return: a stopped run's after its last job, a closed
decode stream's after its last picture, and any other's when the change takes effect. -/
def buffersAt (s : State) (o : Op) (k : Nat) (key : JobKey) : Nat :=
  if o = .chanStop then lastJobEnd s key.obj k (if key.kind ≤ 1 then 1 else 2)
  else if o = .decClose then k + 1 else k

/-! ### The route rule (R384) -/

/-- R384, R367. What a flow reserves on a port: nothing while it neither is active nor has bytes under way. -/
def reserved (s : State) (m : Nat) : Nat := if (s.flow m).active || (s.flow m).stopping then flowW s m else 0

/-- R384, R64. The sum of a chain of states, a value that does not change counted once. -/
def changeSum : List Nat → Nat
  | [] => 0
  | [a] => a
  | a :: b :: r => if a = b then changeSum (b :: r) else a + changeSum (b :: r)

/-- R386. The allotment a flow holds or is about to take. -/
def allotment (s t : State) (m : Nat) : Nat := max (s.flow m).allot (if (t.flow m).active then 2 * lMax t m else 0)

/-- R384. The route rule over the states from `s` on, the last of them with the command; a port that the command does not change is
not tested. -/
def routesFit (s t : State) (chain : List State) (p : Nat) : Bool :=
  let ms := idx 256 fun m => (t.fcfg m).route == p
  let b := (chain.dropLast.getLast?).getD s
  let touched := ms.any fun m => reserved b m != reserved t m || (b.flow m).active != (t.flow m).active
  !touched || (100 * sumOf ms (fun m => changeSum (chain.map fun x => reserved x m)) ≤ 92 * portCap s p
    && sumOf ms (allotment s t) ≤ portCredit p)

/-! ### Levels (R518, R520) -/

/-- The bookings with an engine domain at another level; none where a job then has no capacity. -/
def relevel (s : State) (d level : Nat) (bs : List Booking) : Option (List Booking) :=
  bs.mapM fun b => if engineDomain b.engine == some d then (fretsOf s b.engine level b.cost).map fun f => { b with frets := f } else some b

/-- R520. Every phase total of the domain's engines stays within the limit. -/
def levelFits (s : State) (d level : Nat) : Option (List Booking) :=
  match relevel s d level s.bookings with
  | none => none
  | some l =>
    if (List.range 14).all fun e => engineDomain e != some d || worstPhase l e (lcmOf l []) ≤ fretLimit then some l else none

/-! ### At a boundary (R64, R419) -/

/-- R64, R419. At boundary `k` replaced bookings go, and pages booked for it are taken. -/
def ledgerTick (k : Nat) (s : State) : State :=
  let stays : Option Nat → Bool
    | some r => decide (k < r)
    | none => true
  { s with
    bookings := (s.bookings.filter fun b => stays b.release).map fun b => { b with held := b.held || decide (b.from_ ≤ k) }
    buffers := (s.buffers.filter fun b => stays b.release).map fun b => { b with held := b.held || decide (b.from_ ≤ k) } }

/-- R65. The metered use of the tick that ends joins the last 256. -/
def metersTick (s : State) : State :=
  { s with meters := s.meters.map fun m => { m with history := (m.now :: m.history).take 256, now := 0 } }

end Sys2Proof.Machine
end

