-- ==== Sys2Proof/Machine/Sequencer.lean ====
section
/-!
DEFINITION. The sequencers: store images and patches, hooks, and the events CYCLE_METER_EXPIRY and SEQ_WATCHDOG (R66 to R68, R479 to
R481, R497 to R509).
-/
namespace Sys2Proof.Machine

/-! ### Images and patches (R500, R501, R504) -/

/-- A microword of 20 bytes. -/
def wordAt (bs : List Byte) (off : Nat) : BitVec 160 := BitVec.ofNat 160 (field bs off 20)

/-- R501. A routine entry. -/
def routineAt (bs : List Byte) (off : Nat) : Routine :=
  { entry := field bs off 2, hooks := field bs (off + 2) 1, depth := field bs (off + 3) 1, fixc := field bs (off + 4) 4
    pers := field bs (off + 8) 4, gapMax := field bs (off + 12) 2, disabled := false }

def routinesAt (bs : List Byte) (off n : Nat) : List Routine := (List.range n).map fun i => routineAt bs (off + 16 * i)

/-- R501. The entries of a table are good; `lo` and `hi` bound the addresses of the image's words. -/
def tableGood (bs : List Byte) (off n lo hi : Nat) : Bool :=
  (List.range n).all fun i =>
    let r := routineAt bs (off + 16 * i)
    lo ≤ r.entry && r.entry < hi && r.hooks < 64 && 1 ≤ r.depth && r.depth ≤ 4 && r.gapMax ≤ 255 && field bs (off + 16 * i + 14) 2 == 0

/-- R500. SIGNER and SLOT agree with the region. -/
def signerGood (bs : List Byte) : Bool :=
  (if field bs 16 1 = 1 then field bs 6 1 == 1 && field bs 17 1 ≤ 3 else field bs 16 1 == 0 && field bs 17 1 == 0) && isZeros (slice bs 18 14)

def regionBase (region : Nat) : Nat := if region = 0 then 0 else 0x3800

/-- R500. The length an image must have. -/
def imageLen (bs : List Byte) : Nat := 128 + 16 * field bs 7 1 + 20 * field bs 14 2

/-- R500, R501. The fields of an image are good. -/
def imageGood (bs : List Byte) : Bool :=
  let region := field bs 6 1
  let n := field bs 14 2
  field bs 0 4 == 0x4B4E5653 && field bs 4 1 == 1 && field bs 5 1 ≤ 1 && region ≤ 1
    && (if region = 0 then field bs 7 1 == 0 else field bs 7 1 ≤ 16) && field bs 12 2 == regionBase region
    && 1 ≤ n && n ≤ (if region = 0 then 14336 else 2048) && signerGood bs
    && tableGood bs 64 (field bs 7 1) (regionBase region) (regionBase region + n)

/-- R500, R504. The signature over every byte before it verifies under the maker root or the maker slot named. -/
def signedGood (s : State) (bs : List Byte) : Bool :=
  let n := bs.length - 64
  let key := if field bs 16 1 = 0 then some s.fuses.makerRoot else tget s.roles.maker (field bs 17 1)
  match key with
  | some k => verify k (hash (bs.take n)) (slice bs n 64)
  | none => false

/-- R500. An image as loaded. -/
def imageOf (s : State) (bs : List Byte) : Image :=
  let off := 64 + 16 * field bs 7 1
  { version := field bs 8 4, words := (List.range (field bs 14 2)).map fun i => wordAt bs (off + 20 * i)
    routines := routinesAt bs 64 (field bs 7 1), good := signedGood s bs }

/-- R502. An image written to every store of its class. -/
def loadImage (cls : Nat) (vendor : Bool) (im : Image) (s : State) : State :=
  let at_ : List (Nat × BitVec 160) := (List.range im.words.length).map fun i => ((if vendor then 0 else 0x3800) + i, (im.words[i]?).getD 0)
  modCls cls (fun c =>
    if vendor then { c with
      store := at_ ++ c.store.filter (fun w => 0x3800 ≤ w.1), vendorVer := im.version, vendorPatch := 0, vendorIn := true }
    else { c with
      store := c.store.filter (fun w => w.1 < 0x3800) ++ at_, openVer := im.version, openPatch := 0, openIn := true
      routines := im.routines, failing := [], openWords := im.words.length }) s

/-- R504. The length and the fields of a patch. -/
def patchLen (bs : List Byte) : Nat := 128 + 16 * field bs 7 1 + 24 * field bs 14 2

def patchEntries (bs : List Byte) : List (Nat × BitVec 160) :=
  (List.range (field bs 14 2)).map fun i => (let o := 32 + 16 * field bs 7 1 + 24 * i
                                             (field bs o 2, wordAt bs (o + 4)))

def patchGood (s : State) (bs : List Byte) : Bool :=
  let region := field bs 6 1
  let c := tget s.cls (field bs 5 1)
  let lo := regionBase region
  let hi := if region = 0 then 0x3800 else 0x4000
  let es := patchEntries bs
  field bs 0 4 == 0x48505653 && field bs 4 1 == 1 && field bs 5 1 ≤ 1 && region ≤ 1
    && (if region = 0 then field bs 7 1 == 0 else field bs 7 1 ≤ 16)
    && (if region = 0 then c.vendorIn && field bs 8 4 == c.vendorVer && field bs 12 1 == c.vendorPatch + 1
        else c.openIn && field bs 8 4 == c.openVer && field bs 12 1 == c.openPatch + 1)
    && 1 ≤ field bs 12 1 && field bs 12 1 ≤ 8 && field bs 13 1 == 0 && 1 ≤ field bs 14 2 && field bs 14 2 ≤ 1024 && signerGood bs
    && tableGood bs 32 (field bs 7 1) lo hi
    && es.all (fun e => lo ≤ e.1 && e.1 < hi) && increasing (fun a b => a < b) (es.map Prod.fst)
    && (List.range (field bs 14 2)).all (fun i => field bs (34 + 16 * field bs 7 1 + 24 * i) 2 == 0)

def patchOf (s : State) (bs : List Byte) : Patch :=
  { baseVer := field bs 8 4, level := field bs 12 1, words := patchEntries bs, routines := routinesAt bs 32 (field bs 7 1), good := signedGood s bs }

/-- R505. A patch written into the stores of its class. -/
def applyPatch (cls : Nat) (vendor : Bool) (p : Patch) (s : State) : State :=
  modCls cls (fun c =>
    let c1 := { c with store := p.words.foldl (fun l w => w :: l.filter fun x => x.1 != w.1) c.store }
    if vendor then { c1 with vendorPatch := p.level }
    else if p.routines.isEmpty then { c1 with openPatch := p.level }
    else { c1 with openPatch := p.level, routines := p.routines, failing := [] }) s

/-! ### Commands -/

/-- R502. Some channel counts as enabled; some stream is enabled or about to be; some hook of a class is attached. -/
def anyChannel (s : State) : Bool := (List.range 32).any (countsEnabled s)
def anyStream (s : State) : Bool :=
  s.chans.toList.any (fun x => x.cfg.streams.toList.any StreamCfg.enable)
    || s.exec.any fun x => Op.ofCode x.entry.opcode.toNat == some .encStreamSet && x.wait == .tick && x.entry.req.bit 20 0
def hooksOf (cls : Nat) : List Nat := if cls = 0 then [0, 1, 2, 3] else [4, 5]
def anyHook (s : State) (cls : Nat) : Bool :=
  s.chans.toList.any (fun x => (hooksOf cls).any fun h => (tget x.cfg.hooks h).isSome)
    || s.exec.any fun x => Op.ofCode x.entry.opcode.toNat == some .seqHookSet && x.wait == .tick && (hooksOf cls).contains (x.entry.req.u 16 1)
        && x.entry.req.u 17 1 != 0xFF

/-- R502, R506. Step 11 of a load or patch. -/
def loadState (c : Ctx) (s : State) : Option Byte :=
  let cls := field c.data 5 1
  let region := field c.data 6 1
  firstOf [need (if region = 0 then (if cls = 0 then !anyChannel s else !anyStream s) else !anyHook s cls) St.quiesce,
    need (!loadBusy s c.f c.q.tag cls region) St.busy]

/-- R475. DETAIL of a MICROCODE record: the digest is over the bytes before the signature (R502). -/
def microDetail (c : Ctx) : List Byte := le 1 (c.op.info.code % 256) ++ zeros 3 ++ slice (hash (c.data.take (c.data.length - 64))) 0 16

/-- R502. A verified image takes effect. -/
def finishLoad (c : Ctx) (s : State) : Reply × State :=
  (.done St.ok [], auditNow c 0x50 (microDetail c) (raise 241 0 (loadImage (field c.data 5 1) (field c.data 6 1 == 0) (imageOf s c.data) s)))

/-- SEQ_IMAGE_LOAD, R502. -/
def seqImageLoadB : Behaviour where
  reserved q := q.u 28 1 < 2 && q.zero 29 3
  fields _ c := firstOf [need (148 ≤ (c.q.dma 16).2 && (c.q.dma 16).2 ≤ 1048576) St.badLength, dmaRange (c.q.dma 16)]
  run c s := (.wait (.dma (c.q.dma 16).1 (c.q.dma 16).2), s)
  resume c w s :=
    match w with
    | .dma _ _ =>
      if (c.q.dma 16).2 ≠ imageLen c.data then (.done St.badLength [], s)
      else if !imageGood c.data then (.done St.range [], s)
      else match loadState c s with
        | some e => (.done e [], s)
        | none =>
          if !signedGood s c.data then (.done St.authFail [], s)
          else if !auditGuard s then (.done St.internal [], s)
          else if c.q.bit 28 0 then
            (.wait .flash, flashQueue (.image (field c.data 5 1) (field c.data 6 1 == 0) (imageOf s c.data)) (some (c.f, c.q.tag)) s)
          else finishLoad c s
    | _ => finishLoad c s

/-- SEQ_PATCH_APPLY, R505. -/
def seqPatchApplyB : Behaviour where
  reserved q := q.u 28 1 < 2 && q.zero 29 3
  fields _ c := firstOf [dmaRange (c.q.dma 16), need (152 ≤ (c.q.dma 16).2) St.badLength]
  run c s := (.wait (.dma (c.q.dma 16).1 (c.q.dma 16).2), s)
  resume c w s :=
    match w with
    | .dma _ _ =>
      if (c.q.dma 16).2 ≠ patchLen c.data then (.done St.badLength [], s)
      else if !patchGood s c.data then (.done St.range [], s)
      else match loadState c s with
        | some e => (.done e [], s)
        | none =>
          if !signedGood s c.data then (.done St.authFail [], s)
          else if c.q.bit 28 0 then
            (.wait .flash, flashQueue (.patch (field c.data 5 1) (field c.data 6 1 == 0) (patchOf s c.data)) (some (c.f, c.q.tag)) s)
          else tickAudited 0x50 (microDetail c) c s
    | _ => tickAudited 0x50 (microDetail c) c s
  effect c s := raise 240 0 (applyPatch (field c.data 5 1) (field c.data 6 1 == 0) (patchOf s c.data) s)

/-- R507. The hook a request attaches. -/
def hookOf (q : Request) : Option Hook :=
  if q.u 17 1 = 0xFF then none else some ⟨q.u 17 1, q.u 18 1, q.u 19 1, [q.u 20 4, q.u 24 4]⟩

def hookClass (h : Nat) : Nat := if h < 4 then 0 else 1

/-- R507. A window is in the family of hook H2 or H3. -/
def hookFamily (h : Nat) (w : Option Window) : Bool := w.any fun x => if h = 2 then isDisplay x.format else isVision x.format

/-- SEQ_HOOK_SET, R506 to R508. -/
def seqHookSetB : Behaviour where
  reserved q := q.u 18 1 < 16
  present s q := s.hasVision || q.u 16 1 != 3
  fields _ c :=
    let q := c.q
    let h := q.u 16 1
    need (h ≤ 5 && (if q.u 17 1 = 0xFF then q.zero 18 10
      else q.u 17 1 ≤ 15 && 1 ≤ q.u 19 1 && q.u 19 1 ≤ 16
        && (if h ≤ 1 then q.zero 18 1 else !q.zero 18 1 && (h ≤ 3 || q.u 18 1 ≤ 3)))) St.range
  member s c _ :=
    let h := c.q.u 16 1
    need (!loadBusy s c.f c.q.tag (hookClass h) 1) St.busy
  later s c m :=
    let h := c.q.u 16 1
    let x := (s.chan m).cfg
    need (match hookOf c.q with
      | none => true
      | some k =>
        ((tget s.cls (hookClass h)).routines[k.routine]?).any (fun r => !r.disabled && bitOf r.hooks h)
          && (h ≤ 1 || 4 ≤ h || (idx 4 (bitOf k.mask)).all fun i => hookFamily h (tget x.windows i))
          && (1 < h || x.pipe.mosaic != 7)) St.range
  run _ s := (.wait .tick, s)
  effect c s := forEach c.members (fun m => modCfg m fun x => { x with hooks := tset x.hooks (c.q.u 16 1) (hookOf c.q) }) s

/-- The domain of a sequencer (R511). -/
def seqDomain (q : Nat) : Nat := if q < 4 then 2 else if q < 6 then 3 else 4

/-- R509. A job of the sequencer's engine is in progress. -/
def seqRuns (s : State) (q : Nat) : Bool :=
  (List.range 32).any fun c =>
    ((s.chan c).pipeJob.isSome && seqOf s (pipeKey c) == some q)
      || [0, 1].any fun st => (tget (s.chan c).runs st).job.isSome && seqOf s (encKey c st) == some q

/-- SEQ_QUERY, R509. -/
def seqQueryB : Behaviour where
  reserved q := q.zero 17 3
  fields _ c := need (c.q.u 16 1 ≤ 7) St.range
  run c s :=
    let q := c.q.u 16 1
    let k := tget s.cls (q / 4)
    let x := tget s.seqs q
    let on := (tget s.power.domains (seqDomain q)).on
    (.done St.ok (le 1 q
      ++ le 1 (b2n (k.vendorIn && on) + 2 * b2n (k.openIn && on) + 4 * b2n (seqRuns s q) + 8 * b2n x.halted + 16 * b2n (4 + s.nEnc ≤ q))
      ++ le 1 (q / 4) ++ le 1 k.vendorPatch ++ le 1 k.openPatch ++ le 1 x.lastReason ++ le 2 x.lastPc ++ le 4 k.vendorVer ++ le 4 k.openVer
      ++ le 4 x.storeCe ++ le 2 x.watchdogs ++ le 2 x.faults ++ le 2 x.hookOver ++ le 2 x.maxGap ++ le 2 k.openWords
      ++ le 2 (sumOf (idx 16 fun i => (k.routines[i]?).any Routine.disabled) fun i => 2 ^ i)), s)

/-! ### Events (R66 to R68, R497 to R499) -/

/-- R66 to R68, R288, R302. The meter ends a job of which `undone` lines, CTUs (in H.264 macroblocks), blocks or units are left. -/
def meterExpiry (j : MeterJob) (undone : Nat) (s : State) : State :=
  match j with
  | .pipe c =>
    match (s.chan c).pipeJob, (s.chan c).pipeCut with
    | some f, none =>
      if f.outcome == .dropped then s
      else
        let h := (f.cfg.bind.map Bind.height).getD 0
        raisePipe c 0 (meterOverrun (pipeKey c) (modChan c (fun x => { x with pipeCut := some (h - undone, false) }) s))
    | _, _ => s
  | .enc c st =>
    let r := tget (s.chan c).runs st
    if r.job.isSome && r.cut.isNone && r.current.isNone then
      raiseEnc c 0 (meterOverrun (encKey c st) (modRun c st (fun x => { x with cut := some (encUnits s c st - undone) }) s))
    else s
  | .itp c st =>
    let r := tget (s.chan c).runs st
    if (s.chan c).cfg.fine && r.job.any (fun f => f.outcome == .complete) && r.itpCut.isNone && r.current.isNone then
      raiseEnc c 1 (meterOverrun (itpKey c st) (modRun c st (fun x => { x with itpCut := some undone }) s))
    else s
  | .dec h =>
    let d := s.decS h
    if d.job.isSome && d.cut.isNone then
      raiseDec h 2 (meterOverrun (decKey h) (modDec h (fun x => { x with
        cut := some (unitCount d - undone), overruns := satAdd 0xFFFF x.overruns 1 }) s))
    else s

/-- The unit a metered job names. -/
def meterJobUnit : MeterJob → Option (String × Nat)
  | .pipe c => if 32 ≤ c then some ("channel", c) else none
  | .enc c st => if 32 ≤ c ∨ 2 ≤ st then some ("stream", 2 * c + st) else none
  | .itp c st => if 32 ≤ c ∨ 2 ≤ st then some ("stream", 2 * c + st) else none
  | .dec h => if 32 ≤ h then some ("decode stream", h) else none

/-- CYCLE_METER_EXPIRY, R66. -/
def execCycleMeterExpiry (j : MeterJob) (undone : Nat) (s : State) : Host.Outcome State Fault Refusal :=
  match meterJobUnit j with
  | some (n, k) => .refused (.noSuchUnit n k)
  | none => .next (meterExpiry j undone s)

/-- The job that runs on sequencer `q`. -/
def jobOn (s : State) (q : Nat) : Option MeterJob :=
  if q < 4 then ((idx 32 fun c => (s.chan c).pipeJob.isSome && seqOf s (pipeKey c) == some q).head?).map MeterJob.pipe
  else ((idx 64 fun k => (tget (s.chan (k / 2)).runs (k % 2)).job.isSome && (tget (s.chan (k / 2)).runs (k % 2)).current.isNone
      && seqOf s (encKey (k / 2) (k % 2)) == some q).head?).map fun k => MeterJob.enc (k / 2) (k % 2)

/-- R499. The routine of an image whose words hold an address: the last entry at or below it. -/
def routineAtPc (c : SeqClass) (pc : Nat) : Option Nat :=
  (idx 16 fun i => (c.routines[i]?).any fun r => r.entry ≤ pc).foldl
    (fun b i => match b with
      | none => some i
      | some j => if ((c.routines[j]?).map Routine.entry).getD 0 < ((c.routines[i]?).map Routine.entry).getD 0 then some i else b) none

/-- R498, R499. A sequencer stops at a word: the engine's job is finished by the completion unit, from a point that is open, and raises no
FRET_OVERRUN; a routine of the open region is disabled from the next boundary, and in the vendor region the sequencer halts. -/
def seqStopped (q pc reason : Nat) (s : State) : State :=
  let s1 := match jobOn s q with
    | some j => if jobRuns s j then completeJob j s else s
    | none => s
  let s2 := modSeq q (fun x => { x with lastPc := pc % 16384, lastReason := reason }) s1
  if inOpen pc then
    (match routineAtPc (tget s.cls (q / 4)) pc with
     | some i => modCls (q / 4) (fun c => { c with failing := i :: c.failing }) s2
     | none => s2)
  else assertFaultN 5 (modSeq q (fun x => { x with halted := true }) s2)

/-- R491, R498, R499. What stops sequencer `q` at a word, or is found there. The watchdog counts and raises SEQ_WATCHDOG, a fault SEQ_FAULT; a
store error that was corrected is counted, and firmware rewrites the word. A sequencer that runs no code stops at none. -/
def seqWatchdog (q pc : Nat) (why : SeqWhy) (s : State) : State :=
  match why with
  | .corrected => modSeq q (fun x => { x with storeCe := satAdd 4294967295 x.storeCe 1 }) s
  | .watchdog =>
    if (jobOn s q).isNone then s
    else raise (224 + q) 0 (modSeq q (fun x => { x with watchdogs := satAdd 65535 x.watchdogs 1 }) (seqStopped q pc faultWatchdog s))
  | .fault r =>
    if (jobOn s q).isNone then s
    else raise (232 + q) 0 (modSeq q (fun x => { x with faults := satAdd 65535 x.faults 1 }) (seqStopped q pc r s))

/-- SEQ_WATCHDOG, R498. -/
def execSeqWatchdog (q : Nat) (x : SeqStop) (s : State) : Host.Outcome State Fault Refusal :=
  if 8 ≤ q then .refused (.noSuchUnit "sequencer" q) else .next (seqWatchdog q x.pc x.why s)

/-- R499. At a boundary, routines that failed in the tick before are disabled. -/
def disableFailing (s : State) : State :=
  forEach [0, 1] (fun k => modCls k fun c =>
    { c with failing := [], routines := (List.range c.routines.length).filterMap fun i =>
        (c.routines[i]?).map fun r => if c.failing.contains i then { r with disabled := true } else r }) s

end Sys2Proof.Machine
end

