-- ==== Sys2Proof/Machine/Power.lean ====
section
/-!
DEFINITION. Power: domains, rails, the AVS floor and frequency levels, thermal limits, self-refresh, and the 0x0Bxx commands
(R413, R511 to R528, R541, R545, R550, R551).
-/
namespace Sys2Proof.Machine

def State.domain (s : State) (d : Nat) : Domain := tget s.power.domains d
def State.rail (s : State) (r : Nat) : Rail := tget s.power.rails r

/-- R511. The domain has an AVS rail; it has frequency levels; the host may gate it. -/
def isAvs (d : Nat) : Bool := 1 ≤ d && d ≤ 4 || d == 6
def hasLevels (d : Nat) : Bool := 1 ≤ d && d ≤ 4
def gateable (d : Nat) : Bool := 2 ≤ d && d ≤ 4

/-- R511, R514. The device-raised rail that feeds a domain: its main rail. -/
def mainRail (d : Nat) : Option Nat := if gateable d then some (d + 1) else if d = 6 then some 0 else none

/-- R545. The domain a device-raised rail feeds. -/
def railDomain (r : Nat) : Nat := if r < 3 then 6 else r - 1

/-! ### Voltage (R516, R517) -/

/-- R517. The voltage of an AVS rail. -/
def voltage (x : Domain) : Nat := if x.vreq = 0 then x.floor else max x.floor x.vreq

/-- R513, R535. A device-raised rail is set over PMBus: the PMIC at the strapped address, the rail's page, and its voltage in mV, or 0 to turn
it off. -/
def setRail (r mv : Nat) (s : State) : State :=
  emit (.pmbus (0x40 + s.boot.straps.pmic.toNat) ((s.boot.board.map fun b => tget b.pages r).getD 0) mv) s

/-- R517. Set the rail of a powered AVS domain; a device-raised rail is set over PMBus. -/
def setVoltage (d : Nat) (s : State) : State :=
  let x := s.domain d
  let v := if x.on then voltage x else 0
  if v = x.vset then s
  else
    let s1 := modDomain d (fun y => { y with vset := v }) s
    match mainRail d with
    | some r => setRail r v s1
    | none => s1

/-- R517, R545, R550, R551. FLOOR_SAT of a domain, and FAULT_N while any domain's holds. -/
def setSat (d : Nat) (sat : Bool) (s : State) : State :=
  let was := (s.domain d).sat
  let s1 := modDomain d (fun x => { x with sat := sat }) s
  if sat && !was then assertFaultN 3 (raise 211 0 s1)
  else if was && !sat && !((List.range 7).any fun e => (s1.domain e).sat) then releaseFaultN 3 s1
  else s1

/-- R516. The floor the loop computed: in steps of 5 mV up to 850 mV, a rise at once, a fall of at most 10 mV. -/
def newFloor (old computed : Nat) : Nat :=
  let f := clampN 650 850 (cdiv computed 5 * 5)
  if old ≤ f then f else max f (old - 10)

/-- R516, R517. One turn of the AVS loop of a domain. -/
def avsUpdate (d computed : Nat) (s : State) : State :=
  let f := newFloor (s.domain d).floor computed
  let sat := decide (850 < computed) || ((s.domain d).sat && f == 850)
  setVoltage d (setSat d sat (modDomain d (fun x => { x with floor := f }) s))

/-- R514, R516. The domain's rail is up. -/
def railUp (s : State) (d : Nat) : Bool :=
  (s.domain d).on && (match mainRail d with | some r => (s.rail r).good && !(s.rail r).lost | none => true)

/-- AVS_FLOOR_UPDATE, R516. -/
def execAvsFloorUpdate (dom floor : Nat) (s : State) : Host.Outcome State Fault Refusal :=
  if 7 ≤ dom then .refused (.noSuchUnit "power domain" dom)
  else .next (if isAvs dom && railUp s dom && !s.power.tripped then avsUpdate dom floor s else s)

/-! ### PMBus (R515, R545) -/

/-- R515. STATUS_WORD reports a fault: any bit but BUSY (PRESUMED from PMBus 1.3, choice 14). -/
def statusFault (status : Nat) : Bool := status % 65536 - (if bitOf status 7 then 128 else 0) != 0

/-- R515. STATUS_WORD reports POWER_GOOD lost: bit 11 (PRESUMED from PMBus 1.3, choice 14). -/
def powerLost (status : Nat) : Bool := bitOf status 11

/-- R545. A rail is lost: the clocks of the domain it feeds stop. -/
def loseRail (r : Nat) (s : State) : State :=
  if (s.rail r).lost then s
  else assertFaultN 2 (modDomain (railDomain r) (fun x => { x with stopped := true }) (modRail r (fun x => { x with lost := true, good := false }) s))

/-- R515, R545. A poll of a rail. The rail of a gated domain is off, and is not lost. -/
def railPoll (r : Nat) (ack : Bool) (status iout : Nat) (s : State) : State :=
  let gated := !(s.domain (railDomain r)).on
  if !ack then
    let s1 := raise 211 0 (modRail r (fun x => { x with missed := x.missed + 1 }) s)
    if 3 ≤ (s1.rail r).missed && !gated then loseRail r s1 else s1
  else
    let s1 := modRail r (fun x => { x with missed := 0, status := status % 65536, current := min 65535 iout }) s
    if gated then s1
    else
      let s2 := when (statusFault status) (raise 211 0) s1
      if powerLost status then loseRail r s2 else s2

/-- PMBUS_STATUS_POLL, R515: after READY. -/
def execPmbusStatusPoll (rail : Nat) (ack : Bool) (status iout : Nat) (s : State) : Host.Outcome State Fault Refusal :=
  if 6 ≤ rail then .refused (.noSuchUnit "rail" rail)
  else .next (if s.ready && !s.boot.inReset then railPoll rail ack status iout s else s)

/-! ### Temperature (R525, R551) -/

/-- R525. The thermal trip: every engine is aborted, ISP, CODEC0-1, CODEC2-3 and DMC are gated, every FSYNC output is low, and the
device is held. -/
def thermalTrip (s : State) : State :=
  let s1 := modPower (fun p => { p with tripped := true }) s
  let s2 := forEach [2, 3, 4, 6] (fun d t => setVoltage d (modDomain d (fun x => { x with on := false }) t)) s1
  let s3 := { s2 with
    chans := s2.chans.map fun x => { x with
      fsync := false, pipeJob := none, encNext := none, runs := x.runs.map fun r => { r with job := none, current := none } }
    dec := s2.dec.map fun d => { d with job := none } }
  assertFaultN 1 (emit .fsyncAllLow (modBoot (fun b => { b with inReset := true }) s3))

/-- R525, R551. What a reading does. -/
def thermal (tj : Int) (s : State) : State :=
  let p := s.power
  let warn := decide (115 * 16 < tj)
  let crit := decide (125 * 16 < tj)
  let cool := if tj ≤ 120 * 16 then p.cool + 1 else 0
  let hot := if 135 * 16 < tj then p.hot + 1 else 0
  let s1 := modPower (fun x => { x with
    tj := tj, tjMax := some (max tj (x.tjMax.getD tj)), warn := warn, crit := crit, cool := cool, hot := hot }) s
  let s2 := when (warn && !p.warn) (raise 209 0) s1
  let s3 := when (crit && !p.crit) (fun t => assertFaultN 0 (raise 210 0 t)) s2
  let s4 := when (decide (100 ≤ cool)) (releaseFaultN 0) s3
  if 2 ≤ hot then thermalTrip s4 else s4

/-- R525. A reading while the device is held in reset, when only the trip can follow. -/
def thermalInReset (tj : Int) (s : State) : State :=
  let hot := if 135 * 16 < tj then s.power.hot + 1 else 0
  let s1 := modPower (fun x => { x with tj := tj, hot := hot }) s
  if 2 ≤ hot && !s.power.tripped then assertFaultN 1 (modPower (fun p => { p with tripped := true }) s1) else s1

/-- THERMAL_SAMPLE, R525: once per ms. -/
def execThermalSample (tj : Int) (s : State) : Host.Outcome State Fault Refusal :=
  .next (if s.boot.inReset then thermalInReset tj s else thermal tj s)

/-! ### Frequency levels (R519, R520) -/

/-- PWR_DVFS_SET, R519, R520. A floor that a higher frequency raises is the hardware's, and open (choice 6). -/
def dvfsSet (d level vreq : Nat) (s : State) : Reply × State :=
  match levelFits s d level with
  | none => (.done St.range [], s)
  | some l =>
    let x := s.domain d
    let faster := decide (level < x.level)
    let f := if faster then max x.floor (650 + 5 * (Config.freeNat s.fresh % 41)) else x.floor
    let clamped := vreq != 0 && decide (vreq < f)
    let s1 := modDomain d (fun y => { y with
      vreq := vreq, floor := f, clamps := if clamped then satAdd 4294967295 y.clamps 1 else y.clamps
      level := if faster then level else y.level
      levelNext := if x.level < level then some level else none }) { s with bookings := l, fresh := s.fresh + 1 }
    let s2 := setVoltage d s1
    let y := s2.domain d
    (.done St.ok (le 2 y.vset ++ le 2 y.floor ++ le 1 y.level ++ le 1 (b2n clamped) ++ le 2 0), when clamped (raise 208 0) s2)

/-- PWR_DVFS_SET, R519, R520. -/
def pwrDvfsSetB : Behaviour where
  reserved q := q.zero 20 4
  fields _ c :=
    let q := c.q
    need (1 ≤ q.u 16 1 && q.u 16 1 ≤ 4 && q.u 17 1 ≤ 3 && (q.u 18 2 == 0 || (650 ≤ q.u 18 2 && q.u 18 2 ≤ 850))) St.range
  member s c _ :=
    let q := c.q
    firstOf [need ((s.domain (q.u 16 1)).on || (q.u 17 1 == 0 && q.u 18 2 == 0)) St.range,
      need (!(s.domain (q.u 16 1)).on || (levelFits s (q.u 16 1) (q.u 17 1)).isSome) St.range]
  run c s :=
    let q := c.q
    if (s.domain (q.u 16 1)).on then dvfsSet (q.u 16 1) (q.u 17 1) (q.u 18 2) s
    else
      let d := q.u 16 1
      let s1 := modDomain d (fun y => { y with vreq := 0, level := 0, levelNext := none }) s
      (.done St.ok (le 2 0 ++ le 2 (s.domain d).floor ++ le 1 0 ++ le 1 0 ++ le 2 0), s1)

/-- R520. A lower frequency takes effect at a boundary. -/
def levelTick (s : State) : State :=
  modPower (fun p => { p with domains := p.domains.map fun x => match x.levelNext with
    | some l => { x with level := l, levelNext := none }
    | none => x }) s

/-! ### Gating (R521 to R523) -/

/-- R521. Domain of a bit of MASK and ON. -/
def maskDomains (mask : Nat) : List Nat := ([0, 1, 2].filter fun i => bitOf mask i).map (· + 2)

/-- R522. The class whose sequencers a domain holds. -/
def domainClass (d : Nat) : Nat := if d = 2 then 0 else 1

/-- R522. An image load or patch for a class is pending. -/
def loadPending (s : State) (cls : Nat) : Bool :=
  s.exec.any fun x => (match Op.ofCode x.entry.opcode.toNat with | some o => o == .seqImageLoad || o == .seqPatchApply | none => false)
    && !x.data.isEmpty && field x.data 5 1 == cls

/-- R522. A domain may be gated. -/
def mayGate (s : State) (d : Nat) : Bool :=
  !(s.bookings.any fun b => engineDomain b.engine == some d) && !anyHook s (domainClass d) && !loadPending s (domainClass d)

/-- R521. The domains a request powers, and those it gates. -/
def powersUp (q : Request) : List Nat := (maskDomains (q.u 16 1)).filter fun d => bitOf (q.u 17 1) (d - 2)
def gates (q : Request) : List Nat := (maskDomains (q.u 16 1)).filter fun d => !bitOf (q.u 17 1) (d - 2)

/-- R523. Begin to power a domain: its rail is raised. -/
def beginPower (d : Nat) (s : State) : State :=
  if (s.domain d).on || (s.domain d).ramping then s
  else
    let s1 := modDomain d (fun x => { x with ramping := true, failed := false }) s
    setRail (d + 1) (max 650 (voltage (s.domain d))) s1

/-- R523. A ramp fails: the domain stays gated. -/
def rampFailed (d : Nat) (s : State) : State :=
  raise 211 0 (modDomain d (fun x => { x with ramping := false, failed := true }) s)

/-- R521, R523. A domain is powered at the boundary. -/
def powerUp (d : Nat) (s : State) : State :=
  let x := s.domain d
  if x.on || x.failed then s
  else setVoltage d (modDomain d (fun y => { y with on := true, ramping := false, upAt := if y.ramping then s.time.dev else y.upAt }) s)

/-- R522. A domain is gated: its rail goes off. -/
def gate (d : Nat) (s : State) : State :=
  if (s.domain d).on then setVoltage d (modDomain d (fun x => { x with on := false, failed := false }) s)
  else modDomain d (fun x => { x with ramping := false, failed := false }) s

/-- PWR_DOMAIN_SET, R521 to R523. -/
def pwrDomainSetB : Behaviour where
  reserved q := q.zero 18 2 && q.u 16 1 < 8 && q.u 17 1 < 8
  member s c _ := need ((gates c.q).all fun d => !(s.domain d).on || mayGate s d) St.quiesce
  run c s := (.wait .tick, forEach (powersUp c.q) beginPower s)
  effect c s := forEach (gates c.q) gate (forEach (powersUp c.q) powerUp s)

/-- DOMAIN_POWER_UP_DONE, R523. The rail of a domain that was lost while it was gated does not come up (R545). -/
def execDomainPowerUpDone (dom : Nat) (ok : Bool) (s : State) : Host.Outcome State Fault Refusal :=
  if 7 ≤ dom then .refused (.noSuchUnit "power domain" dom)
  else
    let x := s.domain dom
    let good := ok && !((mainRail dom).any fun r => (s.rail r).lost)
    .next (if !x.ramping || x.on then s
      else if good then modDomain dom (fun y => { y with ramping := false, upAt := s.time.dev }) s else rampFailed dom s)

/-! ### Self-refresh (R413, R526 to R528) -/

/-- R526. The controllers a request names. -/
def srMask (q : Request) : List Nat := [0, 1].filter fun i => bitOf (q.u 16 1) i

/-- R526. Another self-refresh command of a controller is in execution. -/
def srBusy (s : State) (ds : List Nat) : Bool :=
  s.exec.any fun x => Op.ofCode x.entry.opcode.toNat == some .pwrSelfRefresh && (srMask x.entry.req).any fun d => ds.contains d

/-- PWR_SELF_REFRESH, R526 to R528. -/
def pwrSelfRefreshB : Behaviour where
  reserved q := q.zero 18 2 && q.u 16 1 < 4
  present s q := !bitOf (q.u 16 1) 1 || s.nDmc == 2
  fields _ c := need (c.q.u 16 1 != 0 && c.q.u 17 1 ≤ 1) St.range
  member s c _ := firstOf [
    need (c.q.u 17 1 == 1 || (srMask c.q).all fun d => (s.dmcN d).selfRef || (poolHeld s d == 0 && poolBooked s d == 0)) St.quiesce,
    need (!srBusy s (srMask c.q)) St.busy,
    need ((srMask c.q).all fun d => (s.dmcN d).fitted) St.range]
  run c s :=
    let enter := c.q.u 17 1 == 0
    let ds := (srMask c.q).filter fun d => (s.dmcN d).selfRef != enter
    if ds.isEmpty then (.done St.ok [], s)
    else (.wait (.selfRefresh (sumOf ds fun d => 2 ^ d)),
      forEach ds (fun d => modDmc d fun x => if enter then { x with entering := true } else { x with leaving := true }) s)

/-- R413, R526. Requests whose controllers have all finished are answered. -/
def srFinish (s : State) : State :=
  forEach s.exec (fun x t => match x.wait with
    | .selfRefresh mask =>
      if [0, 1].all fun d => !bitOf mask d || !((t.dmcN d).entering || (t.dmcN d).leaving) then finish x St.ok [] t else t
    | _ => t) s

/-- R412. The write buffer is drained into memory. -/
def drained (d : Dmc) : Dmc := { d with memory := d.wbuf.foldl (fun m e => memWrite e.addr e.data m) d.memory, wbuf := [] }

/-- R413. The controller is in self-refresh: drained, its debt paid, every bank precharged. -/
def enterSelfRefresh (i : Nat) (s : State) : State :=
  raise 212 0 (modDmc i (fun d => { drained d with
    entering := false, selfRef := true
    chans := d.chans.map fun c => { c with debt := 0, rows := Vector.replicate 16 none } }) s)

/-- SELF_REFRESH_ENTRY_DONE, R413. -/
def execSelfRefreshEntryDone (dmc : Nat) (s : State) : Host.Outcome State Fault Refusal :=
  if s.nDmc ≤ dmc then .refused (.noSuchUnit "memory controller" dmc)
  else .next (if (s.dmcN dmc).entering then srFinish (enterSelfRefresh dmc s) else s)

/-- SELF_REFRESH_EXIT_DONE, R413, R528. -/
def execSelfRefreshExitDone (dmc : Nat) (s : State) : Host.Outcome State Fault Refusal :=
  if s.nDmc ≤ dmc then .refused (.noSuchUnit "memory controller" dmc)
  else .next (if (s.dmcN dmc).leaving then
      srFinish (raise 212 0 (modDmc dmc (fun d => { d with
        leaving := false, selfRef := false, chans := d.chans.map fun c => { c with debt := 0 } }) s))
    else s)

/-! ### PWR_QUERY (R541) -/

/-- R541. The snapshot of a domain. -/
def powerBytes (s : State) (d : Nat) : List Byte :=
  let x := s.domain d
  let clamped := isAvs d && x.vreq != 0 && decide (x.vreq < x.floor)
  let sr := d == 6 && [0, 1].any fun i => (s.dmcN i).selfRef
  let main : Rail := match mainRail d with | some r => s.rail r | none => default
  le 1 d ++ le 1 (b2n x.on + 2 * b2n (isAvs d) + 4 * b2n clamped + 8 * b2n x.sat + 16 * b2n sr)
    ++ le 1 (if hasLevels d then x.level else 0) ++ le 1 0 ++ le 2 (if x.on then x.vset else 0)
    ++ le 2 (if isAvs d then x.floor else 0) ++ le 2 x.vreq ++ le 2 (min 65535 main.current)
    ++ leInt 2 s.power.tj ++ leInt 2 (s.power.tjMax.getD 0) ++ le 4 x.clamps ++ le 4 (main.status % 65536) ++ le 8 x.upAt

/-- PWR_QUERY, R541. -/
def pwrQueryB : Behaviour where
  reserved q := q.zero 17 3
  fields _ c := need (c.q.u 16 1 ≤ 6) St.range
  run c s := (.done St.ok (powerBytes s (c.q.u 16 1)), s)

end Sys2Proof.Machine
end

