-- ==== Sys2Proof/Machine/Timebase.lean ====
section
/-!
DEFINITION. Device time: its base and its discipline, the 0x0Exx commands, gPTP and PTM (R38 to R60, R65, R125 to R127).
-/
namespace Sys2Proof.Machine

/-- R40, R57, R159. No channel counts as enabled, no flow as active and no decode stream is open or about to be. -/
def allQuiet (s : State) : Bool :=
  (List.range 32).all (fun c => !countsEnabled s c) && (List.range 256).all (fun m => !flowOn s m)
    && (idx 32 fun h => (s.decS h).isOpen).isEmpty && !s.exec.any fun x => Op.ofCode x.entry.opcode.toNat == some .decOpen && x.wait == .tick

/-- R38. No frame record, access unit or seal spans the load: what a stopped channel still has in flight ends with the numbering
(choice 67). -/
def Chan.drain (x : Chan) : Chan :=
  { x with
    frames := [], pipeJob := none, encNext := none, pipeCut := none, formed := [], encFormed := [], runFrom := 0, lastPulse := none
    runs := x.runs.map fun r => { r with job := none, current := none, cut := none, itpCut := none } }

/-- R40, R41. Device time is loaded, and the master tick restarts. What is kept in device time moves with it, and what is kept in
boundary numbers is numbered anew. -/
def loadBase (b : Nat) (ptp : Bool) (s0 : State) : State :=
  let s := foldAges s0
  let step : Int := (b : Int) - s.time.dev
  let s1 := modTime (fun t => { t with
    dev := b, frac := 0, baseSet := true, ptpTs := ptp, timeBaseInd := (t.timeBaseInd + 1) % 65536, lastPhaseChange := step
    lastValid := t.lastValid.map fun v => ((v : Int) + step).toNat
    lockedCorrs := t.lockedCorrs.map fun p => (((p.1 : Int) + step).toNat, p.2), ppsRoseAt := none
    stoppedAt := t.elapsed, stoppedInstants := 0 }) s
  let s2 := { s1 with
    ego := s1.ego.map fun e => { e with at_ := 0 }, egoTaken := none
    flows := s1.flows.map fun x => { x with eligibleAt := 0, guaranteed := 0 }
    chans := s1.chans.map Chan.drain
    dec := s1.dec.map fun d => { d with closing := none }
    bookings := s1.bookings.map fun k => { k with from_ := 0, release := k.release.map fun _ => 0 }
    buffers := s1.buffers.map fun k => { k with from_ := 0, release := k.release.map fun _ => 0 } }
  if s.time.tickRun then startTick s2 else s2

/-- R475. DETAIL of a TIME_BASE record. -/
def baseDetail (q : Request) : List Byte := le 8 (q.u 16 8) ++ le 1 (q.u 24 1)

/-- R38, R40. Load the base of a request, its record first (R471). The load is made only while everything is quiet: a request that waits
for its edge while something starts ends with QUIESCE_REQUIRED at the edge, which the spec does not say (choice 94). -/
def baseNow (c : Ctx) (s : State) : Reply × State :=
  if s.time.baseSet then (.done St.denied [], s)
  else if !allQuiet s then (.done St.quiesce [], s)
  else if auditGuard s then
    (.done St.ok (le 8 (c.q.u 16 8)), loadBase (c.q.u 16 8) (c.q.bit 24 1) (auditNow c 0x63 (baseDetail c.q) s))
  else (.done St.internal [], s)

/-- TIME_SET_BASE, R40, R126. -/
def timeSetBaseB : Behaviour where
  reserved q := q.zero 25 3 && q.u 24 1 < 4
  member s c _ := firstOf [need (!s.time.baseSet) St.denied, need (allQuiet s) St.quiesce,
    need (!c.q.bit 24 0 || s.time.ppsEn) St.range]
  run c s := if c.q.bit 24 0 then (.wait .pps, s) else baseNow c s
  resume c _ s := baseNow c s

/-- TIME_PPS_CONFIG, R45. -/
def timePpsConfigB : Behaviour where
  reserved q := q.zero 17 3 && q.u 16 1 < 4
  run c s :=
    let en := c.q.bit 16 0
    (.done St.ok [], modTime (fun t =>
      let t1 := { t with ppsEn := en, ppsEdge := c.q.bit 16 1 }
      if en && !t.ppsEn then { t1 with disc := .acquiring, lastValid := none, validRun := 0, goodRun := 0, missRun := 0, lockedCorrs := [] }
      else if en then t1
      else { t1 with
        disc := .free, lastValid := none
        holdoverS := if t.disc == .holdover then min 65535 ((t.elapsed - t.holdoverAt) / 1000000000) else t.holdoverS }) s)

/-- TIME_TICK_SET, R57. -/
def timeTickSetB : Behaviour where
  fields _ c := need (8333333 ≤ c.q.u 16 4 && c.q.u 16 4 ≤ 100000000) St.range
  member s _ _ := need (allQuiet s) St.quiesce
  run _ s := (.wait .tick, s)
  effect c s := modTime (fun t => { t with period := c.q.u 16 4, refT := t.boundary (t.passed - 1), refK := t.passed - 1 }) s

/-- R58. The rate a request names. -/
def rateOf (q : Request) : Rate :=
  { div := q.u 16 1, slot := q.u 17 1, phase := q.u 18 1, low := q.bit 19 0, width := q.u 20 2 }

/-- TIME_CHAN_RATE, R58, R59. -/
def timeChanRateB : Behaviour where
  reserved q := q.zero 22 2 && q.u 19 1 < 2
  fields _ c :=
    let r := rateOf c.q
    firstOf [need (r.div != 0) St.badSelector,
      need (r.div ≤ 8 && r.slot < r.div && r.phase ≤ 63 && r.width ≤ 2000) St.range]
  member s _ m := need (!countsEnabled s m) St.quiesce
  run _ s := (.wait .tick, s)
  effect c s := forEach c.members (fun m t =>
    emit (.fsync m (pinLevel (some (rateOf c.q)) (t.chan m).fsync) 0) (modCfg m (fun x => { x with rate := some (rateOf c.q) }) t)) s

/-- TIME_GPTP_CONFIG, R51, R52. -/
def timeGptpConfigB : Behaviour where
  reserved q := q.zero 18 2
  fields _ c := need (c.q.u 16 1 ≤ 254 && decide (-5 ≤ c.q.i 17 1) && decide (c.q.i 17 1 ≤ 0)) St.range
  run c s := (.done St.ok [], modTime (fun t => { t with prio1 := c.q.u 16 1, logSync := c.q.i 17 1 }) s)

/-- R127. The engines a mask names. -/
def maskEngines (q : Request) : List Engine := idx 14 fun e => bitOf (q.u 16 4) e

/-- R127. The part has the engine; an unfitted controller answers with 0 (R582). -/
def engineInPart (s : State) (e : Engine) : Bool := if e = 11 ∨ e = 12 then e - 11 < s.nDmc else enginePresent s e

/-- R65, R127. One engine's entry. -/
def ledgerEntry (s : State) (e : Engine) : List Byte :=
  let m := tget s.meters e
  le 2 (worstPhase s.bookings e (lcmOf s.bookings [])) ++ le 2 (m.history.foldl max 0) ++ le 2 m.overruns

/-- TIME_LEDGER_QUERY, R127. -/
def timeLedgerQueryB : Behaviour where
  reserved q := q.u 16 4 < 16384
  present s q := (maskEngines q).all (engineInPart s)
  fields _ c := need ((maskEngines c.q).length ≤ 8) St.range
  run c s := (.done St.ok ((maskEngines c.q).flatMap (ledgerEntry s)), s)

/-! ### 1PPS_IN and 1PPS_OUT (R45 to R49) -/

/-- R46. The signed phase of an edge: how far device time stands past (or short of) the nearest whole second. -/
def phaseError (dev : Nat) : Int :=
  let r : Int := ((dev % 1000000000 : Nat) : Int)
  if r ≤ 500000000 then r else r - 1000000000

/-- R46. The correction with which the next edge meets a whole second: device time that stands ahead is slowed by as much as it is ahead,
1 ns in a second being 1,000 of the correction's units, within 50 ppm. -/
def meetsSecond (t : TimeBase) : Int := clampI (-50000000) 50000000 (t.corr - 1000 * phaseError t.dev)

/-- R46. How far the correction may move now: 0.05 ppm for each second since it last moved, a first time by 0.05 ppm. -/
def mayMove (t : TimeBase) : Nat :=
  match t.steeredAt with
  | none => 50000
  | some a => min 50000 ((t.elapsed - a) * 50000 / 1000000000)

/-- R46. Steer the frequency towards the correction that meets the second; by how much, within the limit, is open (choices 6, 66). -/
def steer (s : State) : State :=
  let t := s.time
  let want : Int := clampI (-(mayMove t : Int)) (mayMove t) (meetsSecond t - t.corr)
  let n : Int := ((Config.freeNat s.fresh % (want.natAbs + 1) : Nat) : Int)
  modTime (fun t => { t with
    corr := clampI (-50000000) 50000000 (t.corr + if want < 0 then -n else n), steered := true, steeredAt := some t.elapsed })
    { s with fresh := s.fresh + 1 }

/-- R47. The correction frozen as HOLDOVER is entered: the mean over the valid pulses of the last 64 s in LOCKED, or of the whole period
where it is shorter; how the mean is rounded is open (choice 6). -/
def frozen (t : TimeBase) : Int :=
  let l := (t.lockedCorrs.filter fun p => t.dev ≤ p.1 + 64000000000).map Prod.snd
  if t.disc = .locked && !l.isEmpty then roundTo 47 (l.foldl (· + ·) 0) l.length else t.corr

/-- R47, R48. An expected pulse is missing or invalid. The next is expected a second after it (choice 65). -/
def missPulse (s : State) : State :=
  let n := s.time.missRun + 1
  let s1 := raise 219 0 (modTime (fun t => { t with
    missRun := n, validRun := 0, goodRun := 0, lastValid := t.lastValid.map fun v => v + 1000000000 }) s)
  if 3 ≤ n && (s.time.disc == .locked || s.time.disc == .acquiring) then
    raise 217 0 (modTime (fun t => { t with
      disc := .holdover, corr := frozen t, holdoverAt := t.elapsed, holdoverS := 0, lockedCorrs := [] }) s1)
  else s1

/-- R46. The pulse is valid: the first since enable, or a second after the last, within 100,000 ns. -/
def pulseValid (t : TimeBase) : Bool :=
  match t.lastValid with
  | none => true
  | some v => v + 999900000 ≤ t.dev && t.dev ≤ v + 1000100000

/-- R47. The phase error is within 100 ns. -/
def phaseGood (dev : Nat) : Bool := dev % 1000000000 ≤ 100 || 999999900 ≤ dev % 1000000000

/-- R46 to R48. A valid pulse. Valid pulses of a HOLDOVER do not count towards the 16 for LOCKED: the count begins again with the return to
ACQUIRING. The spec does not say whether they do (DESIGN CHOICE, choice 65). -/
def goodPulse (s : State) : State :=
  let t := s.time
  let s1 := modTime (fun x => { x with
    lastValid := some x.dev, missRun := 0, validRun := x.validRun + 1, goodRun := if phaseGood x.dev then x.goodRun + 1 else 0 }) s
  match t.disc with
  | .holdover =>
    if 4 ≤ t.validRun + 1 then
      modTime (fun x => { x with
        disc := .acquiring, goodRun := 0, holdoverS := min 65535 ((x.elapsed - x.holdoverAt) / 1000000000) }) s1
    else s1
  | .acquiring =>
    let s2 := steer s1
    if 16 ≤ s2.time.goodRun then raise 216 0 (modTime (fun x => { x with disc := .locked, lockedCorrs := [(x.dev, x.corr)] }) s2) else s2
  | .locked =>
    modTime (fun x => { x with lockedCorrs := ((x.dev, x.corr) :: x.lockedCorrs).filter fun p => x.dev ≤ p.1 + 64000000000 }) (steer s1)
  | .free => s1

/-- R47. Expected pulses whose windows had passed by device time `now`. -/
def missedBy (t : TimeBase) (now : Nat) : Nat :=
  match t.lastValid with
  | none => 0
  | some v => (now - v - 100001) / 1000000000

/-- R47. Take as missed every expected pulse whose window has passed. -/
def missAll : Nat → State → State
  | 0, s => s
  | n + 1, s => missAll n (missPulse s)

/-- R40. A TIME_SET_BASE waits for the pulse. -/
def loadAtPulse (s : State) : State :=
  forEach (s.exec.filter fun x => x.wait == .pps) (fun x t =>
    match baseNow (x.ctx .timeSetBase) t with
    | (.done st pay, t1) => finish x st pay t1
    | (_, t1) => t1) s

/-- PPS_IN_PULSE, R46, R47: an edge of the selected kind at a device time. Windows that passed without a pulse come first; an edge that is
not valid is ignored (02, Corners), and the pulse that was expected is missing when its own window passes. -/
def execPpsInPulse (at_ : Nat) (s : State) : Host.Outcome State Fault Refusal :=
  let s1 := advanceTo at_ s
  let s2 := missAll (missedBy s1.time s1.time.dev) s1
  .next (if !s.time.ppsEn || s.boot.inReset then s else if pulseValid s2.time then loadAtPulse (goodPulse s2) else s2)

/-- PPS_IN_MISSING, R47: the window of the expected pulse has passed. -/
def execPpsInMissing (s : State) : Host.Outcome State Fault Refusal :=
  match s.time.lastValid with
  | none => .next s
  | some v => .next (if s.time.ppsEn && !s.boot.inReset then
      missPulse (advanceTo (v + 1000100001) s) else s)

/-- R49. Level of the pin 1PPS_OUT: high for 10 ms from the instant at which it rose. -/
def ppsLevel (t : TimeBase) : Bool := t.ppsRoseAt.any fun a => a ≤ t.dev && decide (t.dev < a + 10000000)

/-- R49. The next whole second for which the pin has not risen. -/
def nextSecond (t : TimeBase) : Nat :=
  let c := cdiv t.dev 1000000000 * 1000000000
  if t.ppsRoseAt = some c then c + 1000000000 else c

/-- PPS_OUT_PULSE, R49: at the next whole second the pin rises, and falls 10 ms later. The fall has no row of its own and is recorded with
its instant (choice 68). -/
def execPpsOutPulse (s : State) : Host.Outcome State Fault Refusal :=
  let n := nextSecond s.time
  .next (if s.clockRuns then
      emit (.ppsOut (n + 10000000) false) (emit (.ppsOut n true) (modTime (fun t => { t with ppsRoseAt := some n }) (advanceTo n s)))
    else s)

/-! ### gPTP (R50 to R52) -/

/-- R51. clockClass, clockAccuracy and timeSource. -/
def clockClass (t : TimeBase) : Nat := match t.disc with | .free | .acquiring => 248 | .locked => 6 | .holdover => 7
def clockAccuracy (t : TimeBase) : Nat := if t.disc = .locked then 0x21 else 0xFE
def timeSource (t : TimeBase) : Nat := if t.disc = .locked && t.ptpTs then 0x20 else 0xA0

/-- The port sends gPTP frames: its link is up. -/
def gptpUp (s : State) (p : Nat) : Bool := p < 2 && s.clockRuns && (tget s.ports p).up

/-- R51. The destination address and the EtherType of a gPTP frame. -/
def sendGptp (port kind seq : Nat) (fields : List Int) (s : State) : State := emit (.gptp port 0x0180C200000E 0x88F7 kind seq fields) s

/-- R51. A timestamp at the MAC interface, of 4 ns. -/
def gptpStamp (t : TimeBase) : Nat := t.dev / 4 * 4

def modPdelay (p : Nat) (g : PeerDelay → PeerDelay) (s : State) : State := modTime (fun t => { t with pdelay := tmod t.pdelay p g }) s

def modGptp (p : Nat) (g : Nat × Nat × Nat → Nat × Nat × Nat) (s : State) : State :=
  modTime (fun t => { t with gptpSeq := tmod t.gptpSeq p g }) s

/-- GPTP_SYNC_TX, R51: a Sync and its Follow_Up. -/
def execGptpSyncTx (port : Nat) (s : State) : Host.Outcome State Fault Refusal :=
  if 2 ≤ port then .refused (.noSuchUnit "MAC" port)
  else if gptpUp s port then
    let t := s.time
    let n := (tget t.gptpSeq port).1
    .next (sendGptp port 1 n [gptpStamp t, t.timeBaseInd, t.lastPhaseChange] (sendGptp port 0 n [0, t.logSync]
      (modGptp port (fun q => ((n + 1) % 65536, q.2)) s)))
  else .next s

/-- GPTP_ANNOUNCE_TX, R51. -/
def execGptpAnnounceTx (port : Nat) (s : State) : Host.Outcome State Fault Refusal :=
  if 2 ≤ port then .refused (.noSuchUnit "MAC" port)
  else if gptpUp s port then
    let t := s.time
    let n := (tget t.gptpSeq port).2.1
    .next (sendGptp port 2 n [0, t.prio1, clockClass t, clockAccuracy t, 248, timeSource t, b2n (t.ptpTs && t.baseSet)]
      (modGptp port (fun q => (q.1, (n + 1) % 65536, q.2.2)) s))
  else .next s

/-- GPTP_PDELAY_REQ_TX, R51. -/
def execGptpPdelayReqTx (port : Nat) (s : State) : Host.Outcome State Fault Refusal :=
  if 2 ≤ port then .refused (.noSuchUnit "MAC" port)
  else if gptpUp s port then
    let n := (tget s.time.gptpSeq port).2.2
    .next (sendGptp port 3 n [0] (modPdelay port (fun d => { d with req := some (n, gptpStamp s.time), resp := none }) <| modGptp port (fun q => (q.1, q.2.1, (n + 1) % 65536)) s))
  else .next s

/-- Lexicographic order of lists of numbers. -/
def lexLess : List Nat → List Nat → Bool
  | a :: as, b :: bs => a < b || (a == b && lexLess as bs)
  | _, _ => false

/-- R52. An Announce would win the best master clock comparison. The device's own variance and identity are open (choice 6). -/
def wouldWin (t : TimeBase) (identity prio1 cls acc var prio2 : Nat) : Bool :=
  lexLess [prio1, cls, acc, var, prio2, identity] [t.prio1, clockClass t, clockAccuracy t, Config.gptpOwn.1, 248, Config.gptpOwn.2]

/-- R51. A Pdelay_Resp to the device's own Pdelay_Req of that number: the receipt time it reports, and its arrival. -/
def takeResp (identity n receipt now : Nat) (d : PeerDelay) : PeerDelay :=
  if identity = Config.gptpOwn.2 ∧ d.req.any (fun r => r.1 == n) = true then { d with resp := some (receipt, now) } else d

/-- R51. Its Follow_Up ends the measurement: half of the turnaround seen less the turnaround reported (PRESUMED, log 95: 802.1AS). -/
def takeFollowUp (identity n origin : Nat) (d : PeerDelay) : PeerDelay :=
  match d.req, d.resp with
  | some (m, t1), some (t2, t4) =>
    if identity = Config.gptpOwn.2 ∧ m = n then
      { req := none, resp := none, delay := some ((((t4 : Int) - t1) - ((origin : Int) - t2)) / 2) }
    else d
  | _, _ => d

/-- GPTP_FRAME_RECEIVED, R50 to R52. -/
def execGptpFrameReceived (port : Nat) (m : GptpMsg) (s : State) : Host.Outcome State Fault Refusal :=
  if 2 ≤ port then .refused (.noSuchUnit "MAC" port)
  else if !gptpUp s port then .next s
  else match m with
    | .announce id_ p1 cls acc var p2 =>
      if wouldWin s.time id_ p1 cls acc var p2 then
        let s1 := modTime (fun t => { t with foreignCount := t.foreignCount + 1 }) s
        .next (if s.time.foreign.contains (id_, port) then s1
          else raise 218 0 (modTime (fun t => { t with foreign := (id_, port) :: t.foreign }) s1))
      else .next s
    | .pdelayReq id_ n => .next (sendGptp port 5 n [id_, gptpStamp s.time] (sendGptp port 4 n [id_, gptpStamp s.time] s))
    | .pdelayResp id_ n receipt => .next (modPdelay port (takeResp id_ n receipt (gptpStamp s.time)) s)
    | .pdelayFollowUp id_ n origin => .next (modPdelay port (takeFollowUp id_ n origin) s)
    | .other => .next s

/-! ### PTM (R53) -/

/-- R53. Time is carried to the next instant of the 10 ms at which a dialogue is due. -/
def toDialogue (s : State) : State :=
  match s.time.ptmAt with
  | some a => advanceElapsed (a + 10000000) s
  | none => s

/-- PTM_DIALOGUE, R53: every 10 ms while PTM is enabled. -/
def execPtmDialogue (s : State) : Host.Outcome State Fault Refusal :=
  .next (if !s.clockRuns || !s.time.ptmEn || s.time.ptmBusy then s
    else emit .ptmRequest (modTime (fun t => { t with ptmBusy := true, ptmAt := some t.elapsed }) (toDialogue s)))

/-- PTM_DIALOGUE_DONE, R53. -/
def execPtmDialogueDone (ok : Bool) (root : Nat) (s : State) : Host.Outcome State Fault Refusal :=
  .next (if !s.time.ptmBusy then s
    else if ok then modTime (fun t => { t with
      ptmBusy := false, ptmSeq := t.ptmSeq + 1, ptmDev := BitVec.ofNat 64 t.dev, ptmRoot := BitVec.ofNat 64 root }) s
    else raise 220 0 (modTime (fun t => { t with ptmBusy := false }) s))

end Sys2Proof.Machine
end

