-- ==== Sys2Proof/Machine/Roles.lean ====
section
/-!
DEFINITION. The 0x09xx commands: challenges, sessions, update messages, the audit log and the update counter (R455 to R477),
and the 0x08xx commands but TARN_NODE_INVALIDATE (R452, R453).
-/
namespace Sys2Proof.Machine

/-! ### Credentials and sessions -/

/-- R455. Slots of a role: 1 operator, 2 installer, 3 maker. -/
def roleSlots (r : Nat) : Nat := if r = 1 then 16 else if r = 2 then 8 else if r = 3 then 4 else 0

/-- R455. The key in a credential slot. -/
def credential (s : State) (r slot : Nat) : Option (List Byte) :=
  if r = 1 then tget s.roles.operator slot else if r = 2 then tget s.roles.installer slot
  else if r = 3 then tget s.roles.maker slot else none

/-- R455. Set a credential slot. -/
def setCredential (r slot : Nat) (k : Option (List Byte)) (s : State) : State :=
  modRoles (fun x =>
    if r = 1 then { x with operator := tset x.operator slot k }
    else if r = 2 then { x with installer := tset x.installer slot k }
    else { x with maker := tset x.maker slot k }) s

/-- R460. Close every session. -/
def closeSessions (p : Session → Bool) (s : State) : State :=
  { s with fns := s.fns.map fun x => if x.session.any p then { x with session := none } else x }

/-- R458, R459. ROLE and SLOT lie in range. -/
def roleRange (q : Request) : Bool := 1 ≤ q.u 16 1 && q.u 16 1 ≤ 3 && q.u 17 1 < roleSlots (q.u 16 1)

/-- R458. Issue a challenge with a nonce. -/
def issueChallenge (c : Ctx) (nonce : List Byte) (s : State) : State :=
  modFn c.f (fun x => { x with challenge := some ⟨c.q.u 16 1, c.q.u 17 1, nonce, s.time.elapsed⟩ }) s

/-- ROLE_CHALLENGE, R458. -/
def roleChallengeB : Behaviour where
  reserved q := q.zero 18 2
  fields _ c := need (roleRange c.q) St.range
  member s _ _ := entropyCheck s
  run c s :=
    match takeEntropy 32 s with
    | some (n, s1) => (.done St.ok n, issueChallenge c n s1)
    | none => (.wait (.entropy 32 []), s)
  resume c w s :=
    match w with
    | .entropy _ n => (.done St.ok n, issueChallenge c n s)
    | _ => (.done St.internal [], s)

/-- R459. The 72 bytes that ROLE_OPEN's signature covers. -/
def openMessage (s : State) (nonce : List Byte) (role slot f : Nat) : List Byte :=
  idHashOf s ++ nonce ++ le 1 role ++ le 1 slot ++ le 1 f ++ zeros 5

/-- R458, R459. A challenge is live and for this role and slot. -/
def challengeMatches (s : State) (c : Ctx) (ch : Challenge) : Bool :=
  s.time.elapsed < ch.issued + 5000000000 && ch.role == c.q.u 16 1 && ch.slot == c.q.u 17 1

/-- R459. End of ROLE_OPEN with its signature: `ch` is the challenge it consumed. -/
def openSession (c : Ctx) (ch : Option Challenge) (s : State) : Reply × State :=
  let role := c.q.u 16 1
  let slot := c.q.u 17 1
  let good := match ch with
    | some x => !s.tarn.tampered && x.role == role && x.slot == slot && (credential s role slot).isSome &&
        verify ((credential s role slot).getD (zeros 64)) (hash (openMessage s x.nonce role slot c.f)) (fit 64 c.data)
    | none => false
  let before := ((s.fn c.f).session.map Session.role).getD 0
  if !auditGuard s then (.done St.internal [], s)
  else if good then
    (.done St.ok [], modFn c.f (fun x => { x with session := some ⟨role, slot⟩ }) (auditNow c 0x01 (le 1 before) s))
  else (.done St.authFail [], auditNow c 0x02 (le 1 role ++ le 1 slot) s)

/-- ROLE_OPEN, R459. LEN is checked before ADDR. The challenge is consumed as execution begins. -/
def roleOpenB : Behaviour where
  reserved q := q.zero 18 2
  fields _ c := firstOf [need (roleRange c.q) St.range, need ((c.q.dma 20).2 == 64) St.badLength, dmaRange (c.q.dma 20)]
  run c s :=
    let ch := (s.fn c.f).challenge.filter (challengeMatches s c)
    let s1 := modFn c.f (fun x => { x with challenge := none }) s
    let s2 := match ch with
      | some x => modFn c.f (fun y => { y with opening := (c.q.tag, x) :: y.opening }) s1
      | none => s1
    (.wait (.dma (c.q.dma 20).1 64), s2)
  resume c _ s :=
    let ch := ((s.fn c.f).opening.find? fun p => p.1 == c.q.tag).map Prod.snd
    openSession c ch (modFn c.f (fun y => { y with opening := y.opening.filter fun p => p.1 != c.q.tag }) s)

/-- ROLE_CLOSE, R460. -/
def roleCloseB : Behaviour where
  run c s := (.done St.ok [], modFn c.f (fun x => { x with session := none }) s)

/-! ### The update counter (R467, R468) -/

/-- R468. The upper counter part in force. -/
def counterUpper (s : State) : Nat := (s.fuses.counterRows.getLast?.map BitVec.toNat).getD 0

/-- R467, R470. The stored counter. -/
def storedCounter (s : State) : Nat := counterUpper s * 1099511627776 + (if s.enrolled then s.roles.counterLow else 0)

/-- R468. A message counter needs another fuse row. -/
def needsRow (s : State) (v : Nat) : Bool := counterUpper s < v / 1099511627776

/-- R468. Store a message's counter. -/
def storeCounter (v : Nat) (s : State) : State :=
  let s1 := if needsRow s v then
    { s with fuses := { s.fuses with counterRows := s.fuses.counterRows ++ [BitVec.ofNat 24 (v / 1099511627776)] } } else s
  modRoles (fun r => { r with counterLow := v % 1099511627776 }) s1

/-- ROLE_COUNTER_GET, R477. -/
def roleCounterGetB : Behaviour where
  run _ s := (.done St.ok (le 8 (storedCounter s)), s)

/-! ### Update messages (R463 to R466, R469) -/

/-- R464. Fields of an update message. -/
structure Update where
  magic : Nat
  format : Nat
  kind : Nat
  signer : Nat
  slot : Nat
  counter : Nat
  device : List Byte
  target : Nat
  bodyLen : Nat
  rsv : Nat
  body : List Byte
  sig : List Byte
  /-- SHA-256 of all bytes before SIG. -/
  digest : List Byte
deriving DecidableEq, Repr, Inhabited

def Update.ofBytes (m : List Byte) : Update :=
  let n := field m 52 4
  { magic := field m 0 4, format := field m 4 1, kind := field m 5 1, signer := field m 6 1, slot := field m 7 1
    counter := field m 8 8, device := slice m 16 32, target := field m 48 4, bodyLen := n, rsv := field m 56 8
    body := (m.drop 64).take n, sig := slice m (64 + n) 64, digest := hash (m.take (64 + n)) }

def Update.isEnrol (u : Update) : Bool := u.kind == 0x01 || u.kind == 0x02

/-- R465. Signer that a kind requires. -/
def kindSigner (k : Nat) : Option Nat :=
  if k = 0x01 || k = 0x02 || k = 0x10 then some 0
  else if k = 0x11 || k = 0x20 || k = 0x30 || k = 0x40 then some 1
  else if k = 0x12 || k = 0x31 then some 2
  else none

/-- R465. BODY_LEN fits the kind. -/
def kindBody (k n : Nat) : Bool :=
  if k = 0x01 then n == 12
  else if k = 0x02 then n == 2144
  else if k = 0x10 || k = 0x11 || k = 0x12 || k = 0x20 then n == 64
  else if k = 0x30 || k = 0x31 then n == 112
  else if k = 0x40 then 1 ≤ n && n ≤ 1048448
  else false

/-- R465. TARGET lies in the kind's range. -/
def kindTarget (k t : Nat) : Bool :=
  if k = 0x10 then t < 4
  else if k = 0x11 || k = 0x20 then t < 8
  else if k = 0x12 then t < 16
  else if k = 0x30 then t == 5
  else if k = 0x31 then t < 256
  else t == 0

/-- R464. The signer's slot exists: 0 for the maker root, 0 to 3 for a maker slot, 0 to 7 for an installer slot. -/
def signerSlot (u : Update) : Bool := if u.signer = 0 then u.slot == 0 else if u.signer = 1 then u.slot < 4 else u.slot < 8

/-- R465. A credential body is all zero or a point on the curve; an ENROL_PREPARE body is a descriptor of 2,080 bytes. -/
def kindBodyValue (u : Update) : Bool :=
  if u.kind = 0x10 || u.kind = 0x11 || u.kind = 0x12 || u.kind = 0x20 then isZeros u.body || goodPoint u.body
  else if u.kind = 0x01 then field u.body 8 4 == 2080 && field u.body 0 8 % 8 == 0
  else true

/-- R466 step 4. The signer's key; zeros for an empty slot. -/
def signerKey (s : State) (u : Update) : List Byte :=
  if u.signer = 0 then s.fuses.makerRoot
  else (credential s (if u.signer = 1 then 3 else 2) u.slot).getD (zeros 64)

/-- R432. Slot an imported key goes to. -/
def importSlot (u : Update) : Nat := if u.kind = 0x30 then 5 else clientSlot u.target

/-- R432. Unwrap an imported key. -/
def unwrap (s : State) (u : Update) : Option (List Byte) :=
  let eph := slice u.body 0 64
  let z := fit 32 (Config.ecdh (privKey s 2) eph)
  let w := kdf z 0x31 [] (s.node 2).gen 0 (s.tarn.idHash ++ le 2 (importSlot u)) 352
  if goodPoint eph then (Config.gcmOpen (slice w 0 32) (slice w 32 12) (le 2 (importSlot u)) (slice u.body 64 48)).map (fit 32)
  else none

/-- R429, R433. Generations a kind advances GCTR by. -/
def kindGens (s : State) (u : Update) : Nat :=
  if u.kind = 0x30 then 1 + branchSize s ([6] ++ chanSlots ++ headSlots) else if u.kind = 0x31 then 1 else 0

/-- R466. The first check of a message that fails. -/
def checkUpdate (s : State) (u : Update) : Option Byte := firstOf [
  need (u.magic == 0x50554D43 && u.format == 1 && u.rsv == 0 && kindBody u.kind u.bodyLen && kindSigner u.kind == some u.signer
    && signerSlot u && kindTarget u.kind u.target && kindBodyValue u && (!u.isEnrol || u.counter == 0)) St.range,
  need (u.kind != 0x31 || u.target < s.nFlow) St.notPresent,
  need (!s.tarn.tampered || u.kind == 0x01) St.orphanedKey,
  need (u.isEnrol != s.enrolled) St.denied,
  need (u.device == (if u.isEnrol then hash s.fuses.dieUid else s.tarn.idHash)) St.authFail,
  need (verify (signerKey s u) u.digest u.sig) St.authFail,
  need (u.isEnrol || storedCounter s < u.counter) St.staleCounter,
  need (u.isEnrol || !needsRow s u.counter || s.fuses.counterRows.length < 32) St.range,
  need ((u.kind != 0x30 && u.kind != 0x31) || (unwrap s u).isSome) St.authFail,
  need (gctrRoom s (kindGens s u)) St.range,
  need (u.kind != 0x02 || (s.roles.candidate == some (u.body.take 2080)
    && verify s.fuses.makerRoot (hash (u.body.take 2080)) (slice u.body 2080 64))) St.authFail]

/-- R469, R470. ENROL_COMMIT: the helper record is written, the sealed-record area and the ring are erased, and a full reset
begins 1 ms after the response. -/
def enrolCommit (u : Update) (s : State) : State :=
  let s1 := modBoot (fun b => { b with helper := some u.body }) s
  let s2 := modTarn (fun t => { t with gctr := 0, bootEpoch := 0, evid := false, nodes := Vector.replicate 512 default }) s1
  let s3 := { s2 with roles := { (default : Roles) with candidate := s2.roles.candidate } }
  let s4 := forEach (List.range 32) (fun c t =>
    modCal c (fun x => { x with stored := none, geometry := none }) (modHead c (fun h => { h with pairing := none, life := none, mirror := none, closedMirrors := [] }) t)) s3
  { s4 with resetAt := some (s4.time.elapsed + 1000000) }

/-- R373, R435 (16, Corners). The client key of an active encrypted flow is replaced or gone: its running context is orphaned. -/
def orphanFlow (m : Nat) (s : State) : State :=
  modFlow m (fun x => { x with orphaned := x.orphaned || (x.active && (s.fcfg m).crypt != 0) }) s

/-- R432, R433. Install an imported key: a new generation, its copy, its key, and what hangs below; a running flow of the client keeps
the old context, which is orphaned. -/
def installKey (u : Update) (k : List Byte) (s : State) : State :=
  let n := importSlot u
  let s1 := modNode n (fun x => { x with copy := k }) s
  let s2 := if u.kind = 0x30 then modTarn (fun t => { t with evid := true }) s1 else s1
  let s3 := deriveNode n s2
  if u.kind = 0x30 then rederiveDev s3 else orphanFlow u.target s3

/-- R465. The effect of a message, after its counter is stored. -/
def applyUpdate (u : Update) (s : State) : State :=
  let cred (r : Nat) (t : State) : State :=
    closeSessions (fun x => x.role == r && x.slot == u.target)
      (setCredential r u.target (if isZeros u.body then none else some u.body) t)
  if u.kind = 0x02 then enrolCommit u s
  else if u.kind = 0x10 then cred 3 s
  else if u.kind = 0x11 then cred 2 s
  else if u.kind = 0x12 then cred 1 s
  else if u.kind = 0x20 then
    modRoles (fun r => { r with issuers := tset r.issuers u.target (if isZeros u.body then none else some u.body) }) s
  else if u.kind = 0x30 || u.kind = 0x31 then installKey u ((unwrap s u).getD (zeros 32)) s
  else if u.kind = 0x40 then
    modBoot (fun b => { b with
      banks := tset b.banks (1 - b.bank) u.body, bankGood := tset b.bankGood (1 - b.bank) (Config.firmwareGood s.fuses.makerRoot u.body)
      pendingBank := some (1 - b.bank), tried := false }) s
  else s

/-- R475. DETAIL of an UPDATE or UPDATE_REFUSED record. -/
def updateDetail (u : Update) (st : Byte) : List Byte :=
  le 1 u.kind ++ le 1 u.signer ++ le 1 u.slot ++ [st] ++ le 4 u.target ++ le 8 u.counter ++ slice u.digest 0 4

/-- R466, R471. Commit a message: the counter, the effect, the audit record. -/
def commitUpdate (c : Ctx) (u : Update) (s : State) : State :=
  auditNow c 0x10 (updateDetail u 0) (applyUpdate u (if u.isEnrol then s else storeCounter u.counter s))

/-- R423. Pack 64 blocks of 255 bits as 2,040 bytes, block 0 and bit 0 first. -/
def packBlocks (l : List (BitVec 255)) : List Byte :=
  le 2040 (l.foldr (fun b a => b.toNat + a * 2 ^ 255) 0)

/-- R424, R469. A candidate helper record from the PUF and 1,048 bytes of entropy. -/
def candidateRecord (s : State) (rnd : List Byte) : List Byte :=
  let code := fit 2040 (Config.bchEncode rnd)
  le 2 1 ++ le 2 64 ++ zeros 4 ++ xorBytes (packBlocks s.tarn.puf) code ++ hash (ascii "TARN-CHK" ++ hash code)

/-- R466. ROLE_UPDATE with its message read. -/
def updateRead (c : Ctx) (s : State) : Reply × State :=
  let u := Update.ofBytes c.data
  if (c.q.dma 16).2 ≠ 128 + u.bodyLen then (.done St.badLength [], s)
  else match checkUpdate s u with
    | some e =>
      if e = St.authFail || e = St.staleCounter then
        (if auditGuard s then (.done e [], auditNow c 0x11 (updateDetail u e) s) else (.done St.internal [], s))
      else (.done e [], s)
    | none =>
      if u.kind = 0x01 then (if s.tarn.trng = .latched then (.done St.entropyLatched [], s) else (.wait (.entropy 1048 []), s))
      else (.wait .flash, flashQueue .credential (some (c.f, c.q.tag)) s)

/-- ROLE_UPDATE, R463. Its parts: the message is read, it is checked, what it installs is programmed, and the response
follows; ENROL_PREPARE draws entropy and writes its candidate to OUT instead. A key whose program was under way at tamper is erased again
(R438; 16, Corners), and its message answers ORPHANED_KEY (choice 121). -/
def roleUpdateB : Behaviour where
  fields _ c := firstOf [need (128 ≤ (c.q.dma 16).2 && (c.q.dma 16).2 ≤ 1048576) St.badLength, dmaRange (c.q.dma 16)]
  member s _ _ := need (!s.exec.any fun x => Op.ofCode x.entry.opcode.toNat == some .roleUpdate) St.busy
  run c s := (.wait (.dma (c.q.dma 16).1 (c.q.dma 16).2), s)
  resume c w s :=
    let u := Update.ofBytes c.data
    match w with
    | .dma _ _ => updateRead c s
    | .entropy _ rnd =>
      let r := candidateRecord s rnd
      (.wait (.dmaOut (field u.body 0 8) r (le 8 u.counter)), s)
    | .dmaOut _ r pay => (.done St.ok pay, modRoles (fun x => { x with candidate := some r }) s)
    | .flash =>
      if s.tarn.tampered && (u.kind == 0x30 || u.kind == 0x31) then (.done St.orphanedKey [], storeCounter u.counter s)
      else (.done St.ok (le 8 u.counter), commitUpdate c u s)
    | _ => (.done St.internal [], s)

/-! ### Reading the audit log (R476) -/

/-- R474. SEQ of the oldest record retained. -/
def oldestSeq (s : State) : Nat := s.roles.nextSeq - s.roles.audit.length

/-- ROLE_AUDIT_READ, R476. -/
def roleAuditReadB : Behaviour where
  fields _ c := firstOf [need ((c.q.dma 20).2 % 64 == 0) St.range, dmaRange (c.q.dma 20)]
  run c s :=
    let first := max (c.q.u 16 4) (oldestSeq s)
    let recs := (s.roles.audit.drop (first - oldestSeq s)).take ((c.q.dma 20).2 / 64)
    let pay := le 4 s.roles.nextSeq ++ le 2 recs.length
      ++ le 1 (b2n (c.q.u 16 4 < oldestSeq s) + 2 * b2n s.roles.auditLost) ++ [0#8]
    if recs.isEmpty then (.done St.ok pay, s) else (.wait (.dmaOut (c.q.dma 20).1 recs.flatten pay), s)

/-! ### The 0x08xx commands (R452, R453) -/

/-- R452. Code of a slot's state. -/
def nodeStateCode (s : State) (n : Nat) : Nat :=
  if n = 0 then b2n s.enrolled
  else if nodeLacking s n then 3
  else match (s.node n).state with
    | .free => if 72 ≤ n && n < 328 then 3 else 0
    | .valid => 1
    | .orphaned => 2
    | .absent => 3

/-- R452. Slots VALID. -/
def validNodes (s : State) : Nat := if s.enrolled then (idx 512 fun n => nodeStateCode s n == 1).length else 0

/-- TARN_ID_GET, R452. -/
def tarnIdGetB : Behaviour where
  run _ s :=
    let t := s.tarn
    let st := (match t.trng with | .healthy => 0 | .restarting => 1 | .latched => 2) + 4 * b2n t.tampered + 8 * b2n t.evid
    (.done St.ok (fit 32 (idHashOf s) ++ le 8 t.bootEpoch ++ le 1 st ++ le 1 (min 3 t.fails) ++ le 2 (validNodes s) ++ le 4 t.gctr), s)

/-- TARN_RANDOM, R452. -/
def tarnRandomB : Behaviour where
  reserved q := q.zero 17 3
  fields _ c := need (1 ≤ c.q.u 16 1 && c.q.u 16 1 ≤ 32) St.range
  member s _ _ := entropyCheck s
  run c s :=
    match takeEntropy (c.q.u 16 1) s with
    | some (d, s1) => (.done St.ok (fit 32 d), s1)
    | none => (.wait (.entropy (c.q.u 16 1) []), s)
  resume _ w s :=
    match w with
    | .entropy _ d => (.done St.ok (fit 32 d), s)
    | _ => (.done St.internal [], s)

/-- R453, R452. Digest a TARN_SIGN signs. -/
def signDigest (c : Ctx) : List Byte := hash (c.q.bytes 44 16 ++ c.data)

/-- R442, R452. Draw the nonce of a signature, or wait for it. -/
def signDraw (s : State) : Reply × State := (.wait (.entropy 32 []), s)

/-- R442, R475. Sign and write the signature to OUT. -/
def signNow (c : Ctx) (nonce : List Byte) (s : State) : Reply × State :=
  let n := c.q.u 16 2
  let sig := fit 64 (Config.ecdsaSign (privKey s n) nonce (signDigest c))
  if !keyUsable s n then (.done St.orphanedKey [], s)
  else if auditGuard s then
    (.wait (.dmaOut (c.q.dma 32).1 sig []), auditNow c 0x64 (le 2 n ++ zeros 2 ++ slice (signDigest c) 0 16) s)
  else (.done St.internal [], s)

/-- TARN_SIGN, R453. -/
def tarnSignB : Behaviour where
  reserved q := q.zero 18 2
  present s q := !(8 ≤ q.u 16 2 && q.u 16 2 < 40) || q.u 16 2 - 8 < s.nChan
  rights c := c.q.u 16 2 != 1 || c.role == 3
  fields _ c := firstOf [
    need (c.q.u 16 2 == 1 || (8 ≤ c.q.u 16 2 && c.q.u 16 2 < 40)) St.range,
    need (c.q.u 44 1 != 0) St.range,
    dmaRange (c.q.dma 20), dmaRange (c.q.dma 32),
    need ((c.q.dma 32).2 == 0 || 64 ≤ (c.q.dma 32).2) St.badLength]
  member s c _ :=
    if (c.q.dma 32).2 = 0 then none else firstOf [need (keyUsable s (c.q.u 16 2)) St.orphanedKey, entropyCheck s]
  run c s :=
    if (c.q.dma 32).2 = 0 then (.done St.ok [], s)
    else if (c.q.dma 20).2 = 0 then signDraw s
    else (.wait (.dma (c.q.dma 20).1 (c.q.dma 20).2), s)
  resume c w s :=
    match w with
    | .dma _ _ => if s.tarn.trng = .latched then (.done St.entropyLatched [], s) else signDraw s
    | .entropy _ nonce => signNow c nonce s
    | _ => (.done St.internal [], s)

/-- TARN_VERIFY, R453. -/
def tarnVerifyB : Behaviour where
  fields _ c := firstOf [dmaRange (c.q.dma 16), need (160 ≤ (c.q.dma 16).2) St.badLength]
  run c s := (.wait (.dma (c.q.dma 16).1 160), s)
  resume c _ s :=
    (.done (if verify (slice c.data 0 64) (slice c.data 64 32) (slice c.data 96 64) then St.ok else St.authFail) [], s)

/-- TARN_NODE_QUERY, R452. -/
def tarnNodeQueryB : Behaviour where
  reserved q := q.zero 18 2
  fields _ c := need (c.q.u 16 2 < 512) St.range
  run c s :=
    let n := c.q.u 16 2
    (.done St.ok (le 2 n ++ le 2 ((nodeParent n).getD 0xFFFF) ++ le 1 (nodeKind n) ++ le 1 (nodeDepth n)
      ++ le 1 (nodeStateCode s n) ++ [0#8] ++ le 4 (s.node n).gen ++ le 4 (s.node n).start), s)

/-- R453. The output of TARN_PUBKEY_GET. -/
def pubkeyBytes (s : State) : List Byte :=
  let entry (n : Nat) (k : List Byte) : List Byte := le 2 n ++ le 1 (nodeKind n) ++ [0#8] ++ le 4 (s.node n).gen ++ fit 64 k
  le 2 (2 + s.nChan) ++ zeros 6 ++ entry 1 s.tarn.pubId ++ entry 2 s.tarn.pubXport
    ++ (List.range s.nChan).flatMap fun c => entry (chanSlot c) (tget s.tarn.pubChan c)

/-- TARN_PUBKEY_GET, R453. -/
def tarnPubkeyGetB : Behaviour where
  fields s c := firstOf [dmaRange (c.q.dma 16), need ((c.q.dma 16).2 == 0 || 8 + 72 * (2 + s.nChan) ≤ (c.q.dma 16).2) St.badLength]
  run c s := if (c.q.dma 16).2 = 0 then (.done St.ok [], s) else (.wait (.dmaOut (c.q.dma 16).1 (pubkeyBytes s) []), s)

end Sys2Proof.Machine
end

