-- ==== Sys2Proof/Machine/Vault.lean ====
section
/-!
DEFINITION. What takes keys away: TARN_NODE_INVALIDATE (R435), tamper (R437, R438) and the failures of the TRNG (R443 to
R446).
-/
namespace Sys2Proof.Machine

/-! ### Invalidation (R435) -/

/-- R427. Slot `m` is slot `n` or lies below it; `k` levels. -/
def below (n : Nat) : Nat → Nat → Bool
  | _, 0 => false
  | m, k + 1 => m == n || (match nodeParent m with | some p => below n p k | none => false)

/-- The subtrees of two slots meet. -/
def meets (a b : Nat) : Bool := below a b 7 || below b a 7

/-- R435. The slots below `n` that are re-derived with it. -/
def invalidBranch (n : Nat) : List Nat :=
  if n = 5 then [6] ++ chanSlots ++ headSlots
  else if n = 6 then chanSlots ++ headSlots
  else if 8 ≤ n && n < 40 then [headSlot (n - 8)]
  else []

/-- R435. The slot a request names. -/
def invalidNode (q : Request) : Nat := q.u 16 2

/-- R435. A request in execution touches the subtree of slot `n`: a HEAD_PAIR, an update message that installs a key, or
another invalidation. -/
def touches (n : Nat) (x : ExecEntry) : Bool :=
  match Op.ofCode x.entry.opcode.toNat with
  | some .headPair => x.members.any fun c => meets n (headSlot c)
  | some .tarnNodeInvalidate => meets n (invalidNode x.entry.req)
  | some .roleUpdate =>
    let u := Update.ofBytes x.data
    !x.data.isEmpty && (u.kind == 0x30 || u.kind == 0x31) && meets n (importSlot u)
  | _ => false

/-- R435. The slot may be named: VALID, or orphaned. -/
def invalidates (s : State) (n : Nat) : Bool := (s.node n).state == .valid || (s.node n).state == .orphaned

/-- R435. An effect or no effect: a node that is already ORPHANED is left as it is. -/
def invalidLive (s : State) (n : Nat) : Bool := (s.node n).state == .valid

/-- R435. Invalidate slot `n`. -/
def invalidate (n : Nat) (s : State) : State :=
  let count := raise 203 0
  if n = 2 then count (renewPublic (deriveNode 2 s))
  else if n = 5 then
    let s1 := modNode 5 (fun x => { x with copy := [] }) (modTarn (fun t => { t with evid := false }) s)
    count (rederiveDev (modNode 5 (fun x => { x with state := .orphaned }) (deriveNode 5 s1)))
  else if n = 6 then count (headsNeedKey (List.range 32) (renewPublic (rederiveAll (chanSlots ++ headSlots) (deriveNode 6 s))))
  else if 8 ≤ n && n < 40 then
    count (headsNeedKey [n - 8] (renewPublic (rederiveAll [headSlot (n - 8)] (deriveNode n s))))
  else if 40 ≤ n && n < 72 then unpairEffects (n - 40) (auditDevice 0x21 (unpairDetail s (n - 40) 2) s)
  else
    let m := n - 72
    count (orphanFlow m (modNode n (fun x => { x with state := .orphaned }) (newGen n s)))

/-- TARN_NODE_INVALIDATE, R435. Its record names the new generation, which the slot takes at the boundary. -/
def tarnNodeInvalidateB : Behaviour where
  reserved q := q.zero 18 2
  present s q := !(invalidNode q < 512 && nodeLacking s (invalidNode q))
  fields _ c := need (invalidNode c.q < 512 && !([0, 1, 3, 4].contains (invalidNode c.q))) St.range
  member s c _ :=
    let n := invalidNode c.q
    firstOf [
      need (!s.exec.any (touches n)) St.busy,
      need (invalidates s n) St.range,
      need (!invalidLive s n || gctrRoom s (1 + branchSize s (invalidBranch n))) St.range]
  run c s :=
    let n := invalidNode c.q
    let g := s.tarn.gctr + 1
    if !invalidLive s n then (.wait .tick, s)
    else match tickAudited 0x40 (le 2 n ++ zeros 2 ++ le 4 g) c s with
      | (.wait w, s1) => (.wait w, modTarn (fun t => { t with gctr := g, reserved := (n, g) :: t.reserved }) s1)
      | r => r
  effect c s :=
    let n := invalidNode c.q
    if (s.tarn.reserved.any fun p => p.1 == n) && invalidLive s n then invalidate n s else s

/-! ### Tamper (R437, R438) -/

/-- R438. Firmware erases the imported copies in sealed flash; no imported key is held until a new import. -/
def eraseImported (s : State) : State :=
  let gone (x : Node) : Node := { x with copy := [], state := if x.state == .valid then .orphaned else x.state }
  let s1 := forEach ((List.range 256).map clientSlot) (fun n => modNode n gone) s
  let s2 := if s1.tarn.evid then modNode 5 gone s1 else s1
  modTarn (fun t => { t with evid := false }) s2

/-- R437, R438, R373. The SRTP contexts are zeroed: an encrypted flow discards the items that wait, and every later one. -/
def discardEncrypted (m : Nat) (s : State) : State :=
  if (s.flow m).active && (s.fcfg m).crypt != 0 && (s.fcfg m).route < 2 then
    let gone := (s.flow m).items.filter fun i => !i.begun
    forEach gone (fun _ => exception m 5)
      (modFlow m (fun x => { x with items := x.items.filter Item.begun, key := [], orphaned := true }) s)
  else modFlow m (fun x => { x with key := [] }) s

/-- R437, R438. What a qualified assertion of TAMPER_N takes away. -/
def tamper (s : State) : State :=
  let s1 := tamperBuffers s
  let s2 := modTarn (fun t => { t with
    nodes := t.nodes.map fun x => { x with cell := zeros 32 }
    mask := zeros 32, perm := zeros 8, pool := []
    tampered := true, tamperSeen := true, tamperEpoch := t.bootEpoch }) s1
  let s3 := forEach (List.range 256) discardEncrypted s2
  raise 202 0 (eraseImported (closeSessions (fun _ => true) s3))

/-- TAMPER_ASSERT, R437. -/
def execTamperAssert (s : State) : Host.Outcome State Fault Refusal := .next (if s.boot.inReset then s else tamper s)

/-! ### The TRNG (R443 to R446) -/

/-- A request in execution waits for entropy. -/
def ExecEntry.wantsEntropy (x : ExecEntry) : Bool := match x.wait with | .entropy _ _ => true | _ => false

/-- R445. Every request that waits for entropy ends with ENTROPY_FAIL, and a check that waits for its nonce fails. -/
def failEntropy (s : State) : State :=
  let s1 := forEach (s.exec.filter ExecEntry.wantsEntropy) (fun x => finish x St.entropyFail []) s
  forEach (List.range 32) (fun c t =>
    if (curCheck t c).any fun k => k.step == .nonce then modCheck c (fun k => { k with chalFail := true, step := .judged }) t else t) s1

/-- R445, R446. A health test fails. -/
def healthFail (s : State) : State :=
  let n := s.tarn.fails + 1
  let s1 := modTarn (fun t => { t with pool := [], fails := n, trng := if 4 ≤ n then .latched else .restarting }) s
  when (4 ≤ n) (raise 201 0) (raise 200 0 (failEntropy s1))

/-- TRNG_HEALTH_FAIL, R445. A latched source makes no more tests. -/
def execTrngHealthFail (s : State) : Host.Outcome State Fault Refusal :=
  .next (if s.boot.inReset || s.tarn.trng == .latched then s else healthFail s)

/-- TRNG_RESTART_DONE, R443. -/
def execTrngRestartDone (s : State) : Host.Outcome State Fault Refusal :=
  .next (if !s.boot.inReset && s.tarn.trng == .restarting then modTarn (fun t => { t with trng := .healthy }) s else s)

end Sys2Proof.Machine
end

