-- ==== Sys2Proof/Machine/System.lean ====
section
/-!
DEFINITION. The system group of commands (R120 to R124), the status windows (R94 to R98), conditions (R135, R136), the end of a
challenge (R458), and the reset of functions (R99, R100, R151, R361).
-/
namespace Sys2Proof.Machine

/-! ### The 0x01xx commands -/

/-- SYS_NOP, R120. -/
def sysNopB : Behaviour where

/-- R450, R470. The boot epoch as reported. -/
def epochOf (s : State) : Nat := if s.enrolled then s.tarn.bootEpoch else 0

/-- R491. UCODE_VER and OPEN_FREE: the lower vendor version and the smaller number of free open-region words of the two classes. -/
def ucodeVer (s : State) : Nat := min (tget s.cls 0).vendorVer (tget s.cls 1).vendorVer
def openFree (s : State) : Nat := min (2048 - (tget s.cls 0).openWords) (2048 - (tget s.cls 1).openWords)

/-- R120. The payload of SYS_CAPS. -/
def capsBytes (s : State) (f : Nat) : List Byte :=
  le 4 (sysCap0 s).toNat ++ le 4 sysCap1.toNat ++ le 4 (sysCap2 s).toNat ++ le 4 s.boot.fwVer ++ le 4 (ucodeVer s)
    ++ le 2 (openFree s) ++ le 1 s.numVfs ++ le 1 (((s.fn f).session.map Session.role).getD 0)
    ++ le 8 (epochOf s)

/-- SYS_CAPS, R120. -/
def sysCapsB : Behaviour where
  run c s := (.done St.ok (capsBytes s c.f), s)

/-- R121. A deferred command is abandoned: it leaves execution without a response, with its check or its bus transfer. -/
def abandonDeferred (x : ExecEntry) (s : State) : State :=
  if (Op.ofCode x.entry.opcode.toNat).any (fun o => o.info.timing == .deferred) || x.wait == .pps then
    (let s1 := match x.wait with
      | .check ch | .bus ch => cancelHead ch x.func x.entry.req.tag s
      | _ => s
     { s1 with exec := s1.exec.erase x })
  else s

/-- SYS_RESET, R121. -/
def sysResetB : Behaviour where
  fields _ c := need (c.q.u 16 4 == 0x53595352) St.range
  run c s :=
    if auditGuard s then
      (.done St.ok [], { forEach s.exec abandonDeferred (auditNow c 0x61 [] s) with resetAt := some (s.time.elapsed + 1000000) })
    else (.done St.internal [], s)

/-- SYS_GROUP_SET, R122. -/
def sysGroupSetB : Behaviour where
  reserved q := q.zero 17 3
  present s q := q.u 20 4 < 2 ^ s.nChan
  fields _ c := need (c.q.u 16 1 < 8) St.range
  run c s := (.done St.ok [], { s with groups := tset s.groups (c.q.u 16 1) (BitVec.ofNat 32 (c.q.u 20 4)) })

/-- SYS_FGROUP_SET, R122. -/
def sysFgroupSetB : Behaviour where
  reserved q := q.zero 17 3
  present s q := q.u 20 32 < 2 ^ s.nFlow
  fields _ c := need (c.q.u 16 1 < 16) St.range
  run c s := (.done St.ok [], { s with fgroups := tset s.fgroups (c.q.u 16 1) (BitVec.ofNat 256 (c.q.u 20 32)) })

/-- R123. Membership of a group. -/
def groupMask (s : State) (kind g : Nat) : Nat := if kind = 0 then (tget s.groups g).toNat else (tget s.fgroups g).toNat

/-- SYS_GROUP_GET, R123. -/
def sysGroupGetB : Behaviour where
  reserved q := q.zero 18 2
  fields _ c := need (c.q.u 16 1 ≤ 1 && c.q.u 17 1 < (if c.q.u 16 1 = 0 then 8 else 16)) St.range
  run c s :=
    let m := groupMask s (c.q.u 16 1) (c.q.u 17 1)
    (.done St.ok (le 1 (c.q.u 17 1) ++ le 1 (c.q.u 16 1) ++ le 2 (idx 256 (bitOf m)).length ++ le 32 m), s)

/-- R124. What a save writes. -/
def configNow (gen : Nat) (s : State) : SavedConfig :=
  { gen := gen, period := if s.time.tickRun then s.time.period else 0
    channels := s.chans.toList.map Chan.cfg, flows := s.flowCfg.toList, groups := s.groups, fgroups := s.fgroups, ports := s.rx, tx := s.tx
    enabled := idx 32 fun c => (s.chan c).enabled
    active := idx 256 fun m => (s.flow m).active
    prio1 := s.time.prio1, logSync := s.time.logSync, ppsEn := s.time.ppsEn, ppsEdge := s.time.ppsEdge }

/-- SYS_CONFIG_SAVE, R124. The number of the first generation and the size written are open (choice 6). -/
def sysConfigSaveB : Behaviour where
  member s _ _ := need (!s.exec.any fun x => Op.ofCode x.entry.opcode.toNat == some .sysConfigSave) St.busy
  run c s :=
    let g := match s.boot.saved with
      | x :: _ => (x.gen + 1) % 4294967296
      | [] => Config.freeNat s.fresh % 4294967296
    (.wait .flash, flashQueue (.config (configNow g s)) (some (c.f, c.q.tag)) { s with fresh := s.fresh + 1 })
  resume c _ s :=
    let g := (s.boot.saved.head?.map SavedConfig.gen).getD 0
    let n := Config.freeNat s.fresh % 4294967296
    (.done St.ok (le 4 n ++ le 4 g), auditNow c 0x62 (le 4 g ++ le 4 n) { s with fresh := s.fresh + 1 })

/-! ### Status windows (R94 to R98) -/

/-- R96. OUTCOME. -/
def RecOutcome.code : RecOutcome → Nat
  | .complete => 0 | .truncated => 1 | .dropped => 2

/-- R96. CHAN_ST_STATE but PRESENT, which every read adds. -/
def chanStateWord (x : Chan) : Nat :=
  2 * b2n x.enabled + 4 * b2n x.cfg.bind.isSome + 8 * b2n (x.head.state == .paired) + 16 * b2n (x.head.life.any Life.wear)
    + 32 * b2n (x.head.life.any Life.eol) + 64 * b2n (x.cal.pins != 0)
    + (match x.cfg.bind with | some b => 256 * b.port + 4096 * b.vc | none => 0)
    + (match x.cfg.rate with | some r => 65536 * r.div + 1048576 * r.slot + 8388608 * r.phase | none => 0)

/-- R96. CHAN_ST_RECORD. -/
def chanRecordWord (x : Chan) : Nat :=
  match x.lastRec with
  | none => 3 + 65536 * 0xFFFF
  | some f => f.outcome.code + 4 * b2n f.unsettled + 8 * b2n f.late + 16 * b2n f.fifoOvf + 32 * b2n f.pipeOvr
      + 256 * min 255 f.bad + 65536 * f.truncLine

/-- R96. The words of a channel's window with its sequence word `q`. FRAME and CAPTURE stay those of the last closed record when a new run
begins, until it closes one: RECORD alone says 'none since enable' (DESIGN CHOICE, choice 97). -/
def chanWindow (s : State) (c q : Nat) : Vector Word 16 :=
  let x := s.chan c
  let fifo := match x.cfg.bind with | some b => levelNow s b.port + 65536 * (s.rxPort b.port).hwm | none => 0
  let n := x.closed.1
  let t := x.closed.2
  Vector.ofFn fun i => wOf ((([q, chanStateWord x, chanRecordWord x, fifo, n, n / 4294967296, t, t / 4294967296,
    x.trunc + 65536 * x.drop, x.ovrPipe + 65536 * x.ovrEnc])[i.val]?).getD 0)

/-- R94, R95. Firmware writes channel `c`'s window: the sequence word is odd while it is written, then even again. -/
def updateChanWindow (c : Nat) (s : State) : State :=
  modChan c (fun x => { x with window := chanWindow s c ((tget x.window 0).toNat + 2) }) s

/-- CHAN_STATUS_UPDATE, R95, R96. -/
def execChanStatusUpdate (ch : Nat) (s : State) : Host.Outcome State Fault Refusal :=
  if 32 ≤ ch then .refused (.noSuchUnit "channel" ch)
  else .next (if s.ready && ch < s.nChan then updateChanWindow ch s else s)

/-- R97. The words of a flow's window, without its sequence word. -/
def flowWindow (s : State) (m : Nat) : Vector Word 16 :=
  let x := s.flow m
  let g := s.fcfg m
  let st := 2 * b2n x.active + 4 * b2n (g.weight == 0) + 8 * g.route + 32 * (if g.route = 3 then g.port else 0) + 256 * g.func.getD 0
  Vector.ofFn fun i => wOf ((([0, st, x.bytes, x.bytes / 4294967296, x.pkts, x.pkts / 4294967296, x.aus, x.aus / 4294967296,
    flowDepth s m, min 0xFFFFFFFF (flowDelay s m), x.hrdClamp])[i.val]?).getD 0)

/-- R95. At a boundary the values that the next update writes are taken. -/
def snapFlows (s : State) : State := forEach (List.range s.nFlow) (fun m => modFlow m fun x => { x with snap := flowWindow s m }) s

/-- FLOW_STATUS_UPDATE, R95, R97: after a boundary, with the values as they stood at it. -/
def execFlowStatusUpdate (s : State) : Host.Outcome State Fault Refusal :=
  .next (if s.ready && s.time.tickRun && 0 < s.time.passed then
    forEach (List.range s.nFlow) (fun m => modFlow m fun x => { x with window := tset x.snap 0 (wOf ((tget x.window 0).toNat + 2)) }) s
  else s)

/-! ### Conditions (R135, R136) -/

/-- R136. The conditions of a channel that hold: source and cause bit. -/
def chanConditions (s : State) (c : Nat) : List (Nat × Nat) :=
  let x := s.chan c
  (if x.enabled && x.head.state != .paired then [(32 + c, 5)] else [])
    ++ (if x.enabled && x.noFrame then [(32 + c, 9)] else [])
    ++ (if x.cal.est.toList.any Estimator.insufficient then [(64 + c, 2)] else [])
    ++ (if x.enabled && x.cfg.ego && s.egoTaken.isNone then [(128 + c, 6)] else [])
    ++ (if x.enabled && [0, 1].any (fun st => (tget x.cfg.streams st).enable && (tget x.runs st).sealUnpaired) then [(128 + c, 7)] else [])

/-- R133, R136. Every condition that holds. -/
def conditions (s : State) : List (Nat × Nat) :=
  (List.range s.nChan).flatMap (chanConditions s)
    ++ ((idx 32 fun h => (s.decS h).isOpen && (s.decS h).feedEmpty).map fun h => (160 + h, 4))
    ++ (if poolLow s then [(197, 0)] else []) ++ (if s.tarn.trng == .latched then [(201, 0)] else [])
    ++ (if s.power.warn then [(209, 0)] else []) ++ (if s.power.crit then [(210, 0)] else [])

/-- R135. Every condition that holds sets its cause again. -/
def reassert (s : State) : State := forEach (conditions s) (fun p => raise p.1 p.2) s

/-- R135. An instant of 33,333,333 ns while the tick is not running. -/
def reassertStopped (s : State) : State :=
  reassert (modTime (fun t => { t with stoppedInstants := t.stoppedInstants + 1 })
    (advanceElapsed (s.time.stoppedAt + 33333333 * (s.time.stoppedInstants + 1)) s))

/-- CONDITION_REASSERT, R135. While the tick runs, the boundary itself sets them. -/
def execConditionReassert (s : State) : Host.Outcome State Fault Refusal :=
  .next (if !s.clockRuns || s.time.tickRun then s else reassertStopped s)

/-! ### Challenges and functions (R99, R100, R361, R458) -/

/-- CHALLENGE_EXPIRY, R458: 5,000 ms after issue. -/
def execChallengeExpiry (f : Nat) (s : State) : Host.Outcome State Fault Refusal :=
  if 16 ≤ f then .refused (.noSuchUnit "function" f)
  else match (s.fn f).challenge with
    | some c => .next (modFn f (fun x => { x with challenge := none }) (advanceElapsed (c.issued + 5000000000) s))
    | none => .next s

/-- R99. A function after its reset. What a ROLE_OPEN in execution has consumed stays with it. Its MSI-X masks return to their reset values and
messages held are dropped: the spec does not say what becomes of them (DESIGN CHOICE, choice 96). -/
def Fn.cleared (x : Fn) : Fn := { Fn.reset with opening := x.opening, readData := x.readData }

/-- R99, R151. The reset of one function: requests in execution complete their effect without a response. -/
def resetFunction (f : Nat) (s : State) : State :=
  resetTarget f (modFn f Fn.cleared { s with exec := s.exec.map fun x => if x.func = f then { x with dead := true } else x })

/-- R99, R361. A virtual function leaves the hierarchy. -/
def leaveFunction (f : Nat) (s : State) : State := stopHost f (resetFunction f s)

/-- R71. The virtual functions present. -/
def presentVfs (s : State) : List Nat := (idx 16 (s.fnPresent)).filter (· != 0)

/-- R99, R100. -/
def functionReset (f : Nat) (s : State) : State :=
  if f = 0 then { forEach (presentVfs s) leaveFunction (resetFunction 0 s) with vfEnable := false } else resetFunction f s

/-- FUNCTION_LEVEL_RESET, R99, R100. -/
def execFunctionLevelReset (f : Nat) (s : State) : Host.Outcome State Fault Refusal :=
  if 16 ≤ f then .refused (.noSuchUnit "function" f) else .next (if s.fnPresent f then functionReset f s else s)

/-- R71, R361. NumVFs and VF Enable change. -/
def vfChange (n : Nat) (en : Bool) (s : State) : State :=
  { forEach ((presentVfs s).filter fun f => !en || n < f) leaveFunction s with numVfs := n, vfEnable := en }

/-- VF_ENABLE_CHANGE, R361. -/
def execVfEnableChange (numVfs : Nat) (enable : Bool) (s : State) : Host.Outcome State Fault Refusal :=
  if 16 ≤ numVfs then .refused (.noSuchUnit "virtual function" numVfs) else .next (vfChange numVfs enable s)

end Sys2Proof.Machine
end

