-- ==== Sys2Proof/Machine/Boot.lean ====
section
/-!
DEFINITION. Full reset, bring-up, and the failures that need one (R39, R56, R152, R414, R423 to R439, R450, R469, R470, R503,
R529 to R540, R548, R552, R566, R567, R581).
-/
namespace Sys2Proof.Machine

/-! ### Full reset (R529, R530, R552) -/

/-- R78. SYS_RESET_CAUSE of a trigger; a dip of VDD_AON counts as POWER_ON (R563). -/
def resetCause : ResetTrigger → Nat
  | .powerOn | .aonDip => 0
  | .resetN => 1
  | .perst | .hotReset | .linkDown => 2
  | .sysReset => 3

/-- R563. The trigger takes VDD_AON out of range, and what AON keeps with it (21, Corners). -/
def losesAon (t : ResetTrigger) : Bool := resetCause t == 0

/-- R200, R201, R552. A head's service life as the mirror gives it back. -/
def lifeBack (h : Head) : Option Life :=
  if h.pairing.isNone then none
  else h.mirror.map fun l => { l with wear := false, eol := false, pushPending := false, lastPush := 0, pushFrom := 0, tryAt := 0, minuteAt := 0 }

/-- R552, R258. What a channel keeps: pairing, life mirror, and the calibration record. -/
def keptChan (x : Chan) : Chan :=
  { Chan.reset with
    head := { Chan.reset.head with
      pairing := x.head.pairing, mirror := x.head.mirror, closedMirrors := x.head.closedMirrors, life := lifeBack x.head
      firstCheck := x.head.pairing.isSome, keyUpdate := x.head.keyUpdate }
    cal := { Chan.reset.cal with
      enable := x.cal.enable, pins := x.cal.pins, thr := x.cal.thr, geometry := x.cal.geometry, stored := x.cal.stored
      recordAt := x.cal.stored.map fun _ => 0 } }

/-- R552. What Tarn keeps: the slots' records in flash, GCTR, BOOT_EPOCH, and TAMPER_SEEN while VDD_AON stays in range. -/
def keptTarn (aon : Bool) (t : Tarn) : Tarn :=
  { (default : Tarn) with
    nodes := t.nodes.map fun x => { x with cell := [] }
    gctr := t.gctr, bootEpoch := t.bootEpoch, evid := t.evid
    tamperSeen := aon && t.tamperSeen, tamperEpoch := if aon then t.tamperEpoch else 0 }

/-- R530. An AVS rail returns to its floor. -/
def keptDomain (d : Nat) (x : Domain) : Domain :=
  let r := Domain.reset d
  if d = 0 ∨ d = 5 then r else { r with floor := x.floor, vset := x.floor }

/-- R530, R552. The state after the trigger. A pairing that flash holds and that waited for its boundary is kept. -/
def resetState (t : ResetTrigger) (s0 : State) : State :=
  let s := forEach (List.range 32) applyPairing s0
  let aon := !losesAon t
  let trip := aon && s.power.tripped
  { State.reset with
    pending := s.pending, fuses := s.fuses, out := s.out, fresh := s.fresh
    boot := { Boot.reset with
      cause := resetCause t, bank := s.boot.bank, pendingBank := s.boot.pendingBank, tried := s.boot.tried, banks := s.boot.banks
      bankGood := s.boot.bankGood, board := s.boot.board, helper := s.boot.helper, saved := s.boot.saved, images := s.boot.images
      patches := s.boot.patches, flashBad := s.boot.flashBad }
    chans := s.chans.map keptChan
    tarn := keptTarn aon s.tarn
    roles := { s.roles with candidate := none, auditLost := false }
    power := { State.reset.power with
      domains := Vector.ofFn fun i => if aon then keptDomain i.val (s.domain i.val) else Domain.reset i.val
      tj := s.power.tj, tripped := trip, faultN := if trip then [1] else [] } }

/-- R530, R551. A full reset begins. -/
def beginReset (t : ResetTrigger) (s : State) : State :=
  let s1 := emit (.ppsOut s.time.dev false) (emit .fsyncAllLow (resetState t s))
  if !s.power.faultN.isEmpty && s1.power.faultN.isEmpty then emit (.faultN false) s1 else s1

/-- R121. No boundary of the running tick falls before the instant `r` of elapsed time. -/
def resetFirst (s : State) (r : Nat) : Bool :=
  !(s.time.refclk && s.time.tickRun && decide (s.time.boundary s.time.passed + s.time.elapsed < r + s.time.dev))

/-- R121, R529. The trigger begins a full reset: not one that overlaps another, and SYS_RESET only where its command has run and every
boundary that falls before its instant has passed. -/
def triggers (t : ResetTrigger) (s : State) : Bool :=
  match t with
  | .powerOn | .aonDip => true
  | .sysReset => !s.boot.inReset && s.resetAt.any (resetFirst s)
  | _ => !s.boot.inReset || s.power.tripped

/-- FULL_RESET, R529. -/
def execFullReset (t : ResetTrigger) (s : State) : Host.Outcome State Fault Refusal := .next (if triggers t s then beginReset t s else s)

/-! ### Reset release (R423 to R425, R434, R439, R450, R469, R533 to R540) -/

/-- R540, R550. Bring-up stops. -/
def failBoot (code : Nat) (s : State) : State := assertFaultN 7 (modBoot (fun b => { b with fw := .failed, bootErr := code }) s)

/-- R423, R425. The root, regenerated from the PUF and the helper record. -/
def regenerate (s : State) (h : List Byte) : Option (List Byte) :=
  match Config.bchDecode (xorBytes (packBlocks s.tarn.puf) (slice h 8 2040)) with
  | none => none
  | some b =>
    let root := hash (fit 2040 b)
    if verify s.fuses.makerRoot (hash (slice h 0 2080)) (slice h 2080 64) && slice h 2048 32 == hash (ascii "TARN-CHK" ++ root) then some root
    else none

/-- R534. The bank the boot ROM boots: the pending one unless it has been tried; the other where that one does not verify. -/
def bankToBoot (b : Boot) : Option Nat :=
  let first := match b.pendingBank with
    | some p => if b.tried then b.bank else p
    | none => b.bank
  if tget b.bankGood first then some first else if tget b.bankGood (1 - first) then some (1 - first) else none

/-- R534. The marks as the boot ROM leaves them. -/
def markTried (b : Boot) : Boot :=
  if b.pendingBank.isNone then b else if b.tried then { b with pendingBank := none, tried := false } else { b with tried := true }

/-- R426, R427. A slot's key after full reset; at the first enrolled boot the slot is created. -/
def bootNode (first : Bool) (n : Nat) (s : State) : State :=
  if first then deriveNode n s else if (s.node n).state == .valid || n = 5 then computeKey n s else s

/-- R427, R434, R450, R470. Tarn after regeneration: the mask, the root, a new boot epoch, and every key in order of depth. The first
enrolled boot creates the slots in order of number, which numbers their generations (reading). -/
def bootTarn (root noise : List Byte) (s : State) : State :=
  let first := s.tarn.bootEpoch == 0
  let s1 := setKey 0 root (modTarn (fun t => { t with mask := slice noise 0 32, perm := slice noise 32 8, bootEpoch := t.bootEpoch + 1 }) s)
  let s2 := forEach [1, 2, 3, 4, 5] (bootNode first) s1
  let s3 := modTarn (fun t => { t with idHash := hash (pubKey s2 1) }) s2
  let s4 := forEach ([6] ++ (List.range s.nChan).map chanSlot) (bootNode first) s3
  renewPublic (forEach ((headSlots ++ (List.range 256).map clientSlot).filter fun n => (s4.node n).state == .valid) computeKey s4)

/-- R396, R535, R582. The controllers as the board record describes them. -/
def bootDmc (s : State) (b : BoardRecord) (i : Nat) : Dmc :=
  let d := tget State.reset.dmc i
  if i < s.nDmc && bitOf b.mask i then
    { d with fitted := true, order := b.order, rowBits := rowBitsOf b.density, rate := b.rate, density := b.density, size := installed b.density }
  else d

/-- R469. The helper area was not erased. -/
def isEnrolled (s : State) : Bool := s.boot.helper.isSome

/-- R425, R439, R446, R540. Why bring-up stops at reset release, if it does. -/
def releaseError (puf : PufRead) (s : State) : Option Nat :=
  let t := modTarn (fun t => { t with puf := puf.bits }) s
  if 115 * 16 < puf.tj then some 0x0A
  else if !puf.flashOk then some 0x02
  else if !s.boot.board.any (fun b => b.good && bitOf b.mask 0) then some 0x04
  else if puf.tamperN then some 0x06
  else if s.boot.helper.any (fun h => (regenerate t h).isNone) then some 0x05
  else if puf.noise.isNone then some 0x07
  else if (bankToBoot s.boot).isNone then some 0x03
  else if isEnrolled s && s.boot.flashBad then some 0x0B
  else none

/-- R530, R551. At the release of RESET_N or PERST# the trip latch lets go. -/
def releaseTrip (s : State) : State :=
  if s.power.tripped then releaseFaultN 1 (modPower (fun p => { p with tripped := false, hot := 0 }) s) else s

/-- R537. What reset release starts, with no step failing: straps, firmware, controllers, Tarn. -/
def bootStart (puf : PufRead) (s : State) : State :=
  let bank := (bankToBoot s.boot).getD 0
  let board := s.boot.board.getD default
  let s1 := modBoot (fun b => { markTried b with
    running := bank, fwVer := Config.firmwareVersion (tget b.banks bank) % 4294967296, enrolled := b.helper.isSome }) s
  let s2 := { s1 with dmc := Vector.ofFn fun i => bootDmc s board i.val }
  match s.boot.helper.bind (regenerate s2) with
  | some root => bootTarn root (puf.noise.getD []) s2
  | none => modTarn (fun t => { t with mask := slice (puf.noise.getD []) 0 32, perm := slice (puf.noise.getD []) 32 8 }) s2

/-- R537, R567. Reset release. -/
def release (straps : Straps) (puf : PufRead) (s : State) : State :=
  let s1 := releaseTrip (modPower (fun p => { p with tj := puf.tj }) (modTarn (fun t => { t with
      puf := puf.bits, trng := if puf.noise.isSome then .healthy else .latched, fails := if puf.noise.isSome then 0 else 4 })
    (modBoot (fun b => { b with inReset := false, released := true, straps := straps }) s)))
  match releaseError puf s with
  | some e => failBoot e s1
  | none => bootStart puf s1

/-- RESET_RELEASE, R567. A device that tripped is held until RESET_N or PERST# is released (R525). -/
def execResetRelease (straps : Straps) (puf : PufRead) (s : State) : Host.Outcome State Fault Refusal :=
  .next (if s.boot.inReset && !(s.power.tripped && s.boot.cause == 3) then release straps puf s else s)

/-! ### Bring-up (R414, R503, R514, R537) -/

/-- R537. Bring-up runs. -/
def booting (s : State) : Bool := !s.boot.inReset && s.boot.released && s.boot.fw == .boot

/-- R514. The nominal voltage of a rail in mV; that of an AVS rail is open (choice 6). -/
def nominal (s : State) (r : Nat) : Nat := if r = 1 then 1050 else if r = 2 then 500 else 650 + 5 * (Config.freeNat s.fresh % 41)

/-- R514. The next rail is raised. -/
def raiseRail (r : Nat) (ok : Bool) (s0 : State) : State :=
  let s := setRail r (nominal s0 r) { s0 with fresh := s0.fresh + 1 }
  if !ok then failBoot 0x01 s
  else
    let s1 := modRail r (fun x => { x with good := true }) (modBoot (fun b => { b with railsUp := b.railsUp + 1 }) s)
    if r = 1 ∨ r = 2 then s1 else modDomain (railDomain r) (fun x => { x with upAt := s.time.dev }) s1

/-- RAIL_POWER_UP, R514: in order. -/
def execRailPowerUp (rail : Nat) (ok : Bool) (s : State) : Host.Outcome State Fault Refusal :=
  if 6 ≤ rail then .refused (.noSuchUnit "rail" rail)
  else .next (if booting s && rail == s.boot.railsUp then raiseRail rail ok s else s)

/-- DMC_TRAINING_DONE, R537. -/
def execDmcTrainingDone (ok : Bool) (s : State) : Host.Outcome State Fault Refusal :=
  .next (if !booting s || s.boot.railsUp != 6 || s.boot.trained then s
    else if !ok then failBoot 0x08 s
    else modBoot (fun b => { b with trained := true }) { s with dmc := s.dmc.map fun d => { d with trained := d.fitted } })

/-- MEMORY_INIT_DONE, R414. -/
def execMemoryInitDone (s : State) : Host.Outcome State Fault Refusal :=
  .next (if !booting s || !s.boot.trained || s.boot.inited then s
    else modBoot (fun b => { b with inited := true }) { s with dmc := s.dmc.map fun d => { d with ready := d.fitted, memory := [], poison := [], tags := [] } })

/-- R408, R416. Sealed regions and pool of a controller. -/
def bootPool (i : Nat) (s : State) : State :=
  modDmc i (fun d =>
    if d.fitted then
      let rs := (Config.sealedRegions i d.size).take 8
      { d with sealed_ := rs, pool := poolBytes i d.size rs }
    else d) s

/-- R503. The persisted image of a class and region. -/
def persisted (s : State) (cls : Nat) (vendor : Bool) : Option Image := (s.boot.images.find? fun p => p.1 == cls && p.2.1 == vendor).map fun p => p.2.2

/-- R503, R504. The persisted patches from level `l` on, until one fails. -/
def loadPatches (cls : Nat) (vendor : Bool) (ver : Nat) : Nat → Nat → State → State
  | 0, _, s => s
  | n + 1, l, s =>
    match s.boot.patches.find? fun p => p.1 == cls && p.2.1 == vendor && p.2.2.level == l && p.2.2.baseVer == ver && p.2.2.good with
    | some p => loadPatches cls vendor ver n (l + 1) (raise 240 0 (applyPatch cls vendor p.2.2 s))
    | none => s

/-- R503. Load an image and its patches; one that fails is left out. -/
def loadPersisted (cls : Nat) (vendor : Bool) (s : State) : State :=
  match persisted s cls vendor with
  | some im => if im.good then loadPatches cls vendor im.version 8 1 (raise 241 0 (loadImage cls vendor im s)) else s
  | none => s

/-- R503. A persisted vendor image fails. -/
def vendorFails (s : State) : Bool := [0, 1].any fun k => (persisted s k true).any fun im => !im.good

/-- R439, R475. After a tampered boot: the audit record, and the flag is cleared. -/
def tamperRecord (s : State) : State :=
  if s.tarn.tamperSeen && s.enrolled then modTarn (fun t => { t with tamperSeen := false }) (auditDevice 0x60 (le 8 s.tarn.tamperEpoch) s) else s

/-- R534. Firmware that reaches READY makes its bank active. -/
def commitBank (b : Boot) : Boot := if b.pendingBank == some b.running then { b with bank := b.running, pendingBank := none, tried := false } else b

/-! ### The cached configuration (R124, R538, R581) -/

/-- R71, R581. A flow's configuration names only what the part has. -/
def flowKept (s : State) (c : FlowCfg) : Bool :=
  (c.func.all fun f => decide (f < 16)) && (c.route != 3 || c.port < s.nTx) && (match c.src with
    | .coded ch _ | .window ch _ | .raw ch => decide (ch < s.nChan)
    | .decoded => decide (0 < s.nDec)
    | .none => true)

/-- R9, R124, R259, R503, R581. A channel's configuration as restored: no estimate and no hook is part of it, nor a vision window on a part
without them. -/
def restoredCfg (vision : Bool) (x : ChanCfg) : ChanCfg :=
  { x with windows := x.windows.map fun w => w.filter fun v => vision || !isVision v.format, pipe := [0, 1, 2, 3].foldl (fun p i => revertPipe i p) x.pipe, hooks := Vector.replicate 6 none }

/-- R181, R182. A restored I3C attachment gets its dynamic address. -/
def assignAddress (c : Nat) (s : State) : State :=
  match (s.chan c).cfg.attach with
  | some a => if a.i2c then s else emit (.bus a.bus a.static_ (le 1 (0x10 + c)) 0 false) s
  | none => s

/-- R124, R150, R360, R581. The cached configuration in force. -/
def restore (k : SavedConfig) (s : State) : State :=
  let s1 := { s with
    chans := Vector.ofFn fun i => { s.chan i.val with cfg := if i.val < s.nChan then restoredCfg s.hasVision ((k.channels[i.val]?).getD default) else Chan.reset.cfg }
    flowCfg := Vector.ofFn fun i => match k.flows[i.val]? with
      | some c => if i.val < s.nFlow && flowKept s c then c else FlowCfg.reset
      | none => FlowCfg.reset
    groups := k.groups.map fun g => g &&& BitVec.ofNat 32 (2 ^ s.nChan - 1)
    fgroups := k.fgroups.map fun g => g &&& BitVec.ofNat 256 (2 ^ s.nFlow - 1)
    rx := k.ports.map fun p => { p with fifo := [], hwm := 0, hdrCorr := 0, hdrUncorr := 0, phyErr := 0 }
    tx := k.tx.map fun t => { (default : TxPort) with rate := t.rate }
    time := { s.time with prio1 := k.prio1, logSync := k.logSync, ppsEn := k.ppsEn, ppsEdge := k.ppsEdge, disc := if k.ppsEn then .acquiring else .free } }
  let s2 := forEach (idx s.nFlow fun m => (s1.fcfg m).func.isSome) (fun m t => reroute (256 + m) ((t.fcfg m).func.getD 0 + 1) t) s1
  forEach (List.range s.nChan) assignAddress s2

/-- R538. The channels that start at boundary 0, those that wait for their head, and the flows; what could not be started by command
(a flow of a function that is absent, R361) is not. -/
def autoNow (s : State) (k : SavedConfig) : List Nat := k.enabled.filter fun c => c < s.nChan && (s.chan c).cfg.allowUnpaired && canRun s c && hrdsFit s c
def autoLater (s : State) (k : SavedConfig) : List Nat := k.enabled.filter fun c => c < s.nChan && !(s.chan c).cfg.allowUnpaired && canRun s c && hrdsFit s c
def autoFlow (s : State) (k : SavedConfig) : List Nat := k.active.filter fun m => m < s.nFlow && (flowStartB.later s default m).isNone

/-- R538. The state with the saved run started. -/
def autoRun (chs fls : List Nat) (s : State) : State := forEach fls startFlow (forEach chs startChan s)

/-- R538. The saved run as one change: the bookings where it is admitted. -/
def autoAdmit (k : SavedConfig) (s : State) : Option Books :=
  let t := autoRun (autoNow s k) (autoFlow s k) (modTime (fun x => { x with tickRun := true, passed := 1 }) s)
  if [0, 1, 2].all (routesFit s t [s, t]) then rebook s t 0 (fun _ => 0) (fun _ => 0) else none

/-- R538. The cached configuration at bring-up: with STRAP_AUTO its run is admitted and starts at boundary 0; a run that is not
admitted leaves the configuration unapplied. -/
def applyConfig (k : SavedConfig) (s : State) : State :=
  let s1 := restore k (modTime (fun t => { t with period := if k.period = 0 then 33333333 else k.period }) s)
  if !s.boot.straps.auto then s1
  else match autoAdmit k s1 with
    | some l =>
      let s2 := modBoot (fun b => { b with autoChans := autoNow s1 k, autoFlows := autoFlow s1 k }) (withBooks l s1)
      forEach (autoLater s1 k) (fun c => modHead c fun h => { h with startHeld := true }) s2
    | none => s

/-- R56. The period without a cached configuration. -/
def defaultPeriod (s : State) : State := modTime (fun t => { t with period := 33333333 }) s

/-- R537. Firmware is ready: the configuration in force, mailboxes read, the master tick started. -/
def goReady (s : State) : State :=
  let s1 := defaultPeriod s
  let s2 := match s.boot.saved with
    | k :: _ => if s.boot.straps.nocfg then s1 else applyConfig k s1
    | [] => s1
  startTick (foldAges (modBoot (fun b => { commitBank b with fw := .ready }) (tamperRecord s2)))

/-- BRING_UP_READY, R503, R537. -/
def execBringUpReady (s : State) : Host.Outcome State Fault Refusal :=
  .next (if !booting s || !s.boot.inited then s
    else if vendorFails s then failBoot 0x09 s
    else goReady (forEach [0, 1] (fun k t => loadPersisted k false (loadPersisted k true t)) (forEach [0, 1] bootPool s)))

/-! ### At the boundaries (R538) -/

/-- R538. At boundary 0 the saved run starts, and the heads of channels that wait are checked. -/
def autoStart (s : State) : State :=
  let held := idx 32 fun c => (s.chan c).head.startHeld
  let s1 := autoRun s.boot.autoChans s.boot.autoFlows (modBoot (fun b => { b with autoChans := [], autoFlows := [] }) s)
  forEach held addAuto s1

/-- R538. A channel whose head passed its check at least 1 ms ago starts, where the ledger admits it. -/
def autoHeld (k : Nat) (s : State) : State :=
  forEach (idx 32 fun c => (s.chan c).head.startHeld) (fun c t =>
    let free (u : State) : State := modHead c (fun h => { h with startHeld := false, passedAt := none }) u
    if (t.chan c).enabled then free t
    else if (t.chan c).head.state == .paired && (t.chan c).head.passedAt.any (fun p => decide (p + 1000000 ≤ t.time.elapsed)) then
      (match rebook t (startChan c t) k (fun _ => k) (fun _ => k) with
       | some l => free (startChan c (withBooks l t))
       | none => free t)
    else t) s

/-! ### Failures (R548, R566) -/

/-- CONTROL_WATCHDOG, R548: firmware has not served it for three ticks. -/
def execControlWatchdog (s : State) : Host.Outcome State Fault Refusal :=
  .next (if s.ready && !s.power.watchdog then assertFaultN 6 (modPower (fun p => { p with watchdog := true }) s) else s)

/-- REFCLK_IN_FAILURE, R566. -/
def execRefclkInFailure (s : State) : Host.Outcome State Fault Refusal := .next (modTime (fun t => { t with refclk := false }) s)

end Sys2Proof.Machine
end

