-- ==== Sys2Proof/Machine/Serve.lean ====
section
/-!
DEFINITION. Serving a request: the order of checks, admission, execution, and the events that end a wait (R84 to R93, R105 to R118,
R124, R414, R444, R462, R469, R546).
-/
namespace Sys2Proof.Machine

/-- The command's own part of each opcode. -/
def Op.behaviour : Op → Behaviour
  | .sysNop => sysNopB
  | .sysCaps => sysCapsB
  | .sysReset => sysResetB
  | .sysGroupSet => sysGroupSetB
  | .sysFgroupSet => sysFgroupSetB
  | .sysGroupGet => sysGroupGetB
  | .sysConfigSave => sysConfigSaveB
  | .chanPortSet => chanPortSetB
  | .chanBind => chanBindB
  | .chanStart => chanStartB
  | .chanStop => chanStopB
  | .chanSensorSet => chanSensorSetB
  | .chanQuery => chanQueryB
  | .chanPipeSet => chanPipeSetB
  | .chanWindowSet => chanWindowSetB
  | .chanWindowClear => chanWindowClearB
  | .chanLutLoad => chanLutLoadB
  | .encStreamSet => encStreamSetB
  | .encHrdSet => encHrdSetB
  | .encRateSet => encRateSetB
  | .encQpSet => encQpSetB
  | .encRefreshSet => encRefreshSetB
  | .encMotionSet => encMotionSetB
  | .encGeometrySet => encGeometrySetB
  | .encEgoUpdate => encEgoUpdateB
  | .encLtrRecover => encLtrRecoverB
  | .encForceIdr => encForceIdrB
  | .encQuery => encQueryB
  | .decOpen => decOpenB
  | .decFeed => decFeedB
  | .decOutputSet => decOutputSetB
  | .decClose => decCloseB
  | .decQuery => decQueryB
  | .flowAttach => flowAttachB
  | .flowRouteSet => flowRouteSetB
  | .flowTemplateSet => flowTemplateSetB
  | .flowRateSet => flowRateSetB
  | .flowWeightSet => flowWeightSetB
  | .flowStart => flowStartB
  | .flowStop => flowStopB
  | .flowRingSet => flowRingSetB
  | .flowStats => flowStatsB
  | .flowCryptSet => flowCryptSetB
  | .memMapQuery => memMapQueryB
  | .memPoolQuery => memPoolQueryB
  | .memErrQuery => memErrQueryB
  | .tarnIdGet => tarnIdGetB
  | .tarnRandom => tarnRandomB
  | .tarnSign => tarnSignB
  | .tarnVerify => tarnVerifyB
  | .tarnNodeQuery => tarnNodeQueryB
  | .tarnNodeInvalidate => tarnNodeInvalidateB
  | .tarnPubkeyGet => tarnPubkeyGetB
  | .roleChallenge => roleChallengeB
  | .roleOpen => roleOpenB
  | .roleClose => roleCloseB
  | .roleUpdate => roleUpdateB
  | .roleAuditRead => roleAuditReadB
  | .roleCounterGet => roleCounterGetB
  | .seqImageLoad => seqImageLoadB
  | .seqPatchApply => seqPatchApplyB
  | .seqHookSet => seqHookSetB
  | .seqQuery => seqQueryB
  | .pwrDvfsSet => pwrDvfsSetB
  | .pwrDomainSet => pwrDomainSetB
  | .pwrSelfRefresh => pwrSelfRefreshB
  | .pwrQuery => pwrQueryB
  | .headPair => headPairB
  | .headUnpair => headUnpairB
  | .headPolicySet => headPolicySetB
  | .headIdGet => headIdGetB
  | .headLifeQuery => headLifeQueryB
  | .headI3cXfer => headI3cXferB
  | .calEnable => calEnableB
  | .calPin => calPinB
  | .calUnpin => calUnpinB
  | .calReset => calResetB
  | .calQuery => calQueryB
  | .timeSetBase => timeSetBaseB
  | .timePpsConfig => timePpsConfigB
  | .timeTickSet => timeTickSetB
  | .timeChanRate => timeChanRateB
  | .timeGptpConfig => timeGptpConfigB
  | .timeLedgerQuery => timeLedgerQueryB

/-! ### What is admitted and pending (R108 to R110) -/

/-- R108, R109. The boundary at which a next-tick command that passes step 12 now takes effect. -/
def effectK (s : State) : Nat := if s.time.tickRun then effectBoundary s else 0

/-- R108. The boundary at which a pending command takes effect. -/
def dueOf (s : State) (x : ExecEntry) : Nat :=
  let t := s.time
  if !t.tickRun then 0
  else if x.since + 1000000 + t.dev ≤ t.boundary t.passed + t.elapsed then t.passed
  else t.passed + cdiv (x.since + 1000000 + t.dev - (t.boundary t.passed + t.elapsed)) (max 1 t.period)

/-- The state in which boundary `k` is the last that has passed. -/
def asOf (k : Nat) (s : State) : State := modTime (fun t => { t with passed := k + 1 }) s

/-- R108. A command's effect at boundary `k`. -/
def effectAt (k : Nat) (c : Ctx) (s : State) : State := c.op.behaviour.effect c (asOf k s)

/-- The same for a pending command. -/
def entryEffect (k : Nat) (x : ExecEntry) (s : State) : State :=
  match Op.ofCode x.entry.opcode.toNat with
  | some o => effectAt k (x.ctx o) s
  | none => s

/-- R110. Pending commands up to boundary `k`, in the order they take effect. -/
def pendingTo (s : State) (k : Nat) : List ExecEntry :=
  let l := s.exec.filter fun x => x.wait == .tick
  (List.range (k + 1 - s.time.passed)).flatMap fun (i : Nat) => l.filter fun x => dueOf s x == s.time.passed + i

/-- R64. The states after each of a list of pending commands. -/
def chainFrom (s : State) : List ExecEntry → State → List State
  | [], t => [t]
  | x :: r, t => t :: chainFrom s r (entryEffect (dueOf s x) x t)

/-- The states from the present one on, through the commands pending up to boundary `k`. -/
def chainTo (s : State) (k : Nat) : List State :=
  chainFrom s (if s.time.tickRun then pendingTo s k else s.exec.filter fun x => x.wait == .tick) s

/-- What a command's boundary will find, commands before it applied. -/
def projected (s : State) (k : Nat) : State := asOf k ((chainTo s k).getLast?.getD s)

/-! ### Step 12 (R63, R64, R384, R419) -/

/-- R384. The commands held to the route rule. -/
def testsRoutes (o : Op) : Bool := [Op.flowStart, .flowRateSet, .encHrdSet, .encRateSet].contains o

/-- R63, R384, R419. The bookings once a next-tick command is admitted; none where it is not. -/
def admission (s : State) (c : Ctx) : Option Books :=
  let k := effectK s
  let t := effectAt k c (projected s k)
  match rebook s t k (releaseAt s c.op k) (buffersAt s c.op k) with
  | none => none
  | some l => if testsRoutes c.op && !([0, 1, 2].all (routesFit s t (chainTo s k ++ [t]))) then none else some l

/-- Step 12 over what execution would do: the bookings of an admitted next-tick command, or ADMISSION with no effect. -/
def stepTwelve (c : Ctx) (s : State) : Reply × State → Reply × State
  | (.wait .tick, t) =>
    match admission s c with
    | some l => (.wait .tick, withBooks l t)
    | none => (.done St.admission [], s)
  | (.wait w, t) => (.wait w, t)
  | (.done st pay, t) =>
    if st = St.internal && c.op.info.timing == .nextTick && (admission s c).isNone then (.done St.admission [], s) else (.done st pay, t)

/-! ### Steps 1 to 11 (R105) -/

/-- R91, R92. Steps 1 and 2: the response of a request that is not executed. -/
def tagAnswer (s : State) (f : Nat) (e : Entry) : Option Response :=
  let running := s.exec.filter fun x => x.func == f && !x.dead && x.entry.req.tag == e.req.tag
  let cached := (s.fn f).cache.filter fun x => x.entry.req.tag == e.req.tag
  if e.req.tag = 0xFFFF#16 then some (response e St.range s.tickField [])
  else if running.any fun x => x.entry.same e then some { response e St.pending s.tickField [] with replay := true }
  else match cached.find? fun x => x.entry.same e with
    | some x => some { x.rsp with replay := true }
    | none => if running.isEmpty && cached.isEmpty then none else some (response e St.tagConflict s.tickField [])

/-- R469. The commands an unenrolled device accepts, without a session. -/
def openUnenrolled (o : Op) : Bool := [Op.sysNop, .sysCaps, .sysReset, .tarnIdGet, .roleCounterGet, .roleUpdate].contains o

/-- R105 step 9, R119, R462, R469. -/
def permitted (s : State) (c : Ctx) : Bool :=
  let i := c.op.info
  if !s.enrolled then openUnenrolled c.op
  else (bitOf i.roles 0 || (c.role != 0 && bitOf i.roles c.role))
    && flowsOwned s c.f ((match i.sel with | .flow | .flows => c.members | _ => []) ++ c.op.behaviour.flows c.q) && c.op.behaviour.rights c

/-- R105. The order of the statuses of step 11. -/
def stateRank (e : Byte) : Nat :=
  (([St.denied, St.quiesce, St.busy, St.headUnpaired, St.orphanedKey, St.entropyLatched, St.hrdInfeasible].findIdx? fun x => x == e).getD 7)

/-- R105. The status that comes first. -/
def sooner : Option Byte → Option Byte → Option Byte
  | some a, some b => some (if stateRank b < stateRank a then b else a)
  | some a, none => some a
  | none, b => b

/-- R105 step 11, R115. The members that fail, ascending, with their statuses; member 0 where the opcode has no selector. -/
def failing (s : State) (c : Ctx) : List (Nat × Byte) :=
  let b := c.op.behaviour
  let t := projected s (effectK s)
  let ms := if c.op.info.sel == .none then [0] else c.members
  ms.filterMap fun m => (sooner (b.member s c m) (b.later t c m)).map fun e => (m, e)

/-- R105. Steps 4 to 11: the status and payload of a request that fails one. -/
def refusal (s : State) (c : Ctx) : Option (Byte × List Byte) :=
  let i := c.op.info
  let b := c.op.behaviour
  let q := c.q
  match firstOf [
    need (i.code / 256 != 5 || s.nDec != 0) St.notPresent,
    need (q.plen.toNat == i.plen) St.badLength,
    need (q.prio.toNat < 8 && q.rsv6 == 0 && q.rsv10 == 0 && b.reserved q && selDefined i.sel q) St.range,
    need (selAccepted s i.sel c.f q) St.badSelector,
    need (selPresent s i.sel c.members && b.present s q) St.notPresent,
    need (permitted s c) St.denied,
    b.fields s c] with
  | some e => some (e, [])
  | none => memberAnswer i.sel q (failing s c)

/-! ### Step 13 -/

/-- R546, R462. What runs while firmware is degraded: SYS_NOP, SYS_CAPS, and the commands open to every role, which are the Observe
class with SYS_RESET. -/
def runsDegraded (o : Op) : Bool := o == .sysNop || o == .sysCaps || o.info.roles == 14

/-- A wait whose time counts from its own start. -/
def Wait.restarts : Wait → Bool
  | .tick | .dma _ _ | .dmaOut _ _ _ => true
  | _ => false

/-- R218, R584. The members that what a buffer holds does not fit, once it has been read. -/
def dataCheck (c : Ctx) : Reply × State → Reply × State
  | (.wait .tick, s) =>
    let t := projected s (effectK s)
    match memberAnswer c.op.info.sel c.q (c.members.filterMap fun m => (c.op.behaviour.dataLater t c m).map fun e => (m, e)) with
    | some (st, pay) => (.done st pay, s)
    | none => (.wait .tick, s)
  | r => r

/-- What a wait's end does to its command. -/
def resumeOf (x : ExecEntry) (w : Wait) (s : State) : Reply × State :=
  match Op.ofCode x.entry.opcode.toNat with
  | some o => stepTwelve (x.ctx o) s (dataCheck (x.ctx o) (o.behaviour.resume (x.ctx o) w s))
  | none => (.done St.internal [], s)

/-- A request in execution takes its reply: it ends, or waits. Entropy that is there is taken at once (R444); `n` bounds how often. -/
def settle : Nat → ExecEntry → Reply × State → State
  | _, x, (.done st pay, s) => finish x st pay s
  | 0, x, (.wait w, s) => updExec x { x with wait := w, since := if w.restarts then s.time.elapsed else x.since } s
  | n + 1, x, (.wait w, s) =>
    let y := { x with wait := w, since := if w.restarts then s.time.elapsed else x.since }
    let s1 := updExec x y s
    match w with
    | .entropy k _ =>
      match takeEntropy k s1 with
      | some (d, s2) => settle n y (resumeOf y (.entropy k d) s2)
      | none => s1
    | _ => s1

/-- The request in execution that a read request becomes. -/
def newExec (c : Ctx) (e : Entry) : ExecEntry :=
  { func := c.f, entry := e, wait := .tick, members := c.members, since := c.since, data := [], role := c.role, slot := c.slot, dead := false }

/-- R105 step 13, R546. -/
def execute (c : Ctx) (e : Entry) (s : State) : State :=
  let r := if s.boot.degraded && !runsDegraded c.op then (Reply.done St.internal [], s) else c.op.behaviour.run c s
  let p := stepTwelve c s r
  settle 2 (newExec c e) (p.1, { p.2 with exec := p.2.exec ++ [newExec c e] })

/-- A request as a context: its members (R114) and its session (R457). -/
def contextOf (s : State) (f : Nat) (o : Op) (q : Request) : Ctx :=
  { f := f, op := o, q := q, members := selMembers s o.info.sel f q, role := ((s.fn f).session.map Session.role).getD 0
    slot := ((s.fn f).session.map Session.slot).getD 0, since := s.time.elapsed, data := [] }

/-- R105. Check a request that has been read, and execute it. -/
def serve (f : Nat) (e : Entry) (s : State) : State :=
  match tagAnswer s f e with
  | some r => post f r s
  | none =>
    match Op.ofCode e.opcode.toNat with
    | none => answer f e St.badOpcode [] s
    | some o =>
      match refusal s (contextOf s f o e.req) with
      | some (st, pay) => answer f e st pay s
      | none => execute (contextOf s f o e.req) e s

/-! ### Reading requests (R84 to R87) -/

/-- R84, R87, R121, R548. Firmware reads requests. -/
def State.reads (s : State) : Bool := s.ready && !s.boot.inReset && s.resetAt.isNone && !s.power.watchdog

/-- R81, R84. Rank in the order of reading: PRIORITY 0 is the highest and 7 the lowest, and a promoted entry is above all others. -/
def rankOf (s : State) (q : QEntry) : Nat := if promotedNow s q then 8 else 7 - q.entry.req.prio.toNat % 8

/-- R84. The first entry of highest rank. -/
def bestEntry (s : State) : List QEntry → Option QEntry
  | [] => none
  | q :: r => match bestEntry s r with
    | some p => some (if rankOf s q < rankOf s p then p else q)
    | none => some q

/-- R86, R87. The next entry of function `f`'s mailbox, where firmware may read it. -/
def nextEntry (s : State) (f : Nat) : Option QEntry :=
  if s.fnPresent f && slotFree s f then bestEntry s (s.fn f).reqQ else none

/-- R86. The mailbox read next: of highest rank, round-robin from the one after that last served. -/
def pickFrom (s : State) : List Nat → Option (Nat × QEntry)
  | [] => none
  | f :: r => match nextEntry s f, pickFrom s r with
    | some q, some (g, p) => some (if rankOf s q < rankOf s p then (g, p) else (f, q))
    | some q, none => some (f, q)
    | none, p => p

def pickNext (s : State) : Option (Nat × QEntry) := pickFrom s ((List.range 16).map fun i => (s.lastServed + 1 + i) % 16)

/-- R84, R86. Read the next request and serve it. -/
def readRequest (s : State) : State :=
  match pickNext s with
  | none => s
  | some (f, q) => serve f q.entry (modFn f (fun x => { x with reqQ := x.reqQ.erase q }) { s with lastServed := f })

/-- REQUEST_READ, R84 to R87. -/
def execRequestRead (s : State) : Host.Outcome State Fault Refusal := .next (if s.reads then readRequest s else s)

/-- A command of the host: its request reaches execution directly where firmware can read it, and joins function `f`'s queue
where it cannot (choice 1). A function that is not present reaches nobody. -/
def command (o : Op) (f : Nat) (q : Request) (s : State) : State :=
  let e : Entry := ⟨BitVec.ofNat 16 o.info.code, q⟩
  if !s.fnPresent f then s
  else if s.reads && slotFree s f then serve f e { s with lastServed := f }
  else pushRequest f e s

/-! ### DMA transfers (R118) -/

/-- R458. A ROLE_OPEN that ends without its signature drops the challenge it consumed. -/
def dropOpening (x : ExecEntry) (s : State) : State :=
  modFn x.func (fun y => { y with opening := y.opening.filter fun p => p.1 != x.entry.req.tag }) s

/-- R118. A transfer that failed. -/
def dmaFailed (x : ExecEntry) (s : State) : State := finish x St.timeout [] (dropOpening x s)

/-- R118. A transfer that completed. A write reaches the host with its function's requester ID (R74). -/
def dmaDone (x : ExecEntry) (data : List Byte) (s : State) : State :=
  match x.wait with
  | .dma a n =>
    let y := { x with data := fit n data }
    settle 2 y (resumeOf y (.dma a n) (updExec x y s))
  | .dmaOut a d pay =>
    let s1 := emit (.dmaWrite x.func a d) s
    finish x St.ok pay (resumeOf x (.dmaOut a d pay) s1).2
  | _ => s

/-- DMA_TRANSFER_DONE, R118. -/
def execDmaTransferDone (f tag : Nat) (ok : Bool) (data : List Byte) (s : State) : Host.Outcome State Fault Refusal :=
  .next (match findExec s f (BitVec.ofNat 16 tag) Wait.isDma with
    | some x => if ok then dmaDone x data s else dmaFailed x s
    | none => s)

/-- DMA_TIMEOUT, R118: 10 ms after the transfer began. -/
def execDmaTimeout (f tag : Nat) (s : State) : Host.Outcome State Fault Refusal :=
  .next (match findExec s f (BitVec.ofNat 16 tag) Wait.isDma with
    | some x => dmaFailed x (advanceElapsed (x.since + 10000000) s)
    | none => s)

/-! ### Deadlines of deferred commands (R108, R124, R126, R185, R191, R193, R502, R526) -/

/-- R108. Deadline of a wait of a command, in ns from its start, where its chapter states one. -/
def deadlineOf (o : Op) : Wait → Option Nat
  | .check _ | .bus _ => some (headDeadline o)
  | .flash => if o = .sysConfigSave ∨ o = .seqImageLoad then some 2000000000 else if o = .headPair then some (headDeadline o) else none
  | .selfRefresh _ => some 10000000
  | .pps => some 3000000000
  | _ => none

/-- The deadline of a request in execution. -/
def entryDeadline (x : ExecEntry) : Option Nat :=
  match Op.ofCode x.entry.opcode.toNat with
  | some o => deadlineOf o x.wait
  | none => none

/-- R193. The pairing of a HEAD_PAIR whose records are not in flash. -/
def dropPairing (x : ExecEntry) (s : State) : State :=
  if Op.ofCode x.entry.opcode.toNat = some .headPair then
    forEach x.members (fun m => modHead m fun h => { h with pairPending := none }) s
  else s

/-- What a command that timed out leaves: its check or transfer, its flash program and its pairing are dropped. -/
def abandonWait (x : ExecEntry) (s : State) : State :=
  match x.wait with
  | .check ch | .bus ch => cancelHead ch x.func x.entry.req.tag s
  | .flash => dropPairing x (modBoot (fun b => { b with queue := b.queue.filter fun j => j.waiter != some (x.func, x.entry.req.tag) }) s)
  | _ => s

/-- DEFERRED_TIMEOUT, R108. -/
def execDeferredTimeout (f tag : Nat) (s : State) : Host.Outcome State Fault Refusal :=
  .next (match findExec s f (BitVec.ofNat 16 tag) (fun w => !w.isDma && w != .tick) with
    | some x => match entryDeadline x with
      | some d => finish x St.timeout [] (abandonWait x (advanceElapsed (x.since + d) s))
      | none => s
    | none => s)

/-! ### The boot flash (R124, R414, R502, R505) -/

/-- What a completed program leaves in flash. -/
def applyFlash (w : FlashWork) (s : State) : State :=
  match w with
  | .config c => modBoot (fun b => { b with saved := (c :: b.saved).take 2 }) s
  | .image cls v im => modBoot (fun b => { b with
      images := (cls, v, im) :: b.images.filter (fun i => !(i.1 == cls && i.2.1 == v))
      patches := b.patches.filter fun i => !(i.1 == cls && i.2.1 == v) }) s
  | .patch cls v p => modBoot (fun b => { b with patches := b.patches ++ [(cls, v, p)] }) s
  | .credential | .pairing _ => s

/-- R414. The request that waits for a program. -/
def flashWaiter (j : FlashJob) (s : State) : Option ExecEntry :=
  match j.waiter with
  | some (f, tag) => findExec s f tag fun w => w == .flash
  | none => none

/-- R414. The oldest program ends; a program that fails answers its request with INTERNAL. -/
def flashDone (j : FlashJob) (ok : Bool) (s : State) : State :=
  match flashWaiter j s with
  | some x =>
    if ok then (let s1 := applyFlash j.work s; settle 2 x (resumeOf x .flash s1))
    else finish x St.internal [] (abandonWait x s)
  | none => if ok then applyFlash j.work s else s

/-- FLASH_PROGRAM_DONE, R414. A program that fails shows that the flash refuses programs (R471); one that completes that it does
not. -/
def execFlashProgramDone (ok : Bool) (s : State) : Host.Outcome State Fault Refusal :=
  let s1 := modBoot (fun b => { b with queue := b.queue.tail, flashBad := !ok }) s
  .next (match s.boot.queue with
    | j :: _ => flashDone j ok s1
    | [] => s1)

/-! ### Released entropy (R444) -/

/-- R444. Requests that wait are completed whole, in the order read, as far as the released output goes; then the checks. -/
def drawWaiting (s : State) : State :=
  let s1 := forEach (s.exec.filter ExecEntry.wantsEntropy) (fun x t =>
    match x.wait with
    | .entropy k _ => match takeEntropy k t with
      | some (d, t1) => settle 2 x (resumeOf x (.entropy k d) t1)
      | none => t
    | _ => t) s
  forEach (idx 32 fun c => (curCheck s1 c).any fun k => k.step == .nonce) sendChallenge s1

/-- TRNG_BLOCK_READY, R443, R444. -/
def execTrngBlockReady (block : List Byte) (s : State) : Host.Outcome State Fault Refusal :=
  .next (if s.boot.inReset || s.tarn.trng != .healthy then s
    else drawWaiting (modTarn (fun t => { t with pool := t.pool ++ fit 32 block }) s))

end Sys2Proof.Machine
end

