-- ==== Sys2Proof/Machine/Boundary.lean ====
section
/-!
DEFINITION. The master tick boundary, in the order of its parts, and the ingress deadline (R26 to R36, R55, R84, R108 to R110,
R135, R172, R190, R548).
-/
namespace Sys2Proof.Machine

/-! ### The ingress deadline (R27, R172, R190, R364) -/

/-- R190, R199. What a closed record tells of its head: a record without a Frame Start makes it absent and the channel Unverified. -/
def headRecord (c : Nat) (f : Frame) (s : State) : State :=
  if f.opened then modChan c (fun x => { x with recordAt := s.time.elapsed }) s
  else modHead c (fun h => { h with absent := true, startCheck := true, state := .unverified }) s

/-- R172, R190, R364. The ingress deadline of the oldest frame. -/
def deadline (c : Nat) (s : State) : State :=
  match deadlineDue s c with
  | none => s
  | some f =>
    let s1 := headRecord c f (closeRecord c f s)
    match (s1.chan c).lastRec with
    | some g => if s.power.watchdog then s1 else offerRaw c g s1
    | none => s1

/-- INGRESS_DEADLINE, R172. -/
def execIngressDeadline (ch : Nat) (s : State) : Host.Outcome State Fault Refusal :=
  if 32 ≤ ch then .refused (.noSuchUnit "channel" ch) else .next (deadline ch s)

/-! ### The end of a tick (R26 to R29, R36) -/

/-- A pulse of the tick that no event has reported. -/
def latePulse (c : Nat) (s : State) : State :=
  match pulseDue s c, (s.chan c).cfg.rate with
  | some b, some r => pulse c b r s
  | _, _ => s

/-- R29, R447. A stream's jobs of the encode tick finish. -/
def endEncode (c st : Nat) (s : State) : State :=
  if (tget (s.chan c).runs st).job.isSome then sealJobEnd c st (itpJobEnd c st s) else s

/-- R36. Whatever of the tick that ends no event has reported: pulses, deadlines, and the jobs of every engine. -/
def endTick (s : State) : State :=
  let s1 := forEach (List.range 32) (fun c t => pipeJobEnd c (deadline c (latePulse c t))) s
  let s2 := forEach (List.range 32) (fun c t => endEncode c 1 (endEncode c 0 t)) s1
  let s3 := forEach (List.range 32) decJobLate s2
  forEach (List.range 32) runEstimates s3

/-! ### Boundary k (R55, R84, R108, R110) -/

/-- R84. Every waiting entry has waited across one more boundary; the timed ageing of R85 ends with the first. -/
def ageQueues (s0 : State) : State :=
  let s := foldAges s0
  { s with fns := s.fns.map fun x => { x with reqQ := x.reqQ.map fun q =>
      { q with waited := q.waited + 1, promoted := q.promoted || 8 ≤ q.waited + 1 } } }

/-- R55. Device time reaches boundary `k`, which has then passed. -/
def passBoundary (s : State) : State :=
  modTime (fun t => { t with passed := t.passed + 1 }) (advanceTo (s.time.boundary s.time.passed) s)

/-- R108, R110. The pending commands that take effect at this boundary, in the order read; each is answered with its count. -/
def takeEffects (due : List ExecEntry) (s : State) : State :=
  forEach due (fun x t =>
    match Op.ofCode x.entry.opcode.toNat with
    | some o => finishAt x St.ok (BitVec.ofNat 64 t.lastBoundary) [] (o.behaviour.effect (x.ctx o) t)
    | none => finishAt x St.internal t.tickField [] t) s

/-- R34, R197, R198, R253. What a channel's hardware brings to boundary `k`: statistics of the pipeline tick, what the device does about
another head, accepted estimates, a pairing. -/
def channelTick (k c : Nat) (s : State) : State :=
  let s1 := match (s.chan c).encNext with
    | some f => calAccept c f s
    | none => s
  applyPairing c (applyEstimates c k (headChange c s1))

/-- R28, R29, R343. What the tick that ended formed becomes eligible: access units, windows, output pictures. -/
def releaseItems (s : State) : State :=
  let au (c st : Nat) (t : State) : State :=
    let r := tget (t.chan c).runs st
    match r.current with
    | some a => releaseCounts c st a (offerAu a r.ledgerRate t)
    | none => t
  let wins (c : Nat) (t : State) : State :=
    match (t.chan c).encNext with
    | some f => forEach ((t.chan c).formed.filter fun p => (tget f.cfg.windows p.1).any fun w => !isCoding w.format)
        (fun p => offerWindow c p.1 f p.2) t
    | none => t
  forEach (List.range 32) offerDecoded (forEach (List.range 32) (fun c t => wins c (au c 1 (au c 0 t))) s)

/-- R29, R342, R306. The jobs of the tick that begins. -/
def beginJobs (k : Nat) (s : State) : State :=
  let s1 := forEach (List.range 32) startEncode (takeEgo k s)
  let s2 := forEach (List.range 32) decodeTick s1
  { s2 with dec := s2.dec.map fun d => { d with closing := d.closing.filter fun b => k ≤ b } }

/-- R36, R55. The next boundary has passed, with what the tick before it left undone finished. -/
def atTickEnd (s : State) : State := passBoundary (ageQueues (endTick s))

/-- What a boundary finds done before the commands that take effect at it: levels and routines, and what the hardware brings. -/
def beforeCommands (s : State) : State :=
  let t := atTickEnd s
  forEach (List.range 32) (channelTick t.lastBoundary) (levelTick (disableFailing t))

/-- What a boundary does after its commands have made `u` of the state: the ledger, what becomes eligible, the jobs of the new tick, then
what firmware samples. `s` is the state of the tick before. -/
def afterCommands (s u : State) : State :=
  let k := s.time.passed
  let before := atTickEnd s
  let s3 := forEach (List.range 32) (fun c => noteChanges c (before.chan c).cfg) u
  let s4 := autoHeld k (if k = 0 then autoStart s3 else s3)
  let s5 := beginJobs k (releaseItems (ledgerTick k (metersTick s4)))
  reassert (snapFlows (forEach (List.range 8) busRun s5))

/-- R548. A data path that firmware no longer launches releases nothing. -/
def unlaunched (s : State) : State :=
  { s with
    chans := s.chans.map fun x => { x with
      pipeJob := none, pipeCut := none, encNext := none, formed := [], encFormed := []
      runs := x.runs.map fun r => { r with job := none, current := none, cut := none, itpCut := none } }
    dec := s.dec.map fun d => { d with job := none, cut := none, ready := none } }

/-- R55, R135, R548. The next boundary of the running tick; conditions set their causes again at every boundary. -/
def nextBoundary (s : State) : State :=
  if s.power.watchdog then reassert (passBoundary (ageQueues (unlaunched (forEach (List.range 32) (fun c t => deadline c (latePulse c t)) s))))
  else
    let due := s.exec.filter fun x => x.wait == .tick && dueOf s x ≤ s.time.passed
    afterCommands s (takeEffects due (beforeCommands s))

/-- MASTER_TICK_BOUNDARY, R55. Where the full reset of a SYS_RESET begins before the boundary, it comes instead (R121). -/
def execMasterTickBoundary (s : State) : Host.Outcome State Fault Refusal :=
  .next (if s.clockRuns && s.time.tickRun then
      (if s.resetAt.any (resetFirst s) then beginReset .sysReset s else nextBoundary s)
    else s)

/-- R198. The next boundary is the one at which the device acts on another head found on channel `c`. -/
def headChangeNext (s : State) (c : Nat) : Bool :=
  s.clockRuns && s.time.tickRun && !s.power.watchdog &&
    (s.chan c).head.changeAt.any fun p => decide (p.1 + 1000000 + s.time.dev ≤ s.time.elapsed + s.time.boundary s.time.passed)

/-- HEAD_CHANGE, R198. The device acts at a master boundary: time is carried to it, and it passes (choice 2). -/
def execHeadChange (ch : Nat) (s : State) : Host.Outcome State Fault Refusal :=
  if headChangeNext s ch then execMasterTickBoundary s else .next s

end Sys2Proof.Machine
end

