-- ==== Sys2Proof/Machine/Commands.lean ====
section
/-!
DEFINITION. The meanings of the host's commands (R119): each is served as a request of its function (choice 1).
-/
namespace Sys2Proof.Machine

/-- SYS_NOP, R120. -/
def execSysNop (f : Nat) (q : Request) (s : State) : Host.Outcome State Fault Refusal := .next (command .sysNop f q s)

/-- SYS_CAPS, R120. -/
def execSysCaps (f : Nat) (q : Request) (s : State) : Host.Outcome State Fault Refusal := .next (command .sysCaps f q s)

/-- SYS_RESET, R121. -/
def execSysReset (f : Nat) (q : Request) (s : State) : Host.Outcome State Fault Refusal := .next (command .sysReset f q s)

/-- SYS_GROUP_SET, R122. -/
def execSysGroupSet (f : Nat) (q : Request) (s : State) : Host.Outcome State Fault Refusal := .next (command .sysGroupSet f q s)

/-- SYS_FGROUP_SET, R122. -/
def execSysFgroupSet (f : Nat) (q : Request) (s : State) : Host.Outcome State Fault Refusal := .next (command .sysFgroupSet f q s)

/-- SYS_GROUP_GET, R123. -/
def execSysGroupGet (f : Nat) (q : Request) (s : State) : Host.Outcome State Fault Refusal := .next (command .sysGroupGet f q s)

/-- SYS_CONFIG_SAVE, R124. -/
def execSysConfigSave (f : Nat) (q : Request) (s : State) : Host.Outcome State Fault Refusal := .next (command .sysConfigSave f q s)

/-- CHAN_PORT_SET, R156. -/
def execChanPortSet (f : Nat) (q : Request) (s : State) : Host.Outcome State Fault Refusal := .next (command .chanPortSet f q s)

/-- CHAN_BIND, R158. -/
def execChanBind (f : Nat) (q : Request) (s : State) : Host.Outcome State Fault Refusal := .next (command .chanBind f q s)

/-- CHAN_START, R159. -/
def execChanStart (f : Nat) (q : Request) (s : State) : Host.Outcome State Fault Refusal := .next (command .chanStart f q s)

/-- CHAN_STOP, R161. -/
def execChanStop (f : Nat) (q : Request) (s : State) : Host.Outcome State Fault Refusal := .next (command .chanStop f q s)

/-- CHAN_SENSOR_SET, R175. -/
def execChanSensorSet (f : Nat) (q : Request) (s : State) : Host.Outcome State Fault Refusal := .next (command .chanSensorSet f q s)

/-- CHAN_QUERY, R178. -/
def execChanQuery (f : Nat) (q : Request) (s : State) : Host.Outcome State Fault Refusal := .next (command .chanQuery f q s)

/-- CHAN_PIPE_SET, R207. -/
def execChanPipeSet (f : Nat) (q : Request) (s : State) : Host.Outcome State Fault Refusal := .next (command .chanPipeSet f q s)

/-- CHAN_WINDOW_SET, R221. -/
def execChanWindowSet (f : Nat) (q : Request) (s : State) : Host.Outcome State Fault Refusal := .next (command .chanWindowSet f q s)

/-- CHAN_WINDOW_CLEAR, R227. -/
def execChanWindowClear (f : Nat) (q : Request) (s : State) : Host.Outcome State Fault Refusal := .next (command .chanWindowClear f q s)

/-- CHAN_LUT_LOAD, R217. -/
def execChanLutLoad (f : Nat) (q : Request) (s : State) : Host.Outcome State Fault Refusal := .next (command .chanLutLoad f q s)

/-- ENC_STREAM_SET, R270. -/
def execEncStreamSet (f : Nat) (q : Request) (s : State) : Host.Outcome State Fault Refusal := .next (command .encStreamSet f q s)

/-- ENC_HRD_SET, R310. -/
def execEncHrdSet (f : Nat) (q : Request) (s : State) : Host.Outcome State Fault Refusal := .next (command .encHrdSet f q s)

/-- ENC_RATE_SET, R324. -/
def execEncRateSet (f : Nat) (q : Request) (s : State) : Host.Outcome State Fault Refusal := .next (command .encRateSet f q s)

/-- ENC_QP_SET, R321. -/
def execEncQpSet (f : Nat) (q : Request) (s : State) : Host.Outcome State Fault Refusal := .next (command .encQpSet f q s)

/-- ENC_REFRESH_SET, R284. -/
def execEncRefreshSet (f : Nat) (q : Request) (s : State) : Host.Outcome State Fault Refusal := .next (command .encRefreshSet f q s)

/-- ENC_MOTION_SET, R293. -/
def execEncMotionSet (f : Nat) (q : Request) (s : State) : Host.Outcome State Fault Refusal := .next (command .encMotionSet f q s)

/-- ENC_GEOMETRY_SET, R303. -/
def execEncGeometrySet (f : Nat) (q : Request) (s : State) : Host.Outcome State Fault Refusal := .next (command .encGeometrySet f q s)

/-- ENC_EGO_UPDATE, R305. -/
def execEncEgoUpdate (f : Nat) (q : Request) (s : State) : Host.Outcome State Fault Refusal := .next (command .encEgoUpdate f q s)

/-- ENC_LTR_RECOVER, R282. -/
def execEncLtrRecover (f : Nat) (q : Request) (s : State) : Host.Outcome State Fault Refusal := .next (command .encLtrRecover f q s)

/-- ENC_FORCE_IDR, R281. -/
def execEncForceIdr (f : Nat) (q : Request) (s : State) : Host.Outcome State Fault Refusal := .next (command .encForceIdr f q s)

/-- ENC_QUERY, R291. -/
def execEncQuery (f : Nat) (q : Request) (s : State) : Host.Outcome State Fault Refusal := .next (command .encQuery f q s)

/-- DEC_OPEN, R336. -/
def execDecOpen (f : Nat) (q : Request) (s : State) : Host.Outcome State Fault Refusal := .next (command .decOpen f q s)

/-- DEC_FEED, R339. -/
def execDecFeed (f : Nat) (q : Request) (s : State) : Host.Outcome State Fault Refusal := .next (command .decFeed f q s)

/-- DEC_OUTPUT_SET, R347. -/
def execDecOutputSet (f : Nat) (q : Request) (s : State) : Host.Outcome State Fault Refusal := .next (command .decOutputSet f q s)

/-- DEC_CLOSE, R356. -/
def execDecClose (f : Nat) (q : Request) (s : State) : Host.Outcome State Fault Refusal := .next (command .decClose f q s)

/-- DEC_QUERY, R357. -/
def execDecQuery (f : Nat) (q : Request) (s : State) : Host.Outcome State Fault Refusal := .next (command .decQuery f q s)

/-- FLOW_ATTACH, R360. -/
def execFlowAttach (f : Nat) (q : Request) (s : State) : Host.Outcome State Fault Refusal := .next (command .flowAttach f q s)

/-- FLOW_ROUTE_SET, R362. -/
def execFlowRouteSet (f : Nat) (q : Request) (s : State) : Host.Outcome State Fault Refusal := .next (command .flowRouteSet f q s)

/-- FLOW_TEMPLATE_SET, R370. -/
def execFlowTemplateSet (f : Nat) (q : Request) (s : State) : Host.Outcome State Fault Refusal := .next (command .flowTemplateSet f q s)

/-- FLOW_RATE_SET, R382. -/
def execFlowRateSet (f : Nat) (q : Request) (s : State) : Host.Outcome State Fault Refusal := .next (command .flowRateSet f q s)

/-- FLOW_WEIGHT_SET, R381. -/
def execFlowWeightSet (f : Nat) (q : Request) (s : State) : Host.Outcome State Fault Refusal := .next (command .flowWeightSet f q s)

/-- FLOW_START, R366. -/
def execFlowStart (f : Nat) (q : Request) (s : State) : Host.Outcome State Fault Refusal := .next (command .flowStart f q s)

/-- FLOW_STOP, R367. -/
def execFlowStop (f : Nat) (q : Request) (s : State) : Host.Outcome State Fault Refusal := .next (command .flowStop f q s)

/-- FLOW_RING_SET, R374. -/
def execFlowRingSet (f : Nat) (q : Request) (s : State) : Host.Outcome State Fault Refusal := .next (command .flowRingSet f q s)

/-- FLOW_STATS, R390. -/
def execFlowStats (f : Nat) (q : Request) (s : State) : Host.Outcome State Fault Refusal := .next (command .flowStats f q s)

/-- FLOW_CRYPT_SET, R373. -/
def execFlowCryptSet (f : Nat) (q : Request) (s : State) : Host.Outcome State Fault Refusal := .next (command .flowCryptSet f q s)

/-- MEM_MAP_QUERY, R421. -/
def execMemMapQuery (f : Nat) (q : Request) (s : State) : Host.Outcome State Fault Refusal := .next (command .memMapQuery f q s)

/-- MEM_POOL_QUERY, R421. -/
def execMemPoolQuery (f : Nat) (q : Request) (s : State) : Host.Outcome State Fault Refusal := .next (command .memPoolQuery f q s)

/-- MEM_ERR_QUERY, R421. -/
def execMemErrQuery (f : Nat) (q : Request) (s : State) : Host.Outcome State Fault Refusal := .next (command .memErrQuery f q s)

/-- TARN_ID_GET, R452. -/
def execTarnIdGet (f : Nat) (q : Request) (s : State) : Host.Outcome State Fault Refusal := .next (command .tarnIdGet f q s)

/-- TARN_RANDOM, R452. -/
def execTarnRandom (f : Nat) (q : Request) (s : State) : Host.Outcome State Fault Refusal := .next (command .tarnRandom f q s)

/-- TARN_SIGN, R453. -/
def execTarnSign (f : Nat) (q : Request) (s : State) : Host.Outcome State Fault Refusal := .next (command .tarnSign f q s)

/-- TARN_VERIFY, R453. -/
def execTarnVerify (f : Nat) (q : Request) (s : State) : Host.Outcome State Fault Refusal := .next (command .tarnVerify f q s)

/-- TARN_NODE_QUERY, R452. -/
def execTarnNodeQuery (f : Nat) (q : Request) (s : State) : Host.Outcome State Fault Refusal := .next (command .tarnNodeQuery f q s)

/-- TARN_NODE_INVALIDATE, R435. -/
def execTarnNodeInvalidate (f : Nat) (q : Request) (s : State) : Host.Outcome State Fault Refusal := .next (command .tarnNodeInvalidate f q s)

/-- TARN_PUBKEY_GET, R453. -/
def execTarnPubkeyGet (f : Nat) (q : Request) (s : State) : Host.Outcome State Fault Refusal := .next (command .tarnPubkeyGet f q s)

/-- ROLE_CHALLENGE, R458. -/
def execRoleChallenge (f : Nat) (q : Request) (s : State) : Host.Outcome State Fault Refusal := .next (command .roleChallenge f q s)

/-- ROLE_OPEN, R459. -/
def execRoleOpen (f : Nat) (q : Request) (s : State) : Host.Outcome State Fault Refusal := .next (command .roleOpen f q s)

/-- ROLE_CLOSE, R460. -/
def execRoleClose (f : Nat) (q : Request) (s : State) : Host.Outcome State Fault Refusal := .next (command .roleClose f q s)

/-- ROLE_UPDATE, R463. -/
def execRoleUpdate (f : Nat) (q : Request) (s : State) : Host.Outcome State Fault Refusal := .next (command .roleUpdate f q s)

/-- ROLE_AUDIT_READ, R476. -/
def execRoleAuditRead (f : Nat) (q : Request) (s : State) : Host.Outcome State Fault Refusal := .next (command .roleAuditRead f q s)

/-- ROLE_COUNTER_GET, R477. -/
def execRoleCounterGet (f : Nat) (q : Request) (s : State) : Host.Outcome State Fault Refusal := .next (command .roleCounterGet f q s)

/-- SEQ_IMAGE_LOAD, R502. -/
def execSeqImageLoad (f : Nat) (q : Request) (s : State) : Host.Outcome State Fault Refusal := .next (command .seqImageLoad f q s)

/-- SEQ_PATCH_APPLY, R505. -/
def execSeqPatchApply (f : Nat) (q : Request) (s : State) : Host.Outcome State Fault Refusal := .next (command .seqPatchApply f q s)

/-- SEQ_HOOK_SET, R507. -/
def execSeqHookSet (f : Nat) (q : Request) (s : State) : Host.Outcome State Fault Refusal := .next (command .seqHookSet f q s)

/-- SEQ_QUERY, R509. -/
def execSeqQuery (f : Nat) (q : Request) (s : State) : Host.Outcome State Fault Refusal := .next (command .seqQuery f q s)

/-- PWR_DVFS_SET, R519. -/
def execPwrDvfsSet (f : Nat) (q : Request) (s : State) : Host.Outcome State Fault Refusal := .next (command .pwrDvfsSet f q s)

/-- PWR_DOMAIN_SET, R521. -/
def execPwrDomainSet (f : Nat) (q : Request) (s : State) : Host.Outcome State Fault Refusal := .next (command .pwrDomainSet f q s)

/-- PWR_SELF_REFRESH, R526. -/
def execPwrSelfRefresh (f : Nat) (q : Request) (s : State) : Host.Outcome State Fault Refusal := .next (command .pwrSelfRefresh f q s)

/-- PWR_QUERY, R541. -/
def execPwrQuery (f : Nat) (q : Request) (s : State) : Host.Outcome State Fault Refusal := .next (command .pwrQuery f q s)

/-- HEAD_PAIR, R193. -/
def execHeadPair (f : Nat) (q : Request) (s : State) : Host.Outcome State Fault Refusal := .next (command .headPair f q s)

/-- HEAD_UNPAIR, R196. -/
def execHeadUnpair (f : Nat) (q : Request) (s : State) : Host.Outcome State Fault Refusal := .next (command .headUnpair f q s)

/-- HEAD_POLICY_SET, R181. -/
def execHeadPolicySet (f : Nat) (q : Request) (s : State) : Host.Outcome State Fault Refusal := .next (command .headPolicySet f q s)

/-- HEAD_ID_GET, R191. -/
def execHeadIdGet (f : Nat) (q : Request) (s : State) : Host.Outcome State Fault Refusal := .next (command .headIdGet f q s)

/-- HEAD_LIFE_QUERY, R202. -/
def execHeadLifeQuery (f : Nat) (q : Request) (s : State) : Host.Outcome State Fault Refusal := .next (command .headLifeQuery f q s)

/-- HEAD_I3C_XFER, R185. -/
def execHeadI3cXfer (f : Nat) (q : Request) (s : State) : Host.Outcome State Fault Refusal := .next (command .headI3cXfer f q s)

/-- CAL_ENABLE, R261. -/
def execCalEnable (f : Nat) (q : Request) (s : State) : Host.Outcome State Fault Refusal := .next (command .calEnable f q s)

/-- CAL_PIN, R255. -/
def execCalPin (f : Nat) (q : Request) (s : State) : Host.Outcome State Fault Refusal := .next (command .calPin f q s)

/-- CAL_UNPIN, R255. -/
def execCalUnpin (f : Nat) (q : Request) (s : State) : Host.Outcome State Fault Refusal := .next (command .calUnpin f q s)

/-- CAL_RESET, R262. -/
def execCalReset (f : Nat) (q : Request) (s : State) : Host.Outcome State Fault Refusal := .next (command .calReset f q s)

/-- CAL_QUERY, R263. -/
def execCalQuery (f : Nat) (q : Request) (s : State) : Host.Outcome State Fault Refusal := .next (command .calQuery f q s)

/-- TIME_SET_BASE, R40. -/
def execTimeSetBase (f : Nat) (q : Request) (s : State) : Host.Outcome State Fault Refusal := .next (command .timeSetBase f q s)

/-- TIME_PPS_CONFIG, R45. -/
def execTimePpsConfig (f : Nat) (q : Request) (s : State) : Host.Outcome State Fault Refusal := .next (command .timePpsConfig f q s)

/-- TIME_TICK_SET, R57. -/
def execTimeTickSet (f : Nat) (q : Request) (s : State) : Host.Outcome State Fault Refusal := .next (command .timeTickSet f q s)

/-- TIME_CHAN_RATE, R58. -/
def execTimeChanRate (f : Nat) (q : Request) (s : State) : Host.Outcome State Fault Refusal := .next (command .timeChanRate f q s)

/-- TIME_GPTP_CONFIG, R125. -/
def execTimeGptpConfig (f : Nat) (q : Request) (s : State) : Host.Outcome State Fault Refusal := .next (command .timeGptpConfig f q s)

/-- TIME_LEDGER_QUERY, R127. -/
def execTimeLedgerQuery (f : Nat) (q : Request) (s : State) : Host.Outcome State Fault Refusal := .next (command .timeLedgerQuery f q s)

end Sys2Proof.Machine
end

