-- ==== Sys2Proof/Machine/Dispatch.lean ====
section
/-!
DEFINITION. One arm for each command of the table.
-/
namespace Sys2Proof.Machine

def exec (i : Instr) (s : State) : Host.Outcome State Fault Refusal :=
  match i with
  | .sysNop f q => Sys2Proof.Machine.execSysNop f q s
  | .sysCaps f q => Sys2Proof.Machine.execSysCaps f q s
  | .sysReset f q => Sys2Proof.Machine.execSysReset f q s
  | .sysGroupSet f q => Sys2Proof.Machine.execSysGroupSet f q s
  | .sysFgroupSet f q => Sys2Proof.Machine.execSysFgroupSet f q s
  | .sysGroupGet f q => Sys2Proof.Machine.execSysGroupGet f q s
  | .sysConfigSave f q => Sys2Proof.Machine.execSysConfigSave f q s
  | .chanPortSet f q => Sys2Proof.Machine.execChanPortSet f q s
  | .chanBind f q => Sys2Proof.Machine.execChanBind f q s
  | .chanStart f q => Sys2Proof.Machine.execChanStart f q s
  | .chanStop f q => Sys2Proof.Machine.execChanStop f q s
  | .chanSensorSet f q => Sys2Proof.Machine.execChanSensorSet f q s
  | .chanQuery f q => Sys2Proof.Machine.execChanQuery f q s
  | .chanPipeSet f q => Sys2Proof.Machine.execChanPipeSet f q s
  | .chanWindowSet f q => Sys2Proof.Machine.execChanWindowSet f q s
  | .chanWindowClear f q => Sys2Proof.Machine.execChanWindowClear f q s
  | .chanLutLoad f q => Sys2Proof.Machine.execChanLutLoad f q s
  | .encStreamSet f q => Sys2Proof.Machine.execEncStreamSet f q s
  | .encHrdSet f q => Sys2Proof.Machine.execEncHrdSet f q s
  | .encRateSet f q => Sys2Proof.Machine.execEncRateSet f q s
  | .encQpSet f q => Sys2Proof.Machine.execEncQpSet f q s
  | .encRefreshSet f q => Sys2Proof.Machine.execEncRefreshSet f q s
  | .encMotionSet f q => Sys2Proof.Machine.execEncMotionSet f q s
  | .encGeometrySet f q => Sys2Proof.Machine.execEncGeometrySet f q s
  | .encEgoUpdate f q => Sys2Proof.Machine.execEncEgoUpdate f q s
  | .encLtrRecover f q => Sys2Proof.Machine.execEncLtrRecover f q s
  | .encForceIdr f q => Sys2Proof.Machine.execEncForceIdr f q s
  | .encQuery f q => Sys2Proof.Machine.execEncQuery f q s
  | .decOpen f q => Sys2Proof.Machine.execDecOpen f q s
  | .decFeed f q => Sys2Proof.Machine.execDecFeed f q s
  | .decOutputSet f q => Sys2Proof.Machine.execDecOutputSet f q s
  | .decClose f q => Sys2Proof.Machine.execDecClose f q s
  | .decQuery f q => Sys2Proof.Machine.execDecQuery f q s
  | .flowAttach f q => Sys2Proof.Machine.execFlowAttach f q s
  | .flowRouteSet f q => Sys2Proof.Machine.execFlowRouteSet f q s
  | .flowTemplateSet f q => Sys2Proof.Machine.execFlowTemplateSet f q s
  | .flowRateSet f q => Sys2Proof.Machine.execFlowRateSet f q s
  | .flowWeightSet f q => Sys2Proof.Machine.execFlowWeightSet f q s
  | .flowStart f q => Sys2Proof.Machine.execFlowStart f q s
  | .flowStop f q => Sys2Proof.Machine.execFlowStop f q s
  | .flowRingSet f q => Sys2Proof.Machine.execFlowRingSet f q s
  | .flowStats f q => Sys2Proof.Machine.execFlowStats f q s
  | .flowCryptSet f q => Sys2Proof.Machine.execFlowCryptSet f q s
  | .memMapQuery f q => Sys2Proof.Machine.execMemMapQuery f q s
  | .memPoolQuery f q => Sys2Proof.Machine.execMemPoolQuery f q s
  | .memErrQuery f q => Sys2Proof.Machine.execMemErrQuery f q s
  | .tarnIdGet f q => Sys2Proof.Machine.execTarnIdGet f q s
  | .tarnRandom f q => Sys2Proof.Machine.execTarnRandom f q s
  | .tarnSign f q => Sys2Proof.Machine.execTarnSign f q s
  | .tarnVerify f q => Sys2Proof.Machine.execTarnVerify f q s
  | .tarnNodeQuery f q => Sys2Proof.Machine.execTarnNodeQuery f q s
  | .tarnNodeInvalidate f q => Sys2Proof.Machine.execTarnNodeInvalidate f q s
  | .tarnPubkeyGet f q => Sys2Proof.Machine.execTarnPubkeyGet f q s
  | .roleChallenge f q => Sys2Proof.Machine.execRoleChallenge f q s
  | .roleOpen f q => Sys2Proof.Machine.execRoleOpen f q s
  | .roleClose f q => Sys2Proof.Machine.execRoleClose f q s
  | .roleUpdate f q => Sys2Proof.Machine.execRoleUpdate f q s
  | .roleAuditRead f q => Sys2Proof.Machine.execRoleAuditRead f q s
  | .roleCounterGet f q => Sys2Proof.Machine.execRoleCounterGet f q s
  | .seqImageLoad f q => Sys2Proof.Machine.execSeqImageLoad f q s
  | .seqPatchApply f q => Sys2Proof.Machine.execSeqPatchApply f q s
  | .seqHookSet f q => Sys2Proof.Machine.execSeqHookSet f q s
  | .seqQuery f q => Sys2Proof.Machine.execSeqQuery f q s
  | .pwrDvfsSet f q => Sys2Proof.Machine.execPwrDvfsSet f q s
  | .pwrDomainSet f q => Sys2Proof.Machine.execPwrDomainSet f q s
  | .pwrSelfRefresh f q => Sys2Proof.Machine.execPwrSelfRefresh f q s
  | .pwrQuery f q => Sys2Proof.Machine.execPwrQuery f q s
  | .headPair f q => Sys2Proof.Machine.execHeadPair f q s
  | .headUnpair f q => Sys2Proof.Machine.execHeadUnpair f q s
  | .headPolicySet f q => Sys2Proof.Machine.execHeadPolicySet f q s
  | .headIdGet f q => Sys2Proof.Machine.execHeadIdGet f q s
  | .headLifeQuery f q => Sys2Proof.Machine.execHeadLifeQuery f q s
  | .headI3cXfer f q => Sys2Proof.Machine.execHeadI3cXfer f q s
  | .calEnable f q => Sys2Proof.Machine.execCalEnable f q s
  | .calPin f q => Sys2Proof.Machine.execCalPin f q s
  | .calUnpin f q => Sys2Proof.Machine.execCalUnpin f q s
  | .calReset f q => Sys2Proof.Machine.execCalReset f q s
  | .calQuery f q => Sys2Proof.Machine.execCalQuery f q s
  | .timeSetBase f q => Sys2Proof.Machine.execTimeSetBase f q s
  | .timePpsConfig f q => Sys2Proof.Machine.execTimePpsConfig f q s
  | .timeTickSet f q => Sys2Proof.Machine.execTimeTickSet f q s
  | .timeChanRate f q => Sys2Proof.Machine.execTimeChanRate f q s
  | .timeGptpConfig f q => Sys2Proof.Machine.execTimeGptpConfig f q s
  | .timeLedgerQuery f q => Sys2Proof.Machine.execTimeLedgerQuery f q s
  | .timeLoRead f size => Sys2Proof.Machine.execTimeLoRead f size s
  | .timePtmSeqRead f size => Sys2Proof.Machine.execTimePtmSeqRead f size s
  | .mbxReqPush f size value => Sys2Proof.Machine.execMbxReqPush f size value s
  | .mbxRspPop f size => Sys2Proof.Machine.execMbxRspPop f size s
  | .mbxCtrlWrite f size value => Sys2Proof.Machine.execMbxCtrlWrite f size value s
  | .irqAck f size => Sys2Proof.Machine.execIrqAck f size s
  | .irqEoi f size value => Sys2Proof.Machine.execIrqEoi f size value s
  | .irqSrcCfgWrite f size value => Sys2Proof.Machine.execIrqSrcCfgWrite f size value s
  | .irqSrcCauseWrite f size value => Sys2Proof.Machine.execIrqSrcCauseWrite f size value s
  | .irqCtrlWrite f size value => Sys2Proof.Machine.execIrqCtrlWrite f size value s
  | .registerWrite f offset size value => Sys2Proof.Machine.execRegisterWrite f offset size value s
  | .requestRead => Sys2Proof.Machine.execRequestRead s
  | .requestPromotion => Sys2Proof.Machine.execRequestPromotion s
  | .deferredTimeout f tag => Sys2Proof.Machine.execDeferredTimeout f tag s
  | .dmaTransferDone f tag ok data => Sys2Proof.Machine.execDmaTransferDone f tag ok data s
  | .dmaTimeout f tag => Sys2Proof.Machine.execDmaTimeout f tag s
  | .flashProgramDone ok => Sys2Proof.Machine.execFlashProgramDone ok s
  | .challengeExpiry f => Sys2Proof.Machine.execChallengeExpiry f s
  | .masterTickBoundary => Sys2Proof.Machine.execMasterTickBoundary s
  | .conditionReassert => Sys2Proof.Machine.execConditionReassert s
  | .msixUnmask f vector => Sys2Proof.Machine.execMsixUnmask f vector s
  | .fsyncPulse ch => Sys2Proof.Machine.execFsyncPulse ch s
  | .fsyncPulseEnd ch => Sys2Proof.Machine.execFsyncPulseEnd ch s
  | .csi2FrameStart port vc ecc => Sys2Proof.Machine.execCsi2FrameStart port vc ecc s
  | .csi2LineStart port vc line ecc => Sys2Proof.Machine.execCsi2LineStart port vc line ecc s
  | .csi2LongPacket port vc dt wc crcOk ecc data => Sys2Proof.Machine.execCsi2LongPacket port vc dt wc crcOk ecc data s
  | .csi2FrameEnd port vc ecc => Sys2Proof.Machine.execCsi2FrameEnd port vc ecc s
  | .ingressDeadline ch => Sys2Proof.Machine.execIngressDeadline ch s
  | .pipeJobEnd ch => Sys2Proof.Machine.execPipeJobEnd ch s
  | .encJobEnd ch st => Sys2Proof.Machine.execEncJobEnd ch st s
  | .itpJobEnd ch st => Sys2Proof.Machine.execItpJobEnd ch st s
  | .decJobEnd h r => Sys2Proof.Machine.execDecJobEnd h r s
  | .sealJobEnd ch st => Sys2Proof.Machine.execSealJobEnd ch st s
  | .cycleMeterExpiry j undone => Sys2Proof.Machine.execCycleMeterExpiry j undone s
  | .seqWatchdog q stop => Sys2Proof.Machine.execSeqWatchdog q stop s
  | .calEstimate ch param => Sys2Proof.Machine.execCalEstimate ch param s
  | .calTimeLimit ch param => Sys2Proof.Machine.execCalTimeLimit ch param s
  | .calRecordWrite ch => Sys2Proof.Machine.execCalRecordWrite ch s
  | .headCheckStart ch => Sys2Proof.Machine.execHeadCheckStart ch s
  | .seStatusPoll ch u => Sys2Proof.Machine.execSeStatusPoll ch u s
  | .i3cTransactionDone bus r => Sys2Proof.Machine.execI3cTransactionDone bus r s
  | .headCheckDone ch => Sys2Proof.Machine.execHeadCheckDone ch s
  | .headChange ch => Sys2Proof.Machine.execHeadChange ch s
  | .lifeMinute ch u => Sys2Proof.Machine.execLifeMinute ch u s
  | .lifePush ch => Sys2Proof.Machine.execLifePush ch s
  | .headTempRead ch u => Sys2Proof.Machine.execHeadTempRead ch u s
  | .ppsInPulse at_ => Sys2Proof.Machine.execPpsInPulse at_ s
  | .ppsInMissing => Sys2Proof.Machine.execPpsInMissing s
  | .ppsOutPulse => Sys2Proof.Machine.execPpsOutPulse s
  | .gptpSyncTx port => Sys2Proof.Machine.execGptpSyncTx port s
  | .gptpAnnounceTx port => Sys2Proof.Machine.execGptpAnnounceTx port s
  | .gptpPdelayReqTx port => Sys2Proof.Machine.execGptpPdelayReqTx port s
  | .gptpFrameReceived port m => Sys2Proof.Machine.execGptpFrameReceived port m s
  | .macFrameReceived mac => Sys2Proof.Machine.execMacFrameReceived mac s
  | .ptmDialogue => Sys2Proof.Machine.execPtmDialogue s
  | .ptmDialogueDone ok root => Sys2Proof.Machine.execPtmDialogueDone ok root s
  | .packetDequeue port => Sys2Proof.Machine.execPacketDequeue port s
  | .packetTxComplete port ok => Sys2Proof.Machine.execPacketTxComplete port ok s
  | .calendarSlot port => Sys2Proof.Machine.execCalendarSlot port s
  | .ringSlotPoll flow ok addr blen ctrl => Sys2Proof.Machine.execRingSlotPoll flow ok addr blen ctrl s
  | .txFrameDue flow => Sys2Proof.Machine.execTxFrameDue flow s
  | .txFrameSent port => Sys2Proof.Machine.execTxFrameSent port s
  | .flowSample n => Sys2Proof.Machine.execFlowSample n s
  | .macLinkDown mac => Sys2Proof.Machine.execMacLinkDown mac s
  | .macLinkUp mac => Sys2Proof.Machine.execMacLinkUp mac s
  | .pcieLinkRetrain lanes link => Sys2Proof.Machine.execPcieLinkRetrain lanes link s
  | .chanStatusUpdate ch => Sys2Proof.Machine.execChanStatusUpdate ch s
  | .flowStatusUpdate => Sys2Proof.Machine.execFlowStatusUpdate s
  | .refreshDue dmc mch => Sys2Proof.Machine.execRefreshDue dmc mch s
  | .refreshIssue dmc mch => Sys2Proof.Machine.execRefreshIssue dmc mch s
  | .refreshForced dmc mch => Sys2Proof.Machine.execRefreshForced dmc mch s
  | .mr4Read dmc mch mult => Sys2Proof.Machine.execMr4Read dmc mch mult s
  | .patrolScrub dmc sector e => Sys2Proof.Machine.execPatrolScrub dmc sector e s
  | .selfRefreshEntryDone dmc => Sys2Proof.Machine.execSelfRefreshEntryDone dmc s
  | .selfRefreshExitDone dmc => Sys2Proof.Machine.execSelfRefreshExitDone dmc s
  | .tamperAssert => Sys2Proof.Machine.execTamperAssert s
  | .trngHealthFail => Sys2Proof.Machine.execTrngHealthFail s
  | .trngRestartDone => Sys2Proof.Machine.execTrngRestartDone s
  | .trngBlockReady block => Sys2Proof.Machine.execTrngBlockReady block s
  | .avsFloorUpdate dom floor => Sys2Proof.Machine.execAvsFloorUpdate dom floor s
  | .pmbusStatusPoll rail ack status iout => Sys2Proof.Machine.execPmbusStatusPoll rail ack status iout s
  | .thermalSample tj => Sys2Proof.Machine.execThermalSample tj s
  | .domainPowerUpDone dom ok => Sys2Proof.Machine.execDomainPowerUpDone dom ok s
  | .controlWatchdog => Sys2Proof.Machine.execControlWatchdog s
  | .fullReset t => Sys2Proof.Machine.execFullReset t s
  | .resetRelease straps puf => Sys2Proof.Machine.execResetRelease straps puf s
  | .railPowerUp rail ok => Sys2Proof.Machine.execRailPowerUp rail ok s
  | .dmcTrainingDone ok => Sys2Proof.Machine.execDmcTrainingDone ok s
  | .memoryInitDone => Sys2Proof.Machine.execMemoryInitDone s
  | .bringUpReady => Sys2Proof.Machine.execBringUpReady s
  | .functionLevelReset f => Sys2Proof.Machine.execFunctionLevelReset f s
  | .vfEnableChange numVfs enable => Sys2Proof.Machine.execVfEnableChange numVfs enable s
  | .chunkServiceDone dmc c => Sys2Proof.Machine.execChunkServiceDone dmc c s
  | .csi2PhyError port => Sys2Proof.Machine.execCsi2PhyError port s
  | .refclkInFailure => Sys2Proof.Machine.execRefclkInFailure s

end Sys2Proof.Machine
end

