-- ==== Sys2Proof/WellFormed.lean ====
section
/-!
DEFINITION. Well-formed commands: the operands the outside world can bring. Each check refuses by name.
-/
namespace Sys2Proof

/-- Why a command is not well-formed. -/
inductive Flaw where
  /-- R71. A function number above 15. -/
  | function
  /-- R102. A request whose bytes 16 to 63 are not 48 bytes. -/
  | payload
  /-- R17. An access that is not of 1, 2, 4 or 8 bytes. -/
  | width
  /-- R72. An offset outside the 64 KiB of BAR0. -/
  | offset
  /-- R149. Not a vector of a function, nor 2 for its mask. -/
  | vector
  /-- R155. A receive port above 15. -/
  | receivePort
  /-- R157. A virtual channel above 15. -/
  | virtualChannel
  /-- R154. A data type above 0x3F. -/
  | dataType
  /-- R168. A word count or line number above 65,535, or more data than a word count can state. -/
  | wordCount
  /-- R1. A channel above 31. -/
  | channel
  /-- R269. A coded stream above 1. -/
  | stream
  /-- R336. A decode handle above 31. -/
  | decodeStream
  /-- R66. A job of no engine. -/
  | job
  /-- R235. An estimator above 3. -/
  | estimator
  /-- R181. A control bus above 7. -/
  | bus
  /-- R369. A MAC above 1. -/
  | mac
  /-- R377. A scheduled port above 2. -/
  | scheduledPort
  /-- R352. A transmit port above 3. -/
  | transmitPort
  /-- R360. A flow above 255. -/
  | flow
  /-- R389. A sample above 15. -/
  | sample
  /-- R392. A memory controller above 1. -/
  | controller
  /-- R392. A memory channel above 7. -/
  | memChannel
  /-- R401. A refresh multiplier other than 1, 1/2 or 1/4. -/
  | multiplier
  /-- R397, R399. A chunk no master can issue. -/
  | chunk
  /-- R511. A power domain above 6. -/
  | domain
  /-- R513. A device-raised rail above 5. -/
  | rail
  /-- R478, R509. A sequencer above 7, or a fault with no code of its own. -/
  | sequencer
  /-- R444. A block that is not of 32 bytes. -/
  | block
  /-- R423. Not 64 blocks of PUF bits. -/
  | puf
  /-- R70. A link width or speed to which the link does not train, or a max payload size it does not have. -/
  | link
  /-- R102. A tag above 65,535. -/
  | tag
deriving DecidableEq, Repr, Inhabited

/-- R66. The job belongs to an engine. -/
def MeterJob.known : MeterJob → Bool
  | .pipe c => c < 32
  | .enc c st => c < 32 && st < 2
  | .itp c st => c < 32 && st < 2
  | .dec h => h < 32

/-- R499, R509. The code is one of a fault that a word of the store can cause. -/
def SeqWhy.listed : SeqWhy → Bool
  | .fault r => [1, 2, 3, 5].contains r
  | .watchdog | .corrected => true

/-- R399. Real-time masters: the receive ports, and the transmit ports. -/
def Master.realTime : Master → Bool
  | .ingress _ | .tx _ => true
  | _ => false

/-- Bytes of a chunk. -/
def Chunk.size (c : Chunk) : Nat :=
  match c.kind with
  | .read n => n
  | .write d => d.length
  | .drain => 0

/-- R397, R399. A chunk stays in one block of 256 bytes, and fills it for a real-time master. -/
def Chunk.good (c : Chunk) : Bool :=
  c.addr % 256 + c.size ≤ 256 && (!c.master.realTime || (c.addr % 256 == 0 && c.size == 256))

/-- The checks of a command, each with the flaw it names. -/
def Instr.checks : Instr → List (Bool × Flaw)
  | .sysNop f q => [(f < 16, .function), (q.payload.length = 48, .payload)]
  | .sysCaps f q => [(f < 16, .function), (q.payload.length = 48, .payload)]
  | .sysReset f q => [(f < 16, .function), (q.payload.length = 48, .payload)]
  | .sysGroupSet f q => [(f < 16, .function), (q.payload.length = 48, .payload)]
  | .sysFgroupSet f q => [(f < 16, .function), (q.payload.length = 48, .payload)]
  | .sysGroupGet f q => [(f < 16, .function), (q.payload.length = 48, .payload)]
  | .sysConfigSave f q => [(f < 16, .function), (q.payload.length = 48, .payload)]
  | .chanPortSet f q => [(f < 16, .function), (q.payload.length = 48, .payload)]
  | .chanBind f q => [(f < 16, .function), (q.payload.length = 48, .payload)]
  | .chanStart f q => [(f < 16, .function), (q.payload.length = 48, .payload)]
  | .chanStop f q => [(f < 16, .function), (q.payload.length = 48, .payload)]
  | .chanSensorSet f q => [(f < 16, .function), (q.payload.length = 48, .payload)]
  | .chanQuery f q => [(f < 16, .function), (q.payload.length = 48, .payload)]
  | .chanPipeSet f q => [(f < 16, .function), (q.payload.length = 48, .payload)]
  | .chanWindowSet f q => [(f < 16, .function), (q.payload.length = 48, .payload)]
  | .chanWindowClear f q => [(f < 16, .function), (q.payload.length = 48, .payload)]
  | .chanLutLoad f q => [(f < 16, .function), (q.payload.length = 48, .payload)]
  | .encStreamSet f q => [(f < 16, .function), (q.payload.length = 48, .payload)]
  | .encHrdSet f q => [(f < 16, .function), (q.payload.length = 48, .payload)]
  | .encRateSet f q => [(f < 16, .function), (q.payload.length = 48, .payload)]
  | .encQpSet f q => [(f < 16, .function), (q.payload.length = 48, .payload)]
  | .encRefreshSet f q => [(f < 16, .function), (q.payload.length = 48, .payload)]
  | .encMotionSet f q => [(f < 16, .function), (q.payload.length = 48, .payload)]
  | .encGeometrySet f q => [(f < 16, .function), (q.payload.length = 48, .payload)]
  | .encEgoUpdate f q => [(f < 16, .function), (q.payload.length = 48, .payload)]
  | .encLtrRecover f q => [(f < 16, .function), (q.payload.length = 48, .payload)]
  | .encForceIdr f q => [(f < 16, .function), (q.payload.length = 48, .payload)]
  | .encQuery f q => [(f < 16, .function), (q.payload.length = 48, .payload)]
  | .decOpen f q => [(f < 16, .function), (q.payload.length = 48, .payload)]
  | .decFeed f q => [(f < 16, .function), (q.payload.length = 48, .payload)]
  | .decOutputSet f q => [(f < 16, .function), (q.payload.length = 48, .payload)]
  | .decClose f q => [(f < 16, .function), (q.payload.length = 48, .payload)]
  | .decQuery f q => [(f < 16, .function), (q.payload.length = 48, .payload)]
  | .flowAttach f q => [(f < 16, .function), (q.payload.length = 48, .payload)]
  | .flowRouteSet f q => [(f < 16, .function), (q.payload.length = 48, .payload)]
  | .flowTemplateSet f q => [(f < 16, .function), (q.payload.length = 48, .payload)]
  | .flowRateSet f q => [(f < 16, .function), (q.payload.length = 48, .payload)]
  | .flowWeightSet f q => [(f < 16, .function), (q.payload.length = 48, .payload)]
  | .flowStart f q => [(f < 16, .function), (q.payload.length = 48, .payload)]
  | .flowStop f q => [(f < 16, .function), (q.payload.length = 48, .payload)]
  | .flowRingSet f q => [(f < 16, .function), (q.payload.length = 48, .payload)]
  | .flowStats f q => [(f < 16, .function), (q.payload.length = 48, .payload)]
  | .flowCryptSet f q => [(f < 16, .function), (q.payload.length = 48, .payload)]
  | .memMapQuery f q => [(f < 16, .function), (q.payload.length = 48, .payload)]
  | .memPoolQuery f q => [(f < 16, .function), (q.payload.length = 48, .payload)]
  | .memErrQuery f q => [(f < 16, .function), (q.payload.length = 48, .payload)]
  | .tarnIdGet f q => [(f < 16, .function), (q.payload.length = 48, .payload)]
  | .tarnRandom f q => [(f < 16, .function), (q.payload.length = 48, .payload)]
  | .tarnSign f q => [(f < 16, .function), (q.payload.length = 48, .payload)]
  | .tarnVerify f q => [(f < 16, .function), (q.payload.length = 48, .payload)]
  | .tarnNodeQuery f q => [(f < 16, .function), (q.payload.length = 48, .payload)]
  | .tarnNodeInvalidate f q => [(f < 16, .function), (q.payload.length = 48, .payload)]
  | .tarnPubkeyGet f q => [(f < 16, .function), (q.payload.length = 48, .payload)]
  | .roleChallenge f q => [(f < 16, .function), (q.payload.length = 48, .payload)]
  | .roleOpen f q => [(f < 16, .function), (q.payload.length = 48, .payload)]
  | .roleClose f q => [(f < 16, .function), (q.payload.length = 48, .payload)]
  | .roleUpdate f q => [(f < 16, .function), (q.payload.length = 48, .payload)]
  | .roleAuditRead f q => [(f < 16, .function), (q.payload.length = 48, .payload)]
  | .roleCounterGet f q => [(f < 16, .function), (q.payload.length = 48, .payload)]
  | .seqImageLoad f q => [(f < 16, .function), (q.payload.length = 48, .payload)]
  | .seqPatchApply f q => [(f < 16, .function), (q.payload.length = 48, .payload)]
  | .seqHookSet f q => [(f < 16, .function), (q.payload.length = 48, .payload)]
  | .seqQuery f q => [(f < 16, .function), (q.payload.length = 48, .payload)]
  | .pwrDvfsSet f q => [(f < 16, .function), (q.payload.length = 48, .payload)]
  | .pwrDomainSet f q => [(f < 16, .function), (q.payload.length = 48, .payload)]
  | .pwrSelfRefresh f q => [(f < 16, .function), (q.payload.length = 48, .payload)]
  | .pwrQuery f q => [(f < 16, .function), (q.payload.length = 48, .payload)]
  | .headPair f q => [(f < 16, .function), (q.payload.length = 48, .payload)]
  | .headUnpair f q => [(f < 16, .function), (q.payload.length = 48, .payload)]
  | .headPolicySet f q => [(f < 16, .function), (q.payload.length = 48, .payload)]
  | .headIdGet f q => [(f < 16, .function), (q.payload.length = 48, .payload)]
  | .headLifeQuery f q => [(f < 16, .function), (q.payload.length = 48, .payload)]
  | .headI3cXfer f q => [(f < 16, .function), (q.payload.length = 48, .payload)]
  | .calEnable f q => [(f < 16, .function), (q.payload.length = 48, .payload)]
  | .calPin f q => [(f < 16, .function), (q.payload.length = 48, .payload)]
  | .calUnpin f q => [(f < 16, .function), (q.payload.length = 48, .payload)]
  | .calReset f q => [(f < 16, .function), (q.payload.length = 48, .payload)]
  | .calQuery f q => [(f < 16, .function), (q.payload.length = 48, .payload)]
  | .timeSetBase f q => [(f < 16, .function), (q.payload.length = 48, .payload)]
  | .timePpsConfig f q => [(f < 16, .function), (q.payload.length = 48, .payload)]
  | .timeTickSet f q => [(f < 16, .function), (q.payload.length = 48, .payload)]
  | .timeChanRate f q => [(f < 16, .function), (q.payload.length = 48, .payload)]
  | .timeGptpConfig f q => [(f < 16, .function), (q.payload.length = 48, .payload)]
  | .timeLedgerQuery f q => [(f < 16, .function), (q.payload.length = 48, .payload)]
  | .timeLoRead f size => [(f < 16, .function), (size = 1 ∨ size = 2 ∨ size = 4 ∨ size = 8, .width)]
  | .timePtmSeqRead f size => [(f < 16, .function), (size = 1 ∨ size = 2 ∨ size = 4 ∨ size = 8, .width)]
  | .mbxReqPush f size _ => [(f < 16, .function), (size = 1 ∨ size = 2 ∨ size = 4 ∨ size = 8, .width)]
  | .mbxRspPop f size => [(f < 16, .function), (size = 1 ∨ size = 2 ∨ size = 4 ∨ size = 8, .width)]
  | .mbxCtrlWrite f size _ => [(f < 16, .function), (size = 1 ∨ size = 2 ∨ size = 4 ∨ size = 8, .width)]
  | .irqAck f size => [(f < 16, .function), (size = 1 ∨ size = 2 ∨ size = 4 ∨ size = 8, .width)]
  | .irqEoi f size _ => [(f < 16, .function), (size = 1 ∨ size = 2 ∨ size = 4 ∨ size = 8, .width)]
  | .irqSrcCfgWrite f size _ => [(f < 16, .function), (size = 1 ∨ size = 2 ∨ size = 4 ∨ size = 8, .width)]
  | .irqSrcCauseWrite f size _ => [(f < 16, .function), (size = 1 ∨ size = 2 ∨ size = 4 ∨ size = 8, .width)]
  | .irqCtrlWrite f size _ => [(f < 16, .function), (size = 1 ∨ size = 2 ∨ size = 4 ∨ size = 8, .width)]
  | .registerWrite f offset size _ => [(f < 16, .function), (offset < 65536, .offset), (size = 1 ∨ size = 2 ∨ size = 4 ∨ size = 8, .width)]
  | .requestRead => []
  | .requestPromotion => []
  | .deferredTimeout f tag => [(f < 16, .function), (tag < 65536, .tag)]
  | .dmaTransferDone f tag _ _ => [(f < 16, .function), (tag < 65536, .tag)]
  | .dmaTimeout f tag => [(f < 16, .function), (tag < 65536, .tag)]
  | .flashProgramDone _ => []
  | .challengeExpiry f => [(f < 16, .function)]
  | .masterTickBoundary => []
  | .conditionReassert => []
  | .msixUnmask f vector => [(f < 16, .function), (vector < 3, .vector)]
  | .fsyncPulse ch => [(ch < 32, .channel)]
  | .fsyncPulseEnd ch => [(ch < 32, .channel)]
  | .csi2FrameStart port vc _ => [(port < 16, .receivePort), (vc < 16, .virtualChannel)]
  | .csi2LineStart port vc line _ => [(port < 16, .receivePort), (vc < 16, .virtualChannel), (line < 65536, .wordCount)]
  | .csi2LongPacket port vc dt wc _ _ data => [(port < 16, .receivePort), (vc < 16, .virtualChannel), (dt < 64, .dataType), (wc < 65536, .wordCount), (data.length < 65536, .wordCount)]
  | .csi2FrameEnd port vc _ => [(port < 16, .receivePort), (vc < 16, .virtualChannel)]
  | .ingressDeadline ch => [(ch < 32, .channel)]
  | .pipeJobEnd ch => [(ch < 32, .channel)]
  | .encJobEnd ch st => [(ch < 32, .channel), (st < 2, .stream)]
  | .itpJobEnd ch st => [(ch < 32, .channel), (st < 2, .stream)]
  | .decJobEnd h _ => [(h < 32, .decodeStream)]
  | .sealJobEnd ch st => [(ch < 32, .channel), (st < 2, .stream)]
  | .cycleMeterExpiry j _ => [(j.known, .job)]
  | .seqWatchdog q x => [(q < 8, .sequencer), (x.why.listed = true, .sequencer)]
  | .calEstimate ch param => [(ch < 32, .channel), (param < 4, .estimator)]
  | .calTimeLimit ch param => [(ch < 32, .channel), (param < 4, .estimator)]
  | .calRecordWrite ch => [(ch < 32, .channel)]
  | .headCheckStart ch => [(ch < 32, .channel)]
  | .seStatusPoll ch _ => [(ch < 32, .channel)]
  | .i3cTransactionDone bus _ => [(bus < 8, .bus)]
  | .headCheckDone ch => [(ch < 32, .channel)]
  | .headChange ch => [(ch < 32, .channel)]
  | .lifeMinute ch _ => [(ch < 32, .channel)]
  | .lifePush ch => [(ch < 32, .channel)]
  | .headTempRead ch _ => [(ch < 32, .channel)]
  | .ppsInPulse _ => []
  | .ppsInMissing => []
  | .ppsOutPulse => []
  | .gptpSyncTx port => [(port < 2, .mac)]
  | .gptpAnnounceTx port => [(port < 2, .mac)]
  | .gptpPdelayReqTx port => [(port < 2, .mac)]
  | .gptpFrameReceived port _ => [(port < 2, .mac)]
  | .macFrameReceived mac => [(mac < 2, .mac)]
  | .ptmDialogue => []
  | .ptmDialogueDone _ _ => []
  | .packetDequeue port => [(port < 3, .scheduledPort)]
  | .packetTxComplete port _ => [(port < 3, .scheduledPort)]
  | .calendarSlot port => [(port < 3, .scheduledPort)]
  | .ringSlotPoll flow _ _ _ _ => [(flow < 256, .flow)]
  | .txFrameDue flow => [(flow < 256, .flow)]
  | .txFrameSent port => [(port < 4, .transmitPort)]
  | .flowSample i => [(i < 16, .sample)]
  | .macLinkDown mac => [(mac < 2, .mac)]
  | .macLinkUp mac => [(mac < 2, .mac)]
  | .pcieLinkRetrain lanes l => [(lanes = 1 ∨ lanes = 2 ∨ lanes = 4, .link),
    (l.rate10 = 25 ∨ l.rate10 = 50 ∨ l.rate10 = 80 ∨ l.rate10 = 160, .link), (l.mps = 128 ∨ l.mps = 256 ∨ l.mps = 512, .link)]
  | .chanStatusUpdate ch => [(ch < 32, .channel)]
  | .flowStatusUpdate => []
  | .refreshDue dmc mch => [(dmc < 2, .controller), (mch < 8, .memChannel)]
  | .refreshIssue dmc mch => [(dmc < 2, .controller), (mch < 8, .memChannel)]
  | .refreshForced dmc mch => [(dmc < 2, .controller), (mch < 8, .memChannel)]
  | .mr4Read dmc mch mult => [(dmc < 2, .controller), (mch < 8, .memChannel), (mult = 1 ∨ mult = 2 ∨ mult = 4, .multiplier)]
  | .patrolScrub dmc _ _ => [(dmc < 2, .controller)]
  | .selfRefreshEntryDone dmc => [(dmc < 2, .controller)]
  | .selfRefreshExitDone dmc => [(dmc < 2, .controller)]
  | .tamperAssert => []
  | .trngHealthFail => []
  | .trngRestartDone => []
  | .trngBlockReady block => [(block.length = 32, .block)]
  | .avsFloorUpdate dom _ => [(dom < 7, .domain)]
  | .pmbusStatusPoll rail _ _ _ => [(rail < 6, .rail)]
  | .thermalSample _ => []
  | .domainPowerUpDone dom _ => [(dom < 7, .domain)]
  | .controlWatchdog => []
  | .fullReset _ => []
  | .resetRelease _ puf => [(puf.bits.length = 64, .puf)]
  | .railPowerUp rail _ => [(rail < 6, .rail)]
  | .dmcTrainingDone _ => []
  | .memoryInitDone => []
  | .bringUpReady => []
  | .functionLevelReset f => [(f < 16, .function)]
  | .vfEnableChange numVfs _ => [(numVfs < 16, .function)]
  | .chunkServiceDone dmc c => [(dmc < 2, .controller), (c.good, .chunk)]
  | .csi2PhyError port => [(port < 16, .receivePort)]
  | .refclkInFailure => []

/-- The first check a command fails. -/
def Instr.flaw (i : Instr) : Option Flaw := (i.checks.find? fun c => !c.1).map Prod.snd

/-- The command is well-formed. -/
def Instr.wf (i : Instr) : Bool := i.checks.all fun c => c.1

end Sys2Proof
end

