-- ==== Sys2Proof/Safety.lean ====
section
/-!
DEFINITION. What claims are stated in terms of: a request that is served, a next-tick command that is admitted, and the
conditions that every state of a run meets.
-/
namespace Sys2Proof.Machine

/-! ### Commands of the host -/

/-- R102. The request entry of an opcode. -/
def Op.entry (o : Op) (q : Request) : Entry := ⟨BitVec.ofNat 16 o.info.code, q⟩

/-- R86. The state with function `f` the one last served. -/
def atMailbox (f : Nat) (s : State) : State := { s with lastServed := f }

/-- R114, R457. A request as it is read: its members and its session. -/
def ctxOf (o : Op) (f : Nat) (q : Request) (s : State) : Ctx := contextOf (atMailbox f s) f o q

/-- R71, R84, R87, R91, R92, R105, R546. The request of a present function is read at once and passes steps 1 to 11: firmware
reads, a response slot is free, the tag is new, no check fails, and firmware is not degraded (or the command runs all the same). -/
def served (o : Op) (f : Nat) (q : Request) (s : State) : Bool :=
  s.fnPresent f && s.reads && slotFree s f && (tagAnswer (atMailbox f s) f (o.entry q)).isNone
    && (refusal (atMailbox f s) (ctxOf o f q s)).isNone && (!s.boot.degraded || runsDegraded o)

/-- R63, R384, R419. Step 12 admits the request with the books `b`. -/
def passes (o : Op) (f : Nat) (q : Request) (s : State) (b : Books) : Prop :=
  served o f q s = true ∧ admission (atMailbox f s) (ctxOf o f q s) = some b

/-- R103, R104. The state after the final response to a request: `st` and `payload` are posted, and what the command did is in `t`. -/
def replied (o : Op) (f : Nat) (q : Request) (st : Byte) (payload : List Byte) (t : State) : State := answer f (o.entry q) st payload t

/-- R86, R108. The request in execution that waits for `w`, as it was read in `s`. -/
def inExecution (o : Op) (f : Nat) (q : Request) (w : Wait) (s : State) : ExecEntry :=
  { newExec (ctxOf o f q s) (o.entry q) with wait := w }

/-- R86. The state with that request added to those in execution, and what the command did in `t`. -/
def waiting (o : Op) (f : Nat) (q : Request) (w : Wait) (s t : State) : State :=
  { t with exec := t.exec ++ [inExecution o f q w s] }

/-- R64, R108, R109, R419. A next-tick command that step 12 has admitted: the books are made at once, and it waits for its boundary. -/
def pendingFrom (o : Op) (f : Nat) (q : Request) (b : Books) (s : State) : State :=
  waiting o f q .tick s (withBooks b (atMailbox f s))

/-- R108, R110. The boundary of the pending command `x`: its effect happens and it is answered with the boundary's count. -/
def atBoundary (x : ExecEntry) (u : State) : State := takeEffects [x] u

/-- R108, R110. At its boundary the pending command makes `v` of the state `u`, and is answered OK with the boundary's count. -/
def takesEffect (x : ExecEntry) (u v : State) : Prop := atBoundary x u = finishAt x St.ok (BitVec.ofNat 64 u.lastBoundary) [] v

/-- R55, R108. The tick runs, its next boundary is at least 1,000,000 ns of device time ahead, and no other command waits for it. -/
def oneTickAhead (s : State) : Prop :=
  s.clockRuns = true ∧ s.time.tickRun = true ∧ s.time.dev + 1000000 ≤ s.time.boundary s.time.passed ∧ ∀ x ∈ s.exec, x.wait ≠ .tick

/-- R55, R108, R110. The pending command `x` of the state `t` completes at the next boundary: with its effect `v` of the state that the
boundary finds, of which `g` holds, and answered OK with that boundary's count. -/
def completesAtBoundary (x : ExecEntry) (t : State) (g : State → State → Prop) : Prop :=
  ∃ v, g (beforeCommands t) v ∧
    exec .masterTickBoundary t = .next (afterCommands t (finishAt x St.ok (BitVec.ofNat 64 t.time.passed) [] v))

/-- R55, R105, R108, R110. The next-tick command `i` that is served. At its boundary, whatever state `u` that finds, its effect `v` is as `g`
says. Where step 12 admits it, with `ok`, one tick ahead, it is next executed, and completes at the next boundary. -/
def completes (o : Op) (i : Instr) (f : Nat) (q : Request) (s : State) (ok : Prop) (g : State → State → Prop) : Prop :=
  served o f q s = true →
    (∀ u, ∃ v, takesEffect (inExecution o f q .tick s) u v ∧ g u v) ∧
    ∀ b, passes o f q s b → ok → oneTickAhead s →
      ∃ t, exec i s = .next t ∧ t.time.passed = s.time.passed ∧ completesAtBoundary (inExecution o f q .tick s) t g

/-- R114. The same for a next-tick command of channels: of the state only channels change, those that are no member keep theirs, and `g` holds
of every member before and after. -/
def changesChannels (o : Op) (i : Instr) (f : Nat) (q : Request) (s : State) (ok : Prop) (g : State → Chan → Chan → Prop) : Prop :=
  completes o i f q s ok fun u v => v = { u with chans := v.chans } ∧
    (∀ c, c ∉ (ctxOf o f q s).members → v.chan c = u.chan c) ∧ ∀ c, c ∈ (ctxOf o f q s).members → g u (u.chan c) (v.chan c)

/-- R114. The same for a next-tick command of the configuration of flows. -/
def changesFlows (o : Op) (i : Instr) (f : Nat) (q : Request) (s : State) (g : FlowCfg → FlowCfg) : Prop :=
  completes o i f q s True fun u v => v = { u with flowCfg := v.flowCfg } ∧
    (∀ m, m ∉ (ctxOf o f q s).members → v.fcfg m = u.fcfg m) ∧ ∀ m, m ∈ (ctxOf o f q s).members → v.fcfg m = g (u.fcfg m)

/-- R91. No request of function `f` in execution has the tag of `q`. -/
def tagFree (f : Nat) (q : Request) (s : State) : Prop := ∀ x ∈ s.exec, ¬(x.func = f ∧ x.entry.req.tag = q.tag)

/-- R118. The command `i` begins, the transfer of its buffer completes with `data`, and `t` is the state after. -/
def withBuffer (i : Instr) (f : Nat) (q : Request) (data : List Byte) (s t : State) : Prop :=
  ∃ u, exec i s = .next u ∧ exec (.dmaTransferDone f q.tag.toNat true data) u = .next t

/-- R118. The request in execution whose buffer, of `n` bytes at `a`, has been read; and the state it is then in. -/
def readEntry (o : Op) (f : Nat) (q : Request) (a n : Nat) (data : List Byte) (s : State) : ExecEntry :=
  { inExecution o f q (.dma a n) s with data := fit n data }

def readState (o : Op) (f : Nat) (q : Request) (a n : Nat) (data : List Byte) (s : State) : State :=
  { atMailbox f s with exec := s.exec ++ [readEntry o f q a n data s] }

/-! ### Events -/

/-- R118. A request of function `f` with a tag waits for a DMA transfer. -/
def dmaWaits (s : State) (f : Nat) (tag : Nat) : Option ExecEntry := findExec s f (BitVec.ofNat 16 tag) Wait.isDma

/-! ### What every state of a run meets -/

/-- The memory contents of every controller are in canonical form. -/
def memoryCanonical (s : State) : Prop := ∀ d, Memory.wf (s.dmcN d).memory = true

/-- R135, R137, R141. A source's counter has 8 bits, its priority 4, and its target is 0 to 16. -/
def Source.inRange (x : Source) : Prop := x.count ≤ 255 ∧ x.prio ≤ 15 ∧ x.route ≤ 16

def sourcesInRange (s : State) : Prop := ∀ n, (tget s.irq.src n).inRange ∧ (tget s.irq.fwSrc n).inRange

/-- R82, R90. A request queue and a tag cache hold at most 64 entries each. -/
def queuesBounded (s : State) : Prop := ∀ f, (s.fn f).reqQ.length ≤ 64 ∧ (s.fn f).cache.length ≤ 64

/-- R401, R402. A memory channel owes at most 8 refreshes. -/
def debtBounded (s : State) : Prop := ∀ d c, (tget (s.dmcN d).chans c).debt ≤ 8

end Sys2Proof.Machine
end

