-- ==== Sys2Proof/Certificates/Slice0/Obligations.lean ====
section
/-!
DEFINITION. The statements about the block: what each command and event does, what the whole block keeps, and what reset leaves.
-/
open Sys2Proof Sys2Proof.Machine

/-! ### The queue of commands, and reset -/

/-- Log entry 1 (the queue of waiting commands is the model's). A step with a command at the front of the queue runs it on the state with
the queue's rest. -/
def Obligations.StepRunsTheFrontCommand : Prop :=
  ∀ (i : Instr) (rest : List Instr) (s : State),
    step { s with pending := i :: rest } = exec i { s with pending := rest }

/-- R38 and log entry 2 (the model's choice of what an idle step is). With no command waiting one period of the 250 MHz clock passes:
device time does not go back, and nothing but time changes. Without REFCLK_IN, or in reset, nothing changes. -/
def Obligations.IdleStepPassesOneClock : Prop :=
  ∀ s : State, s.pending = [] →
    (s.clockRuns = false → step s = .next s) ∧
    (s.clockRuns = true → (clock s.time).dev < 2 ^ 64 →
      step s = .next { s with time := { s.time with
        dev := (clock s.time).dev, frac := (clock s.time).frac, elapsed := s.time.elapsed + 4 } }
      ∧ s.time.dev ≤ (clock s.time).dev ∧ (clock s.time).frac < 2 ^ 32)

/-- R152. A full reset leaves every source without a route, at priority 15 and disabled, and every stack empty. -/
def Obligations.FullResetClearsSources : Prop :=
  ∀ (t : ResetTrigger) (s : State), triggers t s = true →
    ∃ u, exec (.fullReset t) s = .next u ∧
      (∀ n, n < 512 → (tget u.irq.src n).route = 0 ∧ (tget u.irq.src n).prio = 15 ∧ (tget u.irq.src n).en = false) ∧
      (∀ k, k < 16 → (tget u.irq.tgt k).stack = [])

/-- R15, R39, R99, R529, R530, R552. What else a full reset leaves: firmware in BOOT and held in reset with the cause of the
trigger, device time 0 and the tick stopped, every mailbox empty, every channel, flow and decode stream off, no key in a key cell,
no session; the fuses and the flash's contents are kept, and where no pairing waits for its boundary the pairings, the generations of
the key tree and the audit log as they are. -/
def Obligations.FullResetKeepsOnlyWhatPersists : Prop :=
  ∀ (t : ResetTrigger) (s : State), triggers t s = true →
    ∃ u, exec (.fullReset t) s = .next u ∧
      u.pending = s.pending ∧ u.fuses = s.fuses ∧ u.boot.fw = .boot ∧ u.boot.inReset = true ∧ u.boot.cause = resetCause t ∧
      u.boot.helper = s.boot.helper ∧ u.boot.saved = s.boot.saved ∧ u.time = TimeBase.reset ∧ u.exec = [] ∧
      u.bookings = [] ∧ u.buffers = [] ∧
      (∀ f, f < 16 → (u.fn f).reqQ = [] ∧ (u.fn f).rspQ = [] ∧ (u.fn f).cache = [] ∧ (u.fn f).session = none ∧ (u.fn f).challenge = none) ∧
      (∀ c, c < 32 → (u.chan c).enabled = false ∧ (u.chan c).cfg.bind = none) ∧
      (∀ m, m < 256 → (u.flow m).active = false) ∧
      (∀ h, h < 32 → (u.decS h).isOpen = false) ∧
      (∀ n, n < 512 → (tget u.tarn.nodes n).cell = []) ∧
      ((∀ c, c < 32 → (s.chan c).head.pairPending = none) →
        (∀ n, n < 512 → (tget u.tarn.nodes n).gen = (tget s.tarn.nodes n).gen) ∧ (∀ c, c < 32 → (u.chan c).head.pairing = (s.chan c).head.pairing) ∧
        u.tarn.gctr = s.tarn.gctr ∧ u.roles.audit = s.roles.audit ∧ u.roles.nextSeq = s.roles.nextSeq)

/-- R38 to R44, R80, R141, R152, R381, R529, and log entries 4 and 10 (what the spec gives no reset value). State.reset: held in reset with SYS_FW_STATE BOOT, time 0, sources unrouted at priority 15
and disabled, mailboxes empty, every flow's weight 256, and no command waiting. -/
def Obligations.ResetState : Prop :=
  State.reset.pending = [] ∧ State.reset.boot.fw = .boot ∧ State.reset.boot.inReset = true ∧ State.reset.time.dev = 0 ∧
    State.reset.time.tickRun = false ∧ State.reset.exec = [] ∧ State.reset.tarn.trng = .restarting ∧
    (∀ n, n < 512 → tget State.reset.irq.src n = ⟨0, 15, false, 0, false, 0, false⟩) ∧
    (∀ f, f < 16 → (State.reset.fn f).reqQ = [] ∧ (State.reset.fn f).rspQ = [] ∧ (State.reset.fn f).rspIe = false) ∧
    (∀ m, m < 256 → (State.reset.fcfg m).weight = 256 ∧ (State.reset.fcfg m).limit = 0 ∧ (State.reset.flow m).active = false) ∧
    (∀ c, c < 32 → (State.reset.chan c).enabled = false ∧ (State.reset.chan c).cal.enable = 0xF#4)

/-! ### Invariants of every step -/

/-- R83, R90, R141, R394, R402, of State.reset (log entries 4 and 10). In State.reset every condition that a step keeps holds. -/
def Obligations.ResetMeetsTheInvariants : Prop :=
  memoryCanonical State.reset ∧ sourcesInRange State.reset ∧ queuesBounded State.reset ∧ debtBounded State.reset

/-- R394. Every step keeps the contents of both memory controllers in canonical form: addresses rising, no byte listed that reads as an
unlisted one. -/
def Obligations.EveryStepKeepsMemoryCanonical : Prop :=
  ∀ s t : State, memoryCanonical s → step s = .next t → memoryCanonical t

/-- R135, R137, R141, R142. Every step keeps every source's counter within 8 bits, its priority within 4, and its route 0 to 16. -/
def Obligations.EveryStepKeepsSourcesInRange : Prop :=
  ∀ s t : State, sourcesInRange s → step s = .next t → sourcesInRange t

/-- R83, R90. Every step keeps every request queue and every tag cache within 64 entries.
R401, R402. Every step keeps the refresh debt of every memory channel within 8. -/
def Obligations.EveryStepKeepsBounds : Prop :=
  (∀ s t : State, queuesBounded s → step s = .next t → queuesBounded t) ∧
  (∀ s t : State, debtBounded s → step s = .next t → debtBounded t)

/-- R1, R6. A command changes neither the part nor the commands that wait behind it.
R1, R582. A well-formed command is never refused on a part that has the unit it names: the one refusal left is of a memory
controller above the part's last.
The faults of a command: an address that the installed array does not have. -/
def Obligations.WhatCommandsKeepAndWhereTheyStop : Prop :=
  (∀ (i : Instr) (s t : State), exec i s = .next t → t.pending = s.pending ∧ t.fuses.part = s.fuses.part) ∧
  (∀ (i : Instr) (s : State) (r : Refusal), i.wf = true → exec i s = .refused r → ∃ d, r = .noSuchUnit "memory controller" d ∧ s.nDmc ≤ d) ∧
  (∀ (i : Instr) (s : State) (e : Fault), exec i s = .fault e →
     ∃ d a, e = .noSuchAddress d a ∧ ((∃ c : Chunk, i = .chunkServiceDone d c ∧ (s.dmcN d).size < c.addr + chunkLen c)
       ∨ (∃ x, i = .patrolScrub d a x ∧ (s.dmcN d).size < a / 32 * 32 + 32)))


/-! ### Mailboxes and registers -/

/-- R87, R89, R90, R103, R104. A final response: it joins the tail of its function's queue and the head of its tag cache, whose oldest entry
beyond 64 leaves; its payload is empty unless the status is OK or PARTIAL_REJECT; and where RSP_IE is 1 and the queue was empty, vector 1
is sent (held while masked). Nothing else changes. -/
def Obligations.ResponsesArePosted : Prop :=
  ∀ (o : Op) (f : Nat) (q : Request) (st : Byte) (pay : List Byte) (s : State), f < 16 →
    let t := replied o f q st pay s
    let r : Response := { opcode := BitVec.ofNat 16 o.info.code, tag := q.tag, status := st, replay := false, tick := s.tickField
                          payload := if st = St.ok ∨ st = St.partialReject then pay else [] }
    t = { s with fns := t.fns, out := t.out } ∧
    (t.fn f).rspQ = (s.fn f).rspQ ++ [r] ∧
    (t.fn f).cache = ((⟨o.entry q, r⟩ : CacheEntry) :: (s.fn f).cache).take 64 ∧
    (t.fn f).reqQ = (s.fn f).reqQ ∧ (t.fn f).session = (s.fn f).session ∧
    (∀ g, g ≠ f → t.fn g = s.fn g) ∧
    ((s.fn f).rspIe = true → (s.fn f).rspQ = [] → (s.fn f).fnMask = false → tget (s.fn f).vecMask 1 = false → t.out = .msix f 1 :: s.out) ∧
    ((s.fn f).rspIe = false ∨ (s.fn f).rspQ ≠ [] → t.out = s.out)

/-- R82. A push copies the 64 staged bytes into the tail of the request queue as one action: the count of entries increases by 1, and
nothing else changes, the staging registers among it. -/
def Obligations.PushQueuesTheStagedEntry : Prop :=
  ∀ (f : Nat) (v : Word) (s : State), s.fnPresent f = true → v.getLsbD 0 = true → (s.fn f).reqQ.length < 64 →
    ∃ t, exec (.mbxReqPush f 4 v) s = .next t ∧ t = { s with fns := t.fns } ∧ (∀ g, g ≠ f → t.fn g = s.fn g) ∧
      t.fn f = { s.fn f with reqQ := (s.fn f).reqQ ++ [⟨entryOf (stagedBytes (s.fn f)), 0, s.time.elapsed, false⟩] } ∧
      (mbxStatus t f).toNat % 256 = (mbxStatus s f).toNat % 256 + 1

/-- R83. A push made at 64 entries discards the staged copy and sets REQ_OVF: the queue does not change and nothing is answered. Pushes are
accepted whatever firmware's state, and before it is READY what was pushed waits in the queue. -/
def Obligations.PushToAFullQueueOverflows : Prop :=
  ∀ (f : Nat) (v : Word) (s : State), s.fnPresent f = true → v.getLsbD 0 = true →
    (64 ≤ (s.fn f).reqQ.length → exec (.mbxReqPush f 4 v) s = .next (modFn f (fun x => { x with reqOvf := true }) s)) ∧
    (∀ w, (s.fn f).reqQ.length < 64 → ∃ t, exec (.mbxReqPush f 4 v) { s with boot := { s.boot with fw := w } } = .next t ∧
      (t.fn f).reqQ.length = (s.fn f).reqQ.length + 1 ∧ (w ≠ .ready → exec .requestRead t = .next t))

/-- R84, R86, R91, R105. Firmware reads the entry of highest effective priority over all mailboxes that have a free response slot,
takes it from its queue and serves it; of its own mailbox it is the first of that priority. -/
def Obligations.HighestPriorityIsReadFirst : Prop :=
  ∀ (s : State) (f : Nat) (q : QEntry), s.reads = true → pickNext s = some (f, q) →
    exec .requestRead s = .next (serve f q.entry (modFn f (fun x => { x with reqQ := x.reqQ.erase q }) { s with lastServed := f })) ∧
    q ∈ (s.fn f).reqQ ∧ s.fnPresent f = true ∧ slotFree s f = true ∧
    (∀ g p, g < 16 → s.fnPresent g = true → slotFree s g = true → p ∈ (s.fn g).reqQ → rankOf s p ≤ rankOf s q)

/-- R83, R84, R121, R548. While firmware does not read, a command's request waits in its function's queue; a function that is not present
reaches nobody.
R105, R116. A request that fails a check of steps 4 to 11 is answered with that status and has no other effect. -/
def Obligations.UnreadAndRefusedRequests : Prop :=
  (∀ (o : Op) (f : Nat) (q : Request) (s : State),
     (s.fnPresent f = false → command o f q s = s) ∧
     (s.fnPresent f = true → (s.reads = false ∨ slotFree s f = false) → (s.fn f).reqQ.length < 64 →
       command o f q s = modFn f (fun x => { x with reqQ := x.reqQ ++ [⟨o.entry q, 0, s.time.elapsed, false⟩] }) s)) ∧
  (∀ (o : Op) (f : Nat) (q : Request) (s : State) (st : Byte) (pay : List Byte), s.fnPresent f = true → s.reads = true → slotFree s f = true →
     tagAnswer (atMailbox f s) f (o.entry q) = none → refusal (atMailbox f s) (ctxOf o f q s) = some (st, pay) →
     command o f q s = replied o f q st pay (atMailbox f s))

/-- R42, R54, R88; what a read returns is in readData (log entry 9). The reads with a side action. TIME_LO returns device time [31:0] and latches [63:32]; TIME_PTM_SEQ returns the dialogue
count and latches both times; MBX_RSP_POP takes the head response, or loads the IDLE descriptor and returns 0xFFFF_0000. -/
def Obligations.ReadsWithActions : Prop :=
  ∀ (f : Nat) (s : State), s.fnPresent f = true →
    exec (.timeLoRead f 4) s = .next (modFn f (fun x =>
      { x with timeHi := BitVec.ofNat 32 (s.time.dev / 2 ^ 32), readData := BitVec.ofNat 32 s.time.dev }) s) ∧
    exec (.timePtmSeqRead f 4) s = .next (modFn f (fun x =>
      { x with ptmDev := s.time.ptmDev, ptmRoot := s.time.ptmRoot, readData := s.time.ptmSeq }) s) ∧
    (∀ r l, (s.fn f).rspQ = r :: l → exec (.mbxRspPop f 4) s = .next (modFn f (fun x =>
      { x with rspQ := l, rspData := wordsOf r.toBytes, readData := wOf (field r.toBytes 0 4) }) s)) ∧
    ((s.fn f).rspQ = [] → exec (.mbxRspPop f 4) s = .next (modFn f (fun x =>
      { x with rspQ := [], rspData := wordsOf idleDescriptor.toBytes, readData := 0xFFFF0000#32 }) s))

/-- R14, R80, R81, R141. The plain registers a write changes: the 16 staging words, IRQ_SRC_SEL, and the write-1-to-clear bits REQ_OVF and
EOI_EMPTY; a write of any other offset without a row of its own changes nothing.
R17. An access that is not of 32 bits has no effect, but that a read returns 0. -/
def Obligations.PlainRegisterAccess : Prop :=
  (∀ (f : Nat) (v : Word) (s : State), s.fnPresent f = true →
     (∀ k, k < 16 → exec (.registerWrite f (0x200 + 4 * k) 4 v) s = .next (modFn f (fun x => { x with staging := tset x.staging k v }) s)) ∧
     exec (.registerWrite f 0x244 4 v) s = .next (modFn f (fun x => { x with reqOvf := x.reqOvf && !v.getLsbD 16 }) s) ∧
     exec (.registerWrite f 0x1010 4 v) s = .next (modTgt (f + 1) (fun t => { t with srcSel := v.toNat % 512 }) s) ∧
     exec (.registerWrite f 0x101C 4 v) s = .next (modTgt (f + 1) (fun t => { t with eoiEmpty := t.eoiEmpty && !v.getLsbD 0 }) s) ∧
     (∀ off, off % 4 = 0 → (off < 0x200 ∨ 0x23C < off) → off ≠ 0x244 → off ≠ 0x1010 → off ≠ 0x101C →
       exec (.registerWrite f off 4 v) s = .next s)) ∧
  (∀ (f n off : Nat) (v : Word) (s : State), s.fnPresent f = true → n ≠ 4 →
     (∀ i ∈ [Instr.mbxReqPush f n v, .mbxCtrlWrite f n v, .irqEoi f n v, .irqSrcCfgWrite f n v, .irqSrcCauseWrite f n v, .irqCtrlWrite f n v,
       .registerWrite f off n v], exec i s = .next s) ∧
     (∀ i ∈ [Instr.timeLoRead f n, .timePtmSeqRead f n, .mbxRspPop f n, .irqAck f n],
       exec i s = .next (modFn f (fun x => { x with readData := 0 }) s)))

/-- R89, R149. RSP_IE and ENABLE take the value written; the change of RSP_IE from 0 to 1 with responses waiting sends vector 1, and ENABLE set
from 0 while a source is eligible sends vector 0 (each held while masked). Unmasking sends what was held. -/
def Obligations.EnablesAndMasks : Prop :=
  ∀ (f : Nat) (v : Word) (s : State), s.fnPresent f = true →
    exec (.mbxCtrlWrite f 4 v) s = .next (when (v.getLsbD 0 && !(s.fn f).rspIe && !(s.fn f).rspQ.isEmpty) (sendMsix f 1)
      (modFn f (fun x => { x with rspIe := v.getLsbD 0 }) s)) ∧
    exec (.irqCtrlWrite f 4 v) s = .next (when (v.getLsbD 0 && !(s.target (f + 1)).enable && (bestSource s (f + 1)).isSome) (sendMsix f 0)
      (modTgt (f + 1) (fun x => { x with enable := v.getLsbD 0 }) s)) ∧
    (∀ i, i < 2 → (s.fn f).fnMask = false → (∀ j, j < 2 → j ≠ i → tget (s.fn f).held j = false) → tget (s.fn f).held i = true →
      ∃ t, exec (.msixUnmask f i) s = .next t ∧ t = { s with fns := t.fns, out := .msix f i :: s.out } ∧
        tget (t.fn f).held i = false ∧ tget (t.fn f).vecMask i = false ∧ (∀ g, g ≠ f → t.fn g = s.fn g)) ∧
    ((s.fn f).held = Vector.replicate 2 false → exec (.msixUnmask f 2) s = .next (modFn f (fun x => { x with fnMask := false }) s))

/-! ### Interrupts -/

/-- R135, R137. An event at a present source: firmware's side takes it, and the host side where the source is routed to the target of a
present function. A counted edge adds 1 up to 255 and sets SAT beyond; a level source sets its cause bit. -/
def Obligations.EventsAreCounted : Prop :=
  ∀ (n bit : Nat) (lvl : Bool) (s : State), sourcePresent s n = true → sourceKind n = some lvl → bit < 32 →
    let t := raise n bit s
    let routed := decide (0 < (tget s.irq.src n).route) && s.fnPresent ((tget s.irq.src n).route - 1)
    t = { s with irq := t.irq, fns := t.fns, out := t.out } ∧
    (∀ x y : Source, (x, y) = (tget s.irq.fwSrc n, tget t.irq.fwSrc n) ∨ routed = true ∧ (x, y) = (tget s.irq.src n, tget t.irq.src n) →
      y = if lvl then { x with cause := x.cause ||| BitVec.twoPow 32 bit }
          else if x.count < 255 then { x with count := x.count + 1 } else { x with sat := true }) ∧
    (routed = false → t.irq.src = s.irq.src ∧ t.out = s.out) ∧
    (∀ m, m ≠ n → tget t.irq.src m = tget s.irq.src m ∧ tget t.irq.fwSrc m = tget s.irq.fwSrc m)

/-- R143, R144; what a read returns is in readData (log entry 9). A read of IRQ_ACK takes the eligible source of lowest priority number, then of lowest number: it is pushed with its priority; a
counted-edge source's counter and SAT are returned and cleared, a level source is marked in service with its cause word unchanged.
With no source eligible the read returns 0 and the stack is unchanged. -/
def Obligations.AcknowledgeTakesTheBestSource : Prop :=
  ∀ (f : Nat) (s : State), s.fnPresent f = true →
    ((∀ n, n < 512 → eligible s (f + 1) n = false) → exec (.irqAck f 4) s = .next (modFn f (fun x => { x with readData := 0 }) s)) ∧
    (∀ n lvl, n < 512 → eligible s (f + 1) n = true → sourceKind n = some lvl →
      (∀ m, m < 512 → eligible s (f + 1) m = true → (tget s.irq.src n).prio < (tget s.irq.src m).prio
        ∨ (tget s.irq.src n).prio = (tget s.irq.src m).prio ∧ n ≤ m) →
      ∃ t, exec (.irqAck f 4) s = .next t ∧ t = { s with irq := t.irq, fns := t.fns, out := t.out } ∧
        (t.target (f + 1)).stack = (n, (tget s.irq.src n).prio) :: (s.target (f + 1)).stack ∧
        tget t.irq.src n = (if lvl then { tget s.irq.src n with insvc := true } else { tget s.irq.src n with count := 0, sat := false }) ∧
        (∀ m, m ≠ n → tget t.irq.src m = tget s.irq.src m) ∧ t.irq.fwSrc = s.irq.fwSrc ∧
        (t.fn f).readData = BitVec.ofNat 32 (n + 2 ^ 15 + 2 ^ 16 * (if lvl then 0 else (tget s.irq.src n).count)
          + 2 ^ 24 * (tget s.irq.src n).prio + 2 ^ 28 * (if !lvl && (tget s.irq.src n).sat then 1 else 0) + 2 ^ 29 * (if lvl then 1 else 0)))

/-- R145, R146, R150. A write of 1 to IRQ_EOI.POP removes the top entry and takes its source out of service while it is still routed here;
no counter or cause word changes. With the stack empty it only sets EOI_EMPTY. -/
def Obligations.EndOfInterruptPops : Prop :=
  ∀ (f : Nat) (v : Word) (s : State), s.fnPresent f = true → v.getLsbD 0 = true →
    ((s.target (f + 1)).stack = [] → exec (.irqEoi f 4 v) s = .next (modTgt (f + 1) (fun t => { t with eoiEmpty := true }) s)) ∧
    (∀ n p rest, n < 512 → (s.target (f + 1)).stack = (n, p) :: rest →
      ∃ t, exec (.irqEoi f 4 v) s = .next t ∧ t = { s with irq := t.irq, fns := t.fns, out := t.out } ∧
        (t.target (f + 1)).stack = rest ∧
        ((tget s.irq.src n).route = f + 1 → tget t.irq.src n = { tget s.irq.src n with insvc := false }) ∧
        ((tget s.irq.src n).route ≠ f + 1 → tget t.irq.src n = tget s.irq.src n) ∧
        (∀ m, m ≠ n → tget t.irq.src m = tget s.irq.src m) ∧ t.irq.fwSrc = s.irq.fwSrc)

/-- R138, R139, R142, R150. IRQ_SRC_CFG sets PRIO and EN of a source the function may write, and the physical function moves a source
below 256 to another target, which clears its raised state. IRQ_SRC_CAUSE clears the bits written 1 of a level source routed to the
function's own target. -/
def Obligations.SourceRegisterWrites : Prop :=
  ∀ (f : Nat) (v : Word) (s : State), s.fnPresent f = true → (s.target (f + 1)).srcSel < 512 → srcStat s f (s.target (f + 1)).srcSel = 0 →
    let n := (s.target (f + 1)).srcSel
    let route := v.toNat / 256 % 32
    let old := tget s.irq.src n
    (∃ t, exec (.irqSrcCfgWrite f 4 v) s = .next t ∧ t = { s with irq := t.irq, fns := t.fns, out := t.out } ∧
      (∀ m, m ≠ n → tget t.irq.src m = tget s.irq.src m) ∧ t.irq.fwSrc = s.irq.fwSrc ∧
      tget t.irq.src n = (if f ≠ 0 ∨ 256 ≤ n then { old with prio := v.toNat % 16, en := v.getLsbD 4 }
        else if 16 < route then old
        else if route = old.route then { old with prio := v.toNat % 16, en := v.getLsbD 4 }
        else { route := route, prio := v.toNat % 16, en := v.getLsbD 4, count := 0, sat := false, cause := 0, insvc := false })) ∧
    (sourceKind n = some true → old.route = f + 1 →
      ∃ t, exec (.irqSrcCauseWrite f 4 v) s = .next t ∧ t = { s with irq := t.irq, fns := t.fns, out := t.out } ∧
        tget t.irq.src n = { old with cause := old.cause &&& ~~~v } ∧
        (∀ m, m ≠ n → tget t.irq.src m = tget s.irq.src m) ∧ t.irq.fwSrc = s.irq.fwSrc)

/-! ### Functions, and what time brings to requests -/

/-- R99, R151, R458, R460. The reset of a virtual function clears its registers, queues, cache, latches, session and challenge, empties its
stack, and clears the raised state of the sources routed to it, whose routes, priorities and enables stay; requests in execution go on,
and their responses are dropped. Nothing else changes.
R71, R99, R361. NumVFs and VF Enable take the new values; no virtual function that leaves has anything left in its mailbox. -/
def Obligations.FunctionsResetAndLeave : Prop :=
  (∀ (f : Nat) (s : State), 0 < f → s.fnPresent f = true →
     ∃ t, exec (.functionLevelReset f) s = .next t ∧ t = { s with fns := t.fns, irq := t.irq, exec := t.exec } ∧
       t.exec = s.exec.map (fun x => if x.func = f then { x with dead := true } else x) ∧
       (t.fn f).reqQ = [] ∧ (t.fn f).rspQ = [] ∧ (t.fn f).cache = [] ∧ (t.fn f).staging = Vector.replicate 16 0 ∧
       (t.fn f).rspData = Vector.replicate 16 0 ∧ (t.fn f).timeHi = 0 ∧ (t.fn f).ptmDev = 0 ∧ (t.fn f).ptmRoot = 0 ∧
       (t.fn f).rspIe = false ∧ (t.fn f).reqOvf = false ∧ (t.fn f).session = none ∧ (t.fn f).challenge = none ∧
       (∀ g, g ≠ f → t.fn g = s.fn g) ∧
       (t.target (f + 1)).stack = [] ∧ (t.target (f + 1)).enable = false ∧ (t.target (f + 1)).srcSel = 0 ∧ (t.target (f + 1)).eoiEmpty = false ∧
       (∀ n, n < 512 → tget t.irq.src n = if (tget s.irq.src n).route = f + 1
         then { tget s.irq.src n with count := 0, sat := false, cause := 0, insvc := false } else tget s.irq.src n)) ∧
  (∀ (n : Nat) (en : Bool) (s : State), n < 16 →
     ∃ t, exec (.vfEnableChange n en) s = .next t ∧ t.numVfs = n ∧ t.vfEnable = en ∧ t.fn 0 = s.fn 0 ∧
       (∀ g, 0 < g → s.fnPresent g = true → t.fnPresent g = false → (t.fn g).reqQ = [] ∧ (t.fn g).rspQ = [] ∧ (t.fn g).session = none) ∧
       (∀ g, g < 16 → t.fnPresent g = true → t.fn g = s.fn g))

/-- R84, R85, R135, R458. Events of elapsed time. A request that has waited 8 boundaries is promoted; while the tick is stopped the conditions
that hold are set again; a challenge expires 5,000 ms after its issue. -/
def Obligations.TimedMailboxEvents : Prop :=
  ∀ s : State,
    (s.time.tickRun = true →
      ∃ t, exec .requestPromotion s = .next t ∧ t = { s with fns := t.fns } ∧
        ∀ f, f < 16 → (t.fn f).reqQ = (s.fn f).reqQ.map fun q => { q with promoted := q.promoted || decide (8 ≤ q.waited) }) ∧
    (s.clockRuns = true → s.time.tickRun = false →
      ∃ t, exec .conditionReassert s = .next t ∧ t.time.stoppedInstants = s.time.stoppedInstants + 1 ∧
        s.time.stoppedAt + 33333333 * (s.time.stoppedInstants + 1) ≤ t.time.elapsed ∧
        ∀ p ∈ conditions s, sourcePresent s p.1 = true → (tget t.irq.fwSrc p.1).cause.getLsbD p.2 = true) ∧
    (∀ f c, f < 16 → s.time.refclk = true → (s.fn f).challenge = some c →
      ∃ t, exec (.challengeExpiry f) s = .next t ∧ (t.fn f).challenge = none ∧ c.issued + 5000000000 ≤ t.time.elapsed ∧
        t = { s with fns := t.fns, time := t.time })

/-! ### Device time, its outputs, and the master tick -/

/-- R46, R47. A pulse of 1PPS_IN while discipline is enabled, with no expected pulse whose window has passed. A valid one restarts the counts
of missing pulses and moves the state by R47 (log entry 65: valid pulses of a HOLDOVER do not count towards the 16 for LOCKED); it changes
the frequency correction by at most 50 ppb, towards the value with which the edge meets a whole second, and not in HOLDOVER. An extra
pulse is ignored. A pulse that comes after the window of the one expected finds that one missing.
R47, R48. The window of an expected pulse passes without it: one more missing pulse; the third in a row enters HOLDOVER from LOCKED or
ACQUIRING, where the correction is frozen: from LOCKED at the mean of those of the valid pulses of its last 64 s. -/
def Obligations.PulsesAndTheirAbsence : Prop :=
  (∀ (at_ : Nat) (s : State), s.time.ppsEn = true → s.boot.inReset = false → (∀ x ∈ s.exec, x.wait ≠ .pps) →
     let u := (advanceTo at_ s).time
     (missedBy u u.dev = 0 → pulseValid u = true →
       ∃ t, exec (.ppsInPulse at_) s = .next t ∧ t = { s with time := t.time, fresh := t.fresh, irq := t.irq, fns := t.fns, out := t.out } ∧
         t.time.dev = u.dev ∧ t.time.lastValid = some u.dev ∧ t.time.missRun = 0 ∧ t.time.validRun = s.time.validRun + 1 ∧
         t.time.disc = (match s.time.disc with
           | .holdover => if 3 ≤ s.time.validRun then .acquiring else .holdover
           | .acquiring => if phaseGood u.dev ∧ 15 ≤ s.time.goodRun then .locked else .acquiring
           | d => d) ∧
         (s.time.disc = .holdover → t.time.corr = s.time.corr) ∧
         (-50000000 ≤ s.time.corr → s.time.corr ≤ 50000000 →
           s.time.corr - 50000 ≤ t.time.corr ∧ t.time.corr ≤ s.time.corr + 50000 ∧
             min s.time.corr (meetsSecond u) ≤ t.time.corr ∧ t.time.corr ≤ max s.time.corr (meetsSecond u))) ∧
     (missedBy u u.dev = 0 → pulseValid u = false → exec (.ppsInPulse at_) s = .next (advanceTo at_ s)) ∧
     (∀ v, u.lastValid = some v → v + 1000100000 < u.dev → u.dev < v + 1999900000 →
       ∃ t, exec (.ppsInPulse at_) s = .next t ∧ t = { s with time := t.time, irq := t.irq, fns := t.fns, out := t.out } ∧
         t.time.dev = u.dev ∧ t.time.lastValid = some (v + 1000000000) ∧
         t.time.missRun = s.time.missRun + 1 ∧ t.time.validRun = 0 ∧ t.time.goodRun = 0 ∧
         t.time.disc = (if 2 ≤ s.time.missRun ∧ (s.time.disc = .locked ∨ s.time.disc = .acquiring) then .holdover else s.time.disc))) ∧
  (∀ (v : Nat) (s : State), s.time.ppsEn = true → s.clockRuns = true → s.time.lastValid = some v →
     ∃ t, exec .ppsInMissing s = .next t ∧ t = { s with time := t.time, irq := t.irq, fns := t.fns, out := t.out } ∧
       v + 1000100001 ≤ t.time.dev ∧ t.time.lastValid = some (v + 1000000000) ∧ t.time.missRun = s.time.missRun + 1 ∧ t.time.validRun = 0 ∧
       (2 ≤ s.time.missRun → s.time.disc = .locked ∨ s.time.disc = .acquiring →
         t.time.disc = .holdover ∧ t.time.holdoverS = 0 ∧
         t.time.corr = (match s.time.disc, (s.time.lockedCorrs.filter fun p => t.time.dev ≤ p.1 + 64000000000).map Prod.snd with
           | .locked, a :: l => roundTo 47 ((a :: l).foldl (· + ·) 0) (a :: l).length
           | _, _ => s.time.corr)) ∧
       (s.time.missRun < 2 ∨ s.time.disc = .free ∨ s.time.disc = .holdover → t.time.disc = s.time.disc ∧ t.time.corr = s.time.corr))

/-- R49, R51, R53. What leaves on the clocks' own account: 1PPS_OUT rises at the next whole second for which it has not risen, and is high for
10 ms; on each port with its link up, Sync with Follow_Up, Announce and Pdelay_Req go to 01-80-C2-00-00-0E with EtherType 0x88F7, each
with its own sequence number, their timestamps of 4 ns; and a PTM request, while PTM is enabled and no dialogue is open, 10 ms or
more after the last. The fall of the pin (log entry 68) and PTM Enable (log entry 8) come as the model's own conventions say. -/
def Obligations.ClockOutputs : Prop :=
  ∀ (p : Nat) (s : State), s.clockRuns = true →
    (∃ t n, exec .ppsOutPulse s = .next t ∧ t = { s with time := t.time, out := .ppsOut (n + 10000000) false :: .ppsOut n true :: s.out } ∧
      n % 1000000000 = 0 ∧ s.time.dev ≤ n ∧ s.time.ppsRoseAt ≠ some n ∧
      (∀ m, m % 1000000000 = 0 → s.time.dev ≤ m → s.time.ppsRoseAt ≠ some m → n ≤ m) ∧
      t.time.dev = n ∧ t.time.ppsRoseAt = some n ∧
      ∀ d, ppsLevel { t.time with dev := d } = decide (n ≤ d ∧ d < n + 10000000)) ∧
    (p < 2 → (tget s.ports p).up = true → ∀ a b c, tget s.time.gptpSeq p = (a, b, c) →
      exec (.gptpSyncTx p) s = .next { s with
        time := { s.time with gptpSeq := tset s.time.gptpSeq p ((a + 1) % 65536, b, c) }
        out := .gptp p 0x0180C200000E 0x88F7 1 a [(s.time.dev / 4 * 4 : Nat), s.time.timeBaseInd, s.time.lastPhaseChange] ::
          .gptp p 0x0180C200000E 0x88F7 0 a [0, s.time.logSync] :: s.out } ∧
      exec (.gptpAnnounceTx p) s = .next { s with
        time := { s.time with gptpSeq := tset s.time.gptpSeq p (a, (b + 1) % 65536, c) }
        out := .gptp p 0x0180C200000E 0x88F7 2 b [0, s.time.prio1, (match s.time.disc with | .locked => 6 | .holdover => 7 | _ => 248),
          if s.time.disc = .locked then 0x21 else 0xFE, 248, if s.time.disc = .locked ∧ s.time.ptpTs = true then 0x20 else 0xA0,
          if s.time.ptpTs = true ∧ s.time.baseSet = true then 1 else 0] :: s.out } ∧
      exec (.gptpPdelayReqTx p) s = .next { s with
        time := { s.time with
          gptpSeq := tset s.time.gptpSeq p (a, b, (c + 1) % 65536)
          pdelay := tset s.time.pdelay p { tget s.time.pdelay p with req := some (c, s.time.dev / 4 * 4), resp := none } }
        out := .gptp p 0x0180C200000E 0x88F7 3 c [0] :: s.out }) ∧
    (s.time.ptmEn = true → s.time.ptmBusy = false → ∃ t, exec .ptmDialogue s = .next t ∧
      t = { s with time := t.time, out := .ptmRequest :: s.out } ∧ t.time.ptmBusy = true ∧ t.time.ptmEn = true ∧ t.time.ptmAt = some t.time.elapsed ∧
      (∀ a, s.time.ptmAt = some a → a + 10000000 ≤ t.time.elapsed) ∧ s.time.elapsed ≤ t.time.elapsed) ∧
    (s.time.ptmEn = false → exec .ptmDialogue s = .next s)

/-- R50 to R53, R369, R377, R388, R566. What arrives from the links: an Announce that would win is counted, and its identity raises source
218 once; a Pdelay_Req is answered; the answer to the device's own, with its Follow_Up, gives the link's mean delay (log entry 95: the
formula is the model's); every other gPTP frame changes nothing; any other frame is counted; a finished PTM dialogue stores both times; a failed one raises source 220; links go up and down, the PCIe link with its width, speed, payload size and PTM Enable (log entry 8); without REFCLK_IN device time stands. -/
def Obligations.LinkArrivals : Prop :=
  ∀ (p : Nat) (s : State), p < 2 →
    (s.clockRuns = true → (tget s.ports p).up = true →
      (∀ id_ p1 cls acc var p2, wouldWin s.time id_ p1 cls acc var p2 = true →
        exec (.gptpFrameReceived p (.announce id_ p1 cls acc var p2)) s = .next (
          if (id_, p) ∈ s.time.foreign then { s with time := { s.time with foreignCount := s.time.foreignCount + 1 } }
          else raise 218 0 { s with time := { s.time with
            foreignCount := s.time.foreignCount + 1, foreign := (id_, p) :: s.time.foreign } })) ∧
      (∀ id_ p1 cls acc var p2, wouldWin s.time id_ p1 cls acc var p2 = false →
        exec (.gptpFrameReceived p (.announce id_ p1 cls acc var p2)) s = .next s) ∧
      (∀ id_ n, exec (.gptpFrameReceived p (.pdelayReq id_ n)) s =
        .next { s with
          out := .gptp p 0x0180C200000E 0x88F7 5 n [id_, (s.time.dev / 4 * 4 : Nat)] ::
            .gptp p 0x0180C200000E 0x88F7 4 n [id_, (s.time.dev / 4 * 4 : Nat)] :: s.out }) ∧
      (∀ n m t1 t2 t3 t4, tget s.time.pdelay p = ⟨some (n, t1), m, (tget s.time.pdelay p).delay⟩ → t4 = s.time.dev / 4 * 4 →
        exec (.gptpFrameReceived p (.pdelayResp Config.gptpOwn.2 n t2)) s = .next { s with time := { s.time with
          pdelay := tset s.time.pdelay p { tget s.time.pdelay p with resp := some (t2, t4) } } } ∧
        (∀ t5, m = some (t2, t5) → exec (.gptpFrameReceived p (.pdelayFollowUp Config.gptpOwn.2 n t3)) s = .next { s with time := { s.time with
          pdelay := tset s.time.pdelay p ⟨none, none, some ((((t5 : Int) - t1) - ((t3 : Int) - t2)) / 2)⟩ } })) ∧
      exec (.gptpFrameReceived p .other) s = .next s) ∧
    exec (.macFrameReceived p) s = .next { s with macOther := tset s.macOther p (tget s.macOther p + 1) } ∧
    exec (.macLinkUp p) s = .next { s with ports := tset s.ports p { tget s.ports p with up := true } } ∧
    exec (.macLinkDown p) s = .next { s with ports := tset s.ports p { tget s.ports p with up := false } } ∧
    (∀ l g m e, exec (.pcieLinkRetrain l ⟨g, m, e⟩) s = .next { s with
      lanes := l, gts10 := g, mps := m, time := { s.time with ptmEn := e, ptmAt := if e then s.time.ptmAt else none } }) ∧
    exec .refclkInFailure s = .next { s with time := { s.time with refclk := false } } ∧
    (s.time.ptmBusy = true →
      (∀ root, exec (.ptmDialogueDone true root) s = .next { s with time := { s.time with
        ptmBusy := false, ptmSeq := s.time.ptmSeq + 1, ptmDev := BitVec.ofNat 64 s.time.dev, ptmRoot := BitVec.ofNat 64 root } }) ∧
      (∀ root, exec (.ptmDialogueDone false root) s = .next (raise 220 0 { s with time := { s.time with ptmBusy := false } })))

/-- R26, R27, R31, R32, R58, R173. The FSYNC pulse of a channel tick: the frame it expects takes the next counter, its capture time is that of the
pulse, boundary b plus PHASE 64ths of the period, and the settings of the channel are bound to it; the output takes its active level, low
where POLARITY says so. No other channel changes.
R60. The pulse ends WIDTH µs after it began: the output returns to its inactive level. -/
def Obligations.FsyncPulses : Prop :=
  (∀ (c b : Nat) (r : Rate) (s : State), c < 32 → pulseDue s c = some b → (s.chan c).cfg.rate = some r → s.time.refclk = true →
     ∃ t f, exec (.fsyncPulse c) s = .next t ∧ t = { s with chans := t.chans, time := t.time, out := t.out } ∧
       (∀ d, d ≠ c → t.chan d = s.chan d) ∧ (t.chan c).frames = (s.chan c).frames ++ [f] ∧
       f.counter = (s.chan c).nextCounter ∧ f.capture = s.time.boundary b + r.phase * s.time.period / 64 ∧ f.cfg = (s.chan c).cfg ∧
       f.boundary = b ∧ f.deadline = b + r.div + (if r.phase = 0 then 0 else 1) ∧ f.opened = false ∧ f.lines = [] ∧
       (t.chan c).nextCounter = (s.chan c).nextCounter + 1 ∧ (t.chan c).cfg = (s.chan c).cfg ∧ (t.chan c).fsync = decide (0 < r.width) ∧
       t.time.dev = max s.time.dev f.capture ∧ t.out = if r.width = 0 then s.out else .fsync c (!r.low) r.width :: s.out) ∧
  (∀ (c e : Nat) (s : State), c < 32 → (s.chan c).fsyncEnd = some e → s.time.refclk = true →
     ∃ t, exec (.fsyncPulseEnd c) s = .next t ∧ t = { s with chans := t.chans, time := t.time, out := .fsync c ((s.chan c).cfg.rate.any Rate.low) 0 :: s.out } ∧
       t.chan c = { s.chan c with fsync := false, fsyncEnd := none } ∧ (∀ d, d ≠ c → t.chan d = s.chan d) ∧ e ≤ t.time.dev)

/-- R55, R84, R108 to R110, R548. A boundary of the running tick passes at its instant: its number counts, every waiting request has waited
across one more, and the pending commands that are due have left. Once the control watchdog has fired no pending command takes
effect. Where the full reset of a SYS_RESET begins before the boundary, it comes instead (R121). -/
def Obligations.BoundariesPass : Prop :=
  ∀ s : State, s.clockRuns = true → s.time.tickRun = true →
    (s.resetAt.any (resetFirst s) = true → exec .masterTickBoundary s = .next (beginReset .sysReset s)) ∧
    (s.resetAt.any (resetFirst s) = false → ∃ t, exec .masterTickBoundary s = .next t ∧ t.time.passed = s.time.passed + 1 ∧ t.time.tickRun = true ∧
      s.time.boundary s.time.passed ≤ t.time.dev ∧
      (s.power.watchdog = false → ∀ x ∈ s.exec, x.wait = .tick → dueOf s x ≤ s.time.passed → x ∉ t.exec) ∧
      (s.power.watchdog = true → t.exec = s.exec) ∧
      ∀ f, f < 16 → (t.fn f).reqQ = (s.fn f).reqQ.map fun q =>
        { q with waited := q.waited + 1, promoted := q.promoted || decide (8 ≤ q.waited + 1) })

/-! ### Camera ingress -/

/-- R27, R160, R167. A Frame Start of the pair that the latest expected frame was bound to opens that frame, where its capture time is not
after it, it belongs to the channel's run and its deadline has not come; a frame still open is closed to further lines. No other channel
changes.
R156, R170, R178. On a port that has been set, a packet whose header cannot be corrected is only counted, and so is a PHY error; on a port
never set neither is seen. -/
def Obligations.FramesOpenAndPortErrors : Prop :=
  (∀ (p vc c : Nat) (f : Frame) (l : List Frame) (s : State), p < 16 → vc < 16 → (s.rxPort p).set = true → boundChan s p vc = some c →
     (s.chan c).frames = l ++ [f] → f.opened = false → f.capture ≤ s.time.dev → ofRun (s.chan c) f = true →
     onPair p vc f.cfg.bind = true → live s f = true →
     ∃ t, exec (.csi2FrameStart p vc .good) s = .next t ∧ t = { s with chans := t.chans } ∧ (∀ d, d ≠ c → t.chan d = s.chan d) ∧
       (t.chan c).frames = (l ++ [f]).map (fun g => if g.counter = f.counter then { g with opened := true, hwm := levelNow s p }
         else if g.opened = true ∧ g.ended = false then { g with closedEarly := true } else g) ∧
       (t.chan c).ignoring = false ∧ (t.chan c).seenStart = true ∧ (t.chan c).cfg = (s.chan c).cfg) ∧
  (∀ (p vc : Nat) (s : State), p < 16 → vc < 16 →
     let counted (g : RxPort → RxPort) : State := if (s.rxPort p).set then { s with rx := tset s.rx p (g (s.rxPort p)) } else s
     (∀ i ∈ [Instr.csi2FrameStart p vc .uncorrectable, .csi2LineStart p vc 1 .uncorrectable, .csi2FrameEnd p vc .uncorrectable,
         .csi2LongPacket p vc 0x2B 0 true .uncorrectable []],
       exec i s = .next (counted fun x => { x with hdrUncorr := min 0xFFFFFFFF (x.hdrUncorr + 1) })) ∧
     exec (.csi2PhyError p) s = .next (counted fun x => { x with phyErr := min 0xFFFFFFFF (x.phyErr + 1) }))

/-- R163, R165, R166, R168, R169. The frame that packets of a bound pair belong to. An image line is stored at the next position, or with
LNUM at that of its number, positions skipped before it being replaced: its data where its CRC and its length are good, otherwise the
most recent good line or zeros, as a bad line; its 32-byte entries go through the port's FIFO, of which one chunk takes as many as log
entry 99 says. A line whose entries find no room truncates the frame at its position. A Line Start gives the number of the next line. Frame
End fills every missing position by replacement, each a bad line. -/
def Obligations.LinesAreStored : Prop :=
  ∀ (p vc c : Nat) (b : Bind) (f : Frame) (s : State), p < 16 → vc < 16 → (s.rxPort p).set = true → boundChan s p vc = some c →
    packetFate s c p vc = .frame f b → f.refuses = false → f.ended = false →
    let spare := f.lastGood.getD (List.replicate (lineBytes b.dt b.width) 0#8)
    let num := if b.lnum then f.lineStart.getD 0 else f.lines.length + 1
    let skipped := num - 1 - f.lines.length
    let x := seeDrained s.time.elapsed s.fresh (s.rxPort p)
    (∀ wc crcOk data, (b.lnum = false → f.lines.length < b.height) → (b.lnum = true → 0 < num ∧ f.lastNum < num ∧ num ≤ b.height) →
      let good : Bool := crcOk && wc == lineBytes b.dt b.width
      let full : Bool := decide (1024 - x.level < cdiv wc 32)
      ∃ t g, exec (.csi2LongPacket p vc b.dt wc crcOk .good data) s = .next t ∧ t = { s with chans := t.chans, rx := t.rx, fresh := t.fresh } ∧
        (∀ d, d ≠ c → t.chan d = seeLevel p (if full then 1024 else x.level + cdiv wc 32) (s.chan d)) ∧
        (∀ n, n ≠ p → t.rxPort n = s.rxPort n) ∧
        openFrame (t.chan c) = some g ∧ g.counter = f.counter ∧
        (t.chan c).crcErr = min 0xFFFFFFFF ((s.chan c).crcErr + if crcOk then 0 else 1) ∧
        (t.chan c).wcErr = min 0xFFFFFFFF ((s.chan c).wcErr + if wc = lineBytes b.dt b.width then 0 else 1) ∧
        (full = false →
          g.lines = f.lines ++ List.replicate skipped spare ++ [if good then data else spare] ∧ g.bad = f.bad + skipped + (if good then 0 else 1) ∧
          g.ovfLine = none ∧
          (t.rxPort p).fifo = dropOldest ((s.rxPort p).fifo ++ [⟨c, cdiv wc 32, chunkEntries b.dt, false⟩])) ∧
        (full = true → g.lines = f.lines ++ List.replicate skipped spare ∧ g.bad = f.bad + skipped ∧
          g.ovfLine = some (max (num - 1) f.lines.length))) ∧
    (∀ n, b.lnum = true → ∃ t, exec (.csi2LineStart p vc n .good) s = .next t ∧ t = { s with chans := t.chans } ∧
      (∀ d, d ≠ c → t.chan d = s.chan d) ∧ openFrame (t.chan c) = some { f with lineStart := some n }) ∧
    (∃ t g, exec (.csi2FrameEnd p vc .good) s = .next t ∧ t = { s with chans := t.chans } ∧ (∀ d, d ≠ c → t.chan d = s.chan d) ∧
      openFrame (t.chan c) = some g ∧ g.ended = true ∧ g.bad = f.bad + (b.height - f.lines.length) ∧
      g.lines = f.lines ++ List.replicate (b.height - f.lines.length) spare)

/-- R27, R172, R173, R190. At the ingress deadline of a channel's oldest frame its record closes with the first outcome that applies:
dropped without a Frame Start, while barred, or with more than 16 bad lines; truncated after an overflow or without a Frame End; else
complete. The record goes to the pipeline; one without a Frame Start leaves the channel Unverified. -/
def Obligations.DeadlineClosesTheRecord : Prop :=
  ∀ (c : Nat) (f : Frame) (rest : List Frame) (s : State), c < 32 → (s.chan c).frames = f :: rest → f.deadline < s.time.passed →
    ∃ t g, exec (.ingressDeadline c) s = .next t ∧
      t = { s with chans := t.chans, flows := t.flows, irq := t.irq, fns := t.fns, out := t.out } ∧
      (∀ d, d ≠ c → t.chan d = s.chan d) ∧ (t.chan c).frames = rest ∧ (t.chan c).lastRec = some g ∧ (t.chan c).pipeJob = some g ∧
      g.counter = f.counter ∧ g.capture = f.capture ∧ g.lines = f.lines ∧ g.cfg = f.cfg ∧
      g.outcome = (if f.opened = false ∨ f.barred = true ∨ 16 < f.bad then .dropped
        else if f.ovfLine.isSome = true ∨ f.ended = false then .truncated else .complete) ∧
      (g.outcome ≠ .truncated → g.truncLine = 0xFFFF) ∧ (g.outcome = .truncated → ∀ n, f.ovfLine = some n → g.truncLine = n) ∧
      (t.chan c).drop = min 0xFFFF ((s.chan c).drop + if g.outcome = .dropped then 1 else 0) ∧
      (t.chan c).trunc = min 0xFFFF ((s.chan c).trunc + if g.outcome = .truncated then 1 else 0) ∧
      (f.opened = false → (t.chan c).head.state = .unverified ∧ (t.chan c).head.absent = true) ∧
      (f.opened = true → (t.chan c).head = (s.chan c).head) ∧ (s.power.watchdog = true → t.flows = s.flows)

/-! ### The jobs of a tick -/

/-- R28, R29, R231, R276, R287, R301, R447. The jobs of a channel whose engine runs. A pipeline job hands its frame on and forms its windows, of a
dropped record all but the coding ones; with no hook attached and nothing cut the record stands. An encode job codes an access unit of the
frame, a skip picture where the record is not complete; ITP ends its part; the seal job fills in the seal SEI alone. -/
def Obligations.JobsOfAChannelEnd : Prop :=
  ∀ (c : Nat) (s : State), c < 32 →
    (∀ f, (s.chan c).pipeJob = some f → stalled s (pipeKey c) = false →
      ∃ t g, exec (.pipeJobEnd c) s = .next t ∧
        t = { s with chans := t.chans, irq := t.irq, fns := t.fns, out := t.out, fresh := t.fresh, meters := t.meters, seqs := t.seqs, cls := t.cls } ∧
        (∀ d, d ≠ c → t.chan d = s.chan d) ∧ (t.chan c).pipeJob = none ∧ (t.chan c).encNext = some g ∧ g.counter = f.counter ∧ g.lines = f.lines ∧
        (t.chan c).formed.map Prod.fst = idx 4 (fun i => (tget f.cfg.windows i).any fun w => f.outcome != .dropped || !isCoding w.format) ∧
        (f.outcome = .dropped → g = f) ∧
        (f.cfg.hooks = Vector.replicate 6 none → (s.chan c).pipeCut = none → (∀ q, seqOf s (pipeKey c) = some q → (tget s.seqs q).halted = false) →
          g = f)) ∧
    (∀ st f h, st < 2 → (tget (s.chan c).runs st).job = some f → (tget (s.chan c).cfg.streams st).hrd = some h →
      (tget (s.chan c).runs st).current = none → stalled s (encKey c st) = false →
      ∃ t a, exec (.encJobEnd c st) s = .next t ∧
        t = { s with chans := t.chans, flows := t.flows, irq := t.irq, fns := t.fns, out := t.out, fresh := t.fresh, meters := t.meters,
                     seqs := t.seqs, cls := t.cls } ∧
        (∀ d, d ≠ c → t.chan d = s.chan d) ∧ (tget (t.chan c).runs st).current = some a ∧ a.channel = c ∧ a.stream = st ∧
        a.counter = f.counter ∧ a.capture = f.capture ∧ a.sealed_ = false ∧ a.eligible = s.lastBoundary + 1 ∧
        (f.outcome ≠ .complete → a.skip = true) ∧ (∀ n, n ≠ st → tget (t.chan c).runs n = tget (s.chan c).runs n)) ∧
    (∀ st, st < 2 → (s.chan c).cfg.fine = true → (tget (s.chan c).runs st).job.isSome = true → (tget (s.chan c).runs st).itpDone = false →
      ∃ t, exec (.itpJobEnd c st) s = .next t ∧ t = { s with chans := t.chans, fresh := t.fresh, meters := t.meters } ∧
        tget (t.chan c).runs st = { tget (s.chan c).runs st with itpDone := true } ∧ (∀ d, d ≠ c → t.chan d = s.chan d)) ∧
    (∀ st a, st < 2 → (tget (s.chan c).runs st).current = some a → a.sealed_ = false →
      ∃ t, ∃ nal : Nal, exec (.sealJobEnd c st) s = .next t ∧ t = { s with chans := t.chans } ∧ (∀ d, d ≠ c → t.chan d = s.chan d) ∧
        nal.kind = .sealSei ∧ tget (t.chan c).runs st = { tget (s.chan c).runs st with
          current := some { a with nals := a.nals.map (fun n => if n.kind = .sealSei then nal else n), sealed_ := true } })

/-- R342 to R344, R350. The decode job of a stream whose core runs ends: every decode tick outputs exactly one picture, numbered in turn; an
access unit that is not decodable outputs a repetition and decodes nothing; a decodable one enters the buffer, which keeps only the
pictures it names. No other stream changes. -/
def Obligations.DecodeJobsEnd : Prop :=
  ∀ (h : Nat) (r : DecResult) (u : FedUnit) (s : State), h < 32 → (s.decS h).job = some u → stalled s (decKey h) = false →
    ∃ t o, exec (.decJobEnd h r) s = .next t ∧
      t = { s with dec := t.dec, irq := t.irq, fns := t.fns, out := t.out, fresh := t.fresh, meters := t.meters } ∧
      (∀ g, g ≠ h → t.decS g = s.decS g) ∧ (t.decS h).job = none ∧ (t.decS h).ready = some o ∧ o.counter = (s.decS h).outCount ∧
      o.capture = s.time.boundary s.lastBoundary ∧ (t.decS h).outCount = (s.decS h).outCount + 1 ∧ (t.decS h).units = (s.decS h).units ∧
      (r.decodable = false → (t.decS h).dpb = (s.decS h).dpb ∧ (t.decS h).decoded = (s.decS h).decoded ∧
        (t.decS h).repeated = min 0xFFFF ((s.decS h).repeated + 1)) ∧
      (r.decodable = true → (t.decS h).decoded = ((s.decS h).decoded + 1) % 2 ^ 32 ∧
        ∃ p, (t.decS h).dpb = p :: (s.decS h).dpb.filter (fun q => r.keeps.contains q.order) ∧ p.order = r.order)

/-- R65 to R68, R288, R302, R344. The meter ends a job that runs over: what is left of it is completed without its engine, from the first
line, CTU or macroblock or unit not done (of an ITP job, the blocks left), and the overrun is counted on its engine.
R491, R498, R499, R550. The watchdog of a sequencer with a job under way, or a fault found there, counts, with its address and reason; in the
vendor region it halts the sequencer and FAULT_N is asserted; in the open region the routine found there is to be disabled and nothing
halts. A store error that was corrected is only counted. Which of the three it is the row says (log entry 44). -/
def Obligations.MetersAndWatchdogs : Prop :=
  (∀ (undone : Nat) (s : State),
     let counted (k : JobKey) (t : State) : Prop := ∀ e, engineOf s k = some e → e < 14 →
       (tget t.meters e).overruns = min 65535 ((tget s.meters e).overruns + 1)
     (∀ c f b, c < 32 → (s.chan c).pipeJob = some f → (s.chan c).pipeCut = none → f.outcome ≠ .dropped → f.cfg.bind = some b →
       ∃ t, exec (.cycleMeterExpiry (.pipe c) undone) s = .next t ∧
         t = { s with chans := tset s.chans c { s.chan c with pipeCut := some (b.height - undone, false) }, meters := t.meters,
                      irq := t.irq, fns := t.fns, out := t.out } ∧ counted (pipeKey c) t) ∧
     (∀ c st, c < 32 → st < 2 → (tget (s.chan c).runs st).job.isSome = true → (tget (s.chan c).runs st).current = none →
       ((tget (s.chan c).runs st).cut = none → ∃ t, exec (.cycleMeterExpiry (.enc c st) undone) s = .next t ∧
         t = { modRun c st (fun r => { r with cut := some (encUnits s c st - undone) }) s with meters := t.meters, irq := t.irq, fns := t.fns, out := t.out } ∧
         counted (encKey c st) t) ∧
       ((tget (s.chan c).runs st).job.any (fun f => f.outcome == .complete) = true → (tget (s.chan c).runs st).itpCut = none →
         (s.chan c).cfg.fine = true → ∃ t, exec (.cycleMeterExpiry (.itp c st) undone) s = .next t ∧
         t = { modRun c st (fun r => { r with itpCut := some undone }) s with meters := t.meters, irq := t.irq, fns := t.fns, out := t.out } ∧
         counted (itpKey c st) t)) ∧
     (∀ h, h < 32 → (s.decS h).job.isSome = true → (s.decS h).cut = none →
       ∃ t, exec (.cycleMeterExpiry (.dec h) undone) s = .next t ∧
         t = { s with dec := tset s.dec h { s.decS h with
                        cut := some (unitCount (s.decS h) - undone), overruns := min 0xFFFF ((s.decS h).overruns + 1) },
                      meters := t.meters, irq := t.irq, fns := t.fns, out := t.out } ∧ counted (decKey h) t)) ∧
  (∀ (q pc : Nat) (j : MeterJob) (s : State), q < 8 → jobOn s q = some j →
     (exec (.seqWatchdog q ⟨pc, .corrected⟩) s = .next { s with
       seqs := tset s.seqs q { tget s.seqs q with storeCe := min 4294967295 ((tget s.seqs q).storeCe + 1) } }) ∧
     ∀ r, r < 4 → ∀ why, why = .watchdog ∨ why = .fault r → ∃ t, exec (.seqWatchdog q ⟨pc, why⟩) s = .next t ∧
       t = { s with chans := t.chans, dec := t.dec, seqs := t.seqs, cls := t.cls, power := t.power, irq := t.irq, fns := t.fns, out := t.out,
                    fresh := t.fresh } ∧
       tget t.seqs q = { tget s.seqs q with
         watchdogs := if why = .watchdog then min 65535 ((tget s.seqs q).watchdogs + 1) else (tget s.seqs q).watchdogs
         faults := if why = .watchdog then (tget s.seqs q).faults else min 65535 ((tget s.seqs q).faults + 1)
         lastPc := pc % 16384, lastReason := if why = .watchdog then 6 else r
         halted := (tget s.seqs q).halted || decide (pc < 0x3800 ∨ 0x3FFF < pc) } ∧
       (∀ n, n ≠ q → tget t.seqs n = tget s.seqs n) ∧
       (pc < 0x3800 → 5 ∈ t.power.faultN ∧ t.cls = s.cls) ∧
       (0x3800 ≤ pc → pc ≤ 0x3FFF → t.power = s.power ∧ ∀ i, routineAtPc (tget s.cls (q / 4)) pc = some i →
         i ∈ (tget t.cls (q / 4)).failing) ∧
       let n := (if why = .watchdog then 224 else 232) + q
       sourcePresent s n = true → (tget t.irq.fwSrc n).cause.getLsbD 0 = true)

/-! ### Calibration, and the status windows -/

/-- R242, R244, R250 to R253, R255, R258. A completed estimate empties both windows; it is INSUFFICIENT where a shading window is thin, DISAGREE where the
twins differ by more than 256, OUT_OF_BOUNDS, HELD under a pin, else it is applied at the next boundary. A time limit leaves
INSUFFICIENT. A calibration record is rewritten no sooner than 60 s after it was last written. -/
def Obligations.CalibrationEvents : Prop :=
  ∀ (c : Nat) (s : State), c < 32 →
    (∀ p k, p < 4 → estimateDue s c p = some k →
      ∃ t, exec (.calEstimate c p) s = .next t ∧ t = { s with chans := t.chans, irq := t.irq, fns := t.fns, out := t.out } ∧
        (∀ d, d ≠ c → t.chan d = s.chan d) ∧ (t.chan c).cfg = (s.chan c).cfg ∧ (t.chan c).cal.applied = (s.chan c).cal.applied ∧
        let e := tget (s.chan c).cal.est p
        let e' := tget (t.chan c).cal.est p
        let r := estimateOf (s.chan c) p
        e'.evenFill = 0 ∧ e'.oddFill = 0 ∧ e'.completeAt = none ∧ e'.emptiedAt = s.time.dev ∧
        if p = 1 ∧ (shadeThin e.even e.evenFill || shadeThin e.odd e.oddFill) = true then e'.last = .insufficient ∧ e'.insufficient = true
        else if 256 < r.agree then e'.last = .disagree ∧ e'.insufficient = false
        else if r.inside = false then e'.last = .outOfBounds ∧ e'.insufficient = false
        else if pinned s c p = true then e'.last = .held ∧ e'.apply = e.apply
        else e'.apply = some (k + 1, r.value) ∧ e'.last = e.last) ∧
    (∀ p, p < 4 → (s.chan c).enabled = true → estRuns (s.chan c) p = true → (tget (s.chan c).cal.est p).completeAt = none → s.time.refclk = true →
      ∃ t, exec (.calTimeLimit c p) s = .next t ∧ t = { s with chans := t.chans, time := t.time, irq := t.irq, fns := t.fns, out := t.out } ∧
        (tget (t.chan c).cal.est p).last = .insufficient ∧ (tget (t.chan c).cal.est p).insufficient = true ∧
        (tget (t.chan c).cal.est p).evenFill = 0 ∧ (tget (t.chan c).cal.est p).oddFill = 0 ∧
        (tget (s.chan c).cal.est p).emptiedAt + timeLimit (s.chan c).head p ≤ t.time.dev) ∧
    (∀ q r, (s.chan c).head.state = .paired → (s.chan c).head.pairing = some q → (s.chan c).cal.recordAt = some r →
      (s.chan c).cal.stored ≠ some (q.idHash, (s.chan c).cal.applied) → s.time.refclk = true →
      ∃ t, exec (.calRecordWrite c) s = .next t ∧ t = { s with chans := t.chans, time := t.time } ∧
        t.chan c = { s.chan c with cal := { (s.chan c).cal with
          stored := some (q.idHash, recordOf (s.chan c).cal q.idHash), recordAt := some t.time.elapsed } } ∧ r + 60000000000 ≤ t.time.elapsed)

/-- R94 to R98. An update of a channel's window advances its sequence word by 2 and writes the state, the record, the 64-bit frame counter and
capture time, and the counters; BAR0 shows them at 0x2000 + 64 n, with PRESENT. An update of the flow windows writes the values taken at the last
boundary. Nothing else changes. -/
def Obligations.StatusWindows : Prop :=
  ∀ s : State, s.ready = true →
    (∀ c f, c < s.nChan → ∃ t, exec (.chanStatusUpdate c) s = .next t ∧ t = { s with chans := t.chans } ∧
      (∀ d, d ≠ c → t.chan d = s.chan d) ∧ t.chan c = { s.chan c with window := (t.chan c).window } ∧
      bar0 t f (0x2000 + 64 * c) = bar0 s f (0x2000 + 64 * c) + 2 ∧
      (bar0 t f (0x2004 + 64 * c)).getLsbD 0 = true ∧ (bar0 t f (0x2004 + 64 * c)).getLsbD 1 = (s.chan c).enabled ∧
      ((s.chan c).lastRec = none → bar0 t f (0x2008 + 64 * c) = 0xFFFF0003#32) ∧
      (∀ n k, (s.chan c).closed = (n, k) →
        bar0 t f (0x2010 + 64 * c) = BitVec.ofNat 32 n ∧ bar0 t f (0x2014 + 64 * c) = BitVec.ofNat 32 (n / 2 ^ 32) ∧
        bar0 t f (0x2018 + 64 * c) = BitVec.ofNat 32 k ∧ bar0 t f (0x201C + 64 * c) = BitVec.ofNat 32 (k / 2 ^ 32)) ∧
      bar0 t f (0x2020 + 64 * c) = BitVec.ofNat 32 ((s.chan c).trunc + 2 ^ 16 * (s.chan c).drop) ∧
      bar0 t f (0x2024 + 64 * c) = BitVec.ofNat 32 ((s.chan c).ovrPipe + 2 ^ 16 * (s.chan c).ovrEnc)) ∧
    (s.time.tickRun = true → 0 < s.time.passed → ∃ t, exec .flowStatusUpdate s = .next t ∧ t = { s with flows := t.flows } ∧
      ∀ m, t.flow m = if m < s.nFlow then { s.flow m with
        window := tset (s.flow m).snap 0 (BitVec.ofNat 32 ((tget (s.flow m).window 0).toNat + 2)) } else s.flow m)

/-! ### Camera heads -/

/-- R186, R189, R190, R583. The identity check of a head. It starts within its window, as the first of those due on its bus, with four reads
of the identity block. A poll of the secure element is a read of SE_STATUS on the bus; where it reports success the wait ends, where it
reports failure, or anything else when the time is over, the challenge has failed. The end of the check sets the head state and whether the
head is verified. -/
def Obligations.IdentityChecks : Prop :=
  ∀ (c : Nat) (k : Check) (s : State), c < 32 → curCheck s c = some k →
    (∀ a u, k.step = .due → (s.chan c).cfg.attach = some a → a.bus < 8 → firstDue s c k = true → checkWindow s = some u →
      ∃ t, exec (.headCheckStart c) s = .next t ∧ t = { s with time := u.time, chans := t.chans, buses := t.buses, out := t.out } ∧
        curCheck t c = some { k with step := .ident, startedAt := u.time.elapsed } ∧
        (∃ x ∈ tget t.buses a.bus, x.ch = c ∧ x.use_ = .checkStep ∧ x.todo.length = 4) ∧ (∀ d, d ≠ c → t.chan d = s.chan d)) ∧
    (k.step = .waitSig → k.polling = false → s.time.refclk = true →
      let u := advanceElapsed (k.opAt + ((s.time.elapsed - k.opAt) / 1000000 + 1) * 1000000) s
      ∃ t, exec (.seStatusPoll c ()) s = .next t ∧ t = { u with chans := t.chans, buses := t.buses, out := t.out } ∧
        (∀ d, d ≠ c → t.chan d = s.chan d) ∧
        (k.opAt + 30000000 < u.time.elapsed → curCheck t c = some { k with chalFail := true, step := .judged } ∧ t.buses = s.buses) ∧
        (u.time.elapsed ≤ k.opAt + 30000000 → curCheck t c = some { k with polling := true } ∧
          ∀ a, (s.chan c).cfg.attach = some a → a.bus < 8 →
            ∃ x ∈ tget t.buses a.bus, x.ch = c ∧ x.use_ = .checkStep ∧ x.todo = [⟨[0xFF#8, 0xA1#8], 1, true⟩])) ∧
    (∀ b x y rest, k.step = .waitSig → b < 8 → tget s.buses b = x :: rest → x.active = true → x.ch = c → x.cls = .device →
      x.use_ = .checkStep → x.todo = [y] → y.rlen = 1 → x.got = [] →
      ∀ status, ∃ t, exec (.i3cTransactionDone b (.ack [status])) s = .next t ∧ t.time = s.time ∧
        curCheck t c = some (
          if status = 2 then { k with polling := false, step := .sig }
          else if status = 3 ∨ k.opAt + 30000000 ≤ s.time.elapsed then { k with polling := false, chalFail := true, step := .judged }
          else { k with polling := false })) ∧
    (k.step = .judged → ∃ t, exec (.headCheckDone c) s = .next t ∧
      (t.chan c).head.state = stateAfter s (s.chan c).head k ∧ (t.chan c).head.verified = checkPassed s k ∧ t.time = s.time ∧
      (∀ d, d ≠ c → t.chan d = s.chan d))

/-- R185, R186, R190. A bus transaction ends. Acknowledged, it ends the run of failures, and the last of a host's transfer answers it with the
bytes read; failed, it raises HEAD_BUS_ERROR, and the third in a row leaves the channel Unverified. -/
def Obligations.BusTransactionsEnd : Prop :=
  ∀ (b : Nat) (x : BusXfer) (rest : List BusXfer) (s : State), b < 8 → x.ch < 32 → tget s.buses b = x :: rest → x.active = true →
    (x.use_ = .sensorWrite ∨ ∃ f tag, x.use_ = .hostXfer f tag) →
    (∀ data, ∃ t, exec (.i3cTransactionDone b (.ack data)) s = .next t ∧
      t = { s with buses := t.buses, chans := t.chans, exec := t.exec, fns := t.fns, out := t.out } ∧
      t.chan x.ch = { s.chan x.ch with head := { (s.chan x.ch).head with failRun := 0, checks := (t.chan x.ch).head.checks } } ∧
      (∀ y f tag, x.todo = [y] → x.use_ = .hostXfer f tag → ∀ e, findExec s f tag Wait.isBus = some e → e.dead = false → e.func < 16 →
        t.exec = s.exec.erase e ∧ (t.fn e.func).rspQ = (s.fn e.func).rspQ ++
          [response e.entry St.ok s.tickField (fit 16 (x.got ++ if y.rlen = 0 then [] else fit y.rlen data))])) ∧
    (∀ r ∈ [BusResult.nack, .failed], ∃ t, exec (.i3cTransactionDone b r) s = .next t ∧
      t = { s with buses := t.buses, chans := t.chans, exec := t.exec, fns := t.fns, irq := t.irq, out := t.out } ∧
      (t.chan x.ch).head.failRun = (s.chan x.ch).head.failRun + 1 ∧
      (2 ≤ (s.chan x.ch).head.failRun → (t.chan x.ch).head.state = .unverified ∧ (t.chan x.ch).head.absent = true) ∧
      ((s.chan x.ch).head.failRun < 2 → (t.chan x.ch).head.state = (s.chan x.ch).head.state) ∧
      (sourcePresent s (32 + x.ch) = true → (tget t.irq.fwSrc (32 + x.ch)).cause.getLsbD 8 = true))

/-- R176, R190, R196, R198 to R201, R240. What follows a check. A head found to be another unpairs the channel at the first boundary 1 ms
after: its pairing goes, its mirror is closed and kept, its node is freed, records are marked. Each operating minute has its
temperature read, and counts as hot above 85 degrees, or where the read fails, and otherwise as cool. A push writes the mirror and makes a
check due, hourly from pairing. Temperatures of a Paired or Unpaired head are read every 60 s, and five are kept. Which byte of a
temperature comes first is log entry 105. -/
def Obligations.HeadLife : Prop :=
  ∀ (c : Nat) (s : State), c < 32 →
    (headChangeDue s c = true →
      let t := headChange c s
      t.time.dev = s.time.dev ∧ t.time.elapsed = s.time.elapsed ∧ t.exec = s.exec ∧ (t.chan c).head.pairing = none ∧
        (t.chan c).head.changeAt = none ∧ (t.chan c).head.life = none ∧ (t.chan c).head.mirror = none ∧
        (t.chan c).head.state ≠ .paired ∧ (t.chan c).head.state ≠ .other ∧
        (t.chan c).head.closedMirrors = (s.chan c).head.closedMirrors ++
          (match (s.chan c).head.life, (s.chan c).head.mirror with
           | some l, _ => [{ l with closed := true }]
           | none, some l => [{ l with closed := true }]
           | none, none => []) ∧
        (tget t.tarn.nodes (40 + c)).state = .free ∧
        2 ≤ (t.chan c).settle ∧ (∀ st, st < 2 → (tget (t.chan c).runs st).idrPending = true ∧ (tget (t.chan c).runs st).short = []) ∧
        (∀ d, d ≠ c → t.chan d = s.chan d)) ∧
    (headChangeNext s c = true → s.resetAt = none → s.exec = [] → (s.chan c).head.pairPending = none →
      ∃ t, exec (.headChange c) s = .next t ∧ exec .masterTickBoundary s = .next t ∧ t.time.passed = s.time.passed + 1 ∧
        (t.chan c).head.pairing = none ∧ (t.chan c).head.changeAt = none ∧ (t.chan c).head.life = none) ∧
    (∀ l, (s.chan c).head.life = some l → s.time.refclk = true →
      ∃ t, exec (.lifeMinute c ()) s = .next t ∧ t = { s with chans := t.chans, time := t.time, buses := t.buses, out := t.out } ∧
        (∀ d, d ≠ c → t.chan d = s.chan d) ∧
        (t.chan c).head.life = some { l with minuteAt := t.time.elapsed } ∧ l.minuteAt + 60000000000 ≤ t.time.elapsed ∧
        (operating (s.chan c) t.time.elapsed = false → t.buses = s.buses ∧ t.out = s.out) ∧
        (operating (s.chan c) t.time.elapsed = true → ∀ a, (s.chan c).cfg.attach = some a → a.bus < 8 →
          ∃ x ∈ tget t.buses a.bus, x.ch = c ∧ x.use_ = .temp true ∧ x.todo = [⟨be 2 (field (s.chan c).head.ident 36 2), 2, true⟩])) ∧
    (∀ l, (s.chan c).head.life = some l → (s.chan c).head.pairing.isSome = true → s.time.refclk = true →
      ∃ t, exec (.lifePush c) s = .next t ∧ t = { s with chans := t.chans, time := t.time, boot := t.boot } ∧
        (t.chan c).head.mirror = some l ∧
        (t.chan c).head.life = some { l with
          pushPending := true, tryAt := t.time.elapsed
          pushFrom := l.pushFrom + (t.time.elapsed - l.pushFrom) / 3600000000000 * 3600000000000 } ∧
        t.boot = { s.boot with queue := s.boot.queue ++ [⟨.pairing c, none⟩] } ∧
        ((s.chan c).cfg.attach.isSome = true → (∀ k ∈ (s.chan c).head.checks, k.why ≠ .push) →
          ∃ k, (t.chan c).head.checks = (s.chan c).head.checks ++ [k] ∧ k.why = .push ∧ k.step = .due) ∧
        ((∃ k ∈ (s.chan c).head.checks, k.why = .push) → (t.chan c).head.checks = (s.chan c).head.checks) ∧
        pushDue l ≤ t.time.elapsed) ∧
    (s.time.refclk = true → ∃ t, exec (.headTempRead c ()) s = .next t ∧
      t = { s with chans := t.chans, time := t.time, buses := t.buses, out := t.out } ∧
      (s.chan c).head.tempAt + 60000000000 ≤ t.time.elapsed ∧ (∀ d, d ≠ c → t.chan d = s.chan d) ∧
      ((s.chan c).head.state = .unverified ∨ (s.chan c).head.state = .other → t.buses = s.buses ∧ t.out = s.out) ∧
      (∀ a, (s.chan c).cfg.attach = some a → a.bus < 8 → (s.chan c).head.state = .paired ∨ (s.chan c).head.state = .unpaired →
        ∃ x ∈ tget t.buses a.bus, x.ch = c ∧ x.use_ = .temp false ∧ x.todo = [⟨be 2 (field (s.chan c).head.ident 36 2), 2, true⟩])) ∧
    (∀ b x y rest m, b < 8 → tget s.buses b = x :: rest → x.active = true → x.ch = c → x.cls = .device → x.use_ = .temp m →
      x.todo = [y] → y.rlen = 2 → x.got = [] →
      ∀ r temp, (∃ data, r = .ack data ∧ temp = some (tempOf (fit 2 data))) ∨ (r = .nack ∨ r = .failed) ∧ temp = none →
        ∃ t, exec (.i3cTransactionDone b r) s = .next t ∧
          (m = false → (t.chan c).head.temps = (temp :: (s.chan c).head.temps).take 5 ∧ (t.chan c).head.life = (s.chan c).head.life) ∧
          (m = true → ∀ l, (s.chan c).head.life = some l → ∃ l', (t.chan c).head.life = some l' ∧
            l'.hot = l.hot + (match temp with | some v => if 85 * 16 < v then 1 else 0 | none => 1) ∧
            l'.cool = l.cool + (match temp with | some v => if 85 * 16 < v then 0 else 1 | none => 0)))

/-! ### Egress -/

/-- R378 to R380, R386 to R388. The scheduler. The selected flow's packet is staged, or sent where the port is free; its wire size leaves the
flow's credit and is added to its tag by weight. When the packet in transmission completes its credit returns, the staged one follows, and on a
MAC whose link is up the packet leaves and is counted. At a calendar slot the flows of the fine wheel whose instant has come become
eligible. -/
def Obligations.SchedulerEvents : Prop :=
  ∀ (p : Nat) (s : State), p < 3 →
    (∀ m it pk l, m < 256 → (tget s.ports p).staged = none → selectFlow s p = some m → candidate s p m = some (it, pk, l) →
      ∃ t g, exec (.packetDequeue p) s = .next t ∧ t = { s with flows := t.flows, ports := t.ports } ∧
        (∀ n, n ≠ m → t.flow n = s.flow n) ∧ (∀ q, q ≠ p → tget t.ports q = tget s.ports q) ∧
        g.flow = m ∧ g.counter = it.counter ∧ g.wire = l ∧ g.part = pk ∧
        ((tget s.ports p).sending = none → (tget t.ports p).sending = some g ∧ (tget t.ports p).staged = none) ∧
        ((tget s.ports p).sending ≠ none → (tget t.ports p).sending = (tget s.ports p).sending ∧ (tget t.ports p).staged = some g) ∧
        (t.flow m).credit + l = (s.flow m).credit ∧ (tget t.ports p).free = (tget s.ports p).free ∧
        (t.flow m).tag = ((s.flow m).tag + cdiv (l * 65536) (max 1 (s.fcfg m).weight)) % 2 ^ 64 ∧
        (t.flow m).rtpSeq = (if p < 2 then ((s.flow m).rtpSeq + 1) % 65536 else (s.flow m).rtpSeq)) ∧
    (∀ g, (tget s.ports p).sending = some g → g.flow < 256 → (s.flow g.flow).stopping = false →
      ∃ t, exec (.packetTxComplete p true) s = .next t ∧
        t = { s with flows := t.flows, ports := t.ports, irq := t.irq, fns := t.fns, out := t.out, time := t.time } ∧
        (∀ n, n ≠ g.flow → t.flow n = s.flow n) ∧ (t.flow g.flow).credit = (s.flow g.flow).credit + g.wire ∧
        (tget t.ports p).sending = (tget s.ports p).staged ∧ (tget t.ports p).staged = none ∧
        (p < 2 → (tget s.ports p).up = true →
          (t.flow g.flow).bytes = ((s.flow g.flow).bytes + g.part.item) % 2 ^ 64 ∧
          (t.flow g.flow).pkts = ((s.flow g.flow).pkts + 1) % 2 ^ 64 ∧ Output.packet p g.flow g.bytes ∈ t.out) ∧
        (p < 2 → (tget s.ports p).up = false →
          (t.flow g.flow).bytes = (s.flow g.flow).bytes ∧ (t.flow g.flow).pkts = (s.flow g.flow).pkts ∧ (t.flow g.flow).exc.getLsbD 3 =
            ((s.flow g.flow).exc.getLsbD 3 || decide ((s.flow g.flow).lost ≠ some g.counter))) ∧
        (∀ f, p = 2 → (s.fcfg g.flow).func = some f → g.part.last = false → t.out = .dmaWrite f g.addr g.bytes :: s.out)) ∧
    (s.clockRuns = true → ∃ t, exec (.calendarSlot p) s = .next t ∧ t = { s with flows := t.flows, time := t.time } ∧
      t.time.dev = (s.time.dev / 1000 + 1) * 1000 ∧
      (∀ m, t.flow m = { s.flow m with wheel := (t.flow m).wheel }) ∧
      (∀ m, m < 256 → (s.fcfg m).route = p → (s.flow m).wheel = 1 →
        (t.flow m).wheel = if cdiv (s.flow m).eligibleAt 1000 * 1000 ≤ t.time.dev then 0 else 1) ∧
      (∀ m, (s.fcfg m).route ≠ p → t.flow m = s.flow m))

/-- R353, R375, R376, R381, R387, R389. A ring item takes the slot that the host has posted, in segments of at most 2,048 bytes up to its length; a slot not yet
posted is read again 10 µs later, with RING_EMPTY once; a read that fails loses the item. A CSI-2 frame that falls due starts where its
port is free, and a suspended flow sends none; its end counts it. Samples are taken of every flow. -/
def Obligations.RingsAndTransmitPorts : Prop :=
  ∀ (m : Nat) (s : State), m < 256 →
    (∀ it rest addr blen ctrl, (s.flow m).items = it :: rest → (s.fcfg m).route = 2 → (s.flow m).active = true → it.parts = none →
      (s.flow m).going = [] → (s.flow m).pollAt = none →
      (ctrl.getLsbD 0 = true → ∃ t i ps, exec (.ringSlotPoll m true addr blen ctrl) s = .next t ∧ t = { s with flows := t.flows } ∧
        t.flow m = { s.flow m with items := i :: rest } ∧ (∀ n, n ≠ m → t.flow n = s.flow n) ∧
        i = { it with parts := some ps, left := min blen it.data.length, addr := addr, blen := blen } ∧
        (ps.map Packet.bytes).flatten = it.data.take blen ∧ ∀ x ∈ ps, x.bytes.length ≤ 2048) ∧
      (ctrl.getLsbD 0 = false → ∃ t, exec (.ringSlotPoll m true addr blen ctrl) s = .next t ∧
        t = { s with flows := t.flows, irq := t.irq, fns := t.fns, out := t.out } ∧ (t.flow m).items = { it with waited := true } :: rest ∧
        (t.flow m).pollAt = some (s.time.elapsed + 10000) ∧ (it.waited = false → (t.flow m).exc.getLsbD 0 = true)) ∧
      (∃ t, exec (.ringSlotPoll m false addr blen ctrl) s = .next t ∧
        t = { s with flows := t.flows, irq := t.irq, fns := t.fns, out := t.out } ∧ (t.flow m).items = rest ∧ (t.flow m).exc.getLsbD 4 = true)) ∧
    (∀ it, (s.fcfg m).route = 3 → (s.fcfg m).port < 4 → (s.flow m).items.find? (fun i => !i.due) = some it →
      ∃ t, exec (.txFrameDue m) s = .next t ∧ t = { s with flows := t.flows, tx := t.tx, time := t.time } ∧
        (s.time.refclk = true → it.dueAt ≤ t.time.dev) ∧
        ((s.fcfg m).weight = 0 → t.tx = s.tx ∧ (t.flow m).items = (s.flow m).items.filter fun i => i.counter != it.counter) ∧
        (0 < (s.fcfg m).weight → (tget s.tx (s.fcfg m).port).busy = none → (tget s.tx (s.fcfg m).port).queue = [] →
          (tget t.tx (s.fcfg m).port).busy = some m ∧ (t.flow m).going.length = 1)) ∧
    (∀ p it, p < 4 → (tget s.tx p).busy = some m → (tget s.tx p).queue = [] → (s.flow m).going = [it] → (s.flow m).stopping = false →
      ∃ t, exec (.txFrameSent p) s = .next t ∧
        t = { s with flows := t.flows, tx := t.tx, irq := t.irq, fns := t.fns, out := t.out, time := t.time } ∧
        (tget t.tx p).busy = none ∧ (t.flow m).going = [] ∧ (t.flow m).pkts = ((s.flow m).pkts + 1) % 2 ^ 64 ∧
        (t.flow m).aus = ((s.flow m).aus + 1) % 2 ^ 64 ∧
        Output.csi2Frame p ((vcOf s m).getD 0) (it.counter % 65535 + 1) it.emb.flatten it.lines ∈ t.out) ∧
    (∀ i, i < 16 → s.time.tickRun = true → 0 < s.time.passed →
      ∃ t, exec (.flowSample i) s = .next t ∧ t = { s with flows := t.flows, time := t.time } ∧
        (m < s.nFlow → (t.flow m).newest = i ∧ ((s.flow m).active = false → tget (t.flow m).samples i = (0, 0)) ∧
          ∀ j, j ≠ i → tget (t.flow m).samples j = tget (s.flow m).samples j))

/-! ### Memory controllers -/

/-- R400 to R402, R405, R407, R412, R413. Refresh, patrol scrub and self-refresh. A tREFI adds a debt of at most 8; a refresh pays one and closes every row;
at 8 it is forced and counted. A scrubbed sector that cannot be corrected is poisoned and counted. Entering self-refresh drains the write
buffer and pays every debt. -/
def Obligations.RefreshAndSelfRefresh : Prop :=
  ∀ (d ch : Nat) (s : State), d < s.nDmc → ch < 8 → memoryCanonical s →
    let x := tget (s.dmcN d).chans ch
    let put (y : MemChan) : Vector MemChan 8 := tset (s.dmcN d).chans ch y
    ((s.dmcN d).trained = true → (s.dmcN d).selfRef = false →
    exec (.refreshDue d ch) s = .next { s with dmc := tset s.dmc d { s.dmcN d with
      chans := put { x with debt := min 8 (x.debt + 1) }, debtMax := max (s.dmcN d).debtMax (min 8 (x.debt + 1)) } } ∧
    (0 < x.debt → exec (.refreshIssue d ch) s = .next { s with dmc := tset s.dmc d { s.dmcN d with
      chans := put { x with debt := x.debt - 1, rows := Vector.replicate 16 none } } }) ∧
    (x.debt = 8 → exec (.refreshForced d ch) s = .next (raise 198 0 { s with dmc := tset s.dmc d { s.dmcN d with
      chans := put { x with debt := 7, rows := Vector.replicate 16 none }, forced := min 0xFFFFFFFF ((s.dmcN d).forced + 1) } })) ∧
    (∀ m ∈ [1, 2, 4], exec (.mr4Read d ch m) s = .next { s with dmc := tset s.dmc d { s.dmcN d with chans := put { x with mult := m } } }) ∧
    (∀ a, a / 32 * 32 + 32 ≤ (s.dmcN d).size →
      (∃ t, exec (.patrolScrub d a .clean) s = .next t ∧ t = { s with dmc := t.dmc } ∧ (t.dmcN d).scrubbed = (s.dmcN d).scrubbed + 1 ∧
        (t.dmcN d).memory = (s.dmcN d).memory ∧ (t.dmcN d).poison = (s.dmcN d).poison) ∧
      (∃ t, exec (.patrolScrub d a .uncorrectable) s = .next t ∧ t = { s with dmc := t.dmc, irq := t.irq, fns := t.fns, out := t.out } ∧
        a / 32 * 32 ∈ (t.dmcN d).poison ∧ (t.dmcN d).ue = min 0xFFFFFFFF ((s.dmcN d).ue + 1) ∧ (t.dmcN d).memory = (s.dmcN d).memory))) ∧
    ((s.dmcN d).entering = true → ∃ t, exec (.selfRefreshEntryDone d) s = .next t ∧
      t = { s with dmc := t.dmc, exec := t.exec, irq := t.irq, fns := t.fns, out := t.out } ∧ (t.dmcN d).selfRef = true ∧ (t.dmcN d).entering = false ∧
      (t.dmcN d).wbuf = [] ∧ (∀ c, c < 8 → (tget (t.dmcN d).chans c).debt = 0) ∧ (∀ a, seenByte (t.dmcN d) a = seenByte (s.dmcN d) a)) ∧
    ((s.dmcN d).leaving = true → ∃ t, exec (.selfRefreshExitDone d) s = .next t ∧
      t = { s with dmc := t.dmc, exec := t.exec, irq := t.irq, fns := t.fns, out := t.out } ∧ (t.dmcN d).selfRef = false ∧ (t.dmcN d).leaving = false ∧
      (t.dmcN d).memory = (s.dmcN d).memory)

/-- R397, R399, R404, R405, R409, R410, R412. A chunk of a controller that serves. A real-time write changes exactly its bytes; another write, within one 64-byte block of
an ordinary region and with no sector poisoned, is seen by every read from then on, and exactly its bytes are; draining changes no byte that a
read sees; a read that ECC finds clean, and whose tags verify, changes no contents. A write of a whole line of a sealed region keeps the
line's tag; a line whose tag does not verify is poisoned and counted. -/
def Obligations.ChunksAreServed : Prop :=
  ∀ (d : Nat) (c : Chunk) (s : State), d < s.nDmc → memoryCanonical s → chunkGood c = true → c.addr + chunkLen c ≤ (s.dmcN d).size →
    (s.dmcN d).selfRef = false → (s.dmcN d).entering = false → (s.dmcN d).leaving = false → c.findings = [] →
    (∀ data, c.kind = .write data → isRealTime c.master = true →
      ∃ t, exec (.chunkServiceDone d c) s = .next t ∧ t = { s with dmc := t.dmc, rx := t.rx, fresh := t.fresh } ∧
        ∀ a, memGet (t.dmcN d).memory a =
          if c.addr ≤ a ∧ a < c.addr + data.length then (data[a - c.addr]?).getD 0 else memGet (s.dmcN d).memory a) ∧
    (∀ data, c.kind = .write data → isRealTime c.master = false → data ≠ [] → c.addr % 64 + data.length ≤ 64 →
      inSealed (s.dmcN d) c.addr = false → (s.dmcN d).poison = [] →
      ∃ t, exec (.chunkServiceDone d c) s = .next t ∧ t = { s with dmc := t.dmc } ∧
        ∀ a, seenByte (t.dmcN d) a =
          if c.addr ≤ a ∧ a < c.addr + data.length then (data[a - c.addr]?).getD 0 else seenByte (s.dmcN d) a) ∧
    (∀ e rest, c.kind = .drain → (s.dmcN d).wbuf = e :: rest →
      ∃ t, exec (.chunkServiceDone d c) s = .next t ∧ t = { s with dmc := t.dmc } ∧ (t.dmcN d).wbuf = rest ∧
        ∀ a, seenByte (t.dmcN d) a = seenByte (s.dmcN d) a) ∧
    (∀ data, c.kind = .write data → isRealTime c.master = false → data.length = 64 → c.addr % 64 = 0 → inSealed (s.dmcN d) c.addr = true →
      ∃ t, exec (.chunkServiceDone d c) s = .next t ∧ t = { s with dmc := t.dmc } ∧
        (∀ a, seenByte (t.dmcN d) a = if c.addr ≤ a ∧ a < c.addr + 64 then (data[a - c.addr]?).getD 0 else seenByte (s.dmcN d) a) ∧
        (t.dmcN d).tags.find? (fun x => x.1 == c.addr) = some (c.addr, lineTag s d c.addr data) ∧
        c.addr ∉ (t.dmcN d).poison ∧ c.addr + 32 ∉ (t.dmcN d).poison) ∧
    (∀ n, c.kind = .read n → (∀ l, inSealed (s.dmcN d) l = true → tagBad s d c l = false) → (s.dmcN d).poison = [] →
      ∃ t, exec (.chunkServiceDone d c) s = .next t ∧ t = { s with dmc := t.dmc, rx := t.rx, fresh := t.fresh } ∧
        (t.dmcN d).memory = (s.dmcN d).memory ∧ (t.dmcN d).wbuf = (s.dmcN d).wbuf ∧ (t.dmcN d).poison = []) ∧
    (c.kind = .read 64 → c.owner = .other → c.addr % 64 = 0 → inSealed (s.dmcN d) c.addr = true → tagBad s d c c.addr = true →
      ∃ t, exec (.chunkServiceDone d c) s = .next t ∧ t = { s with dmc := t.dmc, irq := t.irq, fns := t.fns, out := t.out } ∧
        (t.dmcN d).memory = (s.dmcN d).memory ∧ c.addr ∈ (t.dmcN d).poison ∧ c.addr + 32 ∈ (t.dmcN d).poison ∧
        (t.dmcN d).tagFail = min 0xFFFFFFFF ((s.dmcN d).tagFail + 1))

/-! ### Tarn, power and control -/

/-- R437, R438, R443 to R446. TAMPER_N takes every key, the entropy pool, every imported copy and every session, and is remembered; nothing of the video path
changes. A health failure empties the pool and restarts the TRNG, and at the fourth latches it; a restart that ends makes it healthy; a
block joins the pool. -/
def Obligations.TarnEvents : Prop :=
  ∀ s : State, s.boot.inReset = false →
    (∃ t, exec .tamperAssert s = .next t ∧ (∀ n, n < 512 → (tget t.tarn.nodes n).cell = List.replicate 32 0#8) ∧
      (∀ n, 72 ≤ n → n < 328 → (tget t.tarn.nodes n).copy = [] ∧ (tget t.tarn.nodes n).state ≠ .valid) ∧
      t.tarn.pool = [] ∧ t.tarn.mask = List.replicate 32 0#8 ∧ t.tarn.tampered = true ∧ t.tarn.tamperSeen = true ∧
      t.tarn.tamperEpoch = s.tarn.bootEpoch ∧ (∀ f, f < 16 → (t.fn f).session = none) ∧ (∀ m, m < 256 → (t.flow m).key = []) ∧
      (∀ i, i < 2 → (t.dmcN i).wbuf = []) ∧ (tget t.irq.fwSrc 202).cause.getLsbD 0 = true ∧
      t = { s with tarn := t.tarn, fns := t.fns, flows := t.flows, dmc := t.dmc, irq := t.irq, out := t.out }) ∧
    (s.tarn.trng ≠ .latched → ∃ t, exec .trngHealthFail s = .next t ∧ t.tarn.pool = [] ∧ t.tarn.fails = s.tarn.fails + 1 ∧
      t.tarn.trng = (if 3 ≤ s.tarn.fails then .latched else .restarting) ∧
      (∀ x ∈ t.exec, x.wantsEntropy = false ∨ x ∉ s.exec) ∧ (tget t.irq.fwSrc 200).cause.getLsbD 0 = true ∧
      (3 ≤ s.tarn.fails → (tget t.irq.fwSrc 201).cause.getLsbD 0 = true) ∧ t.time = s.time) ∧
    (s.tarn.trng = .restarting → exec .trngRestartDone s = .next { s with tarn := { s.tarn with trng := .healthy } }) ∧
    (∀ block, s.tarn.trng = .healthy → (∀ x ∈ s.exec, x.wantsEntropy = false) → (∀ c, c < 32 → ∀ k, curCheck s c = some k → k.step ≠ .nonce) →
      exec (.trngBlockReady block) s = .next { s with tarn := { s.tarn with pool := s.tarn.pool ++ fit 32 block } })

/-- R515 to R517, R523, R525, R545, R548, R550. The AVS loop raises a floor at once and lowers it by at most 10 mV, and the rail follows. A missing acknowledge or a fault report raises
source 211, and power lost stops the domain. A reading sets the warning and critical conditions; the second in a row above 135 degrees trips. A ramp ends,
well or not. The control watchdog fires once. -/
def Obligations.PowerEvents : Prop :=
  ∀ s : State,
    (∀ d computed, d < 7 → isAvs d = true → railUp s d = true → s.power.tripped = false →
      let f := min 850 (max 650 ((computed + 4) / 5 * 5))
      let f' := if (s.domain d).floor ≤ f then f else max f ((s.domain d).floor - 10)
      ∃ t, exec (.avsFloorUpdate d computed) s = .next t ∧ t = { s with power := t.power, irq := t.irq, fns := t.fns, out := t.out } ∧
        (t.domain d).floor = f' ∧ (t.domain d).vset = (if (s.domain d).vreq = 0 then f' else max f' (s.domain d).vreq) ∧
        (∀ e, e ≠ d → t.domain e = s.domain e)) ∧
    (∀ r st io, r < 6 → s.ready = true → s.boot.inReset = false → (s.domain (railDomain r)).on = true →
      (∃ t, exec (.pmbusStatusPoll r false st io) s = .next t ∧ t = { s with power := t.power, irq := t.irq, fns := t.fns, out := t.out } ∧
        (t.rail r).missed = (s.rail r).missed + 1 ∧ (tget t.irq.fwSrc 211).cause.getLsbD 0 = true ∧
        (2 ≤ (s.rail r).missed → (t.rail r).lost = true ∧ ((s.rail r).lost = false → (t.domain (railDomain r)).stopped = true))) ∧
      (∃ t, exec (.pmbusStatusPoll r true st io) s = .next t ∧ t = { s with power := t.power, irq := t.irq, fns := t.fns, out := t.out } ∧
        (t.rail r).missed = 0 ∧ (t.rail r).status = st % 65536 ∧ (t.rail r).current = min 65535 io ∧
        (statusFault st = true → (tget t.irq.fwSrc 211).cause.getLsbD 0 = true) ∧
        (powerLost st = true → (s.rail r).lost = false → (t.rail r).lost = true ∧ (t.domain (railDomain r)).stopped = true ∧ 2 ∈ t.power.faultN))) ∧
    (∀ tj, s.boot.inReset = false → ∃ t, exec (.thermalSample tj) s = .next t ∧ t.power.tj = tj ∧ t.power.warn = decide (115 * 16 < tj) ∧
      t.power.crit = decide (125 * 16 < tj) ∧ t.time = s.time ∧
      (125 * 16 < tj → s.power.crit = false → (tget t.irq.fwSrc 210).cause.getLsbD 0 = true) ∧
      (135 * 16 < tj → 1 ≤ s.power.hot → t.power.tripped = true ∧ t.boot.inReset = true ∧ 1 ∈ t.power.faultN ∧ Output.fsyncAllLow ∈ t.out ∧
        ∀ d ∈ [2, 3, 4, 6], (t.domain d).on = false) ∧
      (tj ≤ 135 * 16 → t = { s with power := t.power, irq := t.irq, fns := t.fns, out := t.out } ∧ t.power.tripped = s.power.tripped ∧ t.power.hot = 0)) ∧
    (∀ d ok, d < 7 → (s.domain d).ramping = true → (s.domain d).on = false →
      ∃ t, exec (.domainPowerUpDone d ok) s = .next t ∧ t = { s with power := t.power, irq := t.irq, fns := t.fns, out := t.out } ∧
        (t.domain d).ramping = false ∧ (ok = false → (t.domain d).failed = true ∧ (tget t.irq.fwSrc 211).cause.getLsbD 0 = true) ∧
        (ok = true → (∀ r, mainRail d = some r → (s.rail r).lost = false) → (t.domain d).upAt = s.time.dev ∧ (t.domain d).failed = (s.domain d).failed)) ∧
    (s.ready = true → s.power.watchdog = false →
      ∃ t, exec .controlWatchdog s = .next t ∧ t = { s with power := t.power, out := t.out } ∧ t.power.watchdog = true ∧ 6 ∈ t.power.faultN)

/-- R423, R425, R439, R469, R503, R514, R537, R540, R550. Bring-up, step by step: release of reset, the rails in order, training, initialisation, READY. A step that fails leaves
FW_STATE FAILED with its code and FAULT_N asserted. At READY the tick is started, its boundary 0 a whole millisecond at least 1 ms ahead; without a
cached configuration its period is 33,333,333 ns. -/
def Obligations.BringUp : Prop :=
  ∀ s : State,
    (∀ straps puf, s.boot.inReset = true → (s.power.tripped = false ∨ s.boot.cause ≠ 3) →
      ∃ t, exec (.resetRelease straps puf) s = .next t ∧ t.boot.inReset = false ∧ t.boot.straps = straps ∧ t.tarn.puf = puf.bits ∧
        (∀ e, releaseError puf s = some e → t.boot.fw = .failed ∧ t.boot.bootErr = e ∧ 7 ∈ t.power.faultN) ∧
        (releaseError puf s = none → t.boot.fw = s.boot.fw ∧ t.boot.enrolled = s.boot.helper.isSome ∧ t.tarn.trng = .healthy ∧
          t.tarn.bootEpoch = s.tarn.bootEpoch + (if s.boot.helper.isSome then 1 else 0) ∧
          ∀ b i, s.boot.board = some b → i < 2 → (t.dmcN i).fitted = (decide (i < s.nDmc) && bitOf b.mask i))) ∧
    (s.boot.inReset = false → s.boot.released = true → s.boot.fw = .boot →
      (∀ r, r < 6 → s.boot.railsUp = r →
        (∃ t, exec (.railPowerUp r true) s = .next t ∧ (t.rail r).good = true ∧ t.boot = { s.boot with railsUp := r + 1 }) ∧
        (∃ t, exec (.railPowerUp r false) s = .next t ∧ t.boot.fw = .failed ∧ t.boot.bootErr = 1 ∧ 7 ∈ t.power.faultN)) ∧
      (s.boot.railsUp = 6 → s.boot.trained = false →
        (∃ t, exec (.dmcTrainingDone true) s = .next t ∧ t = { s with boot := { s.boot with trained := true }, dmc := t.dmc } ∧
          ∀ d, d < 2 → t.dmcN d = { s.dmcN d with trained := (s.dmcN d).fitted }) ∧
        (∃ t, exec (.dmcTrainingDone false) s = .next t ∧ t.boot.fw = .failed ∧ t.boot.bootErr = 8)) ∧
      (s.boot.trained = true → s.boot.inited = false → ∃ t, exec .memoryInitDone s = .next t ∧
        t = { s with boot := { s.boot with inited := true }, dmc := t.dmc } ∧ ∀ d, d < 2 → (t.dmcN d).memory = [] ∧ (t.dmcN d).poison = [] ∧
          (t.dmcN d).ready = (s.dmcN d).fitted) ∧
      (s.boot.inited = true → vendorFails s = true → ∃ t, exec .bringUpReady s = .next t ∧ t.boot.fw = .failed ∧ t.boot.bootErr = 9) ∧
      (s.boot.inited = true → vendorFails s = false → ∃ t, exec .bringUpReady s = .next t ∧ t.boot.fw = .ready ∧ t.time.tickRun = true ∧
        t.time.passed = 0 ∧ t.time.refK = 0 ∧ t.time.refT % 1000000 = 0 ∧ s.time.dev + 1000000 ≤ t.time.refT ∧ t.time.dev = s.time.dev ∧
        (s.boot.saved = [] ∨ s.boot.straps.nocfg = true → t.time.period = 33333333 ∧ t.flowCfg = s.flowCfg ∧ ∀ c, (t.chan c).enabled = (s.chan c).enabled)))

/-! ### The ends of waits -/

/-- R108, R118, R124, R414, R458. A request in execution whose wait ends. A transfer that fails or takes 10 ms, and a deferred command at its deadline, answer TIMEOUT; the
request leaves the list. A DMA write that completes has reached the host. A boot-flash program that fails answers INTERNAL; one that
completes a SYS_CONFIG_SAVE keeps that generation, newest first, of two, and answers. -/
def Obligations.WaitsEnd : Prop :=
  ∀ (f tag : Nat) (x : ExecEntry) (s : State), x.dead = false → x.func < 16 →
    let timedOut (t : State) : Prop := t.exec = s.exec.erase x ∧
      (t.fn x.func).rspQ = (s.fn x.func).rspQ ++ [response x.entry St.timeout s.tickField []] ∧ (∀ g, g ≠ x.func → t.fn g = s.fn g)
    (findExec s f (BitVec.ofNat 16 tag) Wait.isDma = some x →
      (∀ data, ∃ t, exec (.dmaTransferDone f tag false data) s = .next t ∧ timedOut t ∧ t = { s with exec := t.exec, fns := t.fns, out := t.out }) ∧
      (∃ t, exec (.dmaTimeout f tag) s = .next t ∧ timedOut t ∧ t = { s with exec := t.exec, fns := t.fns, out := t.out, time := t.time } ∧
        (s.time.refclk = true → x.since + 10000000 ≤ t.time.elapsed)) ∧
      (∀ a d pay data, x.wait = .dmaOut a d pay →
        (∃ o ∈ [Op.headIdGet, .roleAuditRead, .tarnPubkeyGet, .tarnSign, .roleUpdate], Op.ofCode x.entry.opcode.toNat = some o) → ∃ t, exec (.dmaTransferDone f tag true data) s = .next t ∧ Output.dmaWrite x.func a d ∈ t.out ∧
        t.exec = s.exec.erase x ∧ ∃ k, (t.fn x.func).rspQ = (s.fn x.func).rspQ ++ [response x.entry St.ok k pay])) ∧
    (∀ n, findExec s f (BitVec.ofNat 16 tag) (fun w => !w.isDma && w != .tick) = some x → entryDeadline x = some n →
      ∃ t, exec (.deferredTimeout f tag) s = .next t ∧ timedOut t ∧ (s.time.refclk = true → x.since + n ≤ t.time.elapsed)) ∧
    (∀ j rest, s.boot.queue = j :: rest → flashWaiter j s = some x →
      (∃ t, exec (.flashProgramDone false) s = .next t ∧ t.boot.flashBad = true ∧ t.exec = s.exec.erase x ∧ t.boot.saved = s.boot.saved ∧
        (t.fn x.func).rspQ = (s.fn x.func).rspQ ++ [response x.entry St.internal s.tickField []]) ∧
      (∀ k, j.work = .config k → Op.ofCode x.entry.opcode.toNat = some .sysConfigSave →
        ∃ t n, exec (.flashProgramDone true) s = .next t ∧ t.boot.queue = rest ∧ t.boot.flashBad = false ∧ t.boot.saved = (k :: s.boot.saved).take 2 ∧
          t.exec = s.exec.erase x ∧ (t.fn x.func).rspQ = (s.fn x.func).rspQ ++ [response x.entry St.ok s.tickField (le 4 n ++ le 4 k.gen)]))
/-! ### Commands that answer at once -/

/-- R120, R123, R127, R178, R202, R263, R291, R357, R390, R421, R452, R477, R509, R541. A query that is served is answered OK with its
payload of the length its row states, and changes nothing else. SYS_GROUP_GET gives the group, its size and its members;
DEC_QUERY of a handle that is not open its number, 0xFF for the core and zeros; MEM_POOL_QUERY and
MEM_ERR_QUERY of a controller that is not fitted give zeros. -/
def Obligations.QueriesAnswerAndChangeNothing : Prop :=
  ∀ (f : Nat) (q : Request) (s : State),
    (∀ p ∈ [(Op.sysNop, Instr.sysNop), (.sysCaps, .sysCaps), (.sysGroupGet, .sysGroupGet), (.chanQuery, .chanQuery), (.encQuery, .encQuery),
        (.decQuery, .decQuery), (.flowStats, .flowStats), (.memMapQuery, .memMapQuery), (.memPoolQuery, .memPoolQuery),
        (.memErrQuery, .memErrQuery), (.tarnIdGet, .tarnIdGet), (.tarnNodeQuery, .tarnNodeQuery), (.roleCounterGet, .roleCounterGet),
        (.seqQuery, .seqQuery), (.pwrQuery, .pwrQuery), (.headLifeQuery, .headLifeQuery), (.calQuery, .calQuery)],
      served p.1 f q s = true →
        ∃ pay, pay.length = p.1.info.rplen ∧ exec (p.2 f q) s = .next (replied p.1 f q St.ok pay (atMailbox f s))) ∧
    (served .timeLedgerQuery f q s = true →
      ∃ pay, pay.length = 6 * (maskEngines q).length ∧
        exec (.timeLedgerQuery f q) s = .next (replied .timeLedgerQuery f q St.ok pay (atMailbox f s))) ∧
    (served .sysGroupGet f q s = true → q.u 16 1 = 0 → ∃ n, n ≤ 32 ∧ exec (.sysGroupGet f q) s =
      .next (replied .sysGroupGet f q St.ok (le 1 (q.u 17 1) ++ le 1 0 ++ le 2 n ++ le 32 (tget s.groups (q.u 17 1)).toNat) (atMailbox f s))) ∧
    (served .decQuery f q s = true → (s.decS (q.u 16 1)).isOpen = false →
      exec (.decQuery f q) s = .next (replied .decQuery f q St.ok (le 1 (q.u 16 1) ++ [0#8, 0#8, 0xFF#8] ++ List.replicate 28 0#8) (atMailbox f s))) ∧
    (served .memPoolQuery f q s = true → (s.dmcN (q.u 16 1)).fitted = false →
      exec (.memPoolQuery f q) s = .next (replied .memPoolQuery f q St.ok (List.replicate 32 0#8) (atMailbox f s))) ∧
    (served .memErrQuery f q s = true → (s.dmcN (q.u 16 1)).fitted = false →
      exec (.memErrQuery f q) s = .next (replied .memErrQuery f q St.ok (List.replicate 32 0#8) (atMailbox f s)))

/-- R477. ROLE_COUNTER_GET returns the stored counter of R467, 8 bytes at offset 16 of the response, as one snapshot. -/
def Obligations.CounterGetReturnsTheStoredCounter : Prop :=
  ∀ (f : Nat) (q : Request) (s : State), served .roleCounterGet f q s = true →
    ∃ t r, exec (.roleCounterGet f q) s = .next t ∧ (t.fn f).rspQ = (s.fn f).rspQ ++ [r] ∧ r.status = St.ok ∧ r.payload.length = 8 ∧
      field r.toBytes 16 8 = storedCounter s % 2 ^ 64 ∧ t = { s with fns := t.fns, out := t.out, lastServed := f }

/-- R40, R45, R51, R121, R122, R126, R305, R360, R460. The commands that change something at once. SYS_GROUP_SET and SYS_FGROUP_SET set a group; ENC_EGO_UPDATE stores its
vehicle state with the time given; ROLE_CLOSE ends the session; TIME_GPTP_CONFIG sets PRIO1 and the Sync interval; TIME_PPS_CONFIG starts
or ends acquisition; FLOW_ATTACH attaches the flow and routes its source to the function; SYS_RESET begins a full reset 1 ms later; and
TIME_SET_BASE loads device time once, at the pulse where AT_PPS is 1. -/
def Obligations.ImmediateCommandsTakeEffect : Prop :=
  ∀ (f : Nat) (q : Request) (s : State),
    (served .sysGroupSet f q s = true → exec (.sysGroupSet f q) s = .next (replied .sysGroupSet f q St.ok []
      { atMailbox f s with groups := tset s.groups (q.u 16 1) (BitVec.ofNat 32 (q.u 20 4)) })) ∧
    (served .sysFgroupSet f q s = true → exec (.sysFgroupSet f q) s = .next (replied .sysFgroupSet f q St.ok []
      { atMailbox f s with fgroups := tset s.fgroups (q.u 16 1) (BitVec.ofNat 256 (q.u 20 32)) })) ∧
    (served .encEgoUpdate f q s = true → q.u 24 8 ≤ s.time.dev ∧
      exec (.encEgoUpdate f q) s = .next (replied .encEgoUpdate f q St.ok []
        { atMailbox f s with ego := some ⟨q.i 16 2, q.i 18 2, q.i 20 2, q.u 24 8, s.time.passed⟩ })) ∧
    (served .roleClose f q s = true → exec (.roleClose f q) s = .next (replied .roleClose f q St.ok []
      (modFn f (fun x => { x with session := none }) (atMailbox f s)))) ∧
    (served .timeGptpConfig f q s = true → exec (.timeGptpConfig f q) s = .next (replied .timeGptpConfig f q St.ok []
      { atMailbox f s with time := { s.time with prio1 := q.u 16 1, logSync := q.i 17 1 } })) ∧
    (served .timePpsConfig f q s = true → ∃ t, exec (.timePpsConfig f q) s = .next (replied .timePpsConfig f q St.ok [] t) ∧
      t = { atMailbox f s with time := t.time } ∧ t.time.dev = s.time.dev ∧ t.time.ppsEn = q.bit 16 0 ∧ t.time.ppsEdge = q.bit 16 1 ∧
      t.time.disc = (if !q.bit 16 0 then .free else if s.time.ppsEn then s.time.disc else .acquiring)) ∧
    (served .flowAttach f q s = true → ∃ t m, exec (.flowAttach f q) s = .next (replied .flowAttach f q St.ok [] t) ∧
      (ctxOf .flowAttach f q s).members = [m] ∧ m = q.fsel.toNat ∧ t = { atMailbox f s with flowCfg := t.flowCfg, irq := t.irq, fns := t.fns, out := t.out } ∧
      t.fcfg m = { s.fcfg m with func := if q.u 16 1 = 0xFF then none else some (q.u 16 1) } ∧ (∀ n, n ≠ m → t.fcfg n = s.fcfg n) ∧
      (tget t.irq.src (256 + m)).route = (if q.u 16 1 = 0xFF then 0 else q.u 16 1 + 1) ∧
      (∀ n, n ≠ 256 + m → tget t.irq.src n = tget s.irq.src n)) ∧
    (served .sysReset f q s = true → auditGuard s = true → ∃ t, exec (.sysReset f q) s = .next (replied .sysReset f q St.ok [] t) ∧
      t.resetAt = some (s.time.elapsed + 1000000) ∧ t.boot = s.boot ∧ t.time = s.time ∧ (∀ g, (t.fn g).reqQ = (s.fn g).reqQ)) ∧
    (served .timeSetBase f q s = true → q.bit 24 0 = false → auditGuard s = true →
      ∃ t, exec (.timeSetBase f q) s = .next (replied .timeSetBase f q St.ok (le 8 (q.u 16 8)) t) ∧
        s.time.baseSet = false ∧ t.time.baseSet = true ∧ t.time.dev = q.u 16 8 ∧ t.time.ptpTs = q.bit 24 1 ∧ t.time.tickRun = s.time.tickRun ∧
        (s.time.tickRun = true → t.time.passed = 0 ∧ t.time.refK = 0 ∧ q.u 16 8 + 1000000 ≤ t.time.refT ∧ t.time.refT % 1000000 = 0)) ∧
    (served .timeSetBase f q s = true → q.bit 24 0 = true →
      exec (.timeSetBase f q) s = .next (waiting .timeSetBase f q .pps s (atMailbox f s)))

/-- R444, R452, R458, R519. Where the released output holds enough bytes, TARN_RANDOM gives N of them and ROLE_CHALLENGE issues its nonce
of 32 as the function's one challenge, and they leave the pool; otherwise the request waits. PWR_DVFS_SET on a domain without power
clears its request and level; on one with power it sets its request, a lower level at the next boundary and a higher at once, and its
voltage is at least the floor. -/
def Obligations.EntropyAndVoltage : Prop :=
  ∀ (f : Nat) (q : Request) (s : State),
    (served .tarnRandom f q s = true →
      (q.u 16 1 ≤ s.tarn.pool.length → exec (.tarnRandom f q) s = .next (replied .tarnRandom f q St.ok (fit 32 (s.tarn.pool.take (q.u 16 1)))
        { atMailbox f s with tarn := { s.tarn with pool := s.tarn.pool.drop (q.u 16 1) } })) ∧
      (s.tarn.pool.length < q.u 16 1 → exec (.tarnRandom f q) s = .next (waiting .tarnRandom f q (.entropy (q.u 16 1) []) s (atMailbox f s)))) ∧
    (served .roleChallenge f q s = true →
      (32 ≤ s.tarn.pool.length → ∃ t, exec (.roleChallenge f q) s = .next (replied .roleChallenge f q St.ok (s.tarn.pool.take 32) t) ∧
        (t.fn f).challenge = some ⟨q.u 16 1, q.u 17 1, s.tarn.pool.take 32, s.time.elapsed⟩ ∧ t.tarn.pool = s.tarn.pool.drop 32 ∧
        (t.fn f).session = (s.fn f).session ∧ (∀ g, g ≠ f → t.fn g = s.fn g)) ∧
      (s.tarn.pool.length < 32 → exec (.roleChallenge f q) s = .next (waiting .roleChallenge f q (.entropy 32 []) s (atMailbox f s)))) ∧
    (served .pwrDvfsSet f q s = true →
      ((s.domain (q.u 16 1)).on = false → ∃ pay, exec (.pwrDvfsSet f q) s = .next (replied .pwrDvfsSet f q St.ok pay
        (modDomain (q.u 16 1) (fun y => { y with vreq := 0, level := 0, levelNext := none }) (atMailbox f s)))) ∧
      ((s.domain (q.u 16 1)).on = true → ∃ t pay, exec (.pwrDvfsSet f q) s = .next (replied .pwrDvfsSet f q St.ok pay t) ∧
        (t.domain (q.u 16 1)).vreq = q.u 18 2 ∧ (t.domain (q.u 16 1)).floor ≤ (t.domain (q.u 16 1)).vset ∧
        q.u 18 2 ≤ (t.domain (q.u 16 1)).vset ∧
        (t.domain (q.u 16 1)).level = min (s.domain (q.u 16 1)).level (q.u 17 1) ∧
        (t.domain (q.u 16 1)).levelNext = (if (s.domain (q.u 16 1)).level < q.u 17 1 then some (q.u 17 1) else none) ∧
        (s.domain (q.u 16 1)).floor ≤ (t.domain (q.u 16 1)).floor ∧
        (∀ d, d ≠ q.u 16 1 → t.domain d = s.domain d)))

/-! ### Next-tick commands -/

/-- R63, R64, R108, R109, R419, R471, R523. A next-tick command that step 12 admits waits for its boundary with its books made at once, and
one that it turns away is answered ADMISSION with no effect. An audited one leaves its record as it is admitted, one whatever channels it
names; PWR_DOMAIN_SET begins to power the domains it names that have none. -/
def Obligations.AdmittedCommandsWait : Prop :=
  ∀ (f : Nat) (q : Request) (s : State) (b : Books),
    (∀ p ∈ [(Op.chanPortSet, Instr.chanPortSet), (.chanBind, .chanBind), (.chanStart, .chanStart), (.chanStop, .chanStop),
        (.chanSensorSet, .chanSensorSet), (.chanPipeSet, .chanPipeSet), (.chanWindowSet, .chanWindowSet), (.chanWindowClear, .chanWindowClear),
        (.encStreamSet, .encStreamSet), (.encHrdSet, .encHrdSet), (.encRateSet, .encRateSet), (.encQpSet, .encQpSet),
        (.encRefreshSet, .encRefreshSet), (.encMotionSet, .encMotionSet), (.encLtrRecover, .encLtrRecover), (.encForceIdr, .encForceIdr),
        (.decOpen, .decOpen), (.decOutputSet, .decOutputSet), (.decClose, .decClose), (.flowRouteSet, .flowRouteSet),
        (.flowRateSet, .flowRateSet), (.flowWeightSet, .flowWeightSet), (.flowStart, .flowStart), (.flowStop, .flowStop),
        (.flowRingSet, .flowRingSet), (.flowCryptSet, .flowCryptSet), (.seqHookSet, .seqHookSet), (.headPolicySet, .headPolicySet),
        (.timeTickSet, .timeTickSet), (.timeChanRate, .timeChanRate)],
      (passes p.1 f q s b → exec (p.2 f q) s = .next (pendingFrom p.1 f q b s)) ∧
      (served p.1 f q s = true → admission (atMailbox f s) (ctxOf p.1 f q s) = none →
        exec (p.2 f q) s = .next (replied p.1 f q St.admission [] (atMailbox f s)))) ∧
    (∀ p ∈ [(Op.calEnable, Instr.calEnable), (.calPin, .calPin), (.calUnpin, .calUnpin), (.calReset, .calReset),
        (.encGeometrySet, .encGeometrySet), (.headUnpair, .headUnpair), (.tarnNodeInvalidate, .tarnNodeInvalidate)],
      passes p.1 f q s b → auditGuard s = true →
        ∃ t, exec (p.2 f q) s = .next (waiting p.1 f q .tick s t) ∧ t.exec = s.exec ∧ t.bookings = b.1 ∧ t.buffers = b.2 ∧
          (∀ c, (t.chan c).cfg = (s.chan c).cfg ∧ (t.chan c).enabled = (s.chan c).enabled ∧ (t.chan c).cal.enable = (s.chan c).cal.enable) ∧
          (p.1 = .calEnable ∨ p.1 = .encGeometrySet ∨ p.1 = .headUnpair → s.enrolled = true → s.roles.nextSeq < 2 ^ 32 →
            t.roles.nextSeq = s.roles.nextSeq + 1)) ∧
    (passes .pwrDomainSet f q s b → ∃ t, exec (.pwrDomainSet f q) s = .next (waiting .pwrDomainSet f q .tick s t) ∧ t.exec = s.exec ∧
      t.bookings = b.1 ∧ t.buffers = b.2 ∧
      (∀ d, d ∈ powersUp q → (s.domain d).on = false → (t.domain d).ramping = true) ∧
      (∀ d, d ∉ powersUp q ∨ (s.domain d).on = true → t.domain d = s.domain d))

/-- R58, R156, R158, R175, R181, R207, R219, R221, R227, R293, R507. At their boundary: CHAN_PORT_SET sets its port, with an empty FIFO; CHAN_BIND
the binding; CHAN_PIPE_SET the controls, and a black level steps CAL_GEN; CHAN_WINDOW_SET and CHAN_WINDOW_CLEAR windows; TIME_CHAN_RATE the rate; ENC_MOTION_SET
the motion tools; SEQ_HOOK_SET a hook; CHAN_SENSOR_SET marks its frames; HEAD_POLICY_SET the policy and attachment.
R55, R108, R110. Each that step 12 admits with the next boundary 1 ms or more away completes there, answered OK with its count. What
CHAN_PORT_SET does to frames still in the FIFO is log entry 103. -/
def Obligations.ChannelSettingsTakeEffect : Prop :=
  ∀ (f : Nat) (q : Request) (s : State),
    (completes .chanPortSet (.chanPortSet f q) f q s True fun u v => v = { u with rx := v.rx, chans := v.chans } ∧
      (∀ p, p < 16 → v.rxPort p = if p = q.u 16 1 then { u.rxPort p with
        set := true, cphy := q.u 17 1 == 1, lanes := q.u 18 1, contClk := q.bit 19 0, rate := q.u 20 2
        map := BitVec.ofNat 16 (q.u 22 2), fifo := [], hwm := 0, lag := 0 } else u.rxPort p) ∧
      ∀ c, c < 32 → v.chan c = { u.chan c with frames := (v.chan c).frames } ∧
        ((∀ l ∈ (u.rxPort (q.u 16 1)).fifo, l.ch ≠ c ∨ l.dropped = true) → (v.chan c).frames = (u.chan c).frames)) ∧
    (changesChannels .chanBind (.chanBind f q) f q s True fun _ x y =>
      y.cfg.bind = (if q.u 16 1 = 0xFF then none else some (bindOf q)) ∧ y.enabled = x.enabled ∧ y.frames = x.frames ∧
      (x.head.pairing.isSome = true → y.cfg = { x.cfg with bind := y.cfg.bind })) ∧
    (changesChannels .chanPipeSet (.chanPipeSet f q) f q s True fun _ x y =>
      y.cfg = { x.cfg with pipe := pipeOf q x.cfg.pipe } ∧ y.frames = x.frames ∧
      y.cal.gen = if q.bit 31 0 then (x.cal.gen + 1) % 2 ^ 32 else x.cal.gen) ∧
    (changesChannels .chanWindowSet (.chanWindowSet f q) f q s True fun _ x y =>
      y = { x with cfg := { x.cfg with windows := y.cfg.windows } } ∧
      ∀ i, i < 4 → tget y.cfg.windows i = if i = q.u 16 1 then some (windowOf q) else tget x.cfg.windows i) ∧
    (changesChannels .chanWindowClear (.chanWindowClear f q) f q s True fun _ x y =>
      y = { x with cfg := { x.cfg with windows := y.cfg.windows } } ∧
      ∀ i, i < 4 → tget y.cfg.windows i = if q.bit 16 i then none else tget x.cfg.windows i) ∧
    (completes .timeChanRate (.timeChanRate f q) f q s True fun u v => v = { u with chans := v.chans, out := v.out } ∧
      (∀ c, c ∉ (ctxOf .timeChanRate f q s).members → v.chan c = u.chan c) ∧
      ∀ c, c ∈ (ctxOf .timeChanRate f q s).members → v.chan c = { u.chan c with cfg := { (u.chan c).cfg with rate := some (rateOf q) } }) ∧
    (changesChannels .encMotionSet (.encMotionSet f q) f q s True fun _ x y =>
      y = { x with cfg := { x.cfg with fine := q.u 16 1 == 1, ego := q.bit 17 0 } }) ∧
    (changesChannels .seqHookSet (.seqHookSet f q) f q s True fun _ x y =>
      y = { x with cfg := { x.cfg with hooks := y.cfg.hooks } } ∧
      ∀ h, h < 6 → tget y.cfg.hooks h = if h = q.u 16 1 then hookOf q else tget x.cfg.hooks h) ∧
    (completes .chanSensorSet (.chanSensorSet f q) f q s True fun u v =>
      v = { u with chans := v.chans, buses := v.buses } ∧ (q.u 17 1 = 0 → v.buses = u.buses) ∧
      (∀ c, c ∉ (ctxOf .chanSensorSet f q s).members → v.chan c = u.chan c) ∧
      ∀ c, c ∈ (ctxOf .chanSensorSet f q s).members → (v.chan c).cfg = (u.chan c).cfg ∧ ∃ k, (v.chan c).marks = (u.chan c).marks ++ [k] ∧
        k.fromTime = u.time.boundary u.lastBoundary + 1000000 ∧ k.skip = q.u 28 1 ∧ k.marks = if q.bit 16 2 then 2 else 1) ∧
    (completes .headPolicySet (.headPolicySet f q) f q s True fun u v =>
      v = { u with chans := v.chans, buses := v.buses, out := v.out } ∧
      (∀ c, c ∉ (ctxOf .headPolicySet f q s).members → v.chan c = u.chan c) ∧
      ∀ c, c ∈ (ctxOf .headPolicySet f q s).members →
        if q.u 16 1 = 0xFF then v.chan c = { u.chan c with cfg := { (u.chan c).cfg with allowUnpaired := q.bit 19 1 } }
        else (v.chan c).cfg = { (u.chan c).cfg with allowUnpaired := q.bit 19 1, attach := some (attachOf q) } ∧
          (v.chan c).head.state = .unverified)

/-- R159, R161, R176, R281, R366, R367, R386, R451. At their boundary: CHAN_START enables each channel that is not enabled, from this boundary on, with its next record unsettled
and IDR pending in each enabled stream; CHAN_STOP disables it, and its frames in flight stay; FLOW_START activates a flow with its allotment as credit, and steps START_COUNT where it is encrypted;
FLOW_STOP deactivates it. A flow whose function has left since does not start (log entry 56).
R55, R108, R110. Each that step 12 admits with the next boundary 1 ms or more away completes there, answered OK with its count. -/
def Obligations.ChannelsAndFlowsStartAndStop : Prop :=
  ∀ (f : Nat) (q : Request) (s : State),
    (changesChannels .chanStart (.chanStart f q) f q s True fun u x y =>
      if x.enabled then y = x
      else y.enabled = true ∧ y.runFrom = u.lastBoundary ∧ y.lastRec = none ∧ y.noFrame = false ∧ y.frames = x.frames ∧ 2 ≤ y.settle ∧
        y.cfg.bind = x.cfg.bind ∧ y.cfg.rate = x.cfg.rate ∧ y.cfg.streams = x.cfg.streams ∧
        ∀ st, st < 2 → if (tget x.cfg.streams st).enable
          then (tget y.runs st).idrPending = true ∧ (tget y.runs st).recovery = (tget x.runs st).recovery
          else tget y.runs st = tget x.runs st) ∧
    (changesChannels .chanStop (.chanStop f q) f q s True fun _ x y =>
      y.enabled = false ∧ y.frames = x.frames ∧ y.cfg = x.cfg ∧ y.runs = x.runs ∧ (x.enabled = false → y = x)) ∧
    (completes .flowStart (.flowStart f q) f q s True fun u v =>
      v = { u with flows := v.flows, tarn := v.tarn, ports := v.ports } ∧
      (∀ m, m ∉ (ctxOf .flowStart f q s).members → v.flow m = u.flow m ∧ v.node (clientSlot m) = u.node (clientSlot m)) ∧
      ∀ m, m ∈ (ctxOf .flowStart f q s).members → if startBarred m u then v.flow m = u.flow m ∧ v.node (clientSlot m) = u.node (clientSlot m) else
        (v.flow m).active = true ∧ (v.flow m).stopping = false ∧ (v.flow m).items = [] ∧
        (v.flow m).credit = (v.flow m).allot ∧ (v.flow m).bytes = (u.flow m).bytes ∧
        (v.node (clientSlot m)).start = if (u.fcfg m).crypt = 0 then (u.node (clientSlot m)).start else ((u.node (clientSlot m)).start + 1) % 2 ^ 32) ∧
    (completes .flowStop (.flowStop f q) f q s True fun u v =>
      v = { u with flows := v.flows, ports := v.ports, tx := v.tx } ∧
      (∀ m, m ∉ (ctxOf .flowStop f q s).members → v.flow m = u.flow m) ∧
      ∀ m, m ∈ (ctxOf .flowStop f q s).members → (v.flow m).active = false ∧ ((u.flow m).active = false → v.flow m = u.flow m) ∧
        ((u.flow m).active = true → 2 ≤ (u.fcfg m).route → (v.flow m).items = []))

/-- R270, R272, R281, R282, R284, R310, R321, R324. At their boundary: ENC_STREAM_SET sets a stream, and one it enables begins with no reference pictures and an IDR pending; ENC_HRD_SET
its declaration; ENC_RATE_SET its rate, in CBR from the IDR it makes pending on; ENC_QP_SET, ENC_REFRESH_SET their controls;
ENC_LTR_RECOVER records the frame confirmed, and ENC_FORCE_IDR makes an IDR pending, of each enabled stream.
R55, R108, R110. Each that step 12 admits with the next boundary 1 ms or more away completes there, answered OK with its count. -/
def Obligations.StreamSettingsTakeEffect : Prop :=
  ∀ (f : Nat) (q : Request) (s : State),
    let st := q.u 16 1
    let onStream (x y : Chan) (g : StreamCfg → StreamCfg) : Prop :=
      y = { x with cfg := { x.cfg with streams := y.cfg.streams } } ∧ tget y.cfg.streams st = g (tget x.cfg.streams st) ∧
        tget y.cfg.streams (1 - st) = tget x.cfg.streams (1 - st)
    (changesChannels .encStreamSet (.encStreamSet f q) f q s True fun _ x y =>
      y = { x with cfg := { x.cfg with streams := y.cfg.streams }, runs := y.runs } ∧
      tget y.cfg.streams st = streamOf q (tget x.cfg.streams st) ∧ tget y.cfg.streams (1 - st) = tget x.cfg.streams (1 - st) ∧
      (if q.bit 20 0 && !(tget x.cfg.streams st).enable then
        (tget y.runs st).idrPending = true ∧ (tget y.runs st).short = [] ∧ (tget y.runs st).long = [] ∧ (tget y.runs st).auCount = 0 ∧
          tget y.runs (1 - st) = tget x.runs (1 - st)
      else y.runs = x.runs)) ∧
    (changesChannels .encHrdSet (.encHrdSet f q) f q s True fun _ x y =>
      if (tget x.cfg.streams st).hrd == some (hrdOf q) && (tget x.cfg.streams st).enable then y = x
      else onStream x y fun c => { c with hrd := some (hrdOf q), target := q.u 20 4 }) ∧
    (changesChannels .encRateSet (.encRateSet f q) f q s True fun _ x y =>
      (tget y.cfg.streams st).target = q.u 20 4 ∧ (tget y.cfg.streams st).hrd = (tget x.cfg.streams st).hrd ∧
      (if (tget x.cfg.streams st).enable && (tget x.cfg.streams st).hrd.any (fun h => !h.vbr) then
        (tget y.runs st).idrPending = true ∧ (tget y.runs st).nextRate = some (q.u 20 4)
      else y.runs = x.runs)) ∧
    (changesChannels .encQpSet (.encQpSet f q) f q s True fun _ x y => onStream x y fun c =>
      { c with qpFixedEn := q.bit 17 0, qpMin := q.u 18 1, qpMax := q.u 19 1, qpFixed := q.u 20 1, iDelta := q.i 21 1 }) ∧
    (changesChannels .encRefreshSet (.encRefreshSet f q) f q s True fun _ x y => onStream x y fun c =>
      { c with refreshCols := q.u 17 1 == 1, refreshPeriod := q.u 18 2, ltrPeriod := q.u 20 2 }) ∧
    (changesChannels .encLtrRecover (.encLtrRecover f q) f q s True fun _ x y =>
      y = { x with runs := y.runs } ∧ tget y.runs (1 - st) = tget x.runs (1 - st) ∧
      tget y.runs st = if (tget x.cfg.streams st).enable then { tget x.runs st with recovery := some (q.u 20 4) } else tget x.runs st) ∧
    (changesChannels .encForceIdr (.encForceIdr f q) f q s True fun _ x y => y = { x with runs := y.runs } ∧
      ∀ k, k < 2 → tget y.runs k = if (tget x.cfg.streams k).enable then { tget x.runs k with idrPending := true } else tget x.runs k)

/-- R336, R347, R355, R356, R362, R363, R373, R374, R381, R382. At their boundary: FLOW_ROUTE_SET sets the route and source, and where they change a decode stream that named the flow feeds it no longer (log entry 47); FLOW_RATE_SET,
FLOW_WEIGHT_SET, FLOW_RING_SET and FLOW_CRYPT_SET set their fields, the last with a new context of an active flow (log entry 121); DEC_OPEN opens a stream with nothing fed; DEC_CLOSE closes it, dropping
what was fed; DEC_OUTPUT_SET sets its output.
R55, R108, R110. Each that step 12 admits with the next boundary 1 ms or more away completes there, answered OK with its count. -/
def Obligations.FlowAndDecodeSettingsTakeEffect : Prop :=
  ∀ (f : Nat) (q : Request) (s : State),
    (completes .flowRouteSet (.flowRouteSet f q) f q s True fun u v =>
      v = { u with flowCfg := v.flowCfg, dec := v.dec, tx := v.tx } ∧
      (∀ m, m ∉ (ctxOf .flowRouteSet f q s).members → v.fcfg m = u.fcfg m) ∧
      ∀ m, m ∈ (ctxOf .flowRouteSet f q s).members → v.fcfg m = routeOf q (u.fcfg m) ∧
        ∀ h, h < 32 → (u.decS h).outMode = 1 → (u.decS h).outFlow = m →
          v.decS h = if (u.fcfg m).route ≠ q.u 16 1 ∨ (u.fcfg m).port ≠ q.u 17 1 ∨ (u.fcfg m).src ≠ srcOf q
            then { u.decS h with outMode := 0 } else u.decS h) ∧
    (changesFlows .flowRateSet (.flowRateSet f q) f q s fun x => { x with reserve := q.u 16 4, limit := q.u 20 4 }) ∧
    (changesFlows .flowRingSet (.flowRingSet f q) f q s fun x => { x with ring := some (q.dma 16) }) ∧
    (completes .flowWeightSet (.flowWeightSet f q) f q s True fun u v =>
      v = { u with flowCfg := v.flowCfg, flows := v.flows } ∧
      (∀ m, m ∉ (ctxOf .flowWeightSet f q s).members → v.fcfg m = u.fcfg m ∧ v.flow m = u.flow m) ∧
      ∀ m, m ∈ (ctxOf .flowWeightSet f q s).members → v.fcfg m = { u.fcfg m with weight := q.u 16 2 } ∧
        v.flow m = { u.flow m with tag := (v.flow m).tag }) ∧
    (completes .flowCryptSet (.flowCryptSet f q) f q s True fun u v =>
      v = { u with flowCfg := v.flowCfg, flows := v.flows, tarn := v.tarn } ∧
      (∀ m, m ∉ (ctxOf .flowCryptSet f q s).members → v.fcfg m = u.fcfg m ∧ v.flow m = u.flow m ∧ v.node (clientSlot m) = u.node (clientSlot m)) ∧
      ∀ m, m ∈ (ctxOf .flowCryptSet f q s).members → v.fcfg m = { u.fcfg m with crypt := q.u 16 1 } ∧
        ((u.flow m).active = false → v.flow m = u.flow m ∧ v.node (clientSlot m) = u.node (clientSlot m)) ∧
        ((u.flow m).active = true → q.u 16 1 = 0 → v.flow m = { u.flow m with key := [], orphaned := false } ∧
          v.node (clientSlot m) = u.node (clientSlot m)) ∧
        ((u.flow m).active = true → q.u 16 1 ≠ 0 → (v.flow m).orphaned = !keyUsable u (clientSlot m) ∧
          v.node (clientSlot m) = { u.node (clientSlot m) with start := ((u.node (clientSlot m)).start + 1) % 2 ^ 32 })) ∧
    (completes .decOpen (.decOpen f q) f q s True fun u v => v = { u with dec := v.dec } ∧
      ∀ h, h < 32 → v.decS h = if h = q.u 16 1 then { openOf q with openedAt := u.lastBoundary } else u.decS h) ∧
    (completes .decClose (.decClose f q) f q s True fun u v => v = { u with dec := v.dec } ∧
      (∀ h, h ≠ q.u 16 1 → v.decS h = u.decS h) ∧ (v.decS (q.u 16 1)).isOpen = false ∧
      ((u.decS (q.u 16 1)).isOpen = true → (v.decS (q.u 16 1)).units = [] ∧ (v.decS (q.u 16 1)).partial_ = none ∧
        (v.decS (q.u 16 1)).job = none ∧ (v.decS (q.u 16 1)).ready = (u.decS (q.u 16 1)).ready)) ∧
    (completes .decOutputSet (.decOutputSet f q) f q s True fun u v =>
      v = { u with dec := v.dec, tx := v.tx } ∧
      ∀ h, h < 32 → v.decS h = if h = q.u 16 1 ∧ (u.decS h).isOpen = true then outOf q (u.decS h) else u.decS h)

/-- R57, R196, R255, R257, R261, R262, R304, R435, R521. At their boundary: CAL_ENABLE sets the enables; CAL_PIN adds its pins, with their threshold, and CAL_UNPIN takes them away; CAL_RESET discards the estimates it
names; ENC_GEOMETRY_SET sets or clears the geometry; HEAD_UNPAIR ends the pairing and frees the head's key slot; TARN_NODE_INVALIDATE
gives a key of the device its new generation and orphans an imported one; PWR_DOMAIN_SET gates and powers domains; TIME_TICK_SET sets the
period from this boundary on.
R55, R108, R110. Each that step 12 admits with the next boundary 1 ms or more away completes there, answered OK with its count. -/
def Obligations.AuditedAndSystemSettingsTakeEffect : Prop :=
  ∀ (f : Nat) (q : Request) (s : State),
    (changesChannels .calEnable (.calEnable f q) f q s (auditGuard s = true) fun _ x y =>
      y.cal.enable = BitVec.ofNat 4 (q.u 16 1) ∧ y.cal.pins = x.cal.pins ∧ y.cal.applied = x.cal.applied ∧ y.cfg = x.cfg) ∧
    (changesChannels .calPin (.calPin f q) f q s (auditGuard s = true) fun _ x y =>
      y.cal.pins = x.cal.pins ||| BitVec.ofNat 4 (q.u 16 1) ∧ y.cal.enable = x.cal.enable ∧ y.cal.est = x.cal.est ∧ y.cfg = x.cfg ∧
      ∀ i, i < 4 → tget y.cal.thr i = if q.bit 16 i then q.u 18 2 else tget x.cal.thr i) ∧
    (changesChannels .calUnpin (.calUnpin f q) f q s (auditGuard s = true) fun _ x y =>
      y = { x with cal := { x.cal with pins := x.cal.pins &&& ~~~(BitVec.ofNat 4 (q.u 16 1)) } }) ∧
    (changesChannels .calReset (.calReset f q) f q s (auditGuard s = true) fun _ x y =>
      y.cal.enable = x.cal.enable ∧ y.cal.pins = x.cal.pins ∧ y.cfg.bind = x.cfg.bind ∧
      (∀ p, p < 4 → q.bit 16 p = true → tget y.cal.applied p = none ∧ (tget y.cal.est p).estimate = none ∧ (tget y.cal.est p).last = .none) ∧
      (∀ p, p < 4 → q.bit 16 p = false → tget y.cal.applied p = tget x.cal.applied p)) ∧
    (changesChannels .encGeometrySet (.encGeometrySet f q) f q s (auditGuard s = true) fun _ x y =>
      y = { x with cal := { x.cal with geometry := if geometryClear q then none else some (geometryOf q) } }) ∧
    (completes .headUnpair (.headUnpair f q) f q s (auditGuard s = true) fun u v =>
      v = { u with chans := v.chans, tarn := v.tarn, irq := v.irq, fns := v.fns, out := v.out } ∧
      ∀ c, c ∈ (ctxOf .headUnpair f q s).members → (v.chan c).head.pairing = none ∧ (v.chan c).enabled = (u.chan c).enabled ∧
        (v.chan c).cfg.bind = (u.chan c).cfg.bind ∧
        ((u.chan c).head.pairing.isSome = true → (v.node (headSlot c)).state = .free ∧ (v.chan c).head.life = none ∧
          ∀ st, st < 2 → (tget (v.chan c).runs st).short = [] ∧ (tget (v.chan c).runs st).long = [] ∧ (tget (v.chan c).runs st).idrPending = true)) ∧
    (completes .tarnNodeInvalidate (.tarnNodeInvalidate f q) f q s (auditGuard s = true) fun u v =>
      ∀ n, n = q.u 16 2 →
        ((u.node n).state = .valid → (∃ g, (n, g) ∈ u.tarn.reserved) →
          (n = 2 ∨ n = 6 ∨ 8 ≤ n ∧ n < 40 → (v.node n).state = .valid ∧ (v.node n).gen = nextGen n u) ∧
          (n = 5 → (v.node n).state = .orphaned ∧ v.tarn.evid = false) ∧ (40 ≤ n → n < 72 → (v.node n).state = .free)) ∧
        (72 ≤ n → n < 328 → v.chans = u.chans ∧ (∀ k, k ≠ n → v.node k = u.node k) ∧
        ((u.node n).state = .valid → (∃ g, (n, g) ∈ u.tarn.reserved) → (v.node n).state = .orphaned ∧
          ((u.flow (n - 72)).active = true → (u.fcfg (n - 72)).crypt ≠ 0 → (v.flow (n - 72)).orphaned = true)))) ∧
    (completes .pwrDomainSet (.pwrDomainSet f q) f q s True fun u v =>
      v = { u with power := v.power, out := v.out } ∧
      (∀ d, d ∈ gates q → (v.domain d).on = false ∧ ((u.domain d).on = false → (v.domain d).ramping = false)) ∧
      (∀ d, d ∈ powersUp q → (v.domain d).on = ((u.domain d).on || !(u.domain d).failed)) ∧
      (∀ d, d ∉ gates q → d ∉ powersUp q → v.domain d = u.domain d)) ∧
    (completes .timeTickSet (.timeTickSet f q) f q s True fun u v => v = { u with time := v.time } ∧
      v.time = { u.time with period := q.u 16 4, refT := v.time.refT, refK := u.time.passed - 1 } ∧
      (0 < u.time.passed → v.time.boundary (u.time.passed - 1) = u.time.boundary (u.time.passed - 1) ∧
        v.time.boundary u.time.passed = u.time.boundary (u.time.passed - 1) + q.u 16 4))

/-! ### Commands that wait for a buffer, the flash, a head, a bus or a controller -/

/-- R117, R118, R124, R185, R191, R193, R217, R339, R370, R413, R453, R458, R463, R476, R502, R505, R526. What these commands do as they are executed. Those with a buffer begin to
read it, or to write it with what they answer; with a length of 0 they are answered at once, and DEC_FEED completes an access unit. ROLE_OPEN consumes the
challenge; SYS_CONFIG_SAVE puts the configuration in the flash's queue; HEAD_PAIR and HEAD_ID_GET begin a check of the head, and
HEAD_I3C_XFER a transfer on its bus; PWR_SELF_REFRESH takes each controller that is not there yet towards the state it names. -/
def Obligations.DeferredCommandsBegin : Prop :=
  ∀ (f : Nat) (q : Request) (s : State),
    (∀ p ∈ [(Op.flowTemplateSet, Instr.flowTemplateSet, 128), (.tarnVerify, .tarnVerify, 160), (.seqImageLoad, .seqImageLoad, (q.dma 16).2),
        (.seqPatchApply, .seqPatchApply, (q.dma 16).2), (.roleUpdate, .roleUpdate, (q.dma 16).2)],
      served p.1 f q s = true → exec (p.2.1 f q) s = .next (waiting p.1 f q (.dma (q.dma 16).1 p.2.2) s (atMailbox f s))) ∧
    (served .chanLutLoad f q s = true →
      exec (.chanLutLoad f q) s = .next (waiting .chanLutLoad f q (.dma (q.dma 20).1 (if q.u 16 1 = 2 then 4 else lutBytes (q.u 16 1) 0)) s (atMailbox f s))) ∧
    (served .decFeed f q s = true →
      ((q.dma 20).2 = 0 → exec (.decFeed f q) s = .next (replied .decFeed f q St.ok [] (feed (q.u 16 1) [] (q.bit 17 0) (atMailbox f s)))) ∧
      ((q.dma 20).2 ≠ 0 → exec (.decFeed f q) s = .next (waiting .decFeed f q (.dma (q.dma 20).1 (q.dma 20).2) s (atMailbox f s)))) ∧
    (served .roleOpen f q s = true → ∃ t, exec (.roleOpen f q) s = .next (waiting .roleOpen f q (.dma (q.dma 20).1 64) s t) ∧
      (t.fn f).challenge = none ∧ (t.fn f).session = (s.fn f).session ∧ (∀ g, g ≠ f → t.fn g = s.fn g) ∧
      (∀ c, (s.fn f).challenge = some c → s.time.elapsed < c.issued + 5000000000 → c.role = q.u 16 1 → c.slot = q.u 17 1 →
        (t.fn f).opening = (q.tag, c) :: (s.fn f).opening)) ∧
    (served .tarnSign f q s = true →
      ((q.dma 32).2 = 0 → exec (.tarnSign f q) s = .next (replied .tarnSign f q St.ok [] (atMailbox f s))) ∧
      ((q.dma 32).2 ≠ 0 → (q.dma 20).2 ≠ 0 →
        exec (.tarnSign f q) s = .next (waiting .tarnSign f q (.dma (q.dma 20).1 (q.dma 20).2) s (atMailbox f s))) ∧
      ((q.dma 32).2 ≠ 0 → (q.dma 20).2 = 0 → s.tarn.pool.length < 32 →
        exec (.tarnSign f q) s = .next (waiting .tarnSign f q (.entropy 32 []) s (atMailbox f s)))) ∧
    (served .roleAuditRead f q s = true → ∃ pay recs, pay.length = 8 ∧ recs <+: s.roles.audit.drop (q.u 16 4 - oldestSeq s) ∧ recs.length ≤ (q.dma 20).2 / 64 ∧
      exec (.roleAuditRead f q) s = .next (if recs.isEmpty then replied .roleAuditRead f q St.ok pay (atMailbox f s)
        else waiting .roleAuditRead f q (.dmaOut (q.dma 20).1 recs.flatten pay) s (atMailbox f s))) ∧
    (served .tarnPubkeyGet f q s = true → exec (.tarnPubkeyGet f q) s = .next (
      if (q.dma 16).2 = 0 then replied .tarnPubkeyGet f q St.ok [] (atMailbox f s)
      else waiting .tarnPubkeyGet f q (.dmaOut (q.dma 16).1 (pubkeyBytes s) []) s (atMailbox f s))) ∧
    (served .sysConfigSave f q s = true → ∃ t c, exec (.sysConfigSave f q) s = .next (waiting .sysConfigSave f q .flash s t) ∧
      t.boot = { s.boot with queue := s.boot.queue ++ [⟨.config c, some (f, q.tag)⟩] } ∧ c.channels = s.chans.toList.map Chan.cfg ∧
      c.flows = s.flowCfg.toList ∧ c.groups = s.groups ∧ c.fgroups = s.fgroups ∧
      (∀ x l, s.boot.saved = x :: l → c.gen = (x.gen + 1) % 2 ^ 32)) ∧
    (∀ m, (ctxOf .headPair f q s).members = [m] → served .headPair f q s = true →
      ∃ t, exec (.headPair f q) s = .next (waiting .headPair f q (.check m) s t) ∧ t = { atMailbox f s with chans := t.chans } ∧
        ∃ k, (t.chan m).head.checks = (s.chan m).head.checks ++ [k] ∧ k.why = .pair f q.tag ∧ k.step = .due) ∧
    (∀ m, (ctxOf .headIdGet f q s).members = [m] → served .headIdGet f q s = true →
      ((q.dma 16).2 = 0 → exec (.headIdGet f q) s = .next (replied .headIdGet f q St.ok [] (atMailbox f s))) ∧
      ((q.dma 16).2 ≠ 0 → ∃ t, exec (.headIdGet f q) s = .next (waiting .headIdGet f q (.check m) s t) ∧ t = { atMailbox f s with chans := t.chans } ∧
        ∃ k, (t.chan m).head.checks = (s.chan m).head.checks ++ [k] ∧ k.why = .idGet f q.tag ∧ k.step = .due)) ∧
    (∀ m a, (ctxOf .headI3cXfer f q s).members = [m] → (s.chan m).cfg.attach = some a → a.bus < 8 → served .headI3cXfer f q s = true →
      ∃ t, exec (.headI3cXfer f q) s = .next (waiting .headI3cXfer f q (.bus m) s t) ∧ t = { atMailbox f s with buses := t.buses, out := t.out } ∧
        (∃ x ∈ tget t.buses a.bus, x.use_ = .hostXfer f q.tag ∧ x.ch = m) ∧ (∀ b, b ≠ a.bus → tget t.buses b = tget s.buses b)) ∧
    (served .pwrSelfRefresh f q s = true →
      let ds := (srMask q).filter fun d => (s.dmcN d).selfRef != (q.u 17 1 == 0)
      (ds = [] → exec (.pwrSelfRefresh f q) s = .next (replied .pwrSelfRefresh f q St.ok [] (atMailbox f s))) ∧
      (ds ≠ [] → ∃ t, exec (.pwrSelfRefresh f q) s = .next (waiting .pwrSelfRefresh f q (.selfRefresh (sumOf ds fun d => 2 ^ d)) s t) ∧
        t = { atMailbox f s with dmc := t.dmc } ∧ (∀ d, d ∉ ds → t.dmcN d = s.dmcN d) ∧
        ∀ d, d ∈ ds → t.dmcN d = if q.u 17 1 = 0 then { s.dmcN d with entering := true } else { s.dmcN d with leaving := true }))

/-- R118, R217, R339, R370, R453, R459, R465, R467, R502, R505 and the rest of each command's own rule. How these commands go on, from the
request in execution and, of each, from the command to its response, the transfer of its buffer, the flash program, the bus transaction or
the boundary between. With its buffer read TARN_VERIFY is answered; DEC_FEED adds to its stream; ROLE_OPEN opens the session or
fails; SEQ_IMAGE_LOAD loads its class; CHAN_LUT_LOAD and FLOW_TEMPLATE_SET wait, admitted, for their boundary, where the table or the template comes into
force, as does the level of SEQ_PATCH_APPLY. ROLE_UPDATE stores its counter and its credential once programmed. -/
def Obligations.DeferredCommandsComplete : Prop :=
  (∀ (f tag : Nat) (q : Request) (data : List Byte) (x : ExecEntry) (u : State), x.dead = false → x.func < 16 → x.entry.req = q →
     let isOp (o : Op) : Prop := x.entry = o.entry q
     let ends (t : State) (st : Byte) : Prop := t.exec.length + 1 = u.exec.length ∧ (t.fn x.func).rspQ = (u.fn x.func).rspQ ++ [response x.entry st u.tickField []]
     (∀ a n, dmaWaits u f tag = some x → x.wait = .dma a n →
       let y := { x with data := fit n data }
       let s1 := updExec x y u
       (isOp .tarnVerify → ∃ t, exec (.dmaTransferDone f tag true data) u = .next t ∧
         ends t (if verify (slice y.data 0 64) (slice y.data 64 32) (slice y.data 96 64) then St.ok else St.authFail)) ∧
       (isOp .decFeed → (u.decS (q.u 16 1)).isOpen = true → 0 < n → q.u 16 1 < 32 → ∃ t, exec (.dmaTransferDone f tag true data) u = .next t ∧ ends t St.ok ∧
         (∀ h, h ≠ q.u 16 1 → t.decS h = u.decS h) ∧
         (q.bit 17 0 = false → (t.decS (q.u 16 1)).units = (u.decS (q.u 16 1)).units) ∧
         (q.bit 17 0 = true → (t.decS (q.u 16 1)).partial_ = none ∧
           ∃ k, (t.decS (q.u 16 1)).units = (u.decS (q.u 16 1)).units ++ [k] ∧ fit n data <:+ k.bytes)) ∧
       (isOp .roleOpen → auditGuard u = true → ∃ t st, exec (.dmaTransferDone f tag true data) u = .next t ∧ ends t st ∧
         (st = St.ok ∧ (t.fn x.func).session = some ⟨q.u 16 1, q.u 17 1⟩ ∨ st = St.authFail ∧ (t.fn x.func).session = (u.fn x.func).session) ∧
         (u.tarn.tampered = true ∨ (∀ c, (q.tag, c) ∉ (u.fn x.func).opening) → st = St.authFail)) ∧
       (isOp .seqImageLoad → (q.dma 16).2 = imageLen y.data → imageGood y.data = true → loadState (y.ctx .seqImageLoad) s1 = none →
         auditGuard u = true → q.bit 28 0 = false → field y.data 5 1 < 2 →
         ∃ t, exec (.dmaTransferDone f tag true data) u = .next t ∧ ends t (if signedGood s1 y.data then St.ok else St.authFail) ∧
           (∀ k, k ≠ field y.data 5 1 → tget t.cls k = tget u.cls k) ∧ (signedGood s1 y.data = false → t.cls = u.cls) ∧
           (signedGood s1 y.data = true →
             if field y.data 6 1 = 0 then (tget t.cls (field y.data 5 1)).vendorIn = true ∧ (tget t.cls (field y.data 5 1)).vendorPatch = 0
             else (tget t.cls (field y.data 5 1)).openIn = true ∧ (tget t.cls (field y.data 5 1)).openPatch = 0)) ∧
       (∀ b, isOp .chanLutLoad → lutResume (y.ctx .chanLutLoad) n s1 = (.wait .tick, s1) → dataCheck (y.ctx .chanLutLoad) (.wait .tick, s1) = (.wait .tick, s1) →
         admission s1 (y.ctx .chanLutLoad) = some b → ∃ t, exec (.dmaTransferDone f tag true data) u = .next t ∧ t = { withBooks b u with exec := t.exec } ∧
           { y with wait := .tick, since := u.time.elapsed } ∈ t.exec) ∧
       (∀ b, isOp .flowTemplateSet → tmplGood (fit 128 y.data) = true → (∀ m ∈ x.members, flowOn s1 m = false) → admission s1 (y.ctx .flowTemplateSet) = some b →
         dataCheck (y.ctx .flowTemplateSet) (.wait .tick, s1) = (.wait .tick, s1) →
         ∃ t, exec (.dmaTransferDone f tag true data) u = .next t ∧ t = { withBooks b u with exec := t.exec } ∧
           { y with wait := .tick, since := u.time.elapsed } ∈ t.exec)) ∧
     (isOp .chanLutLoad → ∃ v, takesEffect x u v ∧ v = { u with chans := v.chans } ∧ (∀ c, c ∉ x.members → v.chan c = u.chan c) ∧
       ∀ c, c ∈ x.members → c < 32 → (v.chan c).cfg.bind = (u.chan c).cfg.bind ∧ (v.chan c).enabled = (u.chan c).enabled ∧
         (q.u 16 1 = 1 → (v.chan c).cfg.pipe.shading = halves x.data 0 1156) ∧
         (q.u 16 1 = 2 → (v.chan c).cfg.pipe.defectStatic = defectPixels x.data ∧ (v.chan c).cfg.pipe.defectEst = []) ∧
         (q.u 16 1 = 3 → (v.chan c).cfg.pipe.matrix = (List.range 9).map fun i => sfield x.data (2 * i) 2) ∧
         (q.u 16 1 = 4 → (v.chan c).cfg.pipe.tone = halves x.data 0 65) ∧
         (q.u 16 1 = 5 → (v.chan c).cfg.pipe.gamma = halves x.data 0 257)) ∧
     (isOp .flowTemplateSet → ∃ v, takesEffect x u v ∧ v = { u with flowCfg := v.flowCfg } ∧ (∀ m, m ∉ x.members → v.fcfg m = u.fcfg m) ∧
       ∀ m, m ∈ x.members → m < 256 → v.fcfg m = { u.fcfg m with template := some (fit 128 x.data) }) ∧
     (isOp .seqPatchApply → field x.data 5 1 < 2 → ∃ v, takesEffect x u v ∧ (∀ k, k ≠ field x.data 5 1 → tget v.cls k = tget u.cls k) ∧
       (if field x.data 6 1 = 0 then (tget v.cls (field x.data 5 1)).vendorPatch = field x.data 12 1
         else (tget v.cls (field x.data 5 1)).openPatch = field x.data 12 1)) ∧
     (∀ c p j rest, isOp .headPair → x.members = [c] → c < 32 → u.boot.queue = j :: rest → j.work = .pairing c → flashWaiter j u = some x →
       (u.chan c).head.pairPending = some p → ∃ t, exec (.flashProgramDone true) u = .next t ∧ t.boot.queue = rest ∧ t.exec = u.exec.erase x ∧
         (t.chan c).head.pairPending = some { p with ready := true } ∧
         (t.fn x.func).rspQ = (u.fn x.func).rspQ ++ [response x.entry St.ok u.tickField []]) ∧
     (∀ j rest, isOp .roleUpdate → u.boot.queue = j :: rest → j.work = .credential → flashWaiter j u = some x →
       let m := Update.ofBytes x.data
       m.kind = 0x12 → m.target < 16 → ∃ t, exec (.flashProgramDone true) u = .next t ∧ t.boot.queue = rest ∧ t.exec = u.exec.erase x ∧
         t.roles.counterLow = m.counter % 2 ^ 40 ∧ credential t 1 m.target = (if isZeros m.body then none else some m.body) ∧
         (∀ g, (t.fn g).session.any (fun k => k.role == 1 && k.slot == m.target) = false) ∧
         (t.fn x.func).rspQ = (u.fn x.func).rspQ ++ [response x.entry St.ok u.tickField (le 8 m.counter)])) ∧
  (∀ (f : Nat) (q : Request) (data : List Byte) (s : State), tagFree f q s →
    let ends (o : Op) (st : Byte) (pay : List Byte) (v : State) : Prop :=
      v.exec = s.exec ∧ (v.fn f).rspQ = (s.fn f).rspQ ++ [response (o.entry q) st s.tickField pay]
    let oks (o : Op) (pay : List Byte) (v : State) : Prop := ends o St.ok pay v
    (served .tarnVerify f q s = true →
      let d := fit 160 data
      withBuffer (.tarnVerify f q) f q data s (replied .tarnVerify f q
        (if verify (slice d 0 64) (slice d 64 32) (slice d 96 64) then St.ok else St.authFail) [] (atMailbox f s))) ∧
    (served .decFeed f q s = true → (q.dma 20).2 ≠ 0 →
      withBuffer (.decFeed f q) f q data s
        (replied .decFeed f q St.ok [] (feed (q.u 16 1) (fit (q.dma 20).2 data) (q.bit 17 0) (atMailbox f s)))) ∧
    (served .tarnPubkeyGet f q s = true → (q.dma 16).2 ≠ 0 →
      withBuffer (.tarnPubkeyGet f q) f q data s
        (replied .tarnPubkeyGet f q St.ok [] (emit (.dmaWrite f (q.dma 16).1 (pubkeyBytes s)) (atMailbox f s)))) ∧
    (served .roleAuditRead f q s = true →
      let recs := (s.roles.audit.drop (max (q.u 16 4) (oldestSeq s) - oldestSeq s)).take ((q.dma 20).2 / 64)
      recs ≠ [] → withBuffer (.roleAuditRead f q) f q data s (replied .roleAuditRead f q St.ok
        (le 4 s.roles.nextSeq ++ le 2 recs.length ++
          le 1 ((if q.u 16 4 < oldestSeq s then 1 else 0) + 2 * (if s.roles.auditLost then 1 else 0)) ++ [0#8])
        (emit (.dmaWrite f (q.dma 20).1 recs.flatten) (atMailbox f s)))) ∧
    (∀ c key, served .roleOpen f q s = true → auditGuard s = true → s.tarn.tampered = false → (s.fn f).challenge = some c →
      c.role = q.u 16 1 → c.slot = q.u 17 1 → s.time.elapsed < c.issued + 5000000000 → credential s c.role c.slot = some key →
      ∃ v, withBuffer (.roleOpen f q) f q data s v ∧ (v.fn f).challenge = none ∧
        if verify key (hash (openMessage s c.nonce c.role c.slot f)) (fit 64 data) then
          oks .roleOpen [] v ∧ (v.fn f).session = some ⟨c.role, c.slot⟩
        else ends .roleOpen St.authFail [] v ∧ (v.fn f).session = (s.fn f).session) ∧
    (served .tarnSign f q s = true → (q.dma 32).2 ≠ 0 → 32 ≤ s.tarn.pool.length → auditGuard s = true →
      let signed (d : List Byte) (v : State) : Prop := oks .tarnSign [] v ∧ v.tarn.pool = s.tarn.pool.drop 32 ∧
        Output.dmaWrite f (q.dma 32).1 (fit 64 (Config.ecdsaSign (privKey s (q.u 16 2)) (s.tarn.pool.take 32) (hash (q.bytes 44 16 ++ d)))) ∈ v.out
      ((q.dma 20).2 = 0 → ∃ v, withBuffer (.tarnSign f q) f q [] s v ∧ signed [] v) ∧
      ((q.dma 20).2 ≠ 0 → ∃ t v, withBuffer (.tarnSign f q) f q data s t ∧
        exec (.dmaTransferDone f q.tag.toNat true []) t = .next v ∧ signed (fit (q.dma 20).2 data) v)) ∧
    (served .seqImageLoad f q s = true → auditGuard s = true → q.bit 28 0 = false →
      let d := fit (q.dma 16).2 data
      let y := readEntry .seqImageLoad f q (q.dma 16).1 (q.dma 16).2 data s
      (q.dma 16).2 = imageLen d → imageGood d = true →
      loadState (y.ctx .seqImageLoad) (readState .seqImageLoad f q (q.dma 16).1 (q.dma 16).2 data s) = none →
      ∃ v, withBuffer (.seqImageLoad f q) f q data s v ∧ (∀ k, k ≠ field d 5 1 → tget v.cls k = tget s.cls k) ∧
        if signedGood s d = false then ends .seqImageLoad St.authFail [] v ∧ v.cls = s.cls
        else oks .seqImageLoad [] v ∧ (if field d 6 1 = 0 then (tget v.cls (field d 5 1)).vendorIn = true ∧ (tget v.cls (field d 5 1)).vendorVer = field d 8 4
         else (tget v.cls (field d 5 1)).openIn = true ∧ (tget v.cls (field d 5 1)).openVer = field d 8 4)) ∧
    (∀ b, served .seqPatchApply f q s = true → auditGuard s = true → q.bit 28 0 = false → oneTickAhead s →
      let d := fit (q.dma 16).2 data
      let y := readEntry .seqPatchApply f q (q.dma 16).1 (q.dma 16).2 data s
      let s1 := readState .seqPatchApply f q (q.dma 16).1 (q.dma 16).2 data s
      (q.dma 16).2 = patchLen d → patchGood s d = true → loadState (y.ctx .seqPatchApply) s1 = none →
      admission s1 (y.ctx .seqPatchApply) = some b →
      ∃ t, withBuffer (.seqPatchApply f q) f q data s t ∧
       if signedGood s d = false then ends .seqPatchApply St.authFail [] t ∧ t.cls = s.cls
       else completesAtBoundary { y with wait := .tick } t fun u v =>
        (∀ k, k ≠ field d 5 1 → tget v.cls k = tget u.cls k) ∧
        (if field d 6 1 = 0 then (tget v.cls (field d 5 1)).vendorPatch = field d 12 1 else (tget v.cls (field d 5 1)).openPatch = field d 12 1)) ∧
    (∀ b, served .flowTemplateSet f q s = true → oneTickAhead s →
      let d := fit 128 data
      let y := readEntry .flowTemplateSet f q (q.dma 16).1 128 data s
      tmplGood d = true → (∀ m ∈ y.members, flowOn s m = false) →
      admission (readState .flowTemplateSet f q (q.dma 16).1 128 data s) (y.ctx .flowTemplateSet) = some b →
      ∃ t, withBuffer (.flowTemplateSet f q) f q data s t ∧ completesAtBoundary { y with wait := .tick } t fun u v =>
        v = { u with flowCfg := v.flowCfg } ∧ (∀ m, m ∉ y.members → v.fcfg m = u.fcfg m) ∧
        ∀ m, m ∈ y.members → v.fcfg m = { u.fcfg m with template := some d }) ∧
    (served .chanLutLoad f q s = true →
      let k := q.u 16 1
      let n := if k = 2 then 4 else lutBytes k 0
      let y := readEntry .chanLutLoad f q (q.dma 20).1 n data s
      let s1 := readState .chanLutLoad f q (q.dma 20).1 n data s
      (∀ b, oneTickAhead s → lutResume (y.ctx .chanLutLoad) n s1 = (.wait .tick, s1) →
        dataCheck (y.ctx .chanLutLoad) (.wait .tick, s1) = (.wait .tick, s1) → admission s1 (y.ctx .chanLutLoad) = some b →
        ∃ t, withBuffer (.chanLutLoad f q) f q data s t ∧ completesAtBoundary { y with wait := .tick } t fun u v =>
          v = { u with chans := v.chans } ∧ (∀ c, c ∉ y.members → v.chan c = u.chan c) ∧
          ∀ c, c ∈ y.members → (v.chan c).cfg.bind = (u.chan c).cfg.bind ∧ (v.chan c).enabled = (u.chan c).enabled ∧
            (k = 0 → (v.chan c).cfg.pipe.decompand = (List.range 33).map fun i => (field y.data (8 * i) 4, field y.data (8 * i + 4) 4)) ∧
            (k = 1 → (v.chan c).cfg.pipe.shading = halves y.data 0 1156) ∧
            (k = 2 → (v.chan c).cfg.pipe.defectStatic = defectPixels y.data ∧ (v.chan c).cfg.pipe.defectEst = []) ∧
            (k = 3 → (v.chan c).cfg.pipe.matrix = (List.range 9).map fun i => sfield y.data (2 * i) 2) ∧
            (k = 4 → (v.chan c).cfg.pipe.tone = halves y.data 0 65) ∧
            (k = 5 → (v.chan c).cfg.pipe.gamma = halves y.data 0 257)) ∧
      (∀ m, k = 2 → field y.data 0 4 = m → 0 < m → m ≤ 4096 → 4 + 4 * m ≤ (q.dma 20).2 →
        withBuffer (.chanLutLoad f q) f q data s { s1 with exec := s.exec ++ [{ y with wait := .dma (q.dma 20).1 (4 + 4 * m) }] })) ∧
    (served .roleUpdate f q s = true → s.boot.queue = [] →
      let m := Update.ofBytes (fit (q.dma 16).2 data)
      (q.dma 16).2 = 128 + m.bodyLen → auditGuard s = true →
      ∃ t, withBuffer (.roleUpdate f q) f q data s t ∧
        match checkUpdate s m with
        | some st => ends .roleUpdate st [] t ∧ t.roles.counterLow = s.roles.counterLow ∧ (∀ r n, credential t r n = credential s r n)
        | none => m.kind ≠ 0x01 → ∃ v, exec (.flashProgramDone true) t = .next v ∧ oks .roleUpdate (le 8 m.counter) v ∧
          (m.kind ≠ 0x02 → v.roles.counterLow = m.counter % 2 ^ 40) ∧
          (m.kind = 0x12 → credential v 1 m.target = if isZeros m.body then none else some m.body)) ∧
    (served .sysConfigSave f q s = true → s.boot.queue = [] →
      ∃ t v c n, exec (.sysConfigSave f q) s = .next t ∧ exec (.flashProgramDone true) t = .next v ∧
        oks .sysConfigSave (le 4 n ++ le 4 c.gen) v ∧ v.boot.saved = (c :: s.boot.saved).take 2 ∧
        c.channels = s.chans.toList.map Chan.cfg ∧ c.flows = s.flowCfg.toList) ∧
    (∀ m a, served .headI3cXfer f q s = true → (ctxOf .headI3cXfer f q s).members = [m] → (s.chan m).cfg.attach = some a → a.bus < 8 →
      tget s.buses a.bus = [] → mayStart s .host = true →
      ∃ t v, exec (.headI3cXfer f q) s = .next t ∧ exec (.i3cTransactionDone a.bus (.ack data)) t = .next v ∧
        t.out = .bus a.bus (busAddress m a) (q.bytes 20 (q.u 17 1)) (q.u 18 1) (q.bit 19 0) :: s.out ∧
        oks .headI3cXfer (fit 16 (if q.u 18 1 = 0 then [] else fit (q.u 18 1) data)) v ∧ tget v.buses a.bus = []) ∧
    (∀ d, served .pwrSelfRefresh f q s = true → d < s.nDmc → ((srMask q).filter fun d => (s.dmcN d).selfRef != (q.u 17 1 == 0)) = [d] →
      (s.dmcN d).entering = false → (s.dmcN d).leaving = false → (∀ x ∈ s.exec, ∀ n, x.wait ≠ .selfRefresh n) →
      (q.u 17 1 = 0 → ∃ t v, exec (.pwrSelfRefresh f q) s = .next t ∧ exec (.selfRefreshEntryDone d) t = .next v ∧
        oks .pwrSelfRefresh [] v ∧ (v.dmcN d).selfRef = true) ∧
      (q.u 17 1 ≠ 0 → ∃ t v, exec (.pwrSelfRefresh f q) s = .next t ∧ exec (.selfRefreshExitDone d) t = .next v ∧
        oks .pwrSelfRefresh [] v ∧ (v.dmcN d).selfRef = false))) ∧
  (∀ (c : Nat) (p : PairPending) (s : State), c < 32 → (s.chan c).head.pairPending = some p → p.ready = true → (s.chan c).head.changeAt = none →
    s.clockRuns = true → s.time.tickRun = true → s.power.watchdog = false → s.resetAt = none → s.exec = [] →
    ∃ t, exec .masterTickBoundary s = .next t ∧ (t.chan c).head.pairPending = none ∧
      (p.same = true → (t.chan c).head.pairing = (s.chan c).head.pairing) ∧
      (p.same = false → (t.chan c).head.pairing = some p.pairing ∧ (t.node (40 + c)).state = .valid ∧ (t.node (40 + c)).gen = p.gen))
end

