-- ==== Sys2Proof/Laws/State.lean ====
section
/-!
SUPPORT. The small lemmas of State: what each update of one field leaves as it was, and what it reads back. All are true by
unfolding, so that no later proof unfolds a record update.
-/
namespace Sys2Proof.Machine

/-! ### Tables -/

section
variable {α : Type} {n : Nat}

theorem tget_of_lt [Inhabited α] (v : Vector α n) {i : Nat} (h : i < n) : tget v i = v[i] := by simp [tget, h]

@[simp] theorem tget_tset_same [Inhabited α] (v : Vector α n) {i : Nat} (h : i < n) (a : α) : tget (tset v i a) i = a := by
  simp [tget, tset, h]

@[simp] theorem tget_tset_ne [Inhabited α] (v : Vector α n) {i j : Nat} (h : i ≠ j) (a : α) : tget (tset v i a) j = tget v j := by
  simp [tget, tset, Vector.getElem?_setIfInBounds_ne h]

/-- Setting the default beyond the end changes nothing that is read. -/
theorem tset_beyond (v : Vector α n) {i : Nat} (h : n ≤ i) (a : α) : tset v i a = v := by
  ext j hj
  simp only [tset, Vector.getElem_setIfInBounds]
  split
  · omega
  · rfl

@[simp] theorem tget_tmod_same [Inhabited α] (v : Vector α n) {i : Nat} (h : i < n) (g : α → α) : tget (tmod v i g) i = g (tget v i) := by
  simp [tmod, h]

@[simp] theorem tget_tmod_ne [Inhabited α] (v : Vector α n) {i j : Nat} (h : i ≠ j) (g : α → α) : tget (tmod v i g) j = tget v j := by
  simp [tmod, h]

/-- Whatever entry is read after an update, it is the old one or the changed one. -/
theorem tget_tmod [Inhabited α] (v : Vector α n) (i j : Nat) (g : α → α) :
    tget (tmod v i g) j = if i = j ∧ i < n then g (tget v j) else tget v j := by
  by_cases h : i = j
  · subst h
    by_cases hn : i < n
    · simp [hn]
    · simp [hn, tmod, tset_beyond v (Nat.le_of_not_lt hn)]
  · simp [h]

@[simp] theorem tget_map {β : Type} [Inhabited α] [Inhabited β] (v : Vector α n) (g : α → β) {i : Nat} (h : i < n) :
    tget (v.map g) i = g (tget v i) := by simp [tget, h]

@[simp] theorem tget_ofFn [Inhabited α] (g : Fin n → α) {i : Nat} (h : i < n) : tget (Vector.ofFn g) i = g ⟨i, h⟩ := by
  simp [tget, h]

@[simp] theorem tget_replicate [Inhabited α] (a : α) {i : Nat} (h : i < n) : tget (Vector.replicate n a) i = a := by simp [tget, h]

theorem tmod_tmod [Inhabited α] (v : Vector α n) (i : Nat) (g k : α → α) : tmod (tmod v i g) i k = tmod v i (fun x => k (g x)) := by
  by_cases h : i < n
  · have e : tget (tset v i (g (tget v i))) i = g (tget v i) := tget_tset_same v h _
    simp only [tmod, e]
    simp [tset]
  · simp [tmod, tset_beyond _ (Nat.le_of_not_lt h)]
end

/-! ### Updates of a part of a unit, by the update of the unit -/

section
variable (s : State)

@[simp] theorem modCfg_eq (c : Nat) (g : ChanCfg → ChanCfg) : modCfg c g s = modChan c (fun x => { x with cfg := g x.cfg }) s := rfl
@[simp] theorem modHead_eq (c : Nat) (g : Head → Head) : modHead c g s = modChan c (fun x => { x with head := g x.head }) s := rfl
@[simp] theorem modCal_eq (c : Nat) (g : Cal → Cal) : modCal c g s = modChan c (fun x => { x with cal := g x.cal }) s := rfl
@[simp] theorem modEst_eq (c p : Nat) (g : Estimator → Estimator) : modEst c p g s = modChan c (fun x => { x with cal := { x.cal with est := tmod x.cal.est p g } }) s := rfl
@[simp] theorem modRun_eq (c st : Nat) (g : StreamRun → StreamRun) : modRun c st g s = modChan c (fun x => { x with runs := tmod x.runs st g }) s := rfl
@[simp] theorem modStream_eq (c st : Nat) (g : StreamCfg → StreamCfg) : modStream c st g s = modChan c (fun x => { x with cfg := { x.cfg with streams := tmod x.cfg.streams st g } }) s := rfl
@[simp] theorem modNode_eq (n : Nat) (g : Node → Node) : modNode n g s = modTarn (fun t => { t with nodes := tmod t.nodes n g }) s := rfl
@[simp] theorem modDomain_eq (d : Nat) (g : Domain → Domain) : modDomain d g s = modPower (fun p => { p with domains := tmod p.domains d g }) s := rfl
@[simp] theorem modRail_eq (r : Nat) (g : Rail → Rail) : modRail r g s = modPower (fun p => { p with rails := tmod p.rails r g }) s := rfl
end

/-! ### Frames: what an update leaves as it was -/

section
variable (s : State)

@[simp] theorem pending_modFn (f : Nat) (g : Fn → Fn) : (modFn f g s).pending = s.pending := rfl
@[simp] theorem fuses_modFn (f : Nat) (g : Fn → Fn) : (modFn f g s).fuses = s.fuses := rfl
@[simp] theorem boot_modFn (f : Nat) (g : Fn → Fn) : (modFn f g s).boot = s.boot := rfl
@[simp] theorem time_modFn (f : Nat) (g : Fn → Fn) : (modFn f g s).time = s.time := rfl
@[simp] theorem numVfs_modFn (f : Nat) (g : Fn → Fn) : (modFn f g s).numVfs = s.numVfs := rfl
@[simp] theorem vfEnable_modFn (f : Nat) (g : Fn → Fn) : (modFn f g s).vfEnable = s.vfEnable := rfl
@[simp] theorem irq_modFn (f : Nat) (g : Fn → Fn) : (modFn f g s).irq = s.irq := rfl
@[simp] theorem exec_modFn (f : Nat) (g : Fn → Fn) : (modFn f g s).exec = s.exec := rfl
@[simp] theorem lastServed_modFn (f : Nat) (g : Fn → Fn) : (modFn f g s).lastServed = s.lastServed := rfl
@[simp] theorem resetAt_modFn (f : Nat) (g : Fn → Fn) : (modFn f g s).resetAt = s.resetAt := rfl
@[simp] theorem groups_modFn (f : Nat) (g : Fn → Fn) : (modFn f g s).groups = s.groups := rfl
@[simp] theorem fgroups_modFn (f : Nat) (g : Fn → Fn) : (modFn f g s).fgroups = s.fgroups := rfl
@[simp] theorem rx_modFn (f : Nat) (g : Fn → Fn) : (modFn f g s).rx = s.rx := rfl
@[simp] theorem chans_modFn (f : Nat) (g : Fn → Fn) : (modFn f g s).chans = s.chans := rfl
@[simp] theorem buses_modFn (f : Nat) (g : Fn → Fn) : (modFn f g s).buses = s.buses := rfl
@[simp] theorem ego_modFn (f : Nat) (g : Fn → Fn) : (modFn f g s).ego = s.ego := rfl
@[simp] theorem egoTaken_modFn (f : Nat) (g : Fn → Fn) : (modFn f g s).egoTaken = s.egoTaken := rfl
@[simp] theorem dec_modFn (f : Nat) (g : Fn → Fn) : (modFn f g s).dec = s.dec := rfl
@[simp] theorem flowCfg_modFn (f : Nat) (g : Fn → Fn) : (modFn f g s).flowCfg = s.flowCfg := rfl
@[simp] theorem flows_modFn (f : Nat) (g : Fn → Fn) : (modFn f g s).flows = s.flows := rfl
@[simp] theorem ports_modFn (f : Nat) (g : Fn → Fn) : (modFn f g s).ports = s.ports := rfl
@[simp] theorem lanes_modFn (f : Nat) (g : Fn → Fn) : (modFn f g s).lanes = s.lanes := rfl
@[simp] theorem gts10_modFn (f : Nat) (g : Fn → Fn) : (modFn f g s).gts10 = s.gts10 := rfl
@[simp] theorem mps_modFn (f : Nat) (g : Fn → Fn) : (modFn f g s).mps = s.mps := rfl
@[simp] theorem tx_modFn (f : Nat) (g : Fn → Fn) : (modFn f g s).tx = s.tx := rfl
@[simp] theorem macOther_modFn (f : Nat) (g : Fn → Fn) : (modFn f g s).macOther = s.macOther := rfl
@[simp] theorem dmc_modFn (f : Nat) (g : Fn → Fn) : (modFn f g s).dmc = s.dmc := rfl
@[simp] theorem tarn_modFn (f : Nat) (g : Fn → Fn) : (modFn f g s).tarn = s.tarn := rfl
@[simp] theorem roles_modFn (f : Nat) (g : Fn → Fn) : (modFn f g s).roles = s.roles := rfl
@[simp] theorem cls_modFn (f : Nat) (g : Fn → Fn) : (modFn f g s).cls = s.cls := rfl
@[simp] theorem seqs_modFn (f : Nat) (g : Fn → Fn) : (modFn f g s).seqs = s.seqs := rfl
@[simp] theorem power_modFn (f : Nat) (g : Fn → Fn) : (modFn f g s).power = s.power := rfl
@[simp] theorem bookings_modFn (f : Nat) (g : Fn → Fn) : (modFn f g s).bookings = s.bookings := rfl
@[simp] theorem buffers_modFn (f : Nat) (g : Fn → Fn) : (modFn f g s).buffers = s.buffers := rfl
@[simp] theorem meters_modFn (f : Nat) (g : Fn → Fn) : (modFn f g s).meters = s.meters := rfl
@[simp] theorem out_modFn (f : Nat) (g : Fn → Fn) : (modFn f g s).out = s.out := rfl
@[simp] theorem fresh_modFn (f : Nat) (g : Fn → Fn) : (modFn f g s).fresh = s.fresh := rfl
@[simp] theorem chan_modFn (f : Nat) (g : Fn → Fn) (i : Nat) : (modFn f g s).chan i = s.chan i := rfl
@[simp] theorem flow_modFn (f : Nat) (g : Fn → Fn) (i : Nat) : (modFn f g s).flow i = s.flow i := rfl
@[simp] theorem fcfg_modFn (f : Nat) (g : Fn → Fn) (i : Nat) : (modFn f g s).fcfg i = s.fcfg i := rfl
@[simp] theorem decS_modFn (f : Nat) (g : Fn → Fn) (i : Nat) : (modFn f g s).decS i = s.decS i := rfl
@[simp] theorem dmcN_modFn (f : Nat) (g : Fn → Fn) (i : Nat) : (modFn f g s).dmcN i = s.dmcN i := rfl
@[simp] theorem rxPort_modFn (f : Nat) (g : Fn → Fn) (i : Nat) : (modFn f g s).rxPort i = s.rxPort i := rfl
@[simp] theorem target_modFn (f : Nat) (g : Fn → Fn) (i : Nat) : (modFn f g s).target i = s.target i := rfl
@[simp] theorem nChan_modFn (f : Nat) (g : Fn → Fn) : (modFn f g s).nChan = s.nChan := rfl
@[simp] theorem nFlow_modFn (f : Nat) (g : Fn → Fn) : (modFn f g s).nFlow = s.nFlow := rfl
@[simp] theorem nEnc_modFn (f : Nat) (g : Fn → Fn) : (modFn f g s).nEnc = s.nEnc := rfl
@[simp] theorem nDec_modFn (f : Nat) (g : Fn → Fn) : (modFn f g s).nDec = s.nDec := rfl
@[simp] theorem nTx_modFn (f : Nat) (g : Fn → Fn) : (modFn f g s).nTx = s.nTx := rfl
@[simp] theorem nDmc_modFn (f : Nat) (g : Fn → Fn) : (modFn f g s).nDmc = s.nDmc := rfl
@[simp] theorem hasVision_modFn (f : Nat) (g : Fn → Fn) : (modFn f g s).hasVision = s.hasVision := rfl
@[simp] theorem ready_modFn (f : Nat) (g : Fn → Fn) : (modFn f g s).ready = s.ready := rfl
@[simp] theorem tickField_modFn (f : Nat) (g : Fn → Fn) : (modFn f g s).tickField = s.tickField := rfl
@[simp] theorem lastBoundary_modFn (f : Nat) (g : Fn → Fn) : (modFn f g s).lastBoundary = s.lastBoundary := rfl

@[simp] theorem pending_modChan (c : Nat) (g : Chan → Chan) : (modChan c g s).pending = s.pending := rfl
@[simp] theorem fuses_modChan (c : Nat) (g : Chan → Chan) : (modChan c g s).fuses = s.fuses := rfl
@[simp] theorem boot_modChan (c : Nat) (g : Chan → Chan) : (modChan c g s).boot = s.boot := rfl
@[simp] theorem time_modChan (c : Nat) (g : Chan → Chan) : (modChan c g s).time = s.time := rfl
@[simp] theorem fns_modChan (c : Nat) (g : Chan → Chan) : (modChan c g s).fns = s.fns := rfl
@[simp] theorem numVfs_modChan (c : Nat) (g : Chan → Chan) : (modChan c g s).numVfs = s.numVfs := rfl
@[simp] theorem vfEnable_modChan (c : Nat) (g : Chan → Chan) : (modChan c g s).vfEnable = s.vfEnable := rfl
@[simp] theorem irq_modChan (c : Nat) (g : Chan → Chan) : (modChan c g s).irq = s.irq := rfl
@[simp] theorem exec_modChan (c : Nat) (g : Chan → Chan) : (modChan c g s).exec = s.exec := rfl
@[simp] theorem lastServed_modChan (c : Nat) (g : Chan → Chan) : (modChan c g s).lastServed = s.lastServed := rfl
@[simp] theorem resetAt_modChan (c : Nat) (g : Chan → Chan) : (modChan c g s).resetAt = s.resetAt := rfl
@[simp] theorem groups_modChan (c : Nat) (g : Chan → Chan) : (modChan c g s).groups = s.groups := rfl
@[simp] theorem fgroups_modChan (c : Nat) (g : Chan → Chan) : (modChan c g s).fgroups = s.fgroups := rfl
@[simp] theorem rx_modChan (c : Nat) (g : Chan → Chan) : (modChan c g s).rx = s.rx := rfl
@[simp] theorem buses_modChan (c : Nat) (g : Chan → Chan) : (modChan c g s).buses = s.buses := rfl
@[simp] theorem ego_modChan (c : Nat) (g : Chan → Chan) : (modChan c g s).ego = s.ego := rfl
@[simp] theorem egoTaken_modChan (c : Nat) (g : Chan → Chan) : (modChan c g s).egoTaken = s.egoTaken := rfl
@[simp] theorem dec_modChan (c : Nat) (g : Chan → Chan) : (modChan c g s).dec = s.dec := rfl
@[simp] theorem flowCfg_modChan (c : Nat) (g : Chan → Chan) : (modChan c g s).flowCfg = s.flowCfg := rfl
@[simp] theorem flows_modChan (c : Nat) (g : Chan → Chan) : (modChan c g s).flows = s.flows := rfl
@[simp] theorem ports_modChan (c : Nat) (g : Chan → Chan) : (modChan c g s).ports = s.ports := rfl
@[simp] theorem lanes_modChan (c : Nat) (g : Chan → Chan) : (modChan c g s).lanes = s.lanes := rfl
@[simp] theorem gts10_modChan (c : Nat) (g : Chan → Chan) : (modChan c g s).gts10 = s.gts10 := rfl
@[simp] theorem mps_modChan (c : Nat) (g : Chan → Chan) : (modChan c g s).mps = s.mps := rfl
@[simp] theorem tx_modChan (c : Nat) (g : Chan → Chan) : (modChan c g s).tx = s.tx := rfl
@[simp] theorem macOther_modChan (c : Nat) (g : Chan → Chan) : (modChan c g s).macOther = s.macOther := rfl
@[simp] theorem dmc_modChan (c : Nat) (g : Chan → Chan) : (modChan c g s).dmc = s.dmc := rfl
@[simp] theorem tarn_modChan (c : Nat) (g : Chan → Chan) : (modChan c g s).tarn = s.tarn := rfl
@[simp] theorem roles_modChan (c : Nat) (g : Chan → Chan) : (modChan c g s).roles = s.roles := rfl
@[simp] theorem cls_modChan (c : Nat) (g : Chan → Chan) : (modChan c g s).cls = s.cls := rfl
@[simp] theorem seqs_modChan (c : Nat) (g : Chan → Chan) : (modChan c g s).seqs = s.seqs := rfl
@[simp] theorem power_modChan (c : Nat) (g : Chan → Chan) : (modChan c g s).power = s.power := rfl
@[simp] theorem bookings_modChan (c : Nat) (g : Chan → Chan) : (modChan c g s).bookings = s.bookings := rfl
@[simp] theorem buffers_modChan (c : Nat) (g : Chan → Chan) : (modChan c g s).buffers = s.buffers := rfl
@[simp] theorem meters_modChan (c : Nat) (g : Chan → Chan) : (modChan c g s).meters = s.meters := rfl
@[simp] theorem out_modChan (c : Nat) (g : Chan → Chan) : (modChan c g s).out = s.out := rfl
@[simp] theorem fresh_modChan (c : Nat) (g : Chan → Chan) : (modChan c g s).fresh = s.fresh := rfl
@[simp] theorem fn_modChan (c : Nat) (g : Chan → Chan) (i : Nat) : (modChan c g s).fn i = s.fn i := rfl
@[simp] theorem flow_modChan (c : Nat) (g : Chan → Chan) (i : Nat) : (modChan c g s).flow i = s.flow i := rfl
@[simp] theorem fcfg_modChan (c : Nat) (g : Chan → Chan) (i : Nat) : (modChan c g s).fcfg i = s.fcfg i := rfl
@[simp] theorem decS_modChan (c : Nat) (g : Chan → Chan) (i : Nat) : (modChan c g s).decS i = s.decS i := rfl
@[simp] theorem dmcN_modChan (c : Nat) (g : Chan → Chan) (i : Nat) : (modChan c g s).dmcN i = s.dmcN i := rfl
@[simp] theorem rxPort_modChan (c : Nat) (g : Chan → Chan) (i : Nat) : (modChan c g s).rxPort i = s.rxPort i := rfl
@[simp] theorem target_modChan (c : Nat) (g : Chan → Chan) (i : Nat) : (modChan c g s).target i = s.target i := rfl
@[simp] theorem nChan_modChan (c : Nat) (g : Chan → Chan) : (modChan c g s).nChan = s.nChan := rfl
@[simp] theorem nFlow_modChan (c : Nat) (g : Chan → Chan) : (modChan c g s).nFlow = s.nFlow := rfl
@[simp] theorem nEnc_modChan (c : Nat) (g : Chan → Chan) : (modChan c g s).nEnc = s.nEnc := rfl
@[simp] theorem nDec_modChan (c : Nat) (g : Chan → Chan) : (modChan c g s).nDec = s.nDec := rfl
@[simp] theorem nTx_modChan (c : Nat) (g : Chan → Chan) : (modChan c g s).nTx = s.nTx := rfl
@[simp] theorem nDmc_modChan (c : Nat) (g : Chan → Chan) : (modChan c g s).nDmc = s.nDmc := rfl
@[simp] theorem hasVision_modChan (c : Nat) (g : Chan → Chan) : (modChan c g s).hasVision = s.hasVision := rfl
@[simp] theorem ready_modChan (c : Nat) (g : Chan → Chan) : (modChan c g s).ready = s.ready := rfl
@[simp] theorem tickField_modChan (c : Nat) (g : Chan → Chan) : (modChan c g s).tickField = s.tickField := rfl
@[simp] theorem lastBoundary_modChan (c : Nat) (g : Chan → Chan) : (modChan c g s).lastBoundary = s.lastBoundary := rfl

@[simp] theorem pending_modRx (p : Nat) (g : RxPort → RxPort) : (modRx p g s).pending = s.pending := rfl
@[simp] theorem fuses_modRx (p : Nat) (g : RxPort → RxPort) : (modRx p g s).fuses = s.fuses := rfl
@[simp] theorem boot_modRx (p : Nat) (g : RxPort → RxPort) : (modRx p g s).boot = s.boot := rfl
@[simp] theorem time_modRx (p : Nat) (g : RxPort → RxPort) : (modRx p g s).time = s.time := rfl
@[simp] theorem fns_modRx (p : Nat) (g : RxPort → RxPort) : (modRx p g s).fns = s.fns := rfl
@[simp] theorem numVfs_modRx (p : Nat) (g : RxPort → RxPort) : (modRx p g s).numVfs = s.numVfs := rfl
@[simp] theorem vfEnable_modRx (p : Nat) (g : RxPort → RxPort) : (modRx p g s).vfEnable = s.vfEnable := rfl
@[simp] theorem irq_modRx (p : Nat) (g : RxPort → RxPort) : (modRx p g s).irq = s.irq := rfl
@[simp] theorem exec_modRx (p : Nat) (g : RxPort → RxPort) : (modRx p g s).exec = s.exec := rfl
@[simp] theorem lastServed_modRx (p : Nat) (g : RxPort → RxPort) : (modRx p g s).lastServed = s.lastServed := rfl
@[simp] theorem resetAt_modRx (p : Nat) (g : RxPort → RxPort) : (modRx p g s).resetAt = s.resetAt := rfl
@[simp] theorem groups_modRx (p : Nat) (g : RxPort → RxPort) : (modRx p g s).groups = s.groups := rfl
@[simp] theorem fgroups_modRx (p : Nat) (g : RxPort → RxPort) : (modRx p g s).fgroups = s.fgroups := rfl
@[simp] theorem chans_modRx (p : Nat) (g : RxPort → RxPort) : (modRx p g s).chans = s.chans := rfl
@[simp] theorem buses_modRx (p : Nat) (g : RxPort → RxPort) : (modRx p g s).buses = s.buses := rfl
@[simp] theorem ego_modRx (p : Nat) (g : RxPort → RxPort) : (modRx p g s).ego = s.ego := rfl
@[simp] theorem egoTaken_modRx (p : Nat) (g : RxPort → RxPort) : (modRx p g s).egoTaken = s.egoTaken := rfl
@[simp] theorem dec_modRx (p : Nat) (g : RxPort → RxPort) : (modRx p g s).dec = s.dec := rfl
@[simp] theorem flowCfg_modRx (p : Nat) (g : RxPort → RxPort) : (modRx p g s).flowCfg = s.flowCfg := rfl
@[simp] theorem flows_modRx (p : Nat) (g : RxPort → RxPort) : (modRx p g s).flows = s.flows := rfl
@[simp] theorem ports_modRx (p : Nat) (g : RxPort → RxPort) : (modRx p g s).ports = s.ports := rfl
@[simp] theorem lanes_modRx (p : Nat) (g : RxPort → RxPort) : (modRx p g s).lanes = s.lanes := rfl
@[simp] theorem gts10_modRx (p : Nat) (g : RxPort → RxPort) : (modRx p g s).gts10 = s.gts10 := rfl
@[simp] theorem mps_modRx (p : Nat) (g : RxPort → RxPort) : (modRx p g s).mps = s.mps := rfl
@[simp] theorem tx_modRx (p : Nat) (g : RxPort → RxPort) : (modRx p g s).tx = s.tx := rfl
@[simp] theorem macOther_modRx (p : Nat) (g : RxPort → RxPort) : (modRx p g s).macOther = s.macOther := rfl
@[simp] theorem dmc_modRx (p : Nat) (g : RxPort → RxPort) : (modRx p g s).dmc = s.dmc := rfl
@[simp] theorem tarn_modRx (p : Nat) (g : RxPort → RxPort) : (modRx p g s).tarn = s.tarn := rfl
@[simp] theorem roles_modRx (p : Nat) (g : RxPort → RxPort) : (modRx p g s).roles = s.roles := rfl
@[simp] theorem cls_modRx (p : Nat) (g : RxPort → RxPort) : (modRx p g s).cls = s.cls := rfl
@[simp] theorem seqs_modRx (p : Nat) (g : RxPort → RxPort) : (modRx p g s).seqs = s.seqs := rfl
@[simp] theorem power_modRx (p : Nat) (g : RxPort → RxPort) : (modRx p g s).power = s.power := rfl
@[simp] theorem bookings_modRx (p : Nat) (g : RxPort → RxPort) : (modRx p g s).bookings = s.bookings := rfl
@[simp] theorem buffers_modRx (p : Nat) (g : RxPort → RxPort) : (modRx p g s).buffers = s.buffers := rfl
@[simp] theorem meters_modRx (p : Nat) (g : RxPort → RxPort) : (modRx p g s).meters = s.meters := rfl
@[simp] theorem out_modRx (p : Nat) (g : RxPort → RxPort) : (modRx p g s).out = s.out := rfl
@[simp] theorem fresh_modRx (p : Nat) (g : RxPort → RxPort) : (modRx p g s).fresh = s.fresh := rfl
@[simp] theorem fn_modRx (p : Nat) (g : RxPort → RxPort) (i : Nat) : (modRx p g s).fn i = s.fn i := rfl
@[simp] theorem chan_modRx (p : Nat) (g : RxPort → RxPort) (i : Nat) : (modRx p g s).chan i = s.chan i := rfl
@[simp] theorem flow_modRx (p : Nat) (g : RxPort → RxPort) (i : Nat) : (modRx p g s).flow i = s.flow i := rfl
@[simp] theorem fcfg_modRx (p : Nat) (g : RxPort → RxPort) (i : Nat) : (modRx p g s).fcfg i = s.fcfg i := rfl
@[simp] theorem decS_modRx (p : Nat) (g : RxPort → RxPort) (i : Nat) : (modRx p g s).decS i = s.decS i := rfl
@[simp] theorem dmcN_modRx (p : Nat) (g : RxPort → RxPort) (i : Nat) : (modRx p g s).dmcN i = s.dmcN i := rfl
@[simp] theorem target_modRx (p : Nat) (g : RxPort → RxPort) (i : Nat) : (modRx p g s).target i = s.target i := rfl
@[simp] theorem nChan_modRx (p : Nat) (g : RxPort → RxPort) : (modRx p g s).nChan = s.nChan := rfl
@[simp] theorem nFlow_modRx (p : Nat) (g : RxPort → RxPort) : (modRx p g s).nFlow = s.nFlow := rfl
@[simp] theorem nEnc_modRx (p : Nat) (g : RxPort → RxPort) : (modRx p g s).nEnc = s.nEnc := rfl
@[simp] theorem nDec_modRx (p : Nat) (g : RxPort → RxPort) : (modRx p g s).nDec = s.nDec := rfl
@[simp] theorem nTx_modRx (p : Nat) (g : RxPort → RxPort) : (modRx p g s).nTx = s.nTx := rfl
@[simp] theorem nDmc_modRx (p : Nat) (g : RxPort → RxPort) : (modRx p g s).nDmc = s.nDmc := rfl
@[simp] theorem hasVision_modRx (p : Nat) (g : RxPort → RxPort) : (modRx p g s).hasVision = s.hasVision := rfl
@[simp] theorem ready_modRx (p : Nat) (g : RxPort → RxPort) : (modRx p g s).ready = s.ready := rfl
@[simp] theorem tickField_modRx (p : Nat) (g : RxPort → RxPort) : (modRx p g s).tickField = s.tickField := rfl
@[simp] theorem lastBoundary_modRx (p : Nat) (g : RxPort → RxPort) : (modRx p g s).lastBoundary = s.lastBoundary := rfl

@[simp] theorem pending_modFlow (m : Nat) (g : FlowRun → FlowRun) : (modFlow m g s).pending = s.pending := rfl
@[simp] theorem fuses_modFlow (m : Nat) (g : FlowRun → FlowRun) : (modFlow m g s).fuses = s.fuses := rfl
@[simp] theorem boot_modFlow (m : Nat) (g : FlowRun → FlowRun) : (modFlow m g s).boot = s.boot := rfl
@[simp] theorem time_modFlow (m : Nat) (g : FlowRun → FlowRun) : (modFlow m g s).time = s.time := rfl
@[simp] theorem fns_modFlow (m : Nat) (g : FlowRun → FlowRun) : (modFlow m g s).fns = s.fns := rfl
@[simp] theorem numVfs_modFlow (m : Nat) (g : FlowRun → FlowRun) : (modFlow m g s).numVfs = s.numVfs := rfl
@[simp] theorem vfEnable_modFlow (m : Nat) (g : FlowRun → FlowRun) : (modFlow m g s).vfEnable = s.vfEnable := rfl
@[simp] theorem irq_modFlow (m : Nat) (g : FlowRun → FlowRun) : (modFlow m g s).irq = s.irq := rfl
@[simp] theorem exec_modFlow (m : Nat) (g : FlowRun → FlowRun) : (modFlow m g s).exec = s.exec := rfl
@[simp] theorem lastServed_modFlow (m : Nat) (g : FlowRun → FlowRun) : (modFlow m g s).lastServed = s.lastServed := rfl
@[simp] theorem resetAt_modFlow (m : Nat) (g : FlowRun → FlowRun) : (modFlow m g s).resetAt = s.resetAt := rfl
@[simp] theorem groups_modFlow (m : Nat) (g : FlowRun → FlowRun) : (modFlow m g s).groups = s.groups := rfl
@[simp] theorem fgroups_modFlow (m : Nat) (g : FlowRun → FlowRun) : (modFlow m g s).fgroups = s.fgroups := rfl
@[simp] theorem rx_modFlow (m : Nat) (g : FlowRun → FlowRun) : (modFlow m g s).rx = s.rx := rfl
@[simp] theorem chans_modFlow (m : Nat) (g : FlowRun → FlowRun) : (modFlow m g s).chans = s.chans := rfl
@[simp] theorem buses_modFlow (m : Nat) (g : FlowRun → FlowRun) : (modFlow m g s).buses = s.buses := rfl
@[simp] theorem ego_modFlow (m : Nat) (g : FlowRun → FlowRun) : (modFlow m g s).ego = s.ego := rfl
@[simp] theorem egoTaken_modFlow (m : Nat) (g : FlowRun → FlowRun) : (modFlow m g s).egoTaken = s.egoTaken := rfl
@[simp] theorem dec_modFlow (m : Nat) (g : FlowRun → FlowRun) : (modFlow m g s).dec = s.dec := rfl
@[simp] theorem flowCfg_modFlow (m : Nat) (g : FlowRun → FlowRun) : (modFlow m g s).flowCfg = s.flowCfg := rfl
@[simp] theorem ports_modFlow (m : Nat) (g : FlowRun → FlowRun) : (modFlow m g s).ports = s.ports := rfl
@[simp] theorem lanes_modFlow (m : Nat) (g : FlowRun → FlowRun) : (modFlow m g s).lanes = s.lanes := rfl
@[simp] theorem gts10_modFlow (m : Nat) (g : FlowRun → FlowRun) : (modFlow m g s).gts10 = s.gts10 := rfl
@[simp] theorem mps_modFlow (m : Nat) (g : FlowRun → FlowRun) : (modFlow m g s).mps = s.mps := rfl
@[simp] theorem tx_modFlow (m : Nat) (g : FlowRun → FlowRun) : (modFlow m g s).tx = s.tx := rfl
@[simp] theorem macOther_modFlow (m : Nat) (g : FlowRun → FlowRun) : (modFlow m g s).macOther = s.macOther := rfl
@[simp] theorem dmc_modFlow (m : Nat) (g : FlowRun → FlowRun) : (modFlow m g s).dmc = s.dmc := rfl
@[simp] theorem tarn_modFlow (m : Nat) (g : FlowRun → FlowRun) : (modFlow m g s).tarn = s.tarn := rfl
@[simp] theorem roles_modFlow (m : Nat) (g : FlowRun → FlowRun) : (modFlow m g s).roles = s.roles := rfl
@[simp] theorem cls_modFlow (m : Nat) (g : FlowRun → FlowRun) : (modFlow m g s).cls = s.cls := rfl
@[simp] theorem seqs_modFlow (m : Nat) (g : FlowRun → FlowRun) : (modFlow m g s).seqs = s.seqs := rfl
@[simp] theorem power_modFlow (m : Nat) (g : FlowRun → FlowRun) : (modFlow m g s).power = s.power := rfl
@[simp] theorem bookings_modFlow (m : Nat) (g : FlowRun → FlowRun) : (modFlow m g s).bookings = s.bookings := rfl
@[simp] theorem buffers_modFlow (m : Nat) (g : FlowRun → FlowRun) : (modFlow m g s).buffers = s.buffers := rfl
@[simp] theorem meters_modFlow (m : Nat) (g : FlowRun → FlowRun) : (modFlow m g s).meters = s.meters := rfl
@[simp] theorem out_modFlow (m : Nat) (g : FlowRun → FlowRun) : (modFlow m g s).out = s.out := rfl
@[simp] theorem fresh_modFlow (m : Nat) (g : FlowRun → FlowRun) : (modFlow m g s).fresh = s.fresh := rfl
@[simp] theorem fn_modFlow (m : Nat) (g : FlowRun → FlowRun) (i : Nat) : (modFlow m g s).fn i = s.fn i := rfl
@[simp] theorem chan_modFlow (m : Nat) (g : FlowRun → FlowRun) (i : Nat) : (modFlow m g s).chan i = s.chan i := rfl
@[simp] theorem fcfg_modFlow (m : Nat) (g : FlowRun → FlowRun) (i : Nat) : (modFlow m g s).fcfg i = s.fcfg i := rfl
@[simp] theorem decS_modFlow (m : Nat) (g : FlowRun → FlowRun) (i : Nat) : (modFlow m g s).decS i = s.decS i := rfl
@[simp] theorem dmcN_modFlow (m : Nat) (g : FlowRun → FlowRun) (i : Nat) : (modFlow m g s).dmcN i = s.dmcN i := rfl
@[simp] theorem rxPort_modFlow (m : Nat) (g : FlowRun → FlowRun) (i : Nat) : (modFlow m g s).rxPort i = s.rxPort i := rfl
@[simp] theorem target_modFlow (m : Nat) (g : FlowRun → FlowRun) (i : Nat) : (modFlow m g s).target i = s.target i := rfl
@[simp] theorem nChan_modFlow (m : Nat) (g : FlowRun → FlowRun) : (modFlow m g s).nChan = s.nChan := rfl
@[simp] theorem nFlow_modFlow (m : Nat) (g : FlowRun → FlowRun) : (modFlow m g s).nFlow = s.nFlow := rfl
@[simp] theorem nEnc_modFlow (m : Nat) (g : FlowRun → FlowRun) : (modFlow m g s).nEnc = s.nEnc := rfl
@[simp] theorem nDec_modFlow (m : Nat) (g : FlowRun → FlowRun) : (modFlow m g s).nDec = s.nDec := rfl
@[simp] theorem nTx_modFlow (m : Nat) (g : FlowRun → FlowRun) : (modFlow m g s).nTx = s.nTx := rfl
@[simp] theorem nDmc_modFlow (m : Nat) (g : FlowRun → FlowRun) : (modFlow m g s).nDmc = s.nDmc := rfl
@[simp] theorem hasVision_modFlow (m : Nat) (g : FlowRun → FlowRun) : (modFlow m g s).hasVision = s.hasVision := rfl
@[simp] theorem ready_modFlow (m : Nat) (g : FlowRun → FlowRun) : (modFlow m g s).ready = s.ready := rfl
@[simp] theorem tickField_modFlow (m : Nat) (g : FlowRun → FlowRun) : (modFlow m g s).tickField = s.tickField := rfl
@[simp] theorem lastBoundary_modFlow (m : Nat) (g : FlowRun → FlowRun) : (modFlow m g s).lastBoundary = s.lastBoundary := rfl

@[simp] theorem pending_modFcfg (m : Nat) (g : FlowCfg → FlowCfg) : (modFcfg m g s).pending = s.pending := rfl
@[simp] theorem fuses_modFcfg (m : Nat) (g : FlowCfg → FlowCfg) : (modFcfg m g s).fuses = s.fuses := rfl
@[simp] theorem boot_modFcfg (m : Nat) (g : FlowCfg → FlowCfg) : (modFcfg m g s).boot = s.boot := rfl
@[simp] theorem time_modFcfg (m : Nat) (g : FlowCfg → FlowCfg) : (modFcfg m g s).time = s.time := rfl
@[simp] theorem fns_modFcfg (m : Nat) (g : FlowCfg → FlowCfg) : (modFcfg m g s).fns = s.fns := rfl
@[simp] theorem numVfs_modFcfg (m : Nat) (g : FlowCfg → FlowCfg) : (modFcfg m g s).numVfs = s.numVfs := rfl
@[simp] theorem vfEnable_modFcfg (m : Nat) (g : FlowCfg → FlowCfg) : (modFcfg m g s).vfEnable = s.vfEnable := rfl
@[simp] theorem irq_modFcfg (m : Nat) (g : FlowCfg → FlowCfg) : (modFcfg m g s).irq = s.irq := rfl
@[simp] theorem exec_modFcfg (m : Nat) (g : FlowCfg → FlowCfg) : (modFcfg m g s).exec = s.exec := rfl
@[simp] theorem lastServed_modFcfg (m : Nat) (g : FlowCfg → FlowCfg) : (modFcfg m g s).lastServed = s.lastServed := rfl
@[simp] theorem resetAt_modFcfg (m : Nat) (g : FlowCfg → FlowCfg) : (modFcfg m g s).resetAt = s.resetAt := rfl
@[simp] theorem groups_modFcfg (m : Nat) (g : FlowCfg → FlowCfg) : (modFcfg m g s).groups = s.groups := rfl
@[simp] theorem fgroups_modFcfg (m : Nat) (g : FlowCfg → FlowCfg) : (modFcfg m g s).fgroups = s.fgroups := rfl
@[simp] theorem rx_modFcfg (m : Nat) (g : FlowCfg → FlowCfg) : (modFcfg m g s).rx = s.rx := rfl
@[simp] theorem chans_modFcfg (m : Nat) (g : FlowCfg → FlowCfg) : (modFcfg m g s).chans = s.chans := rfl
@[simp] theorem buses_modFcfg (m : Nat) (g : FlowCfg → FlowCfg) : (modFcfg m g s).buses = s.buses := rfl
@[simp] theorem ego_modFcfg (m : Nat) (g : FlowCfg → FlowCfg) : (modFcfg m g s).ego = s.ego := rfl
@[simp] theorem egoTaken_modFcfg (m : Nat) (g : FlowCfg → FlowCfg) : (modFcfg m g s).egoTaken = s.egoTaken := rfl
@[simp] theorem dec_modFcfg (m : Nat) (g : FlowCfg → FlowCfg) : (modFcfg m g s).dec = s.dec := rfl
@[simp] theorem flows_modFcfg (m : Nat) (g : FlowCfg → FlowCfg) : (modFcfg m g s).flows = s.flows := rfl
@[simp] theorem ports_modFcfg (m : Nat) (g : FlowCfg → FlowCfg) : (modFcfg m g s).ports = s.ports := rfl
@[simp] theorem lanes_modFcfg (m : Nat) (g : FlowCfg → FlowCfg) : (modFcfg m g s).lanes = s.lanes := rfl
@[simp] theorem gts10_modFcfg (m : Nat) (g : FlowCfg → FlowCfg) : (modFcfg m g s).gts10 = s.gts10 := rfl
@[simp] theorem mps_modFcfg (m : Nat) (g : FlowCfg → FlowCfg) : (modFcfg m g s).mps = s.mps := rfl
@[simp] theorem tx_modFcfg (m : Nat) (g : FlowCfg → FlowCfg) : (modFcfg m g s).tx = s.tx := rfl
@[simp] theorem macOther_modFcfg (m : Nat) (g : FlowCfg → FlowCfg) : (modFcfg m g s).macOther = s.macOther := rfl
@[simp] theorem dmc_modFcfg (m : Nat) (g : FlowCfg → FlowCfg) : (modFcfg m g s).dmc = s.dmc := rfl
@[simp] theorem tarn_modFcfg (m : Nat) (g : FlowCfg → FlowCfg) : (modFcfg m g s).tarn = s.tarn := rfl
@[simp] theorem roles_modFcfg (m : Nat) (g : FlowCfg → FlowCfg) : (modFcfg m g s).roles = s.roles := rfl
@[simp] theorem cls_modFcfg (m : Nat) (g : FlowCfg → FlowCfg) : (modFcfg m g s).cls = s.cls := rfl
@[simp] theorem seqs_modFcfg (m : Nat) (g : FlowCfg → FlowCfg) : (modFcfg m g s).seqs = s.seqs := rfl
@[simp] theorem power_modFcfg (m : Nat) (g : FlowCfg → FlowCfg) : (modFcfg m g s).power = s.power := rfl
@[simp] theorem bookings_modFcfg (m : Nat) (g : FlowCfg → FlowCfg) : (modFcfg m g s).bookings = s.bookings := rfl
@[simp] theorem buffers_modFcfg (m : Nat) (g : FlowCfg → FlowCfg) : (modFcfg m g s).buffers = s.buffers := rfl
@[simp] theorem meters_modFcfg (m : Nat) (g : FlowCfg → FlowCfg) : (modFcfg m g s).meters = s.meters := rfl
@[simp] theorem out_modFcfg (m : Nat) (g : FlowCfg → FlowCfg) : (modFcfg m g s).out = s.out := rfl
@[simp] theorem fresh_modFcfg (m : Nat) (g : FlowCfg → FlowCfg) : (modFcfg m g s).fresh = s.fresh := rfl
@[simp] theorem fn_modFcfg (m : Nat) (g : FlowCfg → FlowCfg) (i : Nat) : (modFcfg m g s).fn i = s.fn i := rfl
@[simp] theorem chan_modFcfg (m : Nat) (g : FlowCfg → FlowCfg) (i : Nat) : (modFcfg m g s).chan i = s.chan i := rfl
@[simp] theorem flow_modFcfg (m : Nat) (g : FlowCfg → FlowCfg) (i : Nat) : (modFcfg m g s).flow i = s.flow i := rfl
@[simp] theorem decS_modFcfg (m : Nat) (g : FlowCfg → FlowCfg) (i : Nat) : (modFcfg m g s).decS i = s.decS i := rfl
@[simp] theorem dmcN_modFcfg (m : Nat) (g : FlowCfg → FlowCfg) (i : Nat) : (modFcfg m g s).dmcN i = s.dmcN i := rfl
@[simp] theorem rxPort_modFcfg (m : Nat) (g : FlowCfg → FlowCfg) (i : Nat) : (modFcfg m g s).rxPort i = s.rxPort i := rfl
@[simp] theorem target_modFcfg (m : Nat) (g : FlowCfg → FlowCfg) (i : Nat) : (modFcfg m g s).target i = s.target i := rfl
@[simp] theorem nChan_modFcfg (m : Nat) (g : FlowCfg → FlowCfg) : (modFcfg m g s).nChan = s.nChan := rfl
@[simp] theorem nFlow_modFcfg (m : Nat) (g : FlowCfg → FlowCfg) : (modFcfg m g s).nFlow = s.nFlow := rfl
@[simp] theorem nEnc_modFcfg (m : Nat) (g : FlowCfg → FlowCfg) : (modFcfg m g s).nEnc = s.nEnc := rfl
@[simp] theorem nDec_modFcfg (m : Nat) (g : FlowCfg → FlowCfg) : (modFcfg m g s).nDec = s.nDec := rfl
@[simp] theorem nTx_modFcfg (m : Nat) (g : FlowCfg → FlowCfg) : (modFcfg m g s).nTx = s.nTx := rfl
@[simp] theorem nDmc_modFcfg (m : Nat) (g : FlowCfg → FlowCfg) : (modFcfg m g s).nDmc = s.nDmc := rfl
@[simp] theorem hasVision_modFcfg (m : Nat) (g : FlowCfg → FlowCfg) : (modFcfg m g s).hasVision = s.hasVision := rfl
@[simp] theorem ready_modFcfg (m : Nat) (g : FlowCfg → FlowCfg) : (modFcfg m g s).ready = s.ready := rfl
@[simp] theorem tickField_modFcfg (m : Nat) (g : FlowCfg → FlowCfg) : (modFcfg m g s).tickField = s.tickField := rfl
@[simp] theorem lastBoundary_modFcfg (m : Nat) (g : FlowCfg → FlowCfg) : (modFcfg m g s).lastBoundary = s.lastBoundary := rfl

@[simp] theorem pending_modDec (d : Nat) (g : DecStream → DecStream) : (modDec d g s).pending = s.pending := rfl
@[simp] theorem fuses_modDec (d : Nat) (g : DecStream → DecStream) : (modDec d g s).fuses = s.fuses := rfl
@[simp] theorem boot_modDec (d : Nat) (g : DecStream → DecStream) : (modDec d g s).boot = s.boot := rfl
@[simp] theorem time_modDec (d : Nat) (g : DecStream → DecStream) : (modDec d g s).time = s.time := rfl
@[simp] theorem fns_modDec (d : Nat) (g : DecStream → DecStream) : (modDec d g s).fns = s.fns := rfl
@[simp] theorem numVfs_modDec (d : Nat) (g : DecStream → DecStream) : (modDec d g s).numVfs = s.numVfs := rfl
@[simp] theorem vfEnable_modDec (d : Nat) (g : DecStream → DecStream) : (modDec d g s).vfEnable = s.vfEnable := rfl
@[simp] theorem irq_modDec (d : Nat) (g : DecStream → DecStream) : (modDec d g s).irq = s.irq := rfl
@[simp] theorem exec_modDec (d : Nat) (g : DecStream → DecStream) : (modDec d g s).exec = s.exec := rfl
@[simp] theorem lastServed_modDec (d : Nat) (g : DecStream → DecStream) : (modDec d g s).lastServed = s.lastServed := rfl
@[simp] theorem resetAt_modDec (d : Nat) (g : DecStream → DecStream) : (modDec d g s).resetAt = s.resetAt := rfl
@[simp] theorem groups_modDec (d : Nat) (g : DecStream → DecStream) : (modDec d g s).groups = s.groups := rfl
@[simp] theorem fgroups_modDec (d : Nat) (g : DecStream → DecStream) : (modDec d g s).fgroups = s.fgroups := rfl
@[simp] theorem rx_modDec (d : Nat) (g : DecStream → DecStream) : (modDec d g s).rx = s.rx := rfl
@[simp] theorem chans_modDec (d : Nat) (g : DecStream → DecStream) : (modDec d g s).chans = s.chans := rfl
@[simp] theorem buses_modDec (d : Nat) (g : DecStream → DecStream) : (modDec d g s).buses = s.buses := rfl
@[simp] theorem ego_modDec (d : Nat) (g : DecStream → DecStream) : (modDec d g s).ego = s.ego := rfl
@[simp] theorem egoTaken_modDec (d : Nat) (g : DecStream → DecStream) : (modDec d g s).egoTaken = s.egoTaken := rfl
@[simp] theorem flowCfg_modDec (d : Nat) (g : DecStream → DecStream) : (modDec d g s).flowCfg = s.flowCfg := rfl
@[simp] theorem flows_modDec (d : Nat) (g : DecStream → DecStream) : (modDec d g s).flows = s.flows := rfl
@[simp] theorem ports_modDec (d : Nat) (g : DecStream → DecStream) : (modDec d g s).ports = s.ports := rfl
@[simp] theorem lanes_modDec (d : Nat) (g : DecStream → DecStream) : (modDec d g s).lanes = s.lanes := rfl
@[simp] theorem gts10_modDec (d : Nat) (g : DecStream → DecStream) : (modDec d g s).gts10 = s.gts10 := rfl
@[simp] theorem mps_modDec (d : Nat) (g : DecStream → DecStream) : (modDec d g s).mps = s.mps := rfl
@[simp] theorem tx_modDec (d : Nat) (g : DecStream → DecStream) : (modDec d g s).tx = s.tx := rfl
@[simp] theorem macOther_modDec (d : Nat) (g : DecStream → DecStream) : (modDec d g s).macOther = s.macOther := rfl
@[simp] theorem dmc_modDec (d : Nat) (g : DecStream → DecStream) : (modDec d g s).dmc = s.dmc := rfl
@[simp] theorem tarn_modDec (d : Nat) (g : DecStream → DecStream) : (modDec d g s).tarn = s.tarn := rfl
@[simp] theorem roles_modDec (d : Nat) (g : DecStream → DecStream) : (modDec d g s).roles = s.roles := rfl
@[simp] theorem cls_modDec (d : Nat) (g : DecStream → DecStream) : (modDec d g s).cls = s.cls := rfl
@[simp] theorem seqs_modDec (d : Nat) (g : DecStream → DecStream) : (modDec d g s).seqs = s.seqs := rfl
@[simp] theorem power_modDec (d : Nat) (g : DecStream → DecStream) : (modDec d g s).power = s.power := rfl
@[simp] theorem bookings_modDec (d : Nat) (g : DecStream → DecStream) : (modDec d g s).bookings = s.bookings := rfl
@[simp] theorem buffers_modDec (d : Nat) (g : DecStream → DecStream) : (modDec d g s).buffers = s.buffers := rfl
@[simp] theorem meters_modDec (d : Nat) (g : DecStream → DecStream) : (modDec d g s).meters = s.meters := rfl
@[simp] theorem out_modDec (d : Nat) (g : DecStream → DecStream) : (modDec d g s).out = s.out := rfl
@[simp] theorem fresh_modDec (d : Nat) (g : DecStream → DecStream) : (modDec d g s).fresh = s.fresh := rfl
@[simp] theorem fn_modDec (d : Nat) (g : DecStream → DecStream) (i : Nat) : (modDec d g s).fn i = s.fn i := rfl
@[simp] theorem chan_modDec (d : Nat) (g : DecStream → DecStream) (i : Nat) : (modDec d g s).chan i = s.chan i := rfl
@[simp] theorem flow_modDec (d : Nat) (g : DecStream → DecStream) (i : Nat) : (modDec d g s).flow i = s.flow i := rfl
@[simp] theorem fcfg_modDec (d : Nat) (g : DecStream → DecStream) (i : Nat) : (modDec d g s).fcfg i = s.fcfg i := rfl
@[simp] theorem dmcN_modDec (d : Nat) (g : DecStream → DecStream) (i : Nat) : (modDec d g s).dmcN i = s.dmcN i := rfl
@[simp] theorem rxPort_modDec (d : Nat) (g : DecStream → DecStream) (i : Nat) : (modDec d g s).rxPort i = s.rxPort i := rfl
@[simp] theorem target_modDec (d : Nat) (g : DecStream → DecStream) (i : Nat) : (modDec d g s).target i = s.target i := rfl
@[simp] theorem nChan_modDec (d : Nat) (g : DecStream → DecStream) : (modDec d g s).nChan = s.nChan := rfl
@[simp] theorem nFlow_modDec (d : Nat) (g : DecStream → DecStream) : (modDec d g s).nFlow = s.nFlow := rfl
@[simp] theorem nEnc_modDec (d : Nat) (g : DecStream → DecStream) : (modDec d g s).nEnc = s.nEnc := rfl
@[simp] theorem nDec_modDec (d : Nat) (g : DecStream → DecStream) : (modDec d g s).nDec = s.nDec := rfl
@[simp] theorem nTx_modDec (d : Nat) (g : DecStream → DecStream) : (modDec d g s).nTx = s.nTx := rfl
@[simp] theorem nDmc_modDec (d : Nat) (g : DecStream → DecStream) : (modDec d g s).nDmc = s.nDmc := rfl
@[simp] theorem hasVision_modDec (d : Nat) (g : DecStream → DecStream) : (modDec d g s).hasVision = s.hasVision := rfl
@[simp] theorem ready_modDec (d : Nat) (g : DecStream → DecStream) : (modDec d g s).ready = s.ready := rfl
@[simp] theorem tickField_modDec (d : Nat) (g : DecStream → DecStream) : (modDec d g s).tickField = s.tickField := rfl
@[simp] theorem lastBoundary_modDec (d : Nat) (g : DecStream → DecStream) : (modDec d g s).lastBoundary = s.lastBoundary := rfl

@[simp] theorem pending_modDmc (d : Nat) (g : Dmc → Dmc) : (modDmc d g s).pending = s.pending := rfl
@[simp] theorem fuses_modDmc (d : Nat) (g : Dmc → Dmc) : (modDmc d g s).fuses = s.fuses := rfl
@[simp] theorem boot_modDmc (d : Nat) (g : Dmc → Dmc) : (modDmc d g s).boot = s.boot := rfl
@[simp] theorem time_modDmc (d : Nat) (g : Dmc → Dmc) : (modDmc d g s).time = s.time := rfl
@[simp] theorem fns_modDmc (d : Nat) (g : Dmc → Dmc) : (modDmc d g s).fns = s.fns := rfl
@[simp] theorem numVfs_modDmc (d : Nat) (g : Dmc → Dmc) : (modDmc d g s).numVfs = s.numVfs := rfl
@[simp] theorem vfEnable_modDmc (d : Nat) (g : Dmc → Dmc) : (modDmc d g s).vfEnable = s.vfEnable := rfl
@[simp] theorem irq_modDmc (d : Nat) (g : Dmc → Dmc) : (modDmc d g s).irq = s.irq := rfl
@[simp] theorem exec_modDmc (d : Nat) (g : Dmc → Dmc) : (modDmc d g s).exec = s.exec := rfl
@[simp] theorem lastServed_modDmc (d : Nat) (g : Dmc → Dmc) : (modDmc d g s).lastServed = s.lastServed := rfl
@[simp] theorem resetAt_modDmc (d : Nat) (g : Dmc → Dmc) : (modDmc d g s).resetAt = s.resetAt := rfl
@[simp] theorem groups_modDmc (d : Nat) (g : Dmc → Dmc) : (modDmc d g s).groups = s.groups := rfl
@[simp] theorem fgroups_modDmc (d : Nat) (g : Dmc → Dmc) : (modDmc d g s).fgroups = s.fgroups := rfl
@[simp] theorem rx_modDmc (d : Nat) (g : Dmc → Dmc) : (modDmc d g s).rx = s.rx := rfl
@[simp] theorem chans_modDmc (d : Nat) (g : Dmc → Dmc) : (modDmc d g s).chans = s.chans := rfl
@[simp] theorem buses_modDmc (d : Nat) (g : Dmc → Dmc) : (modDmc d g s).buses = s.buses := rfl
@[simp] theorem ego_modDmc (d : Nat) (g : Dmc → Dmc) : (modDmc d g s).ego = s.ego := rfl
@[simp] theorem egoTaken_modDmc (d : Nat) (g : Dmc → Dmc) : (modDmc d g s).egoTaken = s.egoTaken := rfl
@[simp] theorem dec_modDmc (d : Nat) (g : Dmc → Dmc) : (modDmc d g s).dec = s.dec := rfl
@[simp] theorem flowCfg_modDmc (d : Nat) (g : Dmc → Dmc) : (modDmc d g s).flowCfg = s.flowCfg := rfl
@[simp] theorem flows_modDmc (d : Nat) (g : Dmc → Dmc) : (modDmc d g s).flows = s.flows := rfl
@[simp] theorem ports_modDmc (d : Nat) (g : Dmc → Dmc) : (modDmc d g s).ports = s.ports := rfl
@[simp] theorem lanes_modDmc (d : Nat) (g : Dmc → Dmc) : (modDmc d g s).lanes = s.lanes := rfl
@[simp] theorem gts10_modDmc (d : Nat) (g : Dmc → Dmc) : (modDmc d g s).gts10 = s.gts10 := rfl
@[simp] theorem mps_modDmc (d : Nat) (g : Dmc → Dmc) : (modDmc d g s).mps = s.mps := rfl
@[simp] theorem tx_modDmc (d : Nat) (g : Dmc → Dmc) : (modDmc d g s).tx = s.tx := rfl
@[simp] theorem macOther_modDmc (d : Nat) (g : Dmc → Dmc) : (modDmc d g s).macOther = s.macOther := rfl
@[simp] theorem tarn_modDmc (d : Nat) (g : Dmc → Dmc) : (modDmc d g s).tarn = s.tarn := rfl
@[simp] theorem roles_modDmc (d : Nat) (g : Dmc → Dmc) : (modDmc d g s).roles = s.roles := rfl
@[simp] theorem cls_modDmc (d : Nat) (g : Dmc → Dmc) : (modDmc d g s).cls = s.cls := rfl
@[simp] theorem seqs_modDmc (d : Nat) (g : Dmc → Dmc) : (modDmc d g s).seqs = s.seqs := rfl
@[simp] theorem power_modDmc (d : Nat) (g : Dmc → Dmc) : (modDmc d g s).power = s.power := rfl
@[simp] theorem bookings_modDmc (d : Nat) (g : Dmc → Dmc) : (modDmc d g s).bookings = s.bookings := rfl
@[simp] theorem buffers_modDmc (d : Nat) (g : Dmc → Dmc) : (modDmc d g s).buffers = s.buffers := rfl
@[simp] theorem meters_modDmc (d : Nat) (g : Dmc → Dmc) : (modDmc d g s).meters = s.meters := rfl
@[simp] theorem out_modDmc (d : Nat) (g : Dmc → Dmc) : (modDmc d g s).out = s.out := rfl
@[simp] theorem fresh_modDmc (d : Nat) (g : Dmc → Dmc) : (modDmc d g s).fresh = s.fresh := rfl
@[simp] theorem fn_modDmc (d : Nat) (g : Dmc → Dmc) (i : Nat) : (modDmc d g s).fn i = s.fn i := rfl
@[simp] theorem chan_modDmc (d : Nat) (g : Dmc → Dmc) (i : Nat) : (modDmc d g s).chan i = s.chan i := rfl
@[simp] theorem flow_modDmc (d : Nat) (g : Dmc → Dmc) (i : Nat) : (modDmc d g s).flow i = s.flow i := rfl
@[simp] theorem fcfg_modDmc (d : Nat) (g : Dmc → Dmc) (i : Nat) : (modDmc d g s).fcfg i = s.fcfg i := rfl
@[simp] theorem decS_modDmc (d : Nat) (g : Dmc → Dmc) (i : Nat) : (modDmc d g s).decS i = s.decS i := rfl
@[simp] theorem rxPort_modDmc (d : Nat) (g : Dmc → Dmc) (i : Nat) : (modDmc d g s).rxPort i = s.rxPort i := rfl
@[simp] theorem target_modDmc (d : Nat) (g : Dmc → Dmc) (i : Nat) : (modDmc d g s).target i = s.target i := rfl
@[simp] theorem nChan_modDmc (d : Nat) (g : Dmc → Dmc) : (modDmc d g s).nChan = s.nChan := rfl
@[simp] theorem nFlow_modDmc (d : Nat) (g : Dmc → Dmc) : (modDmc d g s).nFlow = s.nFlow := rfl
@[simp] theorem nEnc_modDmc (d : Nat) (g : Dmc → Dmc) : (modDmc d g s).nEnc = s.nEnc := rfl
@[simp] theorem nDec_modDmc (d : Nat) (g : Dmc → Dmc) : (modDmc d g s).nDec = s.nDec := rfl
@[simp] theorem nTx_modDmc (d : Nat) (g : Dmc → Dmc) : (modDmc d g s).nTx = s.nTx := rfl
@[simp] theorem nDmc_modDmc (d : Nat) (g : Dmc → Dmc) : (modDmc d g s).nDmc = s.nDmc := rfl
@[simp] theorem hasVision_modDmc (d : Nat) (g : Dmc → Dmc) : (modDmc d g s).hasVision = s.hasVision := rfl
@[simp] theorem ready_modDmc (d : Nat) (g : Dmc → Dmc) : (modDmc d g s).ready = s.ready := rfl
@[simp] theorem tickField_modDmc (d : Nat) (g : Dmc → Dmc) : (modDmc d g s).tickField = s.tickField := rfl
@[simp] theorem lastBoundary_modDmc (d : Nat) (g : Dmc → Dmc) : (modDmc d g s).lastBoundary = s.lastBoundary := rfl

@[simp] theorem pending_modPort (p : Nat) (g : Port → Port) : (modPort p g s).pending = s.pending := rfl
@[simp] theorem fuses_modPort (p : Nat) (g : Port → Port) : (modPort p g s).fuses = s.fuses := rfl
@[simp] theorem boot_modPort (p : Nat) (g : Port → Port) : (modPort p g s).boot = s.boot := rfl
@[simp] theorem time_modPort (p : Nat) (g : Port → Port) : (modPort p g s).time = s.time := rfl
@[simp] theorem fns_modPort (p : Nat) (g : Port → Port) : (modPort p g s).fns = s.fns := rfl
@[simp] theorem numVfs_modPort (p : Nat) (g : Port → Port) : (modPort p g s).numVfs = s.numVfs := rfl
@[simp] theorem vfEnable_modPort (p : Nat) (g : Port → Port) : (modPort p g s).vfEnable = s.vfEnable := rfl
@[simp] theorem irq_modPort (p : Nat) (g : Port → Port) : (modPort p g s).irq = s.irq := rfl
@[simp] theorem exec_modPort (p : Nat) (g : Port → Port) : (modPort p g s).exec = s.exec := rfl
@[simp] theorem lastServed_modPort (p : Nat) (g : Port → Port) : (modPort p g s).lastServed = s.lastServed := rfl
@[simp] theorem resetAt_modPort (p : Nat) (g : Port → Port) : (modPort p g s).resetAt = s.resetAt := rfl
@[simp] theorem groups_modPort (p : Nat) (g : Port → Port) : (modPort p g s).groups = s.groups := rfl
@[simp] theorem fgroups_modPort (p : Nat) (g : Port → Port) : (modPort p g s).fgroups = s.fgroups := rfl
@[simp] theorem rx_modPort (p : Nat) (g : Port → Port) : (modPort p g s).rx = s.rx := rfl
@[simp] theorem chans_modPort (p : Nat) (g : Port → Port) : (modPort p g s).chans = s.chans := rfl
@[simp] theorem buses_modPort (p : Nat) (g : Port → Port) : (modPort p g s).buses = s.buses := rfl
@[simp] theorem ego_modPort (p : Nat) (g : Port → Port) : (modPort p g s).ego = s.ego := rfl
@[simp] theorem egoTaken_modPort (p : Nat) (g : Port → Port) : (modPort p g s).egoTaken = s.egoTaken := rfl
@[simp] theorem dec_modPort (p : Nat) (g : Port → Port) : (modPort p g s).dec = s.dec := rfl
@[simp] theorem flowCfg_modPort (p : Nat) (g : Port → Port) : (modPort p g s).flowCfg = s.flowCfg := rfl
@[simp] theorem flows_modPort (p : Nat) (g : Port → Port) : (modPort p g s).flows = s.flows := rfl
@[simp] theorem lanes_modPort (p : Nat) (g : Port → Port) : (modPort p g s).lanes = s.lanes := rfl
@[simp] theorem gts10_modPort (p : Nat) (g : Port → Port) : (modPort p g s).gts10 = s.gts10 := rfl
@[simp] theorem mps_modPort (p : Nat) (g : Port → Port) : (modPort p g s).mps = s.mps := rfl
@[simp] theorem tx_modPort (p : Nat) (g : Port → Port) : (modPort p g s).tx = s.tx := rfl
@[simp] theorem macOther_modPort (p : Nat) (g : Port → Port) : (modPort p g s).macOther = s.macOther := rfl
@[simp] theorem dmc_modPort (p : Nat) (g : Port → Port) : (modPort p g s).dmc = s.dmc := rfl
@[simp] theorem tarn_modPort (p : Nat) (g : Port → Port) : (modPort p g s).tarn = s.tarn := rfl
@[simp] theorem roles_modPort (p : Nat) (g : Port → Port) : (modPort p g s).roles = s.roles := rfl
@[simp] theorem cls_modPort (p : Nat) (g : Port → Port) : (modPort p g s).cls = s.cls := rfl
@[simp] theorem seqs_modPort (p : Nat) (g : Port → Port) : (modPort p g s).seqs = s.seqs := rfl
@[simp] theorem power_modPort (p : Nat) (g : Port → Port) : (modPort p g s).power = s.power := rfl
@[simp] theorem bookings_modPort (p : Nat) (g : Port → Port) : (modPort p g s).bookings = s.bookings := rfl
@[simp] theorem buffers_modPort (p : Nat) (g : Port → Port) : (modPort p g s).buffers = s.buffers := rfl
@[simp] theorem meters_modPort (p : Nat) (g : Port → Port) : (modPort p g s).meters = s.meters := rfl
@[simp] theorem out_modPort (p : Nat) (g : Port → Port) : (modPort p g s).out = s.out := rfl
@[simp] theorem fresh_modPort (p : Nat) (g : Port → Port) : (modPort p g s).fresh = s.fresh := rfl
@[simp] theorem fn_modPort (p : Nat) (g : Port → Port) (i : Nat) : (modPort p g s).fn i = s.fn i := rfl
@[simp] theorem chan_modPort (p : Nat) (g : Port → Port) (i : Nat) : (modPort p g s).chan i = s.chan i := rfl
@[simp] theorem flow_modPort (p : Nat) (g : Port → Port) (i : Nat) : (modPort p g s).flow i = s.flow i := rfl
@[simp] theorem fcfg_modPort (p : Nat) (g : Port → Port) (i : Nat) : (modPort p g s).fcfg i = s.fcfg i := rfl
@[simp] theorem decS_modPort (p : Nat) (g : Port → Port) (i : Nat) : (modPort p g s).decS i = s.decS i := rfl
@[simp] theorem dmcN_modPort (p : Nat) (g : Port → Port) (i : Nat) : (modPort p g s).dmcN i = s.dmcN i := rfl
@[simp] theorem rxPort_modPort (p : Nat) (g : Port → Port) (i : Nat) : (modPort p g s).rxPort i = s.rxPort i := rfl
@[simp] theorem target_modPort (p : Nat) (g : Port → Port) (i : Nat) : (modPort p g s).target i = s.target i := rfl
@[simp] theorem nChan_modPort (p : Nat) (g : Port → Port) : (modPort p g s).nChan = s.nChan := rfl
@[simp] theorem nFlow_modPort (p : Nat) (g : Port → Port) : (modPort p g s).nFlow = s.nFlow := rfl
@[simp] theorem nEnc_modPort (p : Nat) (g : Port → Port) : (modPort p g s).nEnc = s.nEnc := rfl
@[simp] theorem nDec_modPort (p : Nat) (g : Port → Port) : (modPort p g s).nDec = s.nDec := rfl
@[simp] theorem nTx_modPort (p : Nat) (g : Port → Port) : (modPort p g s).nTx = s.nTx := rfl
@[simp] theorem nDmc_modPort (p : Nat) (g : Port → Port) : (modPort p g s).nDmc = s.nDmc := rfl
@[simp] theorem hasVision_modPort (p : Nat) (g : Port → Port) : (modPort p g s).hasVision = s.hasVision := rfl
@[simp] theorem ready_modPort (p : Nat) (g : Port → Port) : (modPort p g s).ready = s.ready := rfl
@[simp] theorem tickField_modPort (p : Nat) (g : Port → Port) : (modPort p g s).tickField = s.tickField := rfl
@[simp] theorem lastBoundary_modPort (p : Nat) (g : Port → Port) : (modPort p g s).lastBoundary = s.lastBoundary := rfl

@[simp] theorem pending_modTx (p : Nat) (g : TxPort → TxPort) : (modTx p g s).pending = s.pending := rfl
@[simp] theorem fuses_modTx (p : Nat) (g : TxPort → TxPort) : (modTx p g s).fuses = s.fuses := rfl
@[simp] theorem boot_modTx (p : Nat) (g : TxPort → TxPort) : (modTx p g s).boot = s.boot := rfl
@[simp] theorem time_modTx (p : Nat) (g : TxPort → TxPort) : (modTx p g s).time = s.time := rfl
@[simp] theorem fns_modTx (p : Nat) (g : TxPort → TxPort) : (modTx p g s).fns = s.fns := rfl
@[simp] theorem numVfs_modTx (p : Nat) (g : TxPort → TxPort) : (modTx p g s).numVfs = s.numVfs := rfl
@[simp] theorem vfEnable_modTx (p : Nat) (g : TxPort → TxPort) : (modTx p g s).vfEnable = s.vfEnable := rfl
@[simp] theorem irq_modTx (p : Nat) (g : TxPort → TxPort) : (modTx p g s).irq = s.irq := rfl
@[simp] theorem exec_modTx (p : Nat) (g : TxPort → TxPort) : (modTx p g s).exec = s.exec := rfl
@[simp] theorem lastServed_modTx (p : Nat) (g : TxPort → TxPort) : (modTx p g s).lastServed = s.lastServed := rfl
@[simp] theorem resetAt_modTx (p : Nat) (g : TxPort → TxPort) : (modTx p g s).resetAt = s.resetAt := rfl
@[simp] theorem groups_modTx (p : Nat) (g : TxPort → TxPort) : (modTx p g s).groups = s.groups := rfl
@[simp] theorem fgroups_modTx (p : Nat) (g : TxPort → TxPort) : (modTx p g s).fgroups = s.fgroups := rfl
@[simp] theorem rx_modTx (p : Nat) (g : TxPort → TxPort) : (modTx p g s).rx = s.rx := rfl
@[simp] theorem chans_modTx (p : Nat) (g : TxPort → TxPort) : (modTx p g s).chans = s.chans := rfl
@[simp] theorem buses_modTx (p : Nat) (g : TxPort → TxPort) : (modTx p g s).buses = s.buses := rfl
@[simp] theorem ego_modTx (p : Nat) (g : TxPort → TxPort) : (modTx p g s).ego = s.ego := rfl
@[simp] theorem egoTaken_modTx (p : Nat) (g : TxPort → TxPort) : (modTx p g s).egoTaken = s.egoTaken := rfl
@[simp] theorem dec_modTx (p : Nat) (g : TxPort → TxPort) : (modTx p g s).dec = s.dec := rfl
@[simp] theorem flowCfg_modTx (p : Nat) (g : TxPort → TxPort) : (modTx p g s).flowCfg = s.flowCfg := rfl
@[simp] theorem flows_modTx (p : Nat) (g : TxPort → TxPort) : (modTx p g s).flows = s.flows := rfl
@[simp] theorem ports_modTx (p : Nat) (g : TxPort → TxPort) : (modTx p g s).ports = s.ports := rfl
@[simp] theorem lanes_modTx (p : Nat) (g : TxPort → TxPort) : (modTx p g s).lanes = s.lanes := rfl
@[simp] theorem gts10_modTx (p : Nat) (g : TxPort → TxPort) : (modTx p g s).gts10 = s.gts10 := rfl
@[simp] theorem mps_modTx (p : Nat) (g : TxPort → TxPort) : (modTx p g s).mps = s.mps := rfl
@[simp] theorem macOther_modTx (p : Nat) (g : TxPort → TxPort) : (modTx p g s).macOther = s.macOther := rfl
@[simp] theorem dmc_modTx (p : Nat) (g : TxPort → TxPort) : (modTx p g s).dmc = s.dmc := rfl
@[simp] theorem tarn_modTx (p : Nat) (g : TxPort → TxPort) : (modTx p g s).tarn = s.tarn := rfl
@[simp] theorem roles_modTx (p : Nat) (g : TxPort → TxPort) : (modTx p g s).roles = s.roles := rfl
@[simp] theorem cls_modTx (p : Nat) (g : TxPort → TxPort) : (modTx p g s).cls = s.cls := rfl
@[simp] theorem seqs_modTx (p : Nat) (g : TxPort → TxPort) : (modTx p g s).seqs = s.seqs := rfl
@[simp] theorem power_modTx (p : Nat) (g : TxPort → TxPort) : (modTx p g s).power = s.power := rfl
@[simp] theorem bookings_modTx (p : Nat) (g : TxPort → TxPort) : (modTx p g s).bookings = s.bookings := rfl
@[simp] theorem buffers_modTx (p : Nat) (g : TxPort → TxPort) : (modTx p g s).buffers = s.buffers := rfl
@[simp] theorem meters_modTx (p : Nat) (g : TxPort → TxPort) : (modTx p g s).meters = s.meters := rfl
@[simp] theorem out_modTx (p : Nat) (g : TxPort → TxPort) : (modTx p g s).out = s.out := rfl
@[simp] theorem fresh_modTx (p : Nat) (g : TxPort → TxPort) : (modTx p g s).fresh = s.fresh := rfl
@[simp] theorem fn_modTx (p : Nat) (g : TxPort → TxPort) (i : Nat) : (modTx p g s).fn i = s.fn i := rfl
@[simp] theorem chan_modTx (p : Nat) (g : TxPort → TxPort) (i : Nat) : (modTx p g s).chan i = s.chan i := rfl
@[simp] theorem flow_modTx (p : Nat) (g : TxPort → TxPort) (i : Nat) : (modTx p g s).flow i = s.flow i := rfl
@[simp] theorem fcfg_modTx (p : Nat) (g : TxPort → TxPort) (i : Nat) : (modTx p g s).fcfg i = s.fcfg i := rfl
@[simp] theorem decS_modTx (p : Nat) (g : TxPort → TxPort) (i : Nat) : (modTx p g s).decS i = s.decS i := rfl
@[simp] theorem dmcN_modTx (p : Nat) (g : TxPort → TxPort) (i : Nat) : (modTx p g s).dmcN i = s.dmcN i := rfl
@[simp] theorem rxPort_modTx (p : Nat) (g : TxPort → TxPort) (i : Nat) : (modTx p g s).rxPort i = s.rxPort i := rfl
@[simp] theorem target_modTx (p : Nat) (g : TxPort → TxPort) (i : Nat) : (modTx p g s).target i = s.target i := rfl
@[simp] theorem nChan_modTx (p : Nat) (g : TxPort → TxPort) : (modTx p g s).nChan = s.nChan := rfl
@[simp] theorem nFlow_modTx (p : Nat) (g : TxPort → TxPort) : (modTx p g s).nFlow = s.nFlow := rfl
@[simp] theorem nEnc_modTx (p : Nat) (g : TxPort → TxPort) : (modTx p g s).nEnc = s.nEnc := rfl
@[simp] theorem nDec_modTx (p : Nat) (g : TxPort → TxPort) : (modTx p g s).nDec = s.nDec := rfl
@[simp] theorem nTx_modTx (p : Nat) (g : TxPort → TxPort) : (modTx p g s).nTx = s.nTx := rfl
@[simp] theorem nDmc_modTx (p : Nat) (g : TxPort → TxPort) : (modTx p g s).nDmc = s.nDmc := rfl
@[simp] theorem hasVision_modTx (p : Nat) (g : TxPort → TxPort) : (modTx p g s).hasVision = s.hasVision := rfl
@[simp] theorem ready_modTx (p : Nat) (g : TxPort → TxPort) : (modTx p g s).ready = s.ready := rfl
@[simp] theorem tickField_modTx (p : Nat) (g : TxPort → TxPort) : (modTx p g s).tickField = s.tickField := rfl
@[simp] theorem lastBoundary_modTx (p : Nat) (g : TxPort → TxPort) : (modTx p g s).lastBoundary = s.lastBoundary := rfl

@[simp] theorem pending_modSeq (q : Nat) (g : Seq → Seq) : (modSeq q g s).pending = s.pending := rfl
@[simp] theorem fuses_modSeq (q : Nat) (g : Seq → Seq) : (modSeq q g s).fuses = s.fuses := rfl
@[simp] theorem boot_modSeq (q : Nat) (g : Seq → Seq) : (modSeq q g s).boot = s.boot := rfl
@[simp] theorem time_modSeq (q : Nat) (g : Seq → Seq) : (modSeq q g s).time = s.time := rfl
@[simp] theorem fns_modSeq (q : Nat) (g : Seq → Seq) : (modSeq q g s).fns = s.fns := rfl
@[simp] theorem numVfs_modSeq (q : Nat) (g : Seq → Seq) : (modSeq q g s).numVfs = s.numVfs := rfl
@[simp] theorem vfEnable_modSeq (q : Nat) (g : Seq → Seq) : (modSeq q g s).vfEnable = s.vfEnable := rfl
@[simp] theorem irq_modSeq (q : Nat) (g : Seq → Seq) : (modSeq q g s).irq = s.irq := rfl
@[simp] theorem exec_modSeq (q : Nat) (g : Seq → Seq) : (modSeq q g s).exec = s.exec := rfl
@[simp] theorem lastServed_modSeq (q : Nat) (g : Seq → Seq) : (modSeq q g s).lastServed = s.lastServed := rfl
@[simp] theorem resetAt_modSeq (q : Nat) (g : Seq → Seq) : (modSeq q g s).resetAt = s.resetAt := rfl
@[simp] theorem groups_modSeq (q : Nat) (g : Seq → Seq) : (modSeq q g s).groups = s.groups := rfl
@[simp] theorem fgroups_modSeq (q : Nat) (g : Seq → Seq) : (modSeq q g s).fgroups = s.fgroups := rfl
@[simp] theorem rx_modSeq (q : Nat) (g : Seq → Seq) : (modSeq q g s).rx = s.rx := rfl
@[simp] theorem chans_modSeq (q : Nat) (g : Seq → Seq) : (modSeq q g s).chans = s.chans := rfl
@[simp] theorem buses_modSeq (q : Nat) (g : Seq → Seq) : (modSeq q g s).buses = s.buses := rfl
@[simp] theorem ego_modSeq (q : Nat) (g : Seq → Seq) : (modSeq q g s).ego = s.ego := rfl
@[simp] theorem egoTaken_modSeq (q : Nat) (g : Seq → Seq) : (modSeq q g s).egoTaken = s.egoTaken := rfl
@[simp] theorem dec_modSeq (q : Nat) (g : Seq → Seq) : (modSeq q g s).dec = s.dec := rfl
@[simp] theorem flowCfg_modSeq (q : Nat) (g : Seq → Seq) : (modSeq q g s).flowCfg = s.flowCfg := rfl
@[simp] theorem flows_modSeq (q : Nat) (g : Seq → Seq) : (modSeq q g s).flows = s.flows := rfl
@[simp] theorem ports_modSeq (q : Nat) (g : Seq → Seq) : (modSeq q g s).ports = s.ports := rfl
@[simp] theorem lanes_modSeq (q : Nat) (g : Seq → Seq) : (modSeq q g s).lanes = s.lanes := rfl
@[simp] theorem gts10_modSeq (q : Nat) (g : Seq → Seq) : (modSeq q g s).gts10 = s.gts10 := rfl
@[simp] theorem mps_modSeq (q : Nat) (g : Seq → Seq) : (modSeq q g s).mps = s.mps := rfl
@[simp] theorem tx_modSeq (q : Nat) (g : Seq → Seq) : (modSeq q g s).tx = s.tx := rfl
@[simp] theorem macOther_modSeq (q : Nat) (g : Seq → Seq) : (modSeq q g s).macOther = s.macOther := rfl
@[simp] theorem dmc_modSeq (q : Nat) (g : Seq → Seq) : (modSeq q g s).dmc = s.dmc := rfl
@[simp] theorem tarn_modSeq (q : Nat) (g : Seq → Seq) : (modSeq q g s).tarn = s.tarn := rfl
@[simp] theorem roles_modSeq (q : Nat) (g : Seq → Seq) : (modSeq q g s).roles = s.roles := rfl
@[simp] theorem cls_modSeq (q : Nat) (g : Seq → Seq) : (modSeq q g s).cls = s.cls := rfl
@[simp] theorem power_modSeq (q : Nat) (g : Seq → Seq) : (modSeq q g s).power = s.power := rfl
@[simp] theorem bookings_modSeq (q : Nat) (g : Seq → Seq) : (modSeq q g s).bookings = s.bookings := rfl
@[simp] theorem buffers_modSeq (q : Nat) (g : Seq → Seq) : (modSeq q g s).buffers = s.buffers := rfl
@[simp] theorem meters_modSeq (q : Nat) (g : Seq → Seq) : (modSeq q g s).meters = s.meters := rfl
@[simp] theorem out_modSeq (q : Nat) (g : Seq → Seq) : (modSeq q g s).out = s.out := rfl
@[simp] theorem fresh_modSeq (q : Nat) (g : Seq → Seq) : (modSeq q g s).fresh = s.fresh := rfl
@[simp] theorem fn_modSeq (q : Nat) (g : Seq → Seq) (i : Nat) : (modSeq q g s).fn i = s.fn i := rfl
@[simp] theorem chan_modSeq (q : Nat) (g : Seq → Seq) (i : Nat) : (modSeq q g s).chan i = s.chan i := rfl
@[simp] theorem flow_modSeq (q : Nat) (g : Seq → Seq) (i : Nat) : (modSeq q g s).flow i = s.flow i := rfl
@[simp] theorem fcfg_modSeq (q : Nat) (g : Seq → Seq) (i : Nat) : (modSeq q g s).fcfg i = s.fcfg i := rfl
@[simp] theorem decS_modSeq (q : Nat) (g : Seq → Seq) (i : Nat) : (modSeq q g s).decS i = s.decS i := rfl
@[simp] theorem dmcN_modSeq (q : Nat) (g : Seq → Seq) (i : Nat) : (modSeq q g s).dmcN i = s.dmcN i := rfl
@[simp] theorem rxPort_modSeq (q : Nat) (g : Seq → Seq) (i : Nat) : (modSeq q g s).rxPort i = s.rxPort i := rfl
@[simp] theorem target_modSeq (q : Nat) (g : Seq → Seq) (i : Nat) : (modSeq q g s).target i = s.target i := rfl
@[simp] theorem nChan_modSeq (q : Nat) (g : Seq → Seq) : (modSeq q g s).nChan = s.nChan := rfl
@[simp] theorem nFlow_modSeq (q : Nat) (g : Seq → Seq) : (modSeq q g s).nFlow = s.nFlow := rfl
@[simp] theorem nEnc_modSeq (q : Nat) (g : Seq → Seq) : (modSeq q g s).nEnc = s.nEnc := rfl
@[simp] theorem nDec_modSeq (q : Nat) (g : Seq → Seq) : (modSeq q g s).nDec = s.nDec := rfl
@[simp] theorem nTx_modSeq (q : Nat) (g : Seq → Seq) : (modSeq q g s).nTx = s.nTx := rfl
@[simp] theorem nDmc_modSeq (q : Nat) (g : Seq → Seq) : (modSeq q g s).nDmc = s.nDmc := rfl
@[simp] theorem hasVision_modSeq (q : Nat) (g : Seq → Seq) : (modSeq q g s).hasVision = s.hasVision := rfl
@[simp] theorem ready_modSeq (q : Nat) (g : Seq → Seq) : (modSeq q g s).ready = s.ready := rfl
@[simp] theorem tickField_modSeq (q : Nat) (g : Seq → Seq) : (modSeq q g s).tickField = s.tickField := rfl
@[simp] theorem lastBoundary_modSeq (q : Nat) (g : Seq → Seq) : (modSeq q g s).lastBoundary = s.lastBoundary := rfl

@[simp] theorem pending_modCls (c : Nat) (g : SeqClass → SeqClass) : (modCls c g s).pending = s.pending := rfl
@[simp] theorem fuses_modCls (c : Nat) (g : SeqClass → SeqClass) : (modCls c g s).fuses = s.fuses := rfl
@[simp] theorem boot_modCls (c : Nat) (g : SeqClass → SeqClass) : (modCls c g s).boot = s.boot := rfl
@[simp] theorem time_modCls (c : Nat) (g : SeqClass → SeqClass) : (modCls c g s).time = s.time := rfl
@[simp] theorem fns_modCls (c : Nat) (g : SeqClass → SeqClass) : (modCls c g s).fns = s.fns := rfl
@[simp] theorem numVfs_modCls (c : Nat) (g : SeqClass → SeqClass) : (modCls c g s).numVfs = s.numVfs := rfl
@[simp] theorem vfEnable_modCls (c : Nat) (g : SeqClass → SeqClass) : (modCls c g s).vfEnable = s.vfEnable := rfl
@[simp] theorem irq_modCls (c : Nat) (g : SeqClass → SeqClass) : (modCls c g s).irq = s.irq := rfl
@[simp] theorem exec_modCls (c : Nat) (g : SeqClass → SeqClass) : (modCls c g s).exec = s.exec := rfl
@[simp] theorem lastServed_modCls (c : Nat) (g : SeqClass → SeqClass) : (modCls c g s).lastServed = s.lastServed := rfl
@[simp] theorem resetAt_modCls (c : Nat) (g : SeqClass → SeqClass) : (modCls c g s).resetAt = s.resetAt := rfl
@[simp] theorem groups_modCls (c : Nat) (g : SeqClass → SeqClass) : (modCls c g s).groups = s.groups := rfl
@[simp] theorem fgroups_modCls (c : Nat) (g : SeqClass → SeqClass) : (modCls c g s).fgroups = s.fgroups := rfl
@[simp] theorem rx_modCls (c : Nat) (g : SeqClass → SeqClass) : (modCls c g s).rx = s.rx := rfl
@[simp] theorem chans_modCls (c : Nat) (g : SeqClass → SeqClass) : (modCls c g s).chans = s.chans := rfl
@[simp] theorem buses_modCls (c : Nat) (g : SeqClass → SeqClass) : (modCls c g s).buses = s.buses := rfl
@[simp] theorem ego_modCls (c : Nat) (g : SeqClass → SeqClass) : (modCls c g s).ego = s.ego := rfl
@[simp] theorem egoTaken_modCls (c : Nat) (g : SeqClass → SeqClass) : (modCls c g s).egoTaken = s.egoTaken := rfl
@[simp] theorem dec_modCls (c : Nat) (g : SeqClass → SeqClass) : (modCls c g s).dec = s.dec := rfl
@[simp] theorem flowCfg_modCls (c : Nat) (g : SeqClass → SeqClass) : (modCls c g s).flowCfg = s.flowCfg := rfl
@[simp] theorem flows_modCls (c : Nat) (g : SeqClass → SeqClass) : (modCls c g s).flows = s.flows := rfl
@[simp] theorem ports_modCls (c : Nat) (g : SeqClass → SeqClass) : (modCls c g s).ports = s.ports := rfl
@[simp] theorem lanes_modCls (c : Nat) (g : SeqClass → SeqClass) : (modCls c g s).lanes = s.lanes := rfl
@[simp] theorem gts10_modCls (c : Nat) (g : SeqClass → SeqClass) : (modCls c g s).gts10 = s.gts10 := rfl
@[simp] theorem mps_modCls (c : Nat) (g : SeqClass → SeqClass) : (modCls c g s).mps = s.mps := rfl
@[simp] theorem tx_modCls (c : Nat) (g : SeqClass → SeqClass) : (modCls c g s).tx = s.tx := rfl
@[simp] theorem macOther_modCls (c : Nat) (g : SeqClass → SeqClass) : (modCls c g s).macOther = s.macOther := rfl
@[simp] theorem dmc_modCls (c : Nat) (g : SeqClass → SeqClass) : (modCls c g s).dmc = s.dmc := rfl
@[simp] theorem tarn_modCls (c : Nat) (g : SeqClass → SeqClass) : (modCls c g s).tarn = s.tarn := rfl
@[simp] theorem roles_modCls (c : Nat) (g : SeqClass → SeqClass) : (modCls c g s).roles = s.roles := rfl
@[simp] theorem seqs_modCls (c : Nat) (g : SeqClass → SeqClass) : (modCls c g s).seqs = s.seqs := rfl
@[simp] theorem power_modCls (c : Nat) (g : SeqClass → SeqClass) : (modCls c g s).power = s.power := rfl
@[simp] theorem bookings_modCls (c : Nat) (g : SeqClass → SeqClass) : (modCls c g s).bookings = s.bookings := rfl
@[simp] theorem buffers_modCls (c : Nat) (g : SeqClass → SeqClass) : (modCls c g s).buffers = s.buffers := rfl
@[simp] theorem meters_modCls (c : Nat) (g : SeqClass → SeqClass) : (modCls c g s).meters = s.meters := rfl
@[simp] theorem out_modCls (c : Nat) (g : SeqClass → SeqClass) : (modCls c g s).out = s.out := rfl
@[simp] theorem fresh_modCls (c : Nat) (g : SeqClass → SeqClass) : (modCls c g s).fresh = s.fresh := rfl
@[simp] theorem fn_modCls (c : Nat) (g : SeqClass → SeqClass) (i : Nat) : (modCls c g s).fn i = s.fn i := rfl
@[simp] theorem chan_modCls (c : Nat) (g : SeqClass → SeqClass) (i : Nat) : (modCls c g s).chan i = s.chan i := rfl
@[simp] theorem flow_modCls (c : Nat) (g : SeqClass → SeqClass) (i : Nat) : (modCls c g s).flow i = s.flow i := rfl
@[simp] theorem fcfg_modCls (c : Nat) (g : SeqClass → SeqClass) (i : Nat) : (modCls c g s).fcfg i = s.fcfg i := rfl
@[simp] theorem decS_modCls (c : Nat) (g : SeqClass → SeqClass) (i : Nat) : (modCls c g s).decS i = s.decS i := rfl
@[simp] theorem dmcN_modCls (c : Nat) (g : SeqClass → SeqClass) (i : Nat) : (modCls c g s).dmcN i = s.dmcN i := rfl
@[simp] theorem rxPort_modCls (c : Nat) (g : SeqClass → SeqClass) (i : Nat) : (modCls c g s).rxPort i = s.rxPort i := rfl
@[simp] theorem target_modCls (c : Nat) (g : SeqClass → SeqClass) (i : Nat) : (modCls c g s).target i = s.target i := rfl
@[simp] theorem nChan_modCls (c : Nat) (g : SeqClass → SeqClass) : (modCls c g s).nChan = s.nChan := rfl
@[simp] theorem nFlow_modCls (c : Nat) (g : SeqClass → SeqClass) : (modCls c g s).nFlow = s.nFlow := rfl
@[simp] theorem nEnc_modCls (c : Nat) (g : SeqClass → SeqClass) : (modCls c g s).nEnc = s.nEnc := rfl
@[simp] theorem nDec_modCls (c : Nat) (g : SeqClass → SeqClass) : (modCls c g s).nDec = s.nDec := rfl
@[simp] theorem nTx_modCls (c : Nat) (g : SeqClass → SeqClass) : (modCls c g s).nTx = s.nTx := rfl
@[simp] theorem nDmc_modCls (c : Nat) (g : SeqClass → SeqClass) : (modCls c g s).nDmc = s.nDmc := rfl
@[simp] theorem hasVision_modCls (c : Nat) (g : SeqClass → SeqClass) : (modCls c g s).hasVision = s.hasVision := rfl
@[simp] theorem ready_modCls (c : Nat) (g : SeqClass → SeqClass) : (modCls c g s).ready = s.ready := rfl
@[simp] theorem tickField_modCls (c : Nat) (g : SeqClass → SeqClass) : (modCls c g s).tickField = s.tickField := rfl
@[simp] theorem lastBoundary_modCls (c : Nat) (g : SeqClass → SeqClass) : (modCls c g s).lastBoundary = s.lastBoundary := rfl

@[simp] theorem pending_modTime (g : TimeBase → TimeBase) : (modTime g s).pending = s.pending := rfl
@[simp] theorem fuses_modTime (g : TimeBase → TimeBase) : (modTime g s).fuses = s.fuses := rfl
@[simp] theorem boot_modTime (g : TimeBase → TimeBase) : (modTime g s).boot = s.boot := rfl
@[simp] theorem fns_modTime (g : TimeBase → TimeBase) : (modTime g s).fns = s.fns := rfl
@[simp] theorem numVfs_modTime (g : TimeBase → TimeBase) : (modTime g s).numVfs = s.numVfs := rfl
@[simp] theorem vfEnable_modTime (g : TimeBase → TimeBase) : (modTime g s).vfEnable = s.vfEnable := rfl
@[simp] theorem irq_modTime (g : TimeBase → TimeBase) : (modTime g s).irq = s.irq := rfl
@[simp] theorem exec_modTime (g : TimeBase → TimeBase) : (modTime g s).exec = s.exec := rfl
@[simp] theorem lastServed_modTime (g : TimeBase → TimeBase) : (modTime g s).lastServed = s.lastServed := rfl
@[simp] theorem resetAt_modTime (g : TimeBase → TimeBase) : (modTime g s).resetAt = s.resetAt := rfl
@[simp] theorem groups_modTime (g : TimeBase → TimeBase) : (modTime g s).groups = s.groups := rfl
@[simp] theorem fgroups_modTime (g : TimeBase → TimeBase) : (modTime g s).fgroups = s.fgroups := rfl
@[simp] theorem rx_modTime (g : TimeBase → TimeBase) : (modTime g s).rx = s.rx := rfl
@[simp] theorem chans_modTime (g : TimeBase → TimeBase) : (modTime g s).chans = s.chans := rfl
@[simp] theorem buses_modTime (g : TimeBase → TimeBase) : (modTime g s).buses = s.buses := rfl
@[simp] theorem ego_modTime (g : TimeBase → TimeBase) : (modTime g s).ego = s.ego := rfl
@[simp] theorem egoTaken_modTime (g : TimeBase → TimeBase) : (modTime g s).egoTaken = s.egoTaken := rfl
@[simp] theorem dec_modTime (g : TimeBase → TimeBase) : (modTime g s).dec = s.dec := rfl
@[simp] theorem flowCfg_modTime (g : TimeBase → TimeBase) : (modTime g s).flowCfg = s.flowCfg := rfl
@[simp] theorem flows_modTime (g : TimeBase → TimeBase) : (modTime g s).flows = s.flows := rfl
@[simp] theorem ports_modTime (g : TimeBase → TimeBase) : (modTime g s).ports = s.ports := rfl
@[simp] theorem lanes_modTime (g : TimeBase → TimeBase) : (modTime g s).lanes = s.lanes := rfl
@[simp] theorem gts10_modTime (g : TimeBase → TimeBase) : (modTime g s).gts10 = s.gts10 := rfl
@[simp] theorem mps_modTime (g : TimeBase → TimeBase) : (modTime g s).mps = s.mps := rfl
@[simp] theorem tx_modTime (g : TimeBase → TimeBase) : (modTime g s).tx = s.tx := rfl
@[simp] theorem macOther_modTime (g : TimeBase → TimeBase) : (modTime g s).macOther = s.macOther := rfl
@[simp] theorem dmc_modTime (g : TimeBase → TimeBase) : (modTime g s).dmc = s.dmc := rfl
@[simp] theorem tarn_modTime (g : TimeBase → TimeBase) : (modTime g s).tarn = s.tarn := rfl
@[simp] theorem roles_modTime (g : TimeBase → TimeBase) : (modTime g s).roles = s.roles := rfl
@[simp] theorem cls_modTime (g : TimeBase → TimeBase) : (modTime g s).cls = s.cls := rfl
@[simp] theorem seqs_modTime (g : TimeBase → TimeBase) : (modTime g s).seqs = s.seqs := rfl
@[simp] theorem power_modTime (g : TimeBase → TimeBase) : (modTime g s).power = s.power := rfl
@[simp] theorem bookings_modTime (g : TimeBase → TimeBase) : (modTime g s).bookings = s.bookings := rfl
@[simp] theorem buffers_modTime (g : TimeBase → TimeBase) : (modTime g s).buffers = s.buffers := rfl
@[simp] theorem meters_modTime (g : TimeBase → TimeBase) : (modTime g s).meters = s.meters := rfl
@[simp] theorem out_modTime (g : TimeBase → TimeBase) : (modTime g s).out = s.out := rfl
@[simp] theorem fresh_modTime (g : TimeBase → TimeBase) : (modTime g s).fresh = s.fresh := rfl
@[simp] theorem fn_modTime (g : TimeBase → TimeBase) (i : Nat) : (modTime g s).fn i = s.fn i := rfl
@[simp] theorem chan_modTime (g : TimeBase → TimeBase) (i : Nat) : (modTime g s).chan i = s.chan i := rfl
@[simp] theorem flow_modTime (g : TimeBase → TimeBase) (i : Nat) : (modTime g s).flow i = s.flow i := rfl
@[simp] theorem fcfg_modTime (g : TimeBase → TimeBase) (i : Nat) : (modTime g s).fcfg i = s.fcfg i := rfl
@[simp] theorem decS_modTime (g : TimeBase → TimeBase) (i : Nat) : (modTime g s).decS i = s.decS i := rfl
@[simp] theorem dmcN_modTime (g : TimeBase → TimeBase) (i : Nat) : (modTime g s).dmcN i = s.dmcN i := rfl
@[simp] theorem rxPort_modTime (g : TimeBase → TimeBase) (i : Nat) : (modTime g s).rxPort i = s.rxPort i := rfl
@[simp] theorem target_modTime (g : TimeBase → TimeBase) (i : Nat) : (modTime g s).target i = s.target i := rfl
@[simp] theorem nChan_modTime (g : TimeBase → TimeBase) : (modTime g s).nChan = s.nChan := rfl
@[simp] theorem nFlow_modTime (g : TimeBase → TimeBase) : (modTime g s).nFlow = s.nFlow := rfl
@[simp] theorem nEnc_modTime (g : TimeBase → TimeBase) : (modTime g s).nEnc = s.nEnc := rfl
@[simp] theorem nDec_modTime (g : TimeBase → TimeBase) : (modTime g s).nDec = s.nDec := rfl
@[simp] theorem nTx_modTime (g : TimeBase → TimeBase) : (modTime g s).nTx = s.nTx := rfl
@[simp] theorem nDmc_modTime (g : TimeBase → TimeBase) : (modTime g s).nDmc = s.nDmc := rfl
@[simp] theorem hasVision_modTime (g : TimeBase → TimeBase) : (modTime g s).hasVision = s.hasVision := rfl
@[simp] theorem ready_modTime (g : TimeBase → TimeBase) : (modTime g s).ready = s.ready := rfl

@[simp] theorem pending_modBoot (g : Boot → Boot) : (modBoot g s).pending = s.pending := rfl
@[simp] theorem fuses_modBoot (g : Boot → Boot) : (modBoot g s).fuses = s.fuses := rfl
@[simp] theorem time_modBoot (g : Boot → Boot) : (modBoot g s).time = s.time := rfl
@[simp] theorem fns_modBoot (g : Boot → Boot) : (modBoot g s).fns = s.fns := rfl
@[simp] theorem numVfs_modBoot (g : Boot → Boot) : (modBoot g s).numVfs = s.numVfs := rfl
@[simp] theorem vfEnable_modBoot (g : Boot → Boot) : (modBoot g s).vfEnable = s.vfEnable := rfl
@[simp] theorem irq_modBoot (g : Boot → Boot) : (modBoot g s).irq = s.irq := rfl
@[simp] theorem exec_modBoot (g : Boot → Boot) : (modBoot g s).exec = s.exec := rfl
@[simp] theorem lastServed_modBoot (g : Boot → Boot) : (modBoot g s).lastServed = s.lastServed := rfl
@[simp] theorem resetAt_modBoot (g : Boot → Boot) : (modBoot g s).resetAt = s.resetAt := rfl
@[simp] theorem groups_modBoot (g : Boot → Boot) : (modBoot g s).groups = s.groups := rfl
@[simp] theorem fgroups_modBoot (g : Boot → Boot) : (modBoot g s).fgroups = s.fgroups := rfl
@[simp] theorem rx_modBoot (g : Boot → Boot) : (modBoot g s).rx = s.rx := rfl
@[simp] theorem chans_modBoot (g : Boot → Boot) : (modBoot g s).chans = s.chans := rfl
@[simp] theorem buses_modBoot (g : Boot → Boot) : (modBoot g s).buses = s.buses := rfl
@[simp] theorem ego_modBoot (g : Boot → Boot) : (modBoot g s).ego = s.ego := rfl
@[simp] theorem egoTaken_modBoot (g : Boot → Boot) : (modBoot g s).egoTaken = s.egoTaken := rfl
@[simp] theorem dec_modBoot (g : Boot → Boot) : (modBoot g s).dec = s.dec := rfl
@[simp] theorem flowCfg_modBoot (g : Boot → Boot) : (modBoot g s).flowCfg = s.flowCfg := rfl
@[simp] theorem flows_modBoot (g : Boot → Boot) : (modBoot g s).flows = s.flows := rfl
@[simp] theorem ports_modBoot (g : Boot → Boot) : (modBoot g s).ports = s.ports := rfl
@[simp] theorem lanes_modBoot (g : Boot → Boot) : (modBoot g s).lanes = s.lanes := rfl
@[simp] theorem gts10_modBoot (g : Boot → Boot) : (modBoot g s).gts10 = s.gts10 := rfl
@[simp] theorem mps_modBoot (g : Boot → Boot) : (modBoot g s).mps = s.mps := rfl
@[simp] theorem tx_modBoot (g : Boot → Boot) : (modBoot g s).tx = s.tx := rfl
@[simp] theorem macOther_modBoot (g : Boot → Boot) : (modBoot g s).macOther = s.macOther := rfl
@[simp] theorem dmc_modBoot (g : Boot → Boot) : (modBoot g s).dmc = s.dmc := rfl
@[simp] theorem tarn_modBoot (g : Boot → Boot) : (modBoot g s).tarn = s.tarn := rfl
@[simp] theorem roles_modBoot (g : Boot → Boot) : (modBoot g s).roles = s.roles := rfl
@[simp] theorem cls_modBoot (g : Boot → Boot) : (modBoot g s).cls = s.cls := rfl
@[simp] theorem seqs_modBoot (g : Boot → Boot) : (modBoot g s).seqs = s.seqs := rfl
@[simp] theorem power_modBoot (g : Boot → Boot) : (modBoot g s).power = s.power := rfl
@[simp] theorem bookings_modBoot (g : Boot → Boot) : (modBoot g s).bookings = s.bookings := rfl
@[simp] theorem buffers_modBoot (g : Boot → Boot) : (modBoot g s).buffers = s.buffers := rfl
@[simp] theorem meters_modBoot (g : Boot → Boot) : (modBoot g s).meters = s.meters := rfl
@[simp] theorem out_modBoot (g : Boot → Boot) : (modBoot g s).out = s.out := rfl
@[simp] theorem fresh_modBoot (g : Boot → Boot) : (modBoot g s).fresh = s.fresh := rfl
@[simp] theorem fn_modBoot (g : Boot → Boot) (i : Nat) : (modBoot g s).fn i = s.fn i := rfl
@[simp] theorem chan_modBoot (g : Boot → Boot) (i : Nat) : (modBoot g s).chan i = s.chan i := rfl
@[simp] theorem flow_modBoot (g : Boot → Boot) (i : Nat) : (modBoot g s).flow i = s.flow i := rfl
@[simp] theorem fcfg_modBoot (g : Boot → Boot) (i : Nat) : (modBoot g s).fcfg i = s.fcfg i := rfl
@[simp] theorem decS_modBoot (g : Boot → Boot) (i : Nat) : (modBoot g s).decS i = s.decS i := rfl
@[simp] theorem dmcN_modBoot (g : Boot → Boot) (i : Nat) : (modBoot g s).dmcN i = s.dmcN i := rfl
@[simp] theorem rxPort_modBoot (g : Boot → Boot) (i : Nat) : (modBoot g s).rxPort i = s.rxPort i := rfl
@[simp] theorem target_modBoot (g : Boot → Boot) (i : Nat) : (modBoot g s).target i = s.target i := rfl
@[simp] theorem nChan_modBoot (g : Boot → Boot) : (modBoot g s).nChan = s.nChan := rfl
@[simp] theorem nFlow_modBoot (g : Boot → Boot) : (modBoot g s).nFlow = s.nFlow := rfl
@[simp] theorem nEnc_modBoot (g : Boot → Boot) : (modBoot g s).nEnc = s.nEnc := rfl
@[simp] theorem nDec_modBoot (g : Boot → Boot) : (modBoot g s).nDec = s.nDec := rfl
@[simp] theorem nTx_modBoot (g : Boot → Boot) : (modBoot g s).nTx = s.nTx := rfl
@[simp] theorem nDmc_modBoot (g : Boot → Boot) : (modBoot g s).nDmc = s.nDmc := rfl
@[simp] theorem hasVision_modBoot (g : Boot → Boot) : (modBoot g s).hasVision = s.hasVision := rfl
@[simp] theorem tickField_modBoot (g : Boot → Boot) : (modBoot g s).tickField = s.tickField := rfl
@[simp] theorem lastBoundary_modBoot (g : Boot → Boot) : (modBoot g s).lastBoundary = s.lastBoundary := rfl

@[simp] theorem pending_modTarn (g : Tarn → Tarn) : (modTarn g s).pending = s.pending := rfl
@[simp] theorem fuses_modTarn (g : Tarn → Tarn) : (modTarn g s).fuses = s.fuses := rfl
@[simp] theorem boot_modTarn (g : Tarn → Tarn) : (modTarn g s).boot = s.boot := rfl
@[simp] theorem time_modTarn (g : Tarn → Tarn) : (modTarn g s).time = s.time := rfl
@[simp] theorem fns_modTarn (g : Tarn → Tarn) : (modTarn g s).fns = s.fns := rfl
@[simp] theorem numVfs_modTarn (g : Tarn → Tarn) : (modTarn g s).numVfs = s.numVfs := rfl
@[simp] theorem vfEnable_modTarn (g : Tarn → Tarn) : (modTarn g s).vfEnable = s.vfEnable := rfl
@[simp] theorem irq_modTarn (g : Tarn → Tarn) : (modTarn g s).irq = s.irq := rfl
@[simp] theorem exec_modTarn (g : Tarn → Tarn) : (modTarn g s).exec = s.exec := rfl
@[simp] theorem lastServed_modTarn (g : Tarn → Tarn) : (modTarn g s).lastServed = s.lastServed := rfl
@[simp] theorem resetAt_modTarn (g : Tarn → Tarn) : (modTarn g s).resetAt = s.resetAt := rfl
@[simp] theorem groups_modTarn (g : Tarn → Tarn) : (modTarn g s).groups = s.groups := rfl
@[simp] theorem fgroups_modTarn (g : Tarn → Tarn) : (modTarn g s).fgroups = s.fgroups := rfl
@[simp] theorem rx_modTarn (g : Tarn → Tarn) : (modTarn g s).rx = s.rx := rfl
@[simp] theorem chans_modTarn (g : Tarn → Tarn) : (modTarn g s).chans = s.chans := rfl
@[simp] theorem buses_modTarn (g : Tarn → Tarn) : (modTarn g s).buses = s.buses := rfl
@[simp] theorem ego_modTarn (g : Tarn → Tarn) : (modTarn g s).ego = s.ego := rfl
@[simp] theorem egoTaken_modTarn (g : Tarn → Tarn) : (modTarn g s).egoTaken = s.egoTaken := rfl
@[simp] theorem dec_modTarn (g : Tarn → Tarn) : (modTarn g s).dec = s.dec := rfl
@[simp] theorem flowCfg_modTarn (g : Tarn → Tarn) : (modTarn g s).flowCfg = s.flowCfg := rfl
@[simp] theorem flows_modTarn (g : Tarn → Tarn) : (modTarn g s).flows = s.flows := rfl
@[simp] theorem ports_modTarn (g : Tarn → Tarn) : (modTarn g s).ports = s.ports := rfl
@[simp] theorem lanes_modTarn (g : Tarn → Tarn) : (modTarn g s).lanes = s.lanes := rfl
@[simp] theorem gts10_modTarn (g : Tarn → Tarn) : (modTarn g s).gts10 = s.gts10 := rfl
@[simp] theorem mps_modTarn (g : Tarn → Tarn) : (modTarn g s).mps = s.mps := rfl
@[simp] theorem tx_modTarn (g : Tarn → Tarn) : (modTarn g s).tx = s.tx := rfl
@[simp] theorem macOther_modTarn (g : Tarn → Tarn) : (modTarn g s).macOther = s.macOther := rfl
@[simp] theorem dmc_modTarn (g : Tarn → Tarn) : (modTarn g s).dmc = s.dmc := rfl
@[simp] theorem roles_modTarn (g : Tarn → Tarn) : (modTarn g s).roles = s.roles := rfl
@[simp] theorem cls_modTarn (g : Tarn → Tarn) : (modTarn g s).cls = s.cls := rfl
@[simp] theorem seqs_modTarn (g : Tarn → Tarn) : (modTarn g s).seqs = s.seqs := rfl
@[simp] theorem power_modTarn (g : Tarn → Tarn) : (modTarn g s).power = s.power := rfl
@[simp] theorem bookings_modTarn (g : Tarn → Tarn) : (modTarn g s).bookings = s.bookings := rfl
@[simp] theorem buffers_modTarn (g : Tarn → Tarn) : (modTarn g s).buffers = s.buffers := rfl
@[simp] theorem meters_modTarn (g : Tarn → Tarn) : (modTarn g s).meters = s.meters := rfl
@[simp] theorem out_modTarn (g : Tarn → Tarn) : (modTarn g s).out = s.out := rfl
@[simp] theorem fresh_modTarn (g : Tarn → Tarn) : (modTarn g s).fresh = s.fresh := rfl
@[simp] theorem fn_modTarn (g : Tarn → Tarn) (i : Nat) : (modTarn g s).fn i = s.fn i := rfl
@[simp] theorem chan_modTarn (g : Tarn → Tarn) (i : Nat) : (modTarn g s).chan i = s.chan i := rfl
@[simp] theorem flow_modTarn (g : Tarn → Tarn) (i : Nat) : (modTarn g s).flow i = s.flow i := rfl
@[simp] theorem fcfg_modTarn (g : Tarn → Tarn) (i : Nat) : (modTarn g s).fcfg i = s.fcfg i := rfl
@[simp] theorem decS_modTarn (g : Tarn → Tarn) (i : Nat) : (modTarn g s).decS i = s.decS i := rfl
@[simp] theorem dmcN_modTarn (g : Tarn → Tarn) (i : Nat) : (modTarn g s).dmcN i = s.dmcN i := rfl
@[simp] theorem rxPort_modTarn (g : Tarn → Tarn) (i : Nat) : (modTarn g s).rxPort i = s.rxPort i := rfl
@[simp] theorem target_modTarn (g : Tarn → Tarn) (i : Nat) : (modTarn g s).target i = s.target i := rfl
@[simp] theorem nChan_modTarn (g : Tarn → Tarn) : (modTarn g s).nChan = s.nChan := rfl
@[simp] theorem nFlow_modTarn (g : Tarn → Tarn) : (modTarn g s).nFlow = s.nFlow := rfl
@[simp] theorem nEnc_modTarn (g : Tarn → Tarn) : (modTarn g s).nEnc = s.nEnc := rfl
@[simp] theorem nDec_modTarn (g : Tarn → Tarn) : (modTarn g s).nDec = s.nDec := rfl
@[simp] theorem nTx_modTarn (g : Tarn → Tarn) : (modTarn g s).nTx = s.nTx := rfl
@[simp] theorem nDmc_modTarn (g : Tarn → Tarn) : (modTarn g s).nDmc = s.nDmc := rfl
@[simp] theorem hasVision_modTarn (g : Tarn → Tarn) : (modTarn g s).hasVision = s.hasVision := rfl
@[simp] theorem ready_modTarn (g : Tarn → Tarn) : (modTarn g s).ready = s.ready := rfl
@[simp] theorem tickField_modTarn (g : Tarn → Tarn) : (modTarn g s).tickField = s.tickField := rfl
@[simp] theorem lastBoundary_modTarn (g : Tarn → Tarn) : (modTarn g s).lastBoundary = s.lastBoundary := rfl

@[simp] theorem pending_modRoles (g : Roles → Roles) : (modRoles g s).pending = s.pending := rfl
@[simp] theorem fuses_modRoles (g : Roles → Roles) : (modRoles g s).fuses = s.fuses := rfl
@[simp] theorem boot_modRoles (g : Roles → Roles) : (modRoles g s).boot = s.boot := rfl
@[simp] theorem time_modRoles (g : Roles → Roles) : (modRoles g s).time = s.time := rfl
@[simp] theorem fns_modRoles (g : Roles → Roles) : (modRoles g s).fns = s.fns := rfl
@[simp] theorem numVfs_modRoles (g : Roles → Roles) : (modRoles g s).numVfs = s.numVfs := rfl
@[simp] theorem vfEnable_modRoles (g : Roles → Roles) : (modRoles g s).vfEnable = s.vfEnable := rfl
@[simp] theorem irq_modRoles (g : Roles → Roles) : (modRoles g s).irq = s.irq := rfl
@[simp] theorem exec_modRoles (g : Roles → Roles) : (modRoles g s).exec = s.exec := rfl
@[simp] theorem lastServed_modRoles (g : Roles → Roles) : (modRoles g s).lastServed = s.lastServed := rfl
@[simp] theorem resetAt_modRoles (g : Roles → Roles) : (modRoles g s).resetAt = s.resetAt := rfl
@[simp] theorem groups_modRoles (g : Roles → Roles) : (modRoles g s).groups = s.groups := rfl
@[simp] theorem fgroups_modRoles (g : Roles → Roles) : (modRoles g s).fgroups = s.fgroups := rfl
@[simp] theorem rx_modRoles (g : Roles → Roles) : (modRoles g s).rx = s.rx := rfl
@[simp] theorem chans_modRoles (g : Roles → Roles) : (modRoles g s).chans = s.chans := rfl
@[simp] theorem buses_modRoles (g : Roles → Roles) : (modRoles g s).buses = s.buses := rfl
@[simp] theorem ego_modRoles (g : Roles → Roles) : (modRoles g s).ego = s.ego := rfl
@[simp] theorem egoTaken_modRoles (g : Roles → Roles) : (modRoles g s).egoTaken = s.egoTaken := rfl
@[simp] theorem dec_modRoles (g : Roles → Roles) : (modRoles g s).dec = s.dec := rfl
@[simp] theorem flowCfg_modRoles (g : Roles → Roles) : (modRoles g s).flowCfg = s.flowCfg := rfl
@[simp] theorem flows_modRoles (g : Roles → Roles) : (modRoles g s).flows = s.flows := rfl
@[simp] theorem ports_modRoles (g : Roles → Roles) : (modRoles g s).ports = s.ports := rfl
@[simp] theorem lanes_modRoles (g : Roles → Roles) : (modRoles g s).lanes = s.lanes := rfl
@[simp] theorem gts10_modRoles (g : Roles → Roles) : (modRoles g s).gts10 = s.gts10 := rfl
@[simp] theorem mps_modRoles (g : Roles → Roles) : (modRoles g s).mps = s.mps := rfl
@[simp] theorem tx_modRoles (g : Roles → Roles) : (modRoles g s).tx = s.tx := rfl
@[simp] theorem macOther_modRoles (g : Roles → Roles) : (modRoles g s).macOther = s.macOther := rfl
@[simp] theorem dmc_modRoles (g : Roles → Roles) : (modRoles g s).dmc = s.dmc := rfl
@[simp] theorem tarn_modRoles (g : Roles → Roles) : (modRoles g s).tarn = s.tarn := rfl
@[simp] theorem cls_modRoles (g : Roles → Roles) : (modRoles g s).cls = s.cls := rfl
@[simp] theorem seqs_modRoles (g : Roles → Roles) : (modRoles g s).seqs = s.seqs := rfl
@[simp] theorem power_modRoles (g : Roles → Roles) : (modRoles g s).power = s.power := rfl
@[simp] theorem bookings_modRoles (g : Roles → Roles) : (modRoles g s).bookings = s.bookings := rfl
@[simp] theorem buffers_modRoles (g : Roles → Roles) : (modRoles g s).buffers = s.buffers := rfl
@[simp] theorem meters_modRoles (g : Roles → Roles) : (modRoles g s).meters = s.meters := rfl
@[simp] theorem out_modRoles (g : Roles → Roles) : (modRoles g s).out = s.out := rfl
@[simp] theorem fresh_modRoles (g : Roles → Roles) : (modRoles g s).fresh = s.fresh := rfl
@[simp] theorem fn_modRoles (g : Roles → Roles) (i : Nat) : (modRoles g s).fn i = s.fn i := rfl
@[simp] theorem chan_modRoles (g : Roles → Roles) (i : Nat) : (modRoles g s).chan i = s.chan i := rfl
@[simp] theorem flow_modRoles (g : Roles → Roles) (i : Nat) : (modRoles g s).flow i = s.flow i := rfl
@[simp] theorem fcfg_modRoles (g : Roles → Roles) (i : Nat) : (modRoles g s).fcfg i = s.fcfg i := rfl
@[simp] theorem decS_modRoles (g : Roles → Roles) (i : Nat) : (modRoles g s).decS i = s.decS i := rfl
@[simp] theorem dmcN_modRoles (g : Roles → Roles) (i : Nat) : (modRoles g s).dmcN i = s.dmcN i := rfl
@[simp] theorem rxPort_modRoles (g : Roles → Roles) (i : Nat) : (modRoles g s).rxPort i = s.rxPort i := rfl
@[simp] theorem target_modRoles (g : Roles → Roles) (i : Nat) : (modRoles g s).target i = s.target i := rfl
@[simp] theorem nChan_modRoles (g : Roles → Roles) : (modRoles g s).nChan = s.nChan := rfl
@[simp] theorem nFlow_modRoles (g : Roles → Roles) : (modRoles g s).nFlow = s.nFlow := rfl
@[simp] theorem nEnc_modRoles (g : Roles → Roles) : (modRoles g s).nEnc = s.nEnc := rfl
@[simp] theorem nDec_modRoles (g : Roles → Roles) : (modRoles g s).nDec = s.nDec := rfl
@[simp] theorem nTx_modRoles (g : Roles → Roles) : (modRoles g s).nTx = s.nTx := rfl
@[simp] theorem nDmc_modRoles (g : Roles → Roles) : (modRoles g s).nDmc = s.nDmc := rfl
@[simp] theorem hasVision_modRoles (g : Roles → Roles) : (modRoles g s).hasVision = s.hasVision := rfl
@[simp] theorem ready_modRoles (g : Roles → Roles) : (modRoles g s).ready = s.ready := rfl
@[simp] theorem tickField_modRoles (g : Roles → Roles) : (modRoles g s).tickField = s.tickField := rfl
@[simp] theorem lastBoundary_modRoles (g : Roles → Roles) : (modRoles g s).lastBoundary = s.lastBoundary := rfl

@[simp] theorem pending_modPower (g : Power → Power) : (modPower g s).pending = s.pending := rfl
@[simp] theorem fuses_modPower (g : Power → Power) : (modPower g s).fuses = s.fuses := rfl
@[simp] theorem boot_modPower (g : Power → Power) : (modPower g s).boot = s.boot := rfl
@[simp] theorem time_modPower (g : Power → Power) : (modPower g s).time = s.time := rfl
@[simp] theorem fns_modPower (g : Power → Power) : (modPower g s).fns = s.fns := rfl
@[simp] theorem numVfs_modPower (g : Power → Power) : (modPower g s).numVfs = s.numVfs := rfl
@[simp] theorem vfEnable_modPower (g : Power → Power) : (modPower g s).vfEnable = s.vfEnable := rfl
@[simp] theorem irq_modPower (g : Power → Power) : (modPower g s).irq = s.irq := rfl
@[simp] theorem exec_modPower (g : Power → Power) : (modPower g s).exec = s.exec := rfl
@[simp] theorem lastServed_modPower (g : Power → Power) : (modPower g s).lastServed = s.lastServed := rfl
@[simp] theorem resetAt_modPower (g : Power → Power) : (modPower g s).resetAt = s.resetAt := rfl
@[simp] theorem groups_modPower (g : Power → Power) : (modPower g s).groups = s.groups := rfl
@[simp] theorem fgroups_modPower (g : Power → Power) : (modPower g s).fgroups = s.fgroups := rfl
@[simp] theorem rx_modPower (g : Power → Power) : (modPower g s).rx = s.rx := rfl
@[simp] theorem chans_modPower (g : Power → Power) : (modPower g s).chans = s.chans := rfl
@[simp] theorem buses_modPower (g : Power → Power) : (modPower g s).buses = s.buses := rfl
@[simp] theorem ego_modPower (g : Power → Power) : (modPower g s).ego = s.ego := rfl
@[simp] theorem egoTaken_modPower (g : Power → Power) : (modPower g s).egoTaken = s.egoTaken := rfl
@[simp] theorem dec_modPower (g : Power → Power) : (modPower g s).dec = s.dec := rfl
@[simp] theorem flowCfg_modPower (g : Power → Power) : (modPower g s).flowCfg = s.flowCfg := rfl
@[simp] theorem flows_modPower (g : Power → Power) : (modPower g s).flows = s.flows := rfl
@[simp] theorem ports_modPower (g : Power → Power) : (modPower g s).ports = s.ports := rfl
@[simp] theorem lanes_modPower (g : Power → Power) : (modPower g s).lanes = s.lanes := rfl
@[simp] theorem gts10_modPower (g : Power → Power) : (modPower g s).gts10 = s.gts10 := rfl
@[simp] theorem mps_modPower (g : Power → Power) : (modPower g s).mps = s.mps := rfl
@[simp] theorem tx_modPower (g : Power → Power) : (modPower g s).tx = s.tx := rfl
@[simp] theorem macOther_modPower (g : Power → Power) : (modPower g s).macOther = s.macOther := rfl
@[simp] theorem dmc_modPower (g : Power → Power) : (modPower g s).dmc = s.dmc := rfl
@[simp] theorem tarn_modPower (g : Power → Power) : (modPower g s).tarn = s.tarn := rfl
@[simp] theorem roles_modPower (g : Power → Power) : (modPower g s).roles = s.roles := rfl
@[simp] theorem cls_modPower (g : Power → Power) : (modPower g s).cls = s.cls := rfl
@[simp] theorem seqs_modPower (g : Power → Power) : (modPower g s).seqs = s.seqs := rfl
@[simp] theorem bookings_modPower (g : Power → Power) : (modPower g s).bookings = s.bookings := rfl
@[simp] theorem buffers_modPower (g : Power → Power) : (modPower g s).buffers = s.buffers := rfl
@[simp] theorem meters_modPower (g : Power → Power) : (modPower g s).meters = s.meters := rfl
@[simp] theorem out_modPower (g : Power → Power) : (modPower g s).out = s.out := rfl
@[simp] theorem fresh_modPower (g : Power → Power) : (modPower g s).fresh = s.fresh := rfl
@[simp] theorem fn_modPower (g : Power → Power) (i : Nat) : (modPower g s).fn i = s.fn i := rfl
@[simp] theorem chan_modPower (g : Power → Power) (i : Nat) : (modPower g s).chan i = s.chan i := rfl
@[simp] theorem flow_modPower (g : Power → Power) (i : Nat) : (modPower g s).flow i = s.flow i := rfl
@[simp] theorem fcfg_modPower (g : Power → Power) (i : Nat) : (modPower g s).fcfg i = s.fcfg i := rfl
@[simp] theorem decS_modPower (g : Power → Power) (i : Nat) : (modPower g s).decS i = s.decS i := rfl
@[simp] theorem dmcN_modPower (g : Power → Power) (i : Nat) : (modPower g s).dmcN i = s.dmcN i := rfl
@[simp] theorem rxPort_modPower (g : Power → Power) (i : Nat) : (modPower g s).rxPort i = s.rxPort i := rfl
@[simp] theorem target_modPower (g : Power → Power) (i : Nat) : (modPower g s).target i = s.target i := rfl
@[simp] theorem nChan_modPower (g : Power → Power) : (modPower g s).nChan = s.nChan := rfl
@[simp] theorem nFlow_modPower (g : Power → Power) : (modPower g s).nFlow = s.nFlow := rfl
@[simp] theorem nEnc_modPower (g : Power → Power) : (modPower g s).nEnc = s.nEnc := rfl
@[simp] theorem nDec_modPower (g : Power → Power) : (modPower g s).nDec = s.nDec := rfl
@[simp] theorem nTx_modPower (g : Power → Power) : (modPower g s).nTx = s.nTx := rfl
@[simp] theorem nDmc_modPower (g : Power → Power) : (modPower g s).nDmc = s.nDmc := rfl
@[simp] theorem hasVision_modPower (g : Power → Power) : (modPower g s).hasVision = s.hasVision := rfl
@[simp] theorem ready_modPower (g : Power → Power) : (modPower g s).ready = s.ready := rfl
@[simp] theorem tickField_modPower (g : Power → Power) : (modPower g s).tickField = s.tickField := rfl
@[simp] theorem lastBoundary_modPower (g : Power → Power) : (modPower g s).lastBoundary = s.lastBoundary := rfl

@[simp] theorem pending_modSrc (n : Nat) (g : Source → Source) : (modSrc n g s).pending = s.pending := rfl
@[simp] theorem fuses_modSrc (n : Nat) (g : Source → Source) : (modSrc n g s).fuses = s.fuses := rfl
@[simp] theorem boot_modSrc (n : Nat) (g : Source → Source) : (modSrc n g s).boot = s.boot := rfl
@[simp] theorem time_modSrc (n : Nat) (g : Source → Source) : (modSrc n g s).time = s.time := rfl
@[simp] theorem fns_modSrc (n : Nat) (g : Source → Source) : (modSrc n g s).fns = s.fns := rfl
@[simp] theorem numVfs_modSrc (n : Nat) (g : Source → Source) : (modSrc n g s).numVfs = s.numVfs := rfl
@[simp] theorem vfEnable_modSrc (n : Nat) (g : Source → Source) : (modSrc n g s).vfEnable = s.vfEnable := rfl
@[simp] theorem exec_modSrc (n : Nat) (g : Source → Source) : (modSrc n g s).exec = s.exec := rfl
@[simp] theorem lastServed_modSrc (n : Nat) (g : Source → Source) : (modSrc n g s).lastServed = s.lastServed := rfl
@[simp] theorem resetAt_modSrc (n : Nat) (g : Source → Source) : (modSrc n g s).resetAt = s.resetAt := rfl
@[simp] theorem groups_modSrc (n : Nat) (g : Source → Source) : (modSrc n g s).groups = s.groups := rfl
@[simp] theorem fgroups_modSrc (n : Nat) (g : Source → Source) : (modSrc n g s).fgroups = s.fgroups := rfl
@[simp] theorem rx_modSrc (n : Nat) (g : Source → Source) : (modSrc n g s).rx = s.rx := rfl
@[simp] theorem chans_modSrc (n : Nat) (g : Source → Source) : (modSrc n g s).chans = s.chans := rfl
@[simp] theorem buses_modSrc (n : Nat) (g : Source → Source) : (modSrc n g s).buses = s.buses := rfl
@[simp] theorem ego_modSrc (n : Nat) (g : Source → Source) : (modSrc n g s).ego = s.ego := rfl
@[simp] theorem egoTaken_modSrc (n : Nat) (g : Source → Source) : (modSrc n g s).egoTaken = s.egoTaken := rfl
@[simp] theorem dec_modSrc (n : Nat) (g : Source → Source) : (modSrc n g s).dec = s.dec := rfl
@[simp] theorem flowCfg_modSrc (n : Nat) (g : Source → Source) : (modSrc n g s).flowCfg = s.flowCfg := rfl
@[simp] theorem flows_modSrc (n : Nat) (g : Source → Source) : (modSrc n g s).flows = s.flows := rfl
@[simp] theorem ports_modSrc (n : Nat) (g : Source → Source) : (modSrc n g s).ports = s.ports := rfl
@[simp] theorem lanes_modSrc (n : Nat) (g : Source → Source) : (modSrc n g s).lanes = s.lanes := rfl
@[simp] theorem gts10_modSrc (n : Nat) (g : Source → Source) : (modSrc n g s).gts10 = s.gts10 := rfl
@[simp] theorem mps_modSrc (n : Nat) (g : Source → Source) : (modSrc n g s).mps = s.mps := rfl
@[simp] theorem tx_modSrc (n : Nat) (g : Source → Source) : (modSrc n g s).tx = s.tx := rfl
@[simp] theorem macOther_modSrc (n : Nat) (g : Source → Source) : (modSrc n g s).macOther = s.macOther := rfl
@[simp] theorem dmc_modSrc (n : Nat) (g : Source → Source) : (modSrc n g s).dmc = s.dmc := rfl
@[simp] theorem tarn_modSrc (n : Nat) (g : Source → Source) : (modSrc n g s).tarn = s.tarn := rfl
@[simp] theorem roles_modSrc (n : Nat) (g : Source → Source) : (modSrc n g s).roles = s.roles := rfl
@[simp] theorem cls_modSrc (n : Nat) (g : Source → Source) : (modSrc n g s).cls = s.cls := rfl
@[simp] theorem seqs_modSrc (n : Nat) (g : Source → Source) : (modSrc n g s).seqs = s.seqs := rfl
@[simp] theorem power_modSrc (n : Nat) (g : Source → Source) : (modSrc n g s).power = s.power := rfl
@[simp] theorem bookings_modSrc (n : Nat) (g : Source → Source) : (modSrc n g s).bookings = s.bookings := rfl
@[simp] theorem buffers_modSrc (n : Nat) (g : Source → Source) : (modSrc n g s).buffers = s.buffers := rfl
@[simp] theorem meters_modSrc (n : Nat) (g : Source → Source) : (modSrc n g s).meters = s.meters := rfl
@[simp] theorem out_modSrc (n : Nat) (g : Source → Source) : (modSrc n g s).out = s.out := rfl
@[simp] theorem fresh_modSrc (n : Nat) (g : Source → Source) : (modSrc n g s).fresh = s.fresh := rfl
@[simp] theorem fn_modSrc (n : Nat) (g : Source → Source) (i : Nat) : (modSrc n g s).fn i = s.fn i := rfl
@[simp] theorem chan_modSrc (n : Nat) (g : Source → Source) (i : Nat) : (modSrc n g s).chan i = s.chan i := rfl
@[simp] theorem flow_modSrc (n : Nat) (g : Source → Source) (i : Nat) : (modSrc n g s).flow i = s.flow i := rfl
@[simp] theorem fcfg_modSrc (n : Nat) (g : Source → Source) (i : Nat) : (modSrc n g s).fcfg i = s.fcfg i := rfl
@[simp] theorem decS_modSrc (n : Nat) (g : Source → Source) (i : Nat) : (modSrc n g s).decS i = s.decS i := rfl
@[simp] theorem dmcN_modSrc (n : Nat) (g : Source → Source) (i : Nat) : (modSrc n g s).dmcN i = s.dmcN i := rfl
@[simp] theorem rxPort_modSrc (n : Nat) (g : Source → Source) (i : Nat) : (modSrc n g s).rxPort i = s.rxPort i := rfl
@[simp] theorem nChan_modSrc (n : Nat) (g : Source → Source) : (modSrc n g s).nChan = s.nChan := rfl
@[simp] theorem nFlow_modSrc (n : Nat) (g : Source → Source) : (modSrc n g s).nFlow = s.nFlow := rfl
@[simp] theorem nEnc_modSrc (n : Nat) (g : Source → Source) : (modSrc n g s).nEnc = s.nEnc := rfl
@[simp] theorem nDec_modSrc (n : Nat) (g : Source → Source) : (modSrc n g s).nDec = s.nDec := rfl
@[simp] theorem nTx_modSrc (n : Nat) (g : Source → Source) : (modSrc n g s).nTx = s.nTx := rfl
@[simp] theorem nDmc_modSrc (n : Nat) (g : Source → Source) : (modSrc n g s).nDmc = s.nDmc := rfl
@[simp] theorem hasVision_modSrc (n : Nat) (g : Source → Source) : (modSrc n g s).hasVision = s.hasVision := rfl
@[simp] theorem ready_modSrc (n : Nat) (g : Source → Source) : (modSrc n g s).ready = s.ready := rfl
@[simp] theorem tickField_modSrc (n : Nat) (g : Source → Source) : (modSrc n g s).tickField = s.tickField := rfl
@[simp] theorem lastBoundary_modSrc (n : Nat) (g : Source → Source) : (modSrc n g s).lastBoundary = s.lastBoundary := rfl

@[simp] theorem pending_modFwSrc (n : Nat) (g : Source → Source) : (modFwSrc n g s).pending = s.pending := rfl
@[simp] theorem fuses_modFwSrc (n : Nat) (g : Source → Source) : (modFwSrc n g s).fuses = s.fuses := rfl
@[simp] theorem boot_modFwSrc (n : Nat) (g : Source → Source) : (modFwSrc n g s).boot = s.boot := rfl
@[simp] theorem time_modFwSrc (n : Nat) (g : Source → Source) : (modFwSrc n g s).time = s.time := rfl
@[simp] theorem fns_modFwSrc (n : Nat) (g : Source → Source) : (modFwSrc n g s).fns = s.fns := rfl
@[simp] theorem numVfs_modFwSrc (n : Nat) (g : Source → Source) : (modFwSrc n g s).numVfs = s.numVfs := rfl
@[simp] theorem vfEnable_modFwSrc (n : Nat) (g : Source → Source) : (modFwSrc n g s).vfEnable = s.vfEnable := rfl
@[simp] theorem exec_modFwSrc (n : Nat) (g : Source → Source) : (modFwSrc n g s).exec = s.exec := rfl
@[simp] theorem lastServed_modFwSrc (n : Nat) (g : Source → Source) : (modFwSrc n g s).lastServed = s.lastServed := rfl
@[simp] theorem resetAt_modFwSrc (n : Nat) (g : Source → Source) : (modFwSrc n g s).resetAt = s.resetAt := rfl
@[simp] theorem groups_modFwSrc (n : Nat) (g : Source → Source) : (modFwSrc n g s).groups = s.groups := rfl
@[simp] theorem fgroups_modFwSrc (n : Nat) (g : Source → Source) : (modFwSrc n g s).fgroups = s.fgroups := rfl
@[simp] theorem rx_modFwSrc (n : Nat) (g : Source → Source) : (modFwSrc n g s).rx = s.rx := rfl
@[simp] theorem chans_modFwSrc (n : Nat) (g : Source → Source) : (modFwSrc n g s).chans = s.chans := rfl
@[simp] theorem buses_modFwSrc (n : Nat) (g : Source → Source) : (modFwSrc n g s).buses = s.buses := rfl
@[simp] theorem ego_modFwSrc (n : Nat) (g : Source → Source) : (modFwSrc n g s).ego = s.ego := rfl
@[simp] theorem egoTaken_modFwSrc (n : Nat) (g : Source → Source) : (modFwSrc n g s).egoTaken = s.egoTaken := rfl
@[simp] theorem dec_modFwSrc (n : Nat) (g : Source → Source) : (modFwSrc n g s).dec = s.dec := rfl
@[simp] theorem flowCfg_modFwSrc (n : Nat) (g : Source → Source) : (modFwSrc n g s).flowCfg = s.flowCfg := rfl
@[simp] theorem flows_modFwSrc (n : Nat) (g : Source → Source) : (modFwSrc n g s).flows = s.flows := rfl
@[simp] theorem ports_modFwSrc (n : Nat) (g : Source → Source) : (modFwSrc n g s).ports = s.ports := rfl
@[simp] theorem lanes_modFwSrc (n : Nat) (g : Source → Source) : (modFwSrc n g s).lanes = s.lanes := rfl
@[simp] theorem gts10_modFwSrc (n : Nat) (g : Source → Source) : (modFwSrc n g s).gts10 = s.gts10 := rfl
@[simp] theorem mps_modFwSrc (n : Nat) (g : Source → Source) : (modFwSrc n g s).mps = s.mps := rfl
@[simp] theorem tx_modFwSrc (n : Nat) (g : Source → Source) : (modFwSrc n g s).tx = s.tx := rfl
@[simp] theorem macOther_modFwSrc (n : Nat) (g : Source → Source) : (modFwSrc n g s).macOther = s.macOther := rfl
@[simp] theorem dmc_modFwSrc (n : Nat) (g : Source → Source) : (modFwSrc n g s).dmc = s.dmc := rfl
@[simp] theorem tarn_modFwSrc (n : Nat) (g : Source → Source) : (modFwSrc n g s).tarn = s.tarn := rfl
@[simp] theorem roles_modFwSrc (n : Nat) (g : Source → Source) : (modFwSrc n g s).roles = s.roles := rfl
@[simp] theorem cls_modFwSrc (n : Nat) (g : Source → Source) : (modFwSrc n g s).cls = s.cls := rfl
@[simp] theorem seqs_modFwSrc (n : Nat) (g : Source → Source) : (modFwSrc n g s).seqs = s.seqs := rfl
@[simp] theorem power_modFwSrc (n : Nat) (g : Source → Source) : (modFwSrc n g s).power = s.power := rfl
@[simp] theorem bookings_modFwSrc (n : Nat) (g : Source → Source) : (modFwSrc n g s).bookings = s.bookings := rfl
@[simp] theorem buffers_modFwSrc (n : Nat) (g : Source → Source) : (modFwSrc n g s).buffers = s.buffers := rfl
@[simp] theorem meters_modFwSrc (n : Nat) (g : Source → Source) : (modFwSrc n g s).meters = s.meters := rfl
@[simp] theorem out_modFwSrc (n : Nat) (g : Source → Source) : (modFwSrc n g s).out = s.out := rfl
@[simp] theorem fresh_modFwSrc (n : Nat) (g : Source → Source) : (modFwSrc n g s).fresh = s.fresh := rfl
@[simp] theorem fn_modFwSrc (n : Nat) (g : Source → Source) (i : Nat) : (modFwSrc n g s).fn i = s.fn i := rfl
@[simp] theorem chan_modFwSrc (n : Nat) (g : Source → Source) (i : Nat) : (modFwSrc n g s).chan i = s.chan i := rfl
@[simp] theorem flow_modFwSrc (n : Nat) (g : Source → Source) (i : Nat) : (modFwSrc n g s).flow i = s.flow i := rfl
@[simp] theorem fcfg_modFwSrc (n : Nat) (g : Source → Source) (i : Nat) : (modFwSrc n g s).fcfg i = s.fcfg i := rfl
@[simp] theorem decS_modFwSrc (n : Nat) (g : Source → Source) (i : Nat) : (modFwSrc n g s).decS i = s.decS i := rfl
@[simp] theorem dmcN_modFwSrc (n : Nat) (g : Source → Source) (i : Nat) : (modFwSrc n g s).dmcN i = s.dmcN i := rfl
@[simp] theorem rxPort_modFwSrc (n : Nat) (g : Source → Source) (i : Nat) : (modFwSrc n g s).rxPort i = s.rxPort i := rfl
@[simp] theorem nChan_modFwSrc (n : Nat) (g : Source → Source) : (modFwSrc n g s).nChan = s.nChan := rfl
@[simp] theorem nFlow_modFwSrc (n : Nat) (g : Source → Source) : (modFwSrc n g s).nFlow = s.nFlow := rfl
@[simp] theorem nEnc_modFwSrc (n : Nat) (g : Source → Source) : (modFwSrc n g s).nEnc = s.nEnc := rfl
@[simp] theorem nDec_modFwSrc (n : Nat) (g : Source → Source) : (modFwSrc n g s).nDec = s.nDec := rfl
@[simp] theorem nTx_modFwSrc (n : Nat) (g : Source → Source) : (modFwSrc n g s).nTx = s.nTx := rfl
@[simp] theorem nDmc_modFwSrc (n : Nat) (g : Source → Source) : (modFwSrc n g s).nDmc = s.nDmc := rfl
@[simp] theorem hasVision_modFwSrc (n : Nat) (g : Source → Source) : (modFwSrc n g s).hasVision = s.hasVision := rfl
@[simp] theorem ready_modFwSrc (n : Nat) (g : Source → Source) : (modFwSrc n g s).ready = s.ready := rfl
@[simp] theorem tickField_modFwSrc (n : Nat) (g : Source → Source) : (modFwSrc n g s).tickField = s.tickField := rfl
@[simp] theorem lastBoundary_modFwSrc (n : Nat) (g : Source → Source) : (modFwSrc n g s).lastBoundary = s.lastBoundary := rfl

@[simp] theorem pending_modTgt (n : Nat) (g : Target → Target) : (modTgt n g s).pending = s.pending := rfl
@[simp] theorem fuses_modTgt (n : Nat) (g : Target → Target) : (modTgt n g s).fuses = s.fuses := rfl
@[simp] theorem boot_modTgt (n : Nat) (g : Target → Target) : (modTgt n g s).boot = s.boot := rfl
@[simp] theorem time_modTgt (n : Nat) (g : Target → Target) : (modTgt n g s).time = s.time := rfl
@[simp] theorem fns_modTgt (n : Nat) (g : Target → Target) : (modTgt n g s).fns = s.fns := rfl
@[simp] theorem numVfs_modTgt (n : Nat) (g : Target → Target) : (modTgt n g s).numVfs = s.numVfs := rfl
@[simp] theorem vfEnable_modTgt (n : Nat) (g : Target → Target) : (modTgt n g s).vfEnable = s.vfEnable := rfl
@[simp] theorem exec_modTgt (n : Nat) (g : Target → Target) : (modTgt n g s).exec = s.exec := rfl
@[simp] theorem lastServed_modTgt (n : Nat) (g : Target → Target) : (modTgt n g s).lastServed = s.lastServed := rfl
@[simp] theorem resetAt_modTgt (n : Nat) (g : Target → Target) : (modTgt n g s).resetAt = s.resetAt := rfl
@[simp] theorem groups_modTgt (n : Nat) (g : Target → Target) : (modTgt n g s).groups = s.groups := rfl
@[simp] theorem fgroups_modTgt (n : Nat) (g : Target → Target) : (modTgt n g s).fgroups = s.fgroups := rfl
@[simp] theorem rx_modTgt (n : Nat) (g : Target → Target) : (modTgt n g s).rx = s.rx := rfl
@[simp] theorem chans_modTgt (n : Nat) (g : Target → Target) : (modTgt n g s).chans = s.chans := rfl
@[simp] theorem buses_modTgt (n : Nat) (g : Target → Target) : (modTgt n g s).buses = s.buses := rfl
@[simp] theorem ego_modTgt (n : Nat) (g : Target → Target) : (modTgt n g s).ego = s.ego := rfl
@[simp] theorem egoTaken_modTgt (n : Nat) (g : Target → Target) : (modTgt n g s).egoTaken = s.egoTaken := rfl
@[simp] theorem dec_modTgt (n : Nat) (g : Target → Target) : (modTgt n g s).dec = s.dec := rfl
@[simp] theorem flowCfg_modTgt (n : Nat) (g : Target → Target) : (modTgt n g s).flowCfg = s.flowCfg := rfl
@[simp] theorem flows_modTgt (n : Nat) (g : Target → Target) : (modTgt n g s).flows = s.flows := rfl
@[simp] theorem ports_modTgt (n : Nat) (g : Target → Target) : (modTgt n g s).ports = s.ports := rfl
@[simp] theorem lanes_modTgt (n : Nat) (g : Target → Target) : (modTgt n g s).lanes = s.lanes := rfl
@[simp] theorem gts10_modTgt (n : Nat) (g : Target → Target) : (modTgt n g s).gts10 = s.gts10 := rfl
@[simp] theorem mps_modTgt (n : Nat) (g : Target → Target) : (modTgt n g s).mps = s.mps := rfl
@[simp] theorem tx_modTgt (n : Nat) (g : Target → Target) : (modTgt n g s).tx = s.tx := rfl
@[simp] theorem macOther_modTgt (n : Nat) (g : Target → Target) : (modTgt n g s).macOther = s.macOther := rfl
@[simp] theorem dmc_modTgt (n : Nat) (g : Target → Target) : (modTgt n g s).dmc = s.dmc := rfl
@[simp] theorem tarn_modTgt (n : Nat) (g : Target → Target) : (modTgt n g s).tarn = s.tarn := rfl
@[simp] theorem roles_modTgt (n : Nat) (g : Target → Target) : (modTgt n g s).roles = s.roles := rfl
@[simp] theorem cls_modTgt (n : Nat) (g : Target → Target) : (modTgt n g s).cls = s.cls := rfl
@[simp] theorem seqs_modTgt (n : Nat) (g : Target → Target) : (modTgt n g s).seqs = s.seqs := rfl
@[simp] theorem power_modTgt (n : Nat) (g : Target → Target) : (modTgt n g s).power = s.power := rfl
@[simp] theorem bookings_modTgt (n : Nat) (g : Target → Target) : (modTgt n g s).bookings = s.bookings := rfl
@[simp] theorem buffers_modTgt (n : Nat) (g : Target → Target) : (modTgt n g s).buffers = s.buffers := rfl
@[simp] theorem meters_modTgt (n : Nat) (g : Target → Target) : (modTgt n g s).meters = s.meters := rfl
@[simp] theorem out_modTgt (n : Nat) (g : Target → Target) : (modTgt n g s).out = s.out := rfl
@[simp] theorem fresh_modTgt (n : Nat) (g : Target → Target) : (modTgt n g s).fresh = s.fresh := rfl
@[simp] theorem fn_modTgt (n : Nat) (g : Target → Target) (i : Nat) : (modTgt n g s).fn i = s.fn i := rfl
@[simp] theorem chan_modTgt (n : Nat) (g : Target → Target) (i : Nat) : (modTgt n g s).chan i = s.chan i := rfl
@[simp] theorem flow_modTgt (n : Nat) (g : Target → Target) (i : Nat) : (modTgt n g s).flow i = s.flow i := rfl
@[simp] theorem fcfg_modTgt (n : Nat) (g : Target → Target) (i : Nat) : (modTgt n g s).fcfg i = s.fcfg i := rfl
@[simp] theorem decS_modTgt (n : Nat) (g : Target → Target) (i : Nat) : (modTgt n g s).decS i = s.decS i := rfl
@[simp] theorem dmcN_modTgt (n : Nat) (g : Target → Target) (i : Nat) : (modTgt n g s).dmcN i = s.dmcN i := rfl
@[simp] theorem rxPort_modTgt (n : Nat) (g : Target → Target) (i : Nat) : (modTgt n g s).rxPort i = s.rxPort i := rfl
@[simp] theorem nChan_modTgt (n : Nat) (g : Target → Target) : (modTgt n g s).nChan = s.nChan := rfl
@[simp] theorem nFlow_modTgt (n : Nat) (g : Target → Target) : (modTgt n g s).nFlow = s.nFlow := rfl
@[simp] theorem nEnc_modTgt (n : Nat) (g : Target → Target) : (modTgt n g s).nEnc = s.nEnc := rfl
@[simp] theorem nDec_modTgt (n : Nat) (g : Target → Target) : (modTgt n g s).nDec = s.nDec := rfl
@[simp] theorem nTx_modTgt (n : Nat) (g : Target → Target) : (modTgt n g s).nTx = s.nTx := rfl
@[simp] theorem nDmc_modTgt (n : Nat) (g : Target → Target) : (modTgt n g s).nDmc = s.nDmc := rfl
@[simp] theorem hasVision_modTgt (n : Nat) (g : Target → Target) : (modTgt n g s).hasVision = s.hasVision := rfl
@[simp] theorem ready_modTgt (n : Nat) (g : Target → Target) : (modTgt n g s).ready = s.ready := rfl
@[simp] theorem tickField_modTgt (n : Nat) (g : Target → Target) : (modTgt n g s).tickField = s.tickField := rfl
@[simp] theorem lastBoundary_modTgt (n : Nat) (g : Target → Target) : (modTgt n g s).lastBoundary = s.lastBoundary := rfl

@[simp] theorem pending_emit (o : Output) : (emit o s).pending = s.pending := rfl
@[simp] theorem fuses_emit (o : Output) : (emit o s).fuses = s.fuses := rfl
@[simp] theorem boot_emit (o : Output) : (emit o s).boot = s.boot := rfl
@[simp] theorem time_emit (o : Output) : (emit o s).time = s.time := rfl
@[simp] theorem fns_emit (o : Output) : (emit o s).fns = s.fns := rfl
@[simp] theorem numVfs_emit (o : Output) : (emit o s).numVfs = s.numVfs := rfl
@[simp] theorem vfEnable_emit (o : Output) : (emit o s).vfEnable = s.vfEnable := rfl
@[simp] theorem irq_emit (o : Output) : (emit o s).irq = s.irq := rfl
@[simp] theorem exec_emit (o : Output) : (emit o s).exec = s.exec := rfl
@[simp] theorem lastServed_emit (o : Output) : (emit o s).lastServed = s.lastServed := rfl
@[simp] theorem resetAt_emit (o : Output) : (emit o s).resetAt = s.resetAt := rfl
@[simp] theorem groups_emit (o : Output) : (emit o s).groups = s.groups := rfl
@[simp] theorem fgroups_emit (o : Output) : (emit o s).fgroups = s.fgroups := rfl
@[simp] theorem rx_emit (o : Output) : (emit o s).rx = s.rx := rfl
@[simp] theorem chans_emit (o : Output) : (emit o s).chans = s.chans := rfl
@[simp] theorem buses_emit (o : Output) : (emit o s).buses = s.buses := rfl
@[simp] theorem ego_emit (o : Output) : (emit o s).ego = s.ego := rfl
@[simp] theorem egoTaken_emit (o : Output) : (emit o s).egoTaken = s.egoTaken := rfl
@[simp] theorem dec_emit (o : Output) : (emit o s).dec = s.dec := rfl
@[simp] theorem flowCfg_emit (o : Output) : (emit o s).flowCfg = s.flowCfg := rfl
@[simp] theorem flows_emit (o : Output) : (emit o s).flows = s.flows := rfl
@[simp] theorem ports_emit (o : Output) : (emit o s).ports = s.ports := rfl
@[simp] theorem lanes_emit (o : Output) : (emit o s).lanes = s.lanes := rfl
@[simp] theorem gts10_emit (o : Output) : (emit o s).gts10 = s.gts10 := rfl
@[simp] theorem mps_emit (o : Output) : (emit o s).mps = s.mps := rfl
@[simp] theorem tx_emit (o : Output) : (emit o s).tx = s.tx := rfl
@[simp] theorem macOther_emit (o : Output) : (emit o s).macOther = s.macOther := rfl
@[simp] theorem dmc_emit (o : Output) : (emit o s).dmc = s.dmc := rfl
@[simp] theorem tarn_emit (o : Output) : (emit o s).tarn = s.tarn := rfl
@[simp] theorem roles_emit (o : Output) : (emit o s).roles = s.roles := rfl
@[simp] theorem cls_emit (o : Output) : (emit o s).cls = s.cls := rfl
@[simp] theorem seqs_emit (o : Output) : (emit o s).seqs = s.seqs := rfl
@[simp] theorem power_emit (o : Output) : (emit o s).power = s.power := rfl
@[simp] theorem bookings_emit (o : Output) : (emit o s).bookings = s.bookings := rfl
@[simp] theorem buffers_emit (o : Output) : (emit o s).buffers = s.buffers := rfl
@[simp] theorem meters_emit (o : Output) : (emit o s).meters = s.meters := rfl
@[simp] theorem fresh_emit (o : Output) : (emit o s).fresh = s.fresh := rfl
@[simp] theorem fn_emit (o : Output) (i : Nat) : (emit o s).fn i = s.fn i := rfl
@[simp] theorem chan_emit (o : Output) (i : Nat) : (emit o s).chan i = s.chan i := rfl
@[simp] theorem flow_emit (o : Output) (i : Nat) : (emit o s).flow i = s.flow i := rfl
@[simp] theorem fcfg_emit (o : Output) (i : Nat) : (emit o s).fcfg i = s.fcfg i := rfl
@[simp] theorem decS_emit (o : Output) (i : Nat) : (emit o s).decS i = s.decS i := rfl
@[simp] theorem dmcN_emit (o : Output) (i : Nat) : (emit o s).dmcN i = s.dmcN i := rfl
@[simp] theorem rxPort_emit (o : Output) (i : Nat) : (emit o s).rxPort i = s.rxPort i := rfl
@[simp] theorem target_emit (o : Output) (i : Nat) : (emit o s).target i = s.target i := rfl
@[simp] theorem nChan_emit (o : Output) : (emit o s).nChan = s.nChan := rfl
@[simp] theorem nFlow_emit (o : Output) : (emit o s).nFlow = s.nFlow := rfl
@[simp] theorem nEnc_emit (o : Output) : (emit o s).nEnc = s.nEnc := rfl
@[simp] theorem nDec_emit (o : Output) : (emit o s).nDec = s.nDec := rfl
@[simp] theorem nTx_emit (o : Output) : (emit o s).nTx = s.nTx := rfl
@[simp] theorem nDmc_emit (o : Output) : (emit o s).nDmc = s.nDmc := rfl
@[simp] theorem hasVision_emit (o : Output) : (emit o s).hasVision = s.hasVision := rfl
@[simp] theorem ready_emit (o : Output) : (emit o s).ready = s.ready := rfl
@[simp] theorem tickField_emit (o : Output) : (emit o s).tickField = s.tickField := rfl
@[simp] theorem lastBoundary_emit (o : Output) : (emit o s).lastBoundary = s.lastBoundary := rfl

end

/-! ### What an update of one unit of a table reads back -/

section
variable (s : State)

@[simp] theorem fn_modFn_same {f : Nat} (hlt : f < 16) (g : Fn → Fn) : (modFn f g s).fn f = g (s.fn f) := tget_tmod_same _ hlt g
@[simp] theorem fn_modFn_ne {f j : Nat} (hne : f ≠ j) (g : Fn → Fn) : (modFn f g s).fn j = s.fn j := tget_tmod_ne _ hne g
theorem fn_modFn (f j : Nat) (g : Fn → Fn) :
    (modFn f g s).fn j = if f = j ∧ f < 16 then g (s.fn j) else s.fn j := tget_tmod _ _ _ g
theorem modFn_modFn_fuse (f : Nat) (g k : Fn → Fn) : modFn f k (modFn f g s) = modFn f (fun x => k (g x)) s := by
  simp only [modFn, tmod_tmod]

@[simp] theorem chan_modChan_same {c : Nat} (hlt : c < 32) (g : Chan → Chan) : (modChan c g s).chan c = g (s.chan c) := tget_tmod_same _ hlt g
@[simp] theorem chan_modChan_ne {c j : Nat} (hne : c ≠ j) (g : Chan → Chan) : (modChan c g s).chan j = s.chan j := tget_tmod_ne _ hne g
theorem chan_modChan (c j : Nat) (g : Chan → Chan) :
    (modChan c g s).chan j = if c = j ∧ c < 32 then g (s.chan j) else s.chan j := tget_tmod _ _ _ g
theorem modChan_modChan_fuse (c : Nat) (g k : Chan → Chan) : modChan c k (modChan c g s) = modChan c (fun x => k (g x)) s := by
  simp only [modChan, tmod_tmod]

@[simp] theorem flow_modFlow_same {m : Nat} (hlt : m < 256) (g : FlowRun → FlowRun) : (modFlow m g s).flow m = g (s.flow m) := tget_tmod_same _ hlt g
@[simp] theorem flow_modFlow_ne {m j : Nat} (hne : m ≠ j) (g : FlowRun → FlowRun) : (modFlow m g s).flow j = s.flow j := tget_tmod_ne _ hne g
theorem flow_modFlow (m j : Nat) (g : FlowRun → FlowRun) :
    (modFlow m g s).flow j = if m = j ∧ m < 256 then g (s.flow j) else s.flow j := tget_tmod _ _ _ g
theorem modFlow_modFlow_fuse (m : Nat) (g k : FlowRun → FlowRun) : modFlow m k (modFlow m g s) = modFlow m (fun x => k (g x)) s := by
  simp only [modFlow, tmod_tmod]

@[simp] theorem fcfg_modFcfg_same {m : Nat} (hlt : m < 256) (g : FlowCfg → FlowCfg) : (modFcfg m g s).fcfg m = g (s.fcfg m) := tget_tmod_same _ hlt g
@[simp] theorem fcfg_modFcfg_ne {m j : Nat} (hne : m ≠ j) (g : FlowCfg → FlowCfg) : (modFcfg m g s).fcfg j = s.fcfg j := tget_tmod_ne _ hne g
theorem fcfg_modFcfg (m j : Nat) (g : FlowCfg → FlowCfg) :
    (modFcfg m g s).fcfg j = if m = j ∧ m < 256 then g (s.fcfg j) else s.fcfg j := tget_tmod _ _ _ g
theorem modFcfg_modFcfg_fuse (m : Nat) (g k : FlowCfg → FlowCfg) : modFcfg m k (modFcfg m g s) = modFcfg m (fun x => k (g x)) s := by
  simp only [modFcfg, tmod_tmod]

@[simp] theorem decS_modDec_same {u : Nat} (hlt : u < 32) (g : DecStream → DecStream) : (modDec u g s).decS u = g (s.decS u) := tget_tmod_same _ hlt g
@[simp] theorem decS_modDec_ne {u j : Nat} (hne : u ≠ j) (g : DecStream → DecStream) : (modDec u g s).decS j = s.decS j := tget_tmod_ne _ hne g
theorem decS_modDec (u j : Nat) (g : DecStream → DecStream) :
    (modDec u g s).decS j = if u = j ∧ u < 32 then g (s.decS j) else s.decS j := tget_tmod _ _ _ g
theorem modDec_modDec_fuse (u : Nat) (g k : DecStream → DecStream) : modDec u k (modDec u g s) = modDec u (fun x => k (g x)) s := by
  simp only [modDec, tmod_tmod]

@[simp] theorem dmcN_modDmc_same {d : Nat} (hlt : d < 2) (g : Dmc → Dmc) : (modDmc d g s).dmcN d = g (s.dmcN d) := tget_tmod_same _ hlt g
@[simp] theorem dmcN_modDmc_ne {d j : Nat} (hne : d ≠ j) (g : Dmc → Dmc) : (modDmc d g s).dmcN j = s.dmcN j := tget_tmod_ne _ hne g
theorem dmcN_modDmc (d j : Nat) (g : Dmc → Dmc) :
    (modDmc d g s).dmcN j = if d = j ∧ d < 2 then g (s.dmcN j) else s.dmcN j := tget_tmod _ _ _ g
theorem modDmc_modDmc_fuse (d : Nat) (g k : Dmc → Dmc) : modDmc d k (modDmc d g s) = modDmc d (fun x => k (g x)) s := by
  simp only [modDmc, tmod_tmod]

@[simp] theorem rxPort_modRx_same {p : Nat} (hlt : p < 16) (g : RxPort → RxPort) : (modRx p g s).rxPort p = g (s.rxPort p) := tget_tmod_same _ hlt g
@[simp] theorem rxPort_modRx_ne {p j : Nat} (hne : p ≠ j) (g : RxPort → RxPort) : (modRx p g s).rxPort j = s.rxPort j := tget_tmod_ne _ hne g
theorem rxPort_modRx (p j : Nat) (g : RxPort → RxPort) :
    (modRx p g s).rxPort j = if p = j ∧ p < 16 then g (s.rxPort j) else s.rxPort j := tget_tmod _ _ _ g
theorem modRx_modRx_fuse (p : Nat) (g k : RxPort → RxPort) : modRx p k (modRx p g s) = modRx p (fun x => k (g x)) s := by
  simp only [modRx, tmod_tmod]

@[simp] theorem time_modTime (g : TimeBase → TimeBase) : (modTime g s).time = g s.time := rfl
@[simp] theorem modTime_fuse (g k : TimeBase → TimeBase) : modTime k (modTime g s) = modTime (fun x => k (g x)) s := rfl
@[simp] theorem boot_modBoot (g : Boot → Boot) : (modBoot g s).boot = g s.boot := rfl
@[simp] theorem modBoot_fuse (g k : Boot → Boot) : modBoot k (modBoot g s) = modBoot (fun x => k (g x)) s := rfl
@[simp] theorem tarn_modTarn (g : Tarn → Tarn) : (modTarn g s).tarn = g s.tarn := rfl
@[simp] theorem modTarn_fuse (g k : Tarn → Tarn) : modTarn k (modTarn g s) = modTarn (fun x => k (g x)) s := rfl
@[simp] theorem roles_modRoles (g : Roles → Roles) : (modRoles g s).roles = g s.roles := rfl
@[simp] theorem modRoles_fuse (g k : Roles → Roles) : modRoles k (modRoles g s) = modRoles (fun x => k (g x)) s := rfl
@[simp] theorem power_modPower (g : Power → Power) : (modPower g s).power = g s.power := rfl
@[simp] theorem modPower_fuse (g k : Power → Power) : modPower k (modPower g s) = modPower (fun x => k (g x)) s := rfl
@[simp] theorem out_emit (o : Output) : (emit o s).out = o :: s.out := rfl
end

end Sys2Proof.Machine
end

