-- ==== Sys2Proof/Laws/Ops.lean ====
section
/-!
SUPPORT. What the shared operations can do, said once: lengths of encoded fields, the loop over members, events of sources, messages, and
responses.
-/
namespace Sys2Proof.Machine

/-! ### Bytes -/

@[simp] theorem le_length (n v : Nat) : (le n v).length = n := by induction n generalizing v <;> simp_all [le]

@[simp] theorem slice_length (b : List Byte) (o n : Nat) : (slice b o n).length = n := by simp [slice]

@[simp] theorem fit_length (n : Nat) (b : List Byte) : (fit n b).length = n := slice_length b 0 n

@[simp] theorem leInt_length (n : Nat) (v : Int) : (leInt n v).length = n := le_length _ _

/-- A little-endian field reads back what was written, within its width. -/
theorem unle_le (n v : Nat) : unle (le n v) = v % 256 ^ n := by
  induction n generalizing v with
  | zero => simp [le, unle, Nat.mod_one]
  | succ n ih =>
    simp only [le, unle, ih]
    rw [Nat.pow_succ, Nat.mul_comm (256 ^ n) 256, Nat.mod_mul]
    simp [BitVec.toNat_ofNat]

theorem slice_self (b : List Byte) : slice b 0 b.length = b := by simp [slice]

theorem fit_self (b : List Byte) (n : Nat) (h : b.length = n) : fit n b = b := by rw [← h]; exact slice_self b

/-! ### Loops -/

@[simp] theorem forEach_nil {α : Type} (g : α → State → State) (s : State) : forEach [] g s = s := rfl

@[simp] theorem forEach_cons {α : Type} (a : α) (l : List α) (g : α → State → State) (s : State) :
    forEach (a :: l) g s = forEach l g (g a s) := rfl

theorem forEach_append {α : Type} (l k : List α) (g : α → State → State) (s : State) :
    forEach (l ++ k) g s = forEach k g (forEach l g s) := by simp [forEach, List.foldl_append]

/-- What every turn of a loop keeps, the loop keeps. -/
theorem forEach_keeps {α : Type} (P : State → Prop) (l : List α) (g : α → State → State) (s : State) (h : P s)
    (hg : ∀ a ∈ l, ∀ t, P t → P (g a t)) : P (forEach l g s) := by
  induction l generalizing s with
  | nil => exact h
  | cons a r ih => exact ih _ (hg a (by simp) s h) fun b hb => hg b (by simp [hb])

/-- A view of the state that no turn changes. -/
theorem forEach_same {α β : Type} (f : State → β) (l : List α) (g : α → State → State) (s : State)
    (hg : ∀ a ∈ l, ∀ t, f (g a t) = f t) : f (forEach l g s) = f s :=
  forEach_keeps (fun t => f t = f s) l g s rfl fun a ha t ht => (hg a ha t).trans ht

/-- A loop that changes one entry of each of its distinct members, and of each in the same way whatever came before: the channels. -/
theorem forEach_chans (l : List Nat) (g : Nat → Chan → Chan) (s : State) (hl : l.Nodup) :
    forEach l (fun m => modChan m (g m)) s = { s with chans := (forEach l (fun m => modChan m (g m)) s).chans } ∧
    (∀ c, c ∉ l → (forEach l (fun m => modChan m (g m)) s).chan c = s.chan c) ∧
    (∀ c, c ∈ l → c < 32 → (forEach l (fun m => modChan m (g m)) s).chan c = g c (s.chan c)) := by
  induction l generalizing s with
  | nil => exact ⟨rfl, fun _ _ => rfl, fun _ h => by cases h⟩
  | cons a r ih =>
    obtain ⟨ha, hr⟩ := List.nodup_cons.mp hl
    obtain ⟨h1, h2, h3⟩ := ih (modChan a (g a) s) hr
    simp only [forEach_cons]
    refine ⟨?_, ?_, ?_⟩
    · rw [h1]; rfl
    · intro c hc
      rw [List.mem_cons, not_or] at hc
      rw [h2 c hc.2]
      exact tget_tmod_ne _ (Ne.symm hc.1) _
    · intro c hc hlt
      rcases List.mem_cons.mp hc with rfl | hc
      · rw [h2 c ha]; exact tget_tmod_same _ hlt _
      · rw [h3 c hc hlt]
        have : a ≠ c := fun e => ha (e ▸ hc)
        show g c (tget (tmod s.chans a (g a)) c) = _
        rw [tget_tmod_ne _ this]; rfl

/-- The same of the flows' configuration. -/
theorem forEach_fcfgs (l : List Nat) (g : Nat → FlowCfg → FlowCfg) (s : State) (hl : l.Nodup) :
    forEach l (fun m => modFcfg m (g m)) s = { s with flowCfg := (forEach l (fun m => modFcfg m (g m)) s).flowCfg } ∧
    (∀ c, c ∉ l → (forEach l (fun m => modFcfg m (g m)) s).fcfg c = s.fcfg c) ∧
    (∀ c, c ∈ l → c < 256 → (forEach l (fun m => modFcfg m (g m)) s).fcfg c = g c (s.fcfg c)) := by
  induction l generalizing s with
  | nil => exact ⟨rfl, fun _ _ => rfl, fun _ h => by cases h⟩
  | cons a r ih =>
    obtain ⟨ha, hr⟩ := List.nodup_cons.mp hl
    obtain ⟨h1, h2, h3⟩ := ih (modFcfg a (g a) s) hr
    simp only [forEach_cons]
    refine ⟨?_, ?_, ?_⟩
    · rw [h1]; rfl
    · intro c hc
      rw [List.mem_cons, not_or] at hc
      rw [h2 c hc.2]
      exact tget_tmod_ne _ (Ne.symm hc.1) _
    · intro c hc hlt
      rcases List.mem_cons.mp hc with rfl | hc
      · rw [h2 c ha]; exact tget_tmod_same _ hlt _
      · rw [h3 c hc hlt]
        have : a ≠ c := fun e => ha (e ▸ hc)
        show g c (tget (tmod s.flowCfg a (g a)) c) = _
        rw [tget_tmod_ne _ this]; rfl

/-- R114. The members of a selector are distinct, and within the table. -/
theorem selMembers_nodup (s : State) (k : Sel) (f : Nat) (q : Request) : (selMembers s k f q).Nodup := by
  unfold selMembers
  cases k <;> simp only
  · exact List.nodup_nil
  all_goals
    split
    · exact List.nodup_singleton _
    · split
      · first | exact List.nodup_range | exact List.nodup_range.filter _
      · exact List.nodup_range.filter _

/-! ### Messages, sources and responses -/

/-- R149. A message is sent, or held by its function. -/
theorem sendMsix_eq (f v : Nat) (s : State) : sendMsix f v s = { s with fns := (sendMsix f v s).fns, out := (sendMsix f v s).out } := by
  unfold sendMsix; split <;> rfl

/-- R143, R149. What a change of SIGNAL can do: the target's SIGNAL, and a message or a held one. -/
theorem resignal_eq (t : Nat) (s : State) : resignal t s =
    { s with irq := { s.irq with tgt := (resignal t s).irq.tgt }, fns := (resignal t s).fns, out := (resignal t s).out } := by
  unfold resignal
  split
  · rfl
  · simp only
    split
    · rw [sendMsix_eq]; rfl
    · rfl

/-- R131, R135. What an event of a source can do. -/
theorem raise_eq (n bit : Nat) (s : State) : raise n bit s =
    { s with irq := (raise n bit s).irq, fns := (raise n bit s).fns, out := (raise n bit s).out } := by
  unfold raise
  split
  · simp only
    split
    · rw [resignal_eq]; rfl
    · rfl
  · rfl

/-- A message leaves every mailbox and its queues as they are. -/
theorem sendMsix_queues (f v g : Nat) (s : State) : ((sendMsix f v s).fn g).reqQ = (s.fn g).reqQ ∧ ((sendMsix f v s).fn g).rspQ = (s.fn g).rspQ
    ∧ ((sendMsix f v s).fn g).cache = (s.fn g).cache ∧ ((sendMsix f v s).fn g).session = (s.fn g).session := by
  unfold sendMsix
  split
  · show (tget (tmod s.fns f _) g).reqQ = _ ∧ (tget (tmod s.fns f _) g).rspQ = _ ∧ (tget (tmod s.fns f _) g).cache = _ ∧ (tget (tmod s.fns f _) g).session = _
    rw [tget_tmod]
    split <;> exact ⟨rfl, rfl, rfl, rfl⟩
  · exact ⟨rfl, rfl, rfl, rfl⟩

/-- R87, R89, R90. What posting a final response can do. -/
theorem postFinal_eq (f : Nat) (e : Entry) (r : Response) (s : State) : postFinal f e r s =
    { s with fns := (postFinal f e r s).fns, out := (postFinal f e r s).out } := by
  unfold postFinal post
  simp only
  split
  · rw [sendMsix_eq]; rfl
  · rfl

theorem answer_eq (f : Nat) (e : Entry) (st : Byte) (pay : List Byte) (s : State) : answer f e st pay s =
    { s with fns := (answer f e st pay s).fns, out := (answer f e st pay s).out } := postFinal_eq _ _ _ _

/-- R87, R90. The response is at the tail of the queue and at the head of the cache. -/
theorem postFinal_fn {f : Nat} (hf : f < 16) (e : Entry) (r : Response) (s : State) :
    ((postFinal f e r s).fn f).rspQ = (s.fn f).rspQ ++ [r] ∧ ((postFinal f e r s).fn f).cache = cacheAdd e r (s.fn f).cache ∧
    ((postFinal f e r s).fn f).reqQ = (s.fn f).reqQ ∧ ((postFinal f e r s).fn f).session = (s.fn f).session := by
  have k : ∀ t : State, ((modFn f (fun y => { y with cache := cacheAdd e r y.cache }) t).fn f) = { t.fn f with cache := cacheAdd e r (t.fn f).cache } :=
    fun t => tget_tmod_same _ hf _
  have l : (modFn f (fun y => { y with rspQ := y.rspQ ++ [r] }) s).fn f = { s.fn f with rspQ := (s.fn f).rspQ ++ [r] } := tget_tmod_same _ hf _
  unfold postFinal post
  simp only
  rw [k]
  split
  · obtain ⟨a, b, c, d⟩ := sendMsix_queues f 1 f (modFn f (fun y => { y with rspQ := y.rspQ ++ [r] }) s)
    simp only [a, b, c, d, l, and_self]
  · simp only [l, and_self]

/-- No other mailbox changes. -/
theorem postFinal_other {f g : Nat} (h : g ≠ f) (e : Entry) (r : Response) (s : State) : (postFinal f e r s).fn g = s.fn g := by
  have k : ∀ (u : Fn → Fn) (t : State), (modFn f u t).fn g = t.fn g := fun u t => tget_tmod_ne _ (Ne.symm h) _
  unfold postFinal post
  simp only
  rw [k]
  split
  · unfold sendMsix
    split
    · rw [k, k]
    · exact k _ s
  · exact k _ s

/-- R87, R99. A request in execution ends: it leaves the list, and only the mailboxes change besides. -/
theorem finishAt_eq (x : ExecEntry) (st : Byte) (tick : Long) (pay : List Byte) (s : State) : finishAt x st tick pay s =
    { s with exec := s.exec.erase x, fns := (finishAt x st tick pay s).fns, out := (finishAt x st tick pay s).out } := by
  unfold finishAt
  simp only
  split
  · rfl
  · rw [postFinal_eq]

end Sys2Proof.Machine
end

