-- ==== Sys2Proof/Laws/Command.lean ====
section
/-!
SUPPORT. What a command of the host can do: it is read and executed, and then answered or waits. The lemmas that claims about
commands cite in place of unfolding `command`, `serve`, `execute` and `settle`.
-/
namespace Sys2Proof.Machine

/-- Every opcode's code names it. -/
theorem ofCode_entry (o : Op) (q : Request) : Op.ofCode (o.entry q).opcode.toNat = some o := by cases o <;> rfl

/-- A request that is served is executed. -/
theorem command_served {o : Op} {f : Nat} {q : Request} {s : State} (h : served o f q s = true) :
    command o f q s = execute (ctxOf o f q s) (o.entry q) (atMailbox f s) := by
  simp only [served, Bool.and_eq_true, Option.isNone_iff_eq_none] at h
  obtain ⟨⟨⟨⟨⟨hp, hr⟩, hs⟩, ht⟩, hc⟩, -⟩ := h
  have e : (⟨BitVec.ofNat 16 o.info.code, q⟩ : Entry) = o.entry q := rfl
  have hc' : refusal (atMailbox f s) (contextOf (atMailbox f s) f o (o.entry q).req) = none := hc
  simp only [command, hp, hr, hs, Bool.not_true, Bool.false_eq_true, if_false, Bool.and_self, if_true, e]
  show serve f (o.entry q) (atMailbox f s) = _
  simp only [serve, ht, ofCode_entry, hc']
  rfl

/-- The request of a served command is not among those in execution. -/
theorem fresh_request {o : Op} {f : Nat} {q : Request} {s : State} (h : served o f q s = true) (w : Wait) :
    inExecution o f q w s ∉ s.exec := by
  simp only [served, Bool.and_eq_true, Option.isNone_iff_eq_none] at h
  obtain ⟨⟨⟨-, ht⟩, -⟩, -⟩ := h
  intro hm
  simp only [tagAnswer] at ht
  split at ht
  · cases ht
  · split at ht
    · cases ht
    · split at ht
      · cases ht
      · split at ht
        · rename_i hr
          simp only [Bool.and_eq_true, List.isEmpty_iff, List.filter_eq_nil_iff] at hr
          exact absurd (hr.1 _ hm) (by simp [inExecution, newExec, ctxOf, contextOf, Op.entry])
        · cases ht

/-- What execution of a served command does when its meaning ends at once. -/
theorem command_done {o : Op} {f : Nat} {q : Request} {s t : State} {st : Byte} {pay : List Byte} (h : served o f q s = true)
    (hn : st ≠ St.internal ∨ o.info.timing ≠ .nextTick)
    (hr : o.behaviour.run (ctxOf o f q s) (atMailbox f s) = (.done st pay, t)) (he : t.exec = s.exec) :
    command o f q s = replied o f q st pay t := by
  have hd : (s.boot.degraded && !runsDegraded o) = false := by
    simp only [served, Bool.and_eq_true] at h
    have := h.2
    revert this
    cases s.boot.degraded <;> cases runsDegraded o <;> simp
  have hf := fresh_request h .tick
  rw [command_served h]
  have hop : (ctxOf o f q s).op = o := rfl
  have hb : (atMailbox f s).boot = s.boot := rfl
  have hst : stepTwelve (ctxOf o f q s) (atMailbox f s) (.done st pay, t) = (.done st pay, t) := by
    simp only [stepTwelve, hop]
    rcases hn with hn | hn
    · simp [hn]
    · have : (o.info.timing == Timing.nextTick) = false := by simpa using hn
      simp [this]
  simp only [execute, hop, hb, hd, Bool.false_eq_true, if_false, hr, hst, settle, finish, finishAt]
  have hx : newExec (ctxOf o f q s) (o.entry q) = inExecution o f q .tick s := rfl
  have hdead : (newExec (ctxOf o f q s) (o.entry q)).dead = false := rfl
  have her : (t.exec ++ [newExec (ctxOf o f q s) (o.entry q)]).erase (newExec (ctxOf o f q s) (o.entry q)) = t.exec := by
    rw [hx, he, List.erase_append_right _ hf]
    simp
  simp only [her, hdead, Bool.false_eq_true, if_false]
  rfl

/-- The new request, replaced where it stands at the end of the list. -/
theorem updExec_last {x y : ExecEntry} {t : State} (h : x ∉ t.exec) : updExec x y { t with exec := t.exec ++ [x] } = { t with exec := t.exec ++ [y] } := by
  have e : (t.exec.map fun z => if z = x then y else z) = t.exec := by
    conv => rhs; rw [← List.map_id t.exec]
    refine List.map_congr_left fun z hz => ?_
    rw [if_neg (by rintro rfl; exact h hz)]; rfl
  simp [updExec, e]

theorem not_degraded {o : Op} {f : Nat} {q : Request} {s : State} (h : served o f q s = true) : (s.boot.degraded && !runsDegraded o) = false := by
  simp only [served, Bool.and_eq_true] at h
  have := h.2
  revert this
  cases s.boot.degraded <;> cases runsDegraded o <;> simp

/-- What execution of a served command does when its meaning waits for something other than a boundary or the TRNG. -/
theorem command_wait {o : Op} {f : Nat} {q : Request} {s t : State} {w : Wait} (h : served o f q s = true)
    (hr : o.behaviour.run (ctxOf o f q s) (atMailbox f s) = (.wait w, t)) (hw : w ≠ .tick) (hn : ∀ k d, w ≠ .entropy k d)
    (he : t.exec = s.exec) (ht : t.time.elapsed = s.time.elapsed) : command o f q s = waiting o f q w s t := by
  have hf := fresh_request h .tick
  rw [command_served h]
  have hst : stepTwelve (ctxOf o f q s) (atMailbox f s) (.wait w, t) = (.wait w, t) := by
    cases w <;> first | rfl | exact absurd rfl hw
  have hx : newExec (ctxOf o f q s) (o.entry q) = inExecution o f q .tick s := rfl
  simp only [execute, show (ctxOf o f q s).op = o from rfl, show (atMailbox f s).boot = s.boot from rfl, not_degraded h, Bool.false_eq_true, if_false,
    hr, hst, settle, hx]
  have hs : (if w.restarts = true then t.time.elapsed else (inExecution o f q .tick s).since) = s.time.elapsed := by
    split
    · exact ht
    · rfl
  simp only [hs]
  have := updExec_last (y := { inExecution o f q .tick s with wait := w, since := s.time.elapsed }) (t := t) (he ▸ hf)
  rw [this]
  cases w <;> rfl

/-- R444. A meaning that waits for the TRNG waits where the released output does not reach. -/
theorem command_entropy {o : Op} {f : Nat} {q : Request} {s t : State} {k : Nat} {d : List Byte} (h : served o f q s = true)
    (hr : o.behaviour.run (ctxOf o f q s) (atMailbox f s) = (.wait (.entropy k d), t)) (he : t.exec = s.exec)
    (hn : takeEntropy k (waiting o f q (.entropy k d) s t) = none) : command o f q s = waiting o f q (.entropy k d) s t := by
  have hf := fresh_request h .tick
  rw [command_served h]
  have hx : newExec (ctxOf o f q s) (o.entry q) = inExecution o f q .tick s := rfl
  have hst : stepTwelve (ctxOf o f q s) (atMailbox f s) (.wait (.entropy k d), t) = (.wait (.entropy k d), t) := rfl
  simp only [execute, show (ctxOf o f q s).op = o from rfl, show (atMailbox f s).boot = s.boot from rfl, not_degraded h, Bool.false_eq_true, if_false,
    hr, hst, settle, hx, Wait.restarts]
  have hu := updExec_last (y := { inExecution o f q .tick s with wait := .entropy k d, since := (inExecution o f q .tick s).since }) (t := t) (he ▸ hf)
  rw [hu]
  have : takeEntropy k { t with exec := t.exec ++ [{ inExecution o f q .tick s with wait := .entropy k d, since := (inExecution o f q .tick s).since }] } = none := hn
  rw [this]
  rfl

/-- R63, R64, R108. What execution of a next-tick command does: admitted, it waits for its boundary with its books made. -/
theorem command_admitted {o : Op} {f : Nat} {q : Request} {s t : State} {b : Books} (h : passes o f q s b)
    (hr : o.behaviour.run (ctxOf o f q s) (atMailbox f s) = (.wait .tick, t)) (he : t.exec = s.exec) (ht : t.time.elapsed = s.time.elapsed) :
    command o f q s = waiting o f q .tick s (withBooks b t) := by
  have hf := fresh_request h.1 .tick
  rw [command_served h.1]
  have hst : stepTwelve (ctxOf o f q s) (atMailbox f s) (.wait .tick, t) = (.wait .tick, withBooks b t) := by
    simp only [stepTwelve, h.2]
  have hx : newExec (ctxOf o f q s) (o.entry q) = inExecution o f q .tick s := rfl
  simp only [execute, show (ctxOf o f q s).op = o from rfl, show (atMailbox f s).boot = s.boot from rfl, not_degraded h.1, Bool.false_eq_true, if_false,
    hr, hst, settle, hx]
  have hs : (if Wait.tick.restarts = true then (withBooks b t).time.elapsed else (inExecution o f q .tick s).since) = s.time.elapsed := ht
  simp only [hs]
  have := updExec_last (y := { inExecution o f q .tick s with wait := .tick, since := s.time.elapsed }) (t := withBooks b t) (show _ ∉ t.exec from he ▸ hf)
  rw [this]
  rfl

/-- R63, R419. Not admitted, it is answered ADMISSION and has no other effect. -/
theorem command_turned_away {o : Op} {f : Nat} {q : Request} {s t : State} (h : served o f q s = true)
    (ha : admission (atMailbox f s) (ctxOf o f q s) = none)
    (hr : o.behaviour.run (ctxOf o f q s) (atMailbox f s) = (.wait .tick, t)) : command o f q s = replied o f q St.admission [] (atMailbox f s) := by
  have hf := fresh_request h .tick
  rw [command_served h]
  have hst : stepTwelve (ctxOf o f q s) (atMailbox f s) (.wait .tick, t) = (.done St.admission [], atMailbox f s) := by
    simp only [stepTwelve, ha]
  have hx : newExec (ctxOf o f q s) (o.entry q) = inExecution o f q .tick s := rfl
  simp only [execute, show (ctxOf o f q s).op = o from rfl, show (atMailbox f s).boot = s.boot from rfl, not_degraded h, Bool.false_eq_true, if_false,
    hr, hst, settle, finish, finishAt, hx, show (inExecution o f q .tick s).dead = false from rfl]
  have her : ((atMailbox f s).exec ++ [inExecution o f q .tick s]).erase (inExecution o f q .tick s) = s.exec := by
    rw [List.erase_append_right _ (show _ ∉ (atMailbox f s).exec from hf)]
    simp [atMailbox]
  simp only [her]
  rfl

/-- R108, R110. At its boundary a pending command makes its effect. -/
theorem takesEffect_of (o : Op) (f : Nat) (q : Request) (s u : State) :
    takesEffect (inExecution o f q .tick s) u (o.behaviour.effect (ctxOf o f q s) u) := by
  unfold takesEffect atBoundary takeEffects
  rw [forEach_cons, forEach_nil]
  have : Op.ofCode (inExecution o f q .tick s).entry.opcode.toNat = some o := ofCode_entry o q
  simp only [this]
  rfl

/-- The members of a request are distinct. -/
theorem members_nodup (o : Op) (f : Nat) (q : Request) (s : State) : (ctxOf o f q s).members.Nodup := selMembers_nodup _ _ _ _

end Sys2Proof.Machine
end

