-- ==== Sys2Proof/Laws/Memory.lean ====
section
/-!
SUPPORT. Memory contents: what a read gives after a write, and that every operation keeps the canonical form.
-/
namespace Sys2Proof.Machine

/-! ### The canonical form -/

/-- Every entry of a list stands above an address. -/
def above (a : Nat) (m : List Host.Cell) : Prop := ∀ p ∈ m, a < p.1

theorem above_nil (a : Nat) : above a [] := by simp [above]

theorem above_of_le {a b : Nat} {m : List Host.Cell} (h : above b m) (hab : a ≤ b) : above a m :=
  fun p hp => Nat.lt_of_le_of_lt hab (h p hp)

/-- The canonical form, entry by entry. -/
theorem wf_cons {k : Nat} {v : Byte} {m : List Host.Cell} : Memory.wf ((k, v) :: m) = true ↔ v ≠ 0 ∧ above k m ∧ Memory.wf m = true := by
  induction m generalizing k v with
  | nil => simp [Memory.wf, above_nil]
  | cons q r ih =>
    obtain ⟨l, w⟩ := q
    have hr := @ih l w
    constructor
    · intro h
      simp only [Memory.wf, Bool.and_eq_true, bne_iff_ne, decide_eq_true_eq] at h
      obtain ⟨⟨hv, hkl⟩, hm⟩ := h
      refine ⟨hv, ?_, hm⟩
      intro p hp
      rcases List.mem_cons.mp hp with rfl | hp
      · exact hkl
      · exact Nat.lt_trans hkl ((hr.mp hm).2.1 p hp)
    · rintro ⟨hv, ha, hm⟩
      simp only [Memory.wf, Bool.and_eq_true, bne_iff_ne, decide_eq_true_eq]
      exact ⟨⟨hv, ha (l, w) (by simp)⟩, hm⟩

theorem memGet_above {a : Nat} {m : List Host.Cell} (h : above a m) : memGet m a = 0 := by
  induction m with
  | nil => rfl
  | cons q r ih =>
    have hq := h q (by simp)
    rw [memGet, if_neg (by omega)]
    exact ih fun p hp => h p (List.mem_cons_of_mem _ hp)

theorem above_memSet {a k : Nat} {b : Byte} {m : List Host.Cell} (h : above k m) (hka : k < a) : above k (memSet a b m) := by
  induction m with
  | nil =>
    intro p hp
    rw [memSet] at hp
    split at hp
    · cases hp
    · rw [List.mem_singleton.mp hp]; exact hka
  | cons q r ih =>
    have hq := h q (by simp)
    have hr : above k r := fun p hp => h p (List.mem_cons_of_mem _ hp)
    intro p hp
    rw [memSet] at hp
    split at hp
    · split at hp
      · exact h p hp
      · rcases List.mem_cons.mp hp with rfl | hp
        · exact hka
        · exact h p hp
    · split at hp
      · split at hp
        · exact hr p hp
        · rcases List.mem_cons.mp hp with rfl | hp
          · exact hka
          · exact hr p hp
      · rcases List.mem_cons.mp hp with rfl | hp
        · exact hq
        · exact ih hr p hp

/-- Writing one byte keeps the canonical form. -/
theorem memSet_wf {a : Nat} {b : Byte} {m : List Host.Cell} (h : Memory.wf m = true) : Memory.wf (memSet a b m) = true := by
  induction m with
  | nil => rw [memSet]; split <;> simp_all [Memory.wf]
  | cons q r ih =>
    obtain ⟨k, v⟩ := q
    obtain ⟨hv, ha, hr⟩ := wf_cons.mp h
    rw [memSet]
    split
    · rename_i hak
      split
      · exact h
      · rename_i hb
        exact wf_cons.mpr ⟨hb, fun p hp => (List.mem_cons.mp hp).elim (fun e => by rw [e]; exact hak) fun e => Nat.lt_trans hak (ha p e), h⟩
    · split
      · rename_i e
        split
        · exact hr
        · rename_i hb
          exact wf_cons.mpr ⟨hb, by rw [e]; exact ha, hr⟩
      · exact wf_cons.mpr ⟨hv, above_memSet ha (by omega), ih hr⟩

/-- Writing a string of bytes keeps it. -/
theorem memWrite_wf {data : List Byte} : ∀ {a : Nat} {m : List Host.Cell}, Memory.wf m = true → Memory.wf (memWrite a data m) = true := by
  induction data with
  | nil => exact fun h => h
  | cons b bs ih => exact fun h => ih (memSet_wf h)

/-- Draining any entries of a write buffer keeps it. -/
theorem drain_wf (l : List WbEntry) {m : List Host.Cell} (h : Memory.wf m = true) :
    Memory.wf (l.foldl (fun m e => memWrite e.addr e.data m) m) = true := by
  induction l generalizing m with
  | nil => exact h
  | cons e r ih => exact ih (memWrite_wf h)

/-! ### Reading after writing -/

theorem memGet_memSet {a x : Nat} {b : Byte} {m : List Host.Cell} (h : Memory.wf m = true) :
    memGet (memSet a b m) x = if x = a then b else memGet m x := by
  induction m with
  | nil => rw [memSet]; split <;> rename_i hb <;> by_cases hx : x = a <;> simp [memGet, hx, hb]
  | cons q r ih =>
    obtain ⟨k, v⟩ := q
    obtain ⟨hv, ha, hr⟩ := wf_cons.mp h
    rw [memSet]
    split
    · rename_i hak
      split
      · rename_i hb
        by_cases hx : x = a
        · have : above a ((k, v) :: r) := fun p hp => (List.mem_cons.mp hp).elim (fun e => by rw [e]; exact hak) fun e => Nat.lt_trans hak (ha p e)
          rw [if_pos hx, hx, hb]; exact memGet_above this
        · rw [if_neg hx]
      · conv => lhs; rw [memGet]
    · split
      · rename_i e
        split
        · rename_i hb
          by_cases hx : x = a
          · rw [if_pos hx, hx, hb]
            exact memGet_above (by rw [e]; exact ha)
          · rw [if_neg hx, memGet, if_neg (by omega)]
        · rw [memGet, memGet]
          by_cases hx : x = a
          · rw [if_pos hx, if_pos hx]
          · rw [if_neg hx, if_neg hx, if_neg (by omega)]
      · rw [memGet, memGet, ih hr]
        by_cases hk : x = k
        · rw [if_pos hk, if_pos hk, if_neg (by omega)]
        · rw [if_neg hk, if_neg hk]

/-- After a string of bytes is written, its bytes read as written, and no other byte has changed. -/
theorem memGet_memWrite {data : List Byte} : ∀ {a x : Nat} {m : List Host.Cell}, Memory.wf m = true →
    memGet (memWrite a data m) x = if a ≤ x ∧ x < a + data.length then (data[x - a]?).getD 0 else memGet m x := by
  induction data with
  | nil => intro a x m _; rw [if_neg (by simp)]; rfl
  | cons b bs ih =>
    intro a x m h
    show memGet (memWrite (a + 1) bs (memSet a b m)) x = _
    rw [ih (memSet_wf h), memGet_memSet h]
    by_cases h0 : x = a
    · subst h0
      rw [if_neg (by omega), if_pos rfl, if_pos ⟨Nat.le_refl _, by simp⟩]
      simp
    · by_cases h1 : a + 1 ≤ x ∧ x < a + 1 + bs.length
      · rw [if_pos h1, if_pos ⟨by omega, by simp only [List.length_cons]; omega⟩]
        obtain ⟨n, rfl⟩ : ∃ n, x = a + 1 + n := ⟨x - (a + 1), by omega⟩
        have e1 : a + 1 + n - (a + 1) = n := by omega
        have e2 : a + 1 + n - a = n + 1 := by omega
        rw [e1, e2, List.getElem?_cons_succ]
      · rw [if_neg h1, if_neg h0, if_neg (by simp only [List.length_cons]; omega)]

/-- Contents in canonical form that read alike are the same list. -/
theorem wf_ext : ∀ {m n : List Host.Cell}, Memory.wf m = true → Memory.wf n = true → (∀ a, memGet m a = memGet n a) → m = n := by
  intro m
  induction m with
  | nil =>
    intro n _ hn h
    match n with
    | [] => rfl
    | (k, v) :: r =>
      have := h k
      rw [memGet, memGet, if_pos rfl] at this
      exact absurd this.symm (wf_cons.mp hn).1
  | cons q r ih =>
    intro n hm hn h
    obtain ⟨k, v⟩ := q
    obtain ⟨hv, ha, hr⟩ := wf_cons.mp hm
    match n with
    | [] =>
      have := h k
      rw [memGet, memGet, if_pos rfl] at this
      exact absurd this hv
    | (l, w) :: t =>
      obtain ⟨hw, hb, ht⟩ := wf_cons.mp hn
      have hk := h k
      have hl := h l
      rw [memGet, memGet, if_pos rfl] at hk
      rw [memGet, memGet, if_pos rfl] at hl
      have e : k = l := by
        rcases Nat.lt_trichotomy k l with c | c | c
        · rw [if_neg (by omega), memGet_above (above_of_le hb (Nat.le_of_lt c))] at hk
          exact absurd hk hv
        · exact c
        · rw [if_neg (by omega), memGet_above (above_of_le ha (Nat.le_of_lt c))] at hl
          exact absurd hl.symm hw
      subst e
      rw [if_pos rfl] at hk
      subst hk
      rw [ih hr ht fun a => ?_]
      by_cases c : a = k
      · subst c; rw [memGet_above ha, memGet_above hb]
      · have := h a
        rwa [memGet, memGet, if_neg c, if_neg c] at this

/-! ### The controllers -/

/-- R394. Reset lists nothing. -/
theorem reset_memory (d : Nat) : (State.reset.dmcN d).memory = [] := by
  by_cases h : d < 2
  · rcases (by omega : d = 0 ∨ d = 1) with rfl | rfl <;> rfl
  · have : State.reset.dmcN d = default := by simp [State.dmcN, tget, Vector.getElem?_eq_none (by omega : 2 ≤ d)]
    rw [this]; rfl

end Sys2Proof.Machine
end

