-- ==== Sys2Proof/Laws/PerInstr.lean ====
section
/-!
SUPPORT. For every command: its flaw is the first check that fails, and it is well-formed exactly where it has none.
-/
namespace Sys2Proof.Laws.Checked

/-- The command is well-formed exactly where no flaw is named; a flaw that is named is that of a check that fails. -/
def Statement (i : Instr) : Prop := (i.wf = true ↔ i.flaw = none) ∧ ∀ e, i.flaw = some e → (false, e) ∈ i.checks

theorem of_checks (i : Instr) : Statement i := by
  constructor
  · simp [Instr.wf, Instr.flaw, List.find?_eq_none]
  · intro e h
    simp only [Instr.flaw, Option.map_eq_some_iff] at h
    obtain ⟨⟨b, k⟩, hf, rfl⟩ := h
    have hb := List.find?_some hf
    have hm := List.mem_of_find?_eq_some hf
    cases b <;> simp_all

theorem sysNop (f : Nat) (q : Request) : Statement (.sysNop f q) := of_checks _
theorem sysCaps (f : Nat) (q : Request) : Statement (.sysCaps f q) := of_checks _
theorem sysReset (f : Nat) (q : Request) : Statement (.sysReset f q) := of_checks _
theorem sysGroupSet (f : Nat) (q : Request) : Statement (.sysGroupSet f q) := of_checks _
theorem sysFgroupSet (f : Nat) (q : Request) : Statement (.sysFgroupSet f q) := of_checks _
theorem sysGroupGet (f : Nat) (q : Request) : Statement (.sysGroupGet f q) := of_checks _
theorem sysConfigSave (f : Nat) (q : Request) : Statement (.sysConfigSave f q) := of_checks _
theorem chanPortSet (f : Nat) (q : Request) : Statement (.chanPortSet f q) := of_checks _
theorem chanBind (f : Nat) (q : Request) : Statement (.chanBind f q) := of_checks _
theorem chanStart (f : Nat) (q : Request) : Statement (.chanStart f q) := of_checks _
theorem chanStop (f : Nat) (q : Request) : Statement (.chanStop f q) := of_checks _
theorem chanSensorSet (f : Nat) (q : Request) : Statement (.chanSensorSet f q) := of_checks _
theorem chanQuery (f : Nat) (q : Request) : Statement (.chanQuery f q) := of_checks _
theorem chanPipeSet (f : Nat) (q : Request) : Statement (.chanPipeSet f q) := of_checks _
theorem chanWindowSet (f : Nat) (q : Request) : Statement (.chanWindowSet f q) := of_checks _
theorem chanWindowClear (f : Nat) (q : Request) : Statement (.chanWindowClear f q) := of_checks _
theorem chanLutLoad (f : Nat) (q : Request) : Statement (.chanLutLoad f q) := of_checks _
theorem encStreamSet (f : Nat) (q : Request) : Statement (.encStreamSet f q) := of_checks _
theorem encHrdSet (f : Nat) (q : Request) : Statement (.encHrdSet f q) := of_checks _
theorem encRateSet (f : Nat) (q : Request) : Statement (.encRateSet f q) := of_checks _
theorem encQpSet (f : Nat) (q : Request) : Statement (.encQpSet f q) := of_checks _
theorem encRefreshSet (f : Nat) (q : Request) : Statement (.encRefreshSet f q) := of_checks _
theorem encMotionSet (f : Nat) (q : Request) : Statement (.encMotionSet f q) := of_checks _
theorem encGeometrySet (f : Nat) (q : Request) : Statement (.encGeometrySet f q) := of_checks _
theorem encEgoUpdate (f : Nat) (q : Request) : Statement (.encEgoUpdate f q) := of_checks _
theorem encLtrRecover (f : Nat) (q : Request) : Statement (.encLtrRecover f q) := of_checks _
theorem encForceIdr (f : Nat) (q : Request) : Statement (.encForceIdr f q) := of_checks _
theorem encQuery (f : Nat) (q : Request) : Statement (.encQuery f q) := of_checks _
theorem decOpen (f : Nat) (q : Request) : Statement (.decOpen f q) := of_checks _
theorem decFeed (f : Nat) (q : Request) : Statement (.decFeed f q) := of_checks _
theorem decOutputSet (f : Nat) (q : Request) : Statement (.decOutputSet f q) := of_checks _
theorem decClose (f : Nat) (q : Request) : Statement (.decClose f q) := of_checks _
theorem decQuery (f : Nat) (q : Request) : Statement (.decQuery f q) := of_checks _
theorem flowAttach (f : Nat) (q : Request) : Statement (.flowAttach f q) := of_checks _
theorem flowRouteSet (f : Nat) (q : Request) : Statement (.flowRouteSet f q) := of_checks _
theorem flowTemplateSet (f : Nat) (q : Request) : Statement (.flowTemplateSet f q) := of_checks _
theorem flowRateSet (f : Nat) (q : Request) : Statement (.flowRateSet f q) := of_checks _
theorem flowWeightSet (f : Nat) (q : Request) : Statement (.flowWeightSet f q) := of_checks _
theorem flowStart (f : Nat) (q : Request) : Statement (.flowStart f q) := of_checks _
theorem flowStop (f : Nat) (q : Request) : Statement (.flowStop f q) := of_checks _
theorem flowRingSet (f : Nat) (q : Request) : Statement (.flowRingSet f q) := of_checks _
theorem flowStats (f : Nat) (q : Request) : Statement (.flowStats f q) := of_checks _
theorem flowCryptSet (f : Nat) (q : Request) : Statement (.flowCryptSet f q) := of_checks _
theorem memMapQuery (f : Nat) (q : Request) : Statement (.memMapQuery f q) := of_checks _
theorem memPoolQuery (f : Nat) (q : Request) : Statement (.memPoolQuery f q) := of_checks _
theorem memErrQuery (f : Nat) (q : Request) : Statement (.memErrQuery f q) := of_checks _
theorem tarnIdGet (f : Nat) (q : Request) : Statement (.tarnIdGet f q) := of_checks _
theorem tarnRandom (f : Nat) (q : Request) : Statement (.tarnRandom f q) := of_checks _
theorem tarnSign (f : Nat) (q : Request) : Statement (.tarnSign f q) := of_checks _
theorem tarnVerify (f : Nat) (q : Request) : Statement (.tarnVerify f q) := of_checks _
theorem tarnNodeQuery (f : Nat) (q : Request) : Statement (.tarnNodeQuery f q) := of_checks _
theorem tarnNodeInvalidate (f : Nat) (q : Request) : Statement (.tarnNodeInvalidate f q) := of_checks _
theorem tarnPubkeyGet (f : Nat) (q : Request) : Statement (.tarnPubkeyGet f q) := of_checks _
theorem roleChallenge (f : Nat) (q : Request) : Statement (.roleChallenge f q) := of_checks _
theorem roleOpen (f : Nat) (q : Request) : Statement (.roleOpen f q) := of_checks _
theorem roleClose (f : Nat) (q : Request) : Statement (.roleClose f q) := of_checks _
theorem roleUpdate (f : Nat) (q : Request) : Statement (.roleUpdate f q) := of_checks _
theorem roleAuditRead (f : Nat) (q : Request) : Statement (.roleAuditRead f q) := of_checks _
theorem roleCounterGet (f : Nat) (q : Request) : Statement (.roleCounterGet f q) := of_checks _
theorem seqImageLoad (f : Nat) (q : Request) : Statement (.seqImageLoad f q) := of_checks _
theorem seqPatchApply (f : Nat) (q : Request) : Statement (.seqPatchApply f q) := of_checks _
theorem seqHookSet (f : Nat) (q : Request) : Statement (.seqHookSet f q) := of_checks _
theorem seqQuery (f : Nat) (q : Request) : Statement (.seqQuery f q) := of_checks _
theorem pwrDvfsSet (f : Nat) (q : Request) : Statement (.pwrDvfsSet f q) := of_checks _
theorem pwrDomainSet (f : Nat) (q : Request) : Statement (.pwrDomainSet f q) := of_checks _
theorem pwrSelfRefresh (f : Nat) (q : Request) : Statement (.pwrSelfRefresh f q) := of_checks _
theorem pwrQuery (f : Nat) (q : Request) : Statement (.pwrQuery f q) := of_checks _
theorem headPair (f : Nat) (q : Request) : Statement (.headPair f q) := of_checks _
theorem headUnpair (f : Nat) (q : Request) : Statement (.headUnpair f q) := of_checks _
theorem headPolicySet (f : Nat) (q : Request) : Statement (.headPolicySet f q) := of_checks _
theorem headIdGet (f : Nat) (q : Request) : Statement (.headIdGet f q) := of_checks _
theorem headLifeQuery (f : Nat) (q : Request) : Statement (.headLifeQuery f q) := of_checks _
theorem headI3cXfer (f : Nat) (q : Request) : Statement (.headI3cXfer f q) := of_checks _
theorem calEnable (f : Nat) (q : Request) : Statement (.calEnable f q) := of_checks _
theorem calPin (f : Nat) (q : Request) : Statement (.calPin f q) := of_checks _
theorem calUnpin (f : Nat) (q : Request) : Statement (.calUnpin f q) := of_checks _
theorem calReset (f : Nat) (q : Request) : Statement (.calReset f q) := of_checks _
theorem calQuery (f : Nat) (q : Request) : Statement (.calQuery f q) := of_checks _
theorem timeSetBase (f : Nat) (q : Request) : Statement (.timeSetBase f q) := of_checks _
theorem timePpsConfig (f : Nat) (q : Request) : Statement (.timePpsConfig f q) := of_checks _
theorem timeTickSet (f : Nat) (q : Request) : Statement (.timeTickSet f q) := of_checks _
theorem timeChanRate (f : Nat) (q : Request) : Statement (.timeChanRate f q) := of_checks _
theorem timeGptpConfig (f : Nat) (q : Request) : Statement (.timeGptpConfig f q) := of_checks _
theorem timeLedgerQuery (f : Nat) (q : Request) : Statement (.timeLedgerQuery f q) := of_checks _
theorem timeLoRead (f size : Nat) : Statement (.timeLoRead f size) := of_checks _
theorem timePtmSeqRead (f size : Nat) : Statement (.timePtmSeqRead f size) := of_checks _
theorem mbxReqPush (f size : Nat) (value : Word) : Statement (.mbxReqPush f size value) := of_checks _
theorem mbxRspPop (f size : Nat) : Statement (.mbxRspPop f size) := of_checks _
theorem mbxCtrlWrite (f size : Nat) (value : Word) : Statement (.mbxCtrlWrite f size value) := of_checks _
theorem irqAck (f size : Nat) : Statement (.irqAck f size) := of_checks _
theorem irqEoi (f size : Nat) (value : Word) : Statement (.irqEoi f size value) := of_checks _
theorem irqSrcCfgWrite (f size : Nat) (value : Word) : Statement (.irqSrcCfgWrite f size value) := of_checks _
theorem irqSrcCauseWrite (f size : Nat) (value : Word) : Statement (.irqSrcCauseWrite f size value) := of_checks _
theorem irqCtrlWrite (f size : Nat) (value : Word) : Statement (.irqCtrlWrite f size value) := of_checks _
theorem registerWrite (f offset size : Nat) (value : Word) : Statement (.registerWrite f offset size value) := of_checks _
theorem requestRead : Statement (.requestRead) := of_checks _
theorem requestPromotion : Statement (.requestPromotion) := of_checks _
theorem deferredTimeout (f tag : Nat) : Statement (.deferredTimeout f tag) := of_checks _
theorem dmaTransferDone (f tag : Nat) (ok : Bool) (data : List Byte) : Statement (.dmaTransferDone f tag ok data) := of_checks _
theorem dmaTimeout (f tag : Nat) : Statement (.dmaTimeout f tag) := of_checks _
theorem flashProgramDone (ok : Bool) : Statement (.flashProgramDone ok) := of_checks _
theorem challengeExpiry (f : Nat) : Statement (.challengeExpiry f) := of_checks _
theorem masterTickBoundary : Statement (.masterTickBoundary) := of_checks _
theorem conditionReassert : Statement (.conditionReassert) := of_checks _
theorem msixUnmask (f vector : Nat) : Statement (.msixUnmask f vector) := of_checks _
theorem fsyncPulse (ch : Nat) : Statement (.fsyncPulse ch) := of_checks _
theorem fsyncPulseEnd (ch : Nat) : Statement (.fsyncPulseEnd ch) := of_checks _
theorem csi2FrameStart (port vc : Nat) (ecc : HdrEcc) : Statement (.csi2FrameStart port vc ecc) := of_checks _
theorem csi2LineStart (port vc line : Nat) (ecc : HdrEcc) : Statement (.csi2LineStart port vc line ecc) := of_checks _
theorem csi2LongPacket (port vc dt wc : Nat) (crcOk : Bool) (ecc : HdrEcc) (data : List Byte) : Statement (.csi2LongPacket port vc dt wc crcOk ecc data) := of_checks _
theorem csi2FrameEnd (port vc : Nat) (ecc : HdrEcc) : Statement (.csi2FrameEnd port vc ecc) := of_checks _
theorem ingressDeadline (ch : Nat) : Statement (.ingressDeadline ch) := of_checks _
theorem pipeJobEnd (ch : Nat) : Statement (.pipeJobEnd ch) := of_checks _
theorem encJobEnd (ch st : Nat) : Statement (.encJobEnd ch st) := of_checks _
theorem itpJobEnd (ch st : Nat) : Statement (.itpJobEnd ch st) := of_checks _
theorem decJobEnd (h : Nat) (r : DecResult) : Statement (.decJobEnd h r) := of_checks _
theorem sealJobEnd (ch st : Nat) : Statement (.sealJobEnd ch st) := of_checks _
theorem cycleMeterExpiry (j : MeterJob) (undone : Nat) : Statement (.cycleMeterExpiry j undone) := of_checks _
theorem seqWatchdog (q : Nat) (stop : SeqStop) : Statement (.seqWatchdog q stop) := of_checks _
theorem calEstimate (ch param : Nat) : Statement (.calEstimate ch param) := of_checks _
theorem calTimeLimit (ch param : Nat) : Statement (.calTimeLimit ch param) := of_checks _
theorem calRecordWrite (ch : Nat) : Statement (.calRecordWrite ch) := of_checks _
theorem headCheckStart (ch : Nat) : Statement (.headCheckStart ch) := of_checks _
theorem seStatusPoll (ch : Nat) (u : Unit) : Statement (.seStatusPoll ch u) := of_checks _
theorem i3cTransactionDone (bus : Nat) (r : BusResult) : Statement (.i3cTransactionDone bus r) := of_checks _
theorem headCheckDone (ch : Nat) : Statement (.headCheckDone ch) := of_checks _
theorem headChange (ch : Nat) : Statement (.headChange ch) := of_checks _
theorem lifeMinute (ch : Nat) (u : Unit) : Statement (.lifeMinute ch u) := of_checks _
theorem lifePush (ch : Nat) : Statement (.lifePush ch) := of_checks _
theorem headTempRead (ch : Nat) (u : Unit) : Statement (.headTempRead ch u) := of_checks _
theorem ppsInPulse (at_ : Nat) : Statement (.ppsInPulse at_) := of_checks _
theorem ppsInMissing : Statement (.ppsInMissing) := of_checks _
theorem ppsOutPulse : Statement (.ppsOutPulse) := of_checks _
theorem gptpSyncTx (port : Nat) : Statement (.gptpSyncTx port) := of_checks _
theorem gptpAnnounceTx (port : Nat) : Statement (.gptpAnnounceTx port) := of_checks _
theorem gptpPdelayReqTx (port : Nat) : Statement (.gptpPdelayReqTx port) := of_checks _
theorem gptpFrameReceived (port : Nat) (m : GptpMsg) : Statement (.gptpFrameReceived port m) := of_checks _
theorem macFrameReceived (mac : Nat) : Statement (.macFrameReceived mac) := of_checks _
theorem ptmDialogue : Statement .ptmDialogue := of_checks _
theorem ptmDialogueDone (ok : Bool) (root : Nat) : Statement (.ptmDialogueDone ok root) := of_checks _
theorem packetDequeue (port : Nat) : Statement (.packetDequeue port) := of_checks _
theorem packetTxComplete (port : Nat) (ok : Bool) : Statement (.packetTxComplete port ok) := of_checks _
theorem calendarSlot (port : Nat) : Statement (.calendarSlot port) := of_checks _
theorem ringSlotPoll (flow : Nat) (ok : Bool) (addr blen : Nat) (ctrl : Word) : Statement (.ringSlotPoll flow ok addr blen ctrl) := of_checks _
theorem txFrameDue (flow : Nat) : Statement (.txFrameDue flow) := of_checks _
theorem txFrameSent (port : Nat) : Statement (.txFrameSent port) := of_checks _
theorem flowSample (n : Nat) : Statement (.flowSample n) := of_checks _
theorem macLinkDown (mac : Nat) : Statement (.macLinkDown mac) := of_checks _
theorem macLinkUp (mac : Nat) : Statement (.macLinkUp mac) := of_checks _
theorem pcieLinkRetrain (lanes : Nat) (l : LinkSetting) : Statement (.pcieLinkRetrain lanes l) := of_checks _
theorem chanStatusUpdate (ch : Nat) : Statement (.chanStatusUpdate ch) := of_checks _
theorem flowStatusUpdate : Statement (.flowStatusUpdate) := of_checks _
theorem refreshDue (dmc mch : Nat) : Statement (.refreshDue dmc mch) := of_checks _
theorem refreshIssue (dmc mch : Nat) : Statement (.refreshIssue dmc mch) := of_checks _
theorem refreshForced (dmc mch : Nat) : Statement (.refreshForced dmc mch) := of_checks _
theorem mr4Read (dmc mch : Nat) (mult : Nat) : Statement (.mr4Read dmc mch mult) := of_checks _
theorem patrolScrub (dmc sector : Nat) (e : EccFinding) : Statement (.patrolScrub dmc sector e) := of_checks _
theorem selfRefreshEntryDone (dmc : Nat) : Statement (.selfRefreshEntryDone dmc) := of_checks _
theorem selfRefreshExitDone (dmc : Nat) : Statement (.selfRefreshExitDone dmc) := of_checks _
theorem tamperAssert : Statement (.tamperAssert) := of_checks _
theorem trngHealthFail : Statement (.trngHealthFail) := of_checks _
theorem trngRestartDone : Statement (.trngRestartDone) := of_checks _
theorem trngBlockReady (block : List Byte) : Statement (.trngBlockReady block) := of_checks _
theorem avsFloorUpdate (dom floor : Nat) : Statement (.avsFloorUpdate dom floor) := of_checks _
theorem pmbusStatusPoll (rail : Nat) (ack : Bool) (status iout : Nat) : Statement (.pmbusStatusPoll rail ack status iout) := of_checks _
theorem thermalSample (tj : Int) : Statement (.thermalSample tj) := of_checks _
theorem domainPowerUpDone (dom : Nat) (ok : Bool) : Statement (.domainPowerUpDone dom ok) := of_checks _
theorem controlWatchdog : Statement (.controlWatchdog) := of_checks _
theorem fullReset (t : ResetTrigger) : Statement (.fullReset t) := of_checks _
theorem resetRelease (straps : Straps) (puf : PufRead) : Statement (.resetRelease straps puf) := of_checks _
theorem railPowerUp (rail : Nat) (ok : Bool) : Statement (.railPowerUp rail ok) := of_checks _
theorem dmcTrainingDone (ok : Bool) : Statement (.dmcTrainingDone ok) := of_checks _
theorem memoryInitDone : Statement (.memoryInitDone) := of_checks _
theorem bringUpReady : Statement (.bringUpReady) := of_checks _
theorem functionLevelReset (f : Nat) : Statement (.functionLevelReset f) := of_checks _
theorem vfEnableChange (numVfs : Nat) (enable : Bool) : Statement (.vfEnableChange numVfs enable) := of_checks _
theorem chunkServiceDone (dmc : Nat) (c : Chunk) : Statement (.chunkServiceDone dmc c) := of_checks _
theorem csi2PhyError (port : Nat) : Statement (.csi2PhyError port) := of_checks _
theorem refclkInFailure : Statement (.refclkInFailure) := of_checks _

end Sys2Proof.Laws.Checked
end

