-- ==== Sys2Proof/Tests/Slice0.lean ====
section
/-!
SUPPORT. Small checks of one step each, the refusals of ill-formed commands, and for every statement with hypotheses a state and
operands that meet them.
-/
namespace Sys2Proof.Tests
open Sys2Proof.Machine

set_option Elab.async false

/-! ### Well-formedness: every check refuses, by name -/

/-- A request with the payload length of its opcode and a payload filled with zeros. -/
def req (o : Op) (payload : List Byte) : Request :=
  { tag := 7, prio := 0, plen := BitVec.ofNat 8 o.info.plen, rsv6 := 0, csel := 0, fsel := 0, rsv10 := 0, payload := fit 48 payload }

def decRes : DecResult :=
  { decodable := true, streamError := false, reorderExceeded := false, irap := true, order := 0, lostUnits := [], uses := [], vectors := []
    listRef := none, keeps := [], picture := [] }

theorem test_ill_formed_commands_are_named : ∀ p ∈ ([
    (.sysNop 16 (req .sysNop []), .function), (.sysNop 0 { req .sysNop [] with payload := [] }, .payload),
    (.timeLoRead 0 3, .width), (.registerWrite 0 0x10000 4 0, .offset), (.msixUnmask 0 3, .vector),
    (.csi2FrameStart 16 0 .good, .receivePort), (.csi2FrameStart 0 16 .good, .virtualChannel),
    (.csi2LongPacket 0 0 0x40 0 true .good [], .dataType), (.csi2LongPacket 0 0 0x2B 65536 true .good [], .wordCount),
    (.fsyncPulse 32, .channel), (.encJobEnd 0 2, .stream), (.decJobEnd 32 decRes, .decodeStream), (.cycleMeterExpiry (.pipe 32) 0, .job),
    (.calEstimate 0 4, .estimator), (.i3cTransactionDone 8 .nack, .bus), (.macLinkUp 2, .mac), (.packetDequeue 3, .scheduledPort),
    (.txFrameSent 4, .transmitPort), (.txFrameDue 256, .flow), (.flowSample 16, .sample), (.refreshDue 2 0, .controller),
    (.refreshDue 0 8, .memChannel), (.mr4Read 0 0 3, .multiplier),
    (.chunkServiceDone 0 ⟨.firmware, 0, .read 257, [], [], .other, 0⟩, .chunk), (.domainPowerUpDone 7 true, .domain),
    (.railPowerUp 6 true, .rail), (.seqWatchdog 8 ⟨0, .watchdog⟩, .sequencer), (.seqWatchdog 0 ⟨0, .fault 4⟩, .sequencer), (.trngBlockReady [], .block),
    (.resetRelease default { (default : PufRead) with bits := [] }, .puf), (.pcieLinkRetrain 3 ⟨25, 128, true⟩, .link), (.dmaTimeout 0 65536, .tag)] : List (Instr × Flaw)), p.1.flaw = some p.2 ∧ p.1.wf = false := by
  decide +kernel

theorem test_well_formed_commands_pass : ∀ i ∈ ([.sysNop 15 (req .sysNop []), .timeLoRead 0 8, .registerWrite 0 0xFFFC 4 0, .msixUnmask 0 2,
    .csi2LongPacket 15 15 0x3F 65535 true .good [], .fsyncPulse 31, .encJobEnd 31 1, .decJobEnd 31 decRes, .calEstimate 31 3,
    .chunkServiceDone 1 ⟨.ingress 15, 256, .write (List.replicate 256 0), [], [], .other, 0⟩, .flowSample 15, .txFrameDue 255] : List Instr),
    i.wf = true := by decide +kernel

/-! ### States -/

/-- After bring-up, every function with a session of a role (0 for none), time at one second. -/
def ready (role : Nat) : State :=
  { State.reset with
    boot := { State.reset.boot with fw := .ready, inReset := false, enrolled := true, released := true, railsUp := 6, trained := true, inited := true }
    time := { State.reset.time with dev := 1000000000, elapsed := 1000000000 }
    fns := State.reset.fns.map fun x => { x with session := if role = 0 then none else some ⟨role, 0⟩ } }

/-- The same with the tick running: boundary 0 was at 1 s, and three have passed. -/
def ticking (role : Nat) : State :=
  { ready role with time := { (ready role).time with
      dev := 1070000000, elapsed := 1070000000, tickRun := true, period := 33333333, refK := 0, refT := 1000000000, passed := 3 } }

/-- A state with its timebase changed. -/
def timed (g : TimeBase → TimeBase) (s : State) : State := { s with time := g s.time }

/-- The outcome is a next state. -/
def isNext : Host.Outcome State Fault Refusal → Bool
  | .next _ => true
  | _ => false

/-- The next state; the state itself where there is none. -/
def after (i : Instr) (s : State) : State :=
  match exec i s with
  | .next t => t
  | _ => s

/-- The fault or the refusal of an outcome. -/
def stopOf : Host.Outcome State Fault Refusal → Option (Fault ⊕ Refusal)
  | .next _ => none
  | .fault e => some (.inl e)
  | .refused r => some (.inr r)

/-! ### Witnesses: reset, the queue, invariants -/

theorem test_idle_hypotheses_are_met : (State.reset.pending = [] ∧ State.reset.clockRuns = false) ∧
    (ready 0).pending = [] ∧ (ready 0).clockRuns = true ∧ (clock (ready 0).time).dev < 2 ^ 64 := by decide +kernel

theorem test_every_reset_trigger_can_come : triggers .resetN (ready 0) = true ∧ triggers .perst (ready 0) = true ∧
    triggers .sysReset { ready 0 with resetAt := some 0 } = true ∧
    ∀ c, c < 32 → ((ready 0).chan c).head.pairPending = none := by decide +kernel

theorem canonical_of_two (s : State) (h0 : Memory.wf (s.dmcN 0).memory = true) (h1 : Memory.wf (s.dmcN 1).memory = true) : memoryCanonical s := by
  intro d
  by_cases h : d < 2
  · rcases (by omega : d = 0 ∨ d = 1) with rfl | rfl
    · exact h0
    · exact h1
  · have : s.dmcN d = default := by simp [State.dmcN, tget, Vector.getElem?_eq_none (by omega : 2 ≤ d)]
    rw [this]; rfl

/-- A controller fitted and serving, with one byte in memory. -/
def fitted (s : State) : State :=
  { s with dmc := s.dmc.map fun d => { d with
      fitted := true, trained := true, ready := true, density := 8, order := 0, size := 4294967296, memory := [(5, 7)] } }

theorem test_canonical_state_exists : memoryCanonical (fitted (ready 0)) ∧ isNext (step (fitted (ready 0))) = true :=
  ⟨canonical_of_two _ (by decide +kernel) (by decide +kernel), by decide +kernel⟩

theorem all_in_range (s : State) (h : ∀ n, n < 512 → (tget s.irq.src n).count ≤ 255 ∧ (tget s.irq.src n).prio ≤ 15 ∧ (tget s.irq.src n).route ≤ 16 ∧
    (tget s.irq.fwSrc n).count ≤ 255 ∧ (tget s.irq.fwSrc n).prio ≤ 15 ∧ (tget s.irq.fwSrc n).route ≤ 16) : sourcesInRange s := by
  intro n
  by_cases hn : n < 512
  · obtain ⟨a, b, c, d, e, f⟩ := h n hn; exact ⟨⟨a, b, c⟩, ⟨d, e, f⟩⟩
  · have e : ∀ v : Vector Source 512, tget v n = default := fun v => by simp [tget, Vector.getElem?_eq_none (by omega : 512 ≤ n)]
    rw [e, e]; exact ⟨⟨by decide, by decide, by decide⟩, by decide, by decide, by decide⟩

theorem test_sources_in_range_somewhere : sourcesInRange (ready 0) ∧ isNext (step (ready 0)) = true :=
  ⟨all_in_range _ (by
    intro n hn
    have e : (ready 0).irq.src = Vector.replicate 512 Source.reset := rfl
    have k : (ready 0).irq.fwSrc = Vector.replicate 512 Source.reset := rfl
    simp only [e, k, tget_replicate _ hn]
    decide), by decide +kernel⟩

theorem all_bounded (s : State) (h : ∀ f, f < 16 → (s.fn f).reqQ.length ≤ 64 ∧ (s.fn f).cache.length ≤ 64) : queuesBounded s := by
  intro f
  by_cases hf : f < 16
  · exact h f hf
  · have e : s.fn f = default := by simp [State.fn, tget, Vector.getElem?_eq_none (by omega : 16 ≤ f)]
    rw [e]; exact ⟨by decide, by decide⟩

theorem all_debts (s : State) (h : ∀ d, d < 2 → ∀ c, c < 8 → (tget (s.dmcN d).chans c).debt ≤ 8) : debtBounded s := by
  intro d c
  by_cases hc : c < 8
  · by_cases hd : d < 2
    · exact h d hd c hc
    · have e : s.dmcN d = default := by simp [State.dmcN, tget, Vector.getElem?_eq_none (by omega : 2 ≤ d)]
      rw [e]; revert c; decide +kernel
  · have e : tget (s.dmcN d).chans c = default := by simp [tget, Vector.getElem?_eq_none (by omega : 8 ≤ c)]
    rw [e]; decide

theorem test_bounds_hold_somewhere : queuesBounded (ready 0) ∧ debtBounded (ready 0) :=
  ⟨all_bounded _ (by decide +kernel), all_debts _ (by decide +kernel)⟩

/-- The part with one memory controller, and a controller with no memory installed. -/
def smallPart : State := { ready 0 with fuses := { (ready 0).fuses with part := .cm3116 } }
def unsized : State := { ready 0 with dmc := (ready 0).dmc.map fun d => { d with fitted := true, trained := true, ready := true } }

theorem test_a_command_changes_something : isNext (exec (.macFrameReceived 0) (ready 0)) = true ∧
    tget (after (.macFrameReceived 0) (ready 0)).macOther 0 = 1 := by decide +kernel

theorem test_absent_controller_is_refused : (Instr.refreshDue 1 0).wf = true ∧
    stopOf (exec (.refreshDue 1 0) smallPart) = some (.inr (.noSuchUnit "memory controller" 1)) := by
  decide +kernel

theorem test_absent_address_faults : stopOf (exec (.patrolScrub 0 0 .clean) unsized) = some (.inl (.noSuchAddress 0 0)) := by
  decide +kernel
/-! ### Witnesses: mailboxes, registers, interrupts -/

/-- Function 0's queue filled with `n` requests, its responses with `m`. -/
def queued (n m : Nat) (s : State) : State :=
  modFn 0 (fun x => { x with
    reqQ := List.replicate n ⟨(Op.entry .sysNop (req .sysNop [])), 0, 0, false⟩
    rspQ := List.replicate m idleDescriptor }) s

/-- Virtual functions 1 to `n` present. -/
def withVfs (n : Nat) (s : State) : State := { s with vfEnable := true, numVfs := n }

theorem test_response_hypotheses_are_met :
    let s := modFn 0 (fun x => { x with rspIe := true, fnMask := false, vecMask := Vector.replicate 2 false }) (ready 0)
    (s.fn 0).rspIe = true ∧ (s.fn 0).rspQ = [] ∧ (s.fn 0).fnMask = false ∧ tget (s.fn 0).vecMask 1 = false ∧
      ((queued 0 1 (ready 0)).fn 0).rspQ ≠ [] := by decide +kernel

theorem test_push_hypotheses_are_met : (ready 0).fnPresent 0 = true ∧ (1 : Word).getLsbD 0 = true ∧
    ((queued 63 0 (ready 0)).fn 0).reqQ.length < 64 ∧ 64 ≤ ((queued 64 0 (ready 0)).fn 0).reqQ.length := by decide +kernel

/-- The staged bytes of a SYS_NOP with tag 7: opcode 0x0101 and tag in the first word (R82, R102). -/
theorem test_push_reads_the_staged_entry :
    ((after (.mbxReqPush 0 4 1) (after (.registerWrite 0 0x200 4 0x00070101#32) (ready 0))).fn 0).reqQ.map QEntry.entry =
      [⟨0x0101, { req .sysNop [] with tag := 7 }⟩] := by decide +kernel

theorem test_read_hypotheses_are_met : (queued 1 0 (ready 0)).reads = true ∧ (pickNext (queued 1 0 (ready 0))).isSome = true ∧
    slotFree (queued 0 63 (ready 0)) 0 = true ∧ slotFree (queued 0 64 (ready 0)) 0 = false := by decide +kernel

/-- R84. Priority 0, the highest, is read before priority 7, though it came later; a promoted request before both. -/
theorem test_higher_priority_first :
    let e (p : Byte) (u : Bool) : QEntry := ⟨Op.entry .sysNop { req .sysNop [] with prio := p }, 0, 1000000000, u⟩
    (pickNext (modFn 0 (fun x => { x with reqQ := [e 7 false, e 0 false] }) (ready 0))).map (fun p => p.2.entry.req.prio) = some 0 ∧
    (pickNext (modFn 0 (fun x => { x with reqQ := [e 0 false, e 7 true] }) (ready 0))).map (fun p => p.2.entry.req.prio) = some 7 := by
  decide +kernel

theorem test_unread_hypotheses_are_met : (ready 0).fnPresent 1 = false ∧ (withVfs 1 (ready 0)).fnPresent 1 = true ∧
    State.reset.reads = false ∧ (State.reset.fn 0).reqQ.length < 64 := by decide +kernel

/-- R105. A payload length that is not the opcode's is BAD_LENGTH. -/
theorem test_refused_hypotheses_are_met :
    let q := { req .sysNop [] with plen := 4 }
    let s := ready 0
    s.fnPresent 0 = true ∧ s.reads = true ∧ slotFree s 0 = true ∧ tagAnswer (atMailbox 0 s) 0 (Op.entry .sysNop q) = none ∧
      refusal (atMailbox 0 s) (ctxOf .sysNop 0 q s) = some (St.badLength, []) := by decide +kernel

theorem test_pop_hypotheses_are_met : (ready 0).fnPresent 0 = true ∧ ((ready 0).fn 0).rspQ = [] ∧
    ((queued 0 2 (ready 0)).fn 0).rspQ = idleDescriptor :: [idleDescriptor] := by decide +kernel

/-- R88. A pop of an empty queue returns 0xFFFF_0000. -/
theorem test_pop_of_nothing_is_idle : ((after (.mbxRspPop 0 4) (ready 0)).fn 0).readData = 0xFFFF0000#32 := by decide +kernel

/-- R42. TIME_LO, and the latched high half. -/
theorem test_time_latches :
    let s := after (.timeLoRead 0 4) (timed (fun t => { t with dev := 0x123456789 }) (ready 0))
    (s.fn 0).readData = 0x23456789#32 ∧ (s.fn 0).timeHi = 1 := by decide +kernel

theorem test_staging_ends_are_plain : 0x200 + 4 * 15 = 0x23C ∧ (0x1FC % 4 = 0 ∧ 0x1FC < 0x200) ∧ 0x23C < 0x240 ∧
    tget ((after (.registerWrite 0 0x23C 4 9) (ready 0)).fn 0).staging 15 = 9 ∧
    ((after (.registerWrite 0 0x240 4 9) (ready 0)).fn 0).staging = ((ready 0).fn 0).staging := by decide +kernel

theorem test_mask_hypotheses_are_met :
    let s := modFn 0 (fun x => { x with fnMask := false, held := Vector.ofFn fun i => i.val = 1 }) (ready 0)
    (s.fn 0).fnMask = false ∧ (∀ j, j < 2 → j ≠ 1 → tget (s.fn 0).held j = false) ∧ tget (s.fn 0).held 1 = true ∧
      ((ready 0).fn 0).held = Vector.replicate 2 false := by decide +kernel

/-- Source `n` routed to function 0's target and enabled, with a count of `k` and a cause word of `c`. -/
def raised (n k c : Nat) (s : State) : State :=
  let x : Source := ⟨1, 3, true, k, false, BitVec.ofNat 32 c, false⟩
  { s with irq := { s.irq with src := tset s.irq.src n x } }

theorem test_event_hypotheses_are_met : sourcePresent (ready 0) 0 = true ∧ sourceKind 0 = some false ∧ sourcePresent (ready 0) 32 = true ∧
    sourceKind 32 = some true ∧ (tget (raised 0 255 0 (ready 0)).irq.src 0).route = 1 ∧ (tget (ready 0).irq.src 0).route = 0 := by
  decide +kernel

/-- R137. The 256th event sets SAT and leaves 255. -/
theorem test_a_full_counter_saturates : Source.event false 0 ⟨1, 3, true, 255, false, 0, false⟩ = ⟨1, 3, true, 255, true, 0, false⟩ ∧
    Source.event false 0 ⟨1, 3, true, 254, false, 0, false⟩ = ⟨1, 3, true, 255, false, 0, false⟩ ∧
    Source.event true 2 ⟨1, 3, true, 0, false, 8, false⟩ = ⟨1, 3, true, 0, false, 12, false⟩ := by decide

theorem only_raised (n k c m : Nat) (hn : m ≠ n) (hm : m < 512) : eligible (raised n k c (ready 0)) 1 m = false := by
  have e : (ready 0).irq.src = Vector.replicate 512 Source.reset := rfl
  have h : tget (raised n k c (ready 0)).irq.src m = Source.reset := by
    simp only [raised, e, tget, tset, Vector.getElem?_setIfInBounds_ne (Ne.symm hn)]
    simp [hm]
  simp only [eligible, h]; rfl

theorem test_acknowledge_hypotheses_are_met : (eligible (raised 0 5 0 (ready 0)) 1 0 = true ∧ sourceKind 0 = some false ∧
    ∀ m, m < 512 → eligible (raised 0 5 0 (ready 0)) 1 m = true → m = 0) ∧
    (eligible (raised 511 0 4 (ready 0)) 1 511 = false ∧ eligible (raised 32 0 4 (ready 0)) 1 32 = true ∧ sourceKind 32 = some true) ∧
    ∀ n, n < 512 → eligible (raised 600 0 0 (ready 0)) 1 n = false := by
  refine ⟨⟨by decide +kernel, by decide +kernel, fun m hm h => ?_⟩, by decide +kernel, fun n hn => only_raised _ _ _ _ (by omega) hn⟩
  by_contra hne
  rw [only_raised 0 5 0 m hne hm] at h; cases h

theorem test_end_of_interrupt_hypotheses_are_met : ((ready 0).target 1).stack = [] ∧
    ((modTgt 1 (fun t => { t with stack := [(32, 3), (0, 15)] }) (ready 0)).target 1).stack = (32, 3) :: [(0, 15)] := by decide +kernel

theorem test_source_write_hypotheses_are_met : ((raised 0 5 0 (ready 0)).target 1).srcSel < 512 ∧ srcStat (raised 0 5 0 (ready 0)) 0 0 = 0 ∧
    (let s := modTgt 1 (fun t => { t with srcSel := 32 }) (raised 32 0 4 (ready 0))
     srcStat s 0 32 = 0 ∧ sourceKind 32 = some true ∧ (tget s.irq.src 32).route = 1) := by decide +kernel

theorem test_function_hypotheses_are_met : (withVfs 15 (ready 1)).fnPresent 15 = true ∧ (withVfs 0 (ready 1)).fnPresent 1 = false := by decide +kernel

theorem test_timed_mailbox_hypotheses_are_met : (ticking 0).time.tickRun = true ∧ 0 < (ticking 0).time.passed ∧ (ready 0).clockRuns = true ∧
    (ready 0).time.tickRun = false ∧ (ready 0).time.refclk = true ∧
    ((modFn 15 (fun x => { x with challenge := some ⟨1, 0, [], 7⟩ }) (ready 0)).fn 15).challenge = some ⟨1, 0, [], 7⟩ := by decide +kernel
/-! ### Witnesses: clocks and the tick -/

/-- Discipline enabled, with the last valid pulse at 1 s and `m` pulses missing since. -/
def disciplined (st : DiscState) (m : Nat) : State :=
  timed (fun t => { t with ppsEn := true, disc := st, lastValid := some 1000000000, missRun := m }) (ready 0)

theorem test_pulse_hypotheses_are_met :
    let s := disciplined .locked 2
    let u (at_ : Nat) : TimeBase := (advanceTo at_ s).time
    s.time.ppsEn = true ∧ s.boot.inReset = false ∧ s.exec = [] ∧ s.clockRuns = true ∧ s.time.lastValid = some 1000000000 ∧ 2 ≤ s.time.missRun ∧
      (missedBy (u 2000000050) (u 2000000050).dev = 0 ∧ pulseValid (u 2000000050) = true) ∧
      (missedBy (u 1500000000) (u 1500000000).dev = 0 ∧ pulseValid (u 1500000000) = false) ∧
      (1000000000 + 1000100000 < (u 2000100001).dev ∧ (u 2000100001).dev < 1000000000 + 1999900000) := by decide +kernel

/-- R47. A pulse between two expected ones is ignored; the third expected one to be missing ends LOCKED. -/
theorem test_extra_and_missing_pulses :
    (after (.ppsInPulse 1500000000) (disciplined .locked 2)).time.missRun = 2 ∧
    (after (.ppsInPulse 1500000000) (disciplined .locked 2)).time.disc = .locked ∧
    (after .ppsInMissing (disciplined .locked 1)).time.disc = .locked ∧ (after .ppsInMissing (disciplined .locked 2)).time.disc = .holdover := by
  decide +kernel

/-- PTM enabled, both MAC links up, a Pdelay_Req of port 0 under way, and its response's arrival. -/
def linked (r : Option (Nat × Nat)) : State :=
  timed (fun t => { t with ptmEn := true, pdelay := tset t.pdelay 0 ⟨some (7, 1000), r, none⟩ })
    { ready 0 with ports := (ready 0).ports.map fun y => { y with up := true } }

theorem test_link_hypotheses_are_met : (linked none).clockRuns = true ∧ (∀ p, p < 2 → (tget (linked none).ports p).up = true) ∧
    (∀ r ∈ [none, some (2000, 3000)], tget (linked r).time.pdelay 0 = ⟨some (7, 1000), r, (tget (linked r).time.pdelay 0).delay⟩) ∧
    wouldWin (linked none).time 1 0 6 0x21 0 0 = true ∧ wouldWin (linked none).time 1 255 6 0x21 0 0 = false ∧
    (linked none).time.ptmBusy = false ∧ (linked none).time.ptmEn = true ∧ (ready 0).time.ptmEn = false ∧ (timed (fun t => { t with ptmBusy := true }) (ready 0)).time.ptmBusy = true := by decide +kernel

theorem test_boundary_hypotheses_are_met : (ticking 0).clockRuns = true ∧ (ticking 0).resetAt = none ∧
    (let s := { ticking 0 with resetAt := some 1071000000 }; s.resetAt.any (resetFirst s) = true) ∧
    (let s := { ticking 0 with resetAt := some 1200000000 }; s.resetAt.any (resetFirst s) = false) ∧
    oneTickAhead (ticking 0) := by
  refine ⟨by decide +kernel, by decide +kernel, by decide +kernel, by decide +kernel, by decide +kernel, by decide +kernel, by decide +kernel, ?_⟩
  exact fun x h => absurd h (by rw [show (ticking 0).exec = [] from by decide +kernel]; exact List.not_mem_nil)

/-! ### Witnesses: frames, jobs, calibration, windows -/

/-- A RAW10 image of 64 by `h` on port 2, virtual channel 1. -/
def rawBind (h : Nat) : Bind := { port := 2, vc := 1, dt := 0x2B, lnum := false, emb := false, width := 64, height := h }

/-- An expected frame whose deadline is boundary 2. -/
def frame0 : Frame := { (default : Frame) with
  cfg := { (default : ChanCfg) with bind := some (rawBind 2) }, counter := 5, capture := 900000000, boundary := 1, deadline := 2 }

/-- One whose deadline has not come, in the same binding. -/
def frame1 : Frame := { frame0 with counter := 6, capture := 1060000000, boundary := 2, deadline := 4 }

/-- Channel 3 changed, with port 2 set; after three boundaries. -/
def camera (g : Chan → Chan) : State :=
  modChan 3 (fun x => g { x with cfg := { x.cfg with bind := some (rawBind 2) } }) (modRx 2 (fun p => { p with set := true, rate := 1000 }) (ticking 0))

theorem test_frame_hypotheses_are_met :
    let f : Frame := { frame1 with opened := true }
    let n : Frame := { f with cfg := { f.cfg with bind := some { rawBind 2 with lnum := true } }, lineStart := some 2 }
    let s := camera fun x => { x with frames := [{ frame0 with opened := true }, frame1] }
    let o := camera fun x => { x with frames := [f] }
    (s.rxPort 2).set = true ∧ boundChan s 2 1 = some 3 ∧ (s.chan 3).frames = [{ frame0 with opened := true }] ++ [frame1] ∧
      frame1.capture ≤ s.time.dev ∧ ofRun (s.chan 3) frame1 = true ∧ onPair 2 1 frame1.cfg.bind = true ∧ live s frame1 = true ∧
      ((ready 0).rxPort 2).set = false ∧ packetFate o 3 2 1 = .frame f (rawBind 2) ∧
      f.refuses = false ∧ f.ended = false ∧ f.lines.length < (rawBind 2).height ∧
      packetFate (camera fun x => { x with frames := [n] }) 3 2 1 = .frame n { rawBind 2 with lnum := true } ∧ n.lastNum < 2 ∧
      (seeDrained o.time.elapsed o.fresh (o.rxPort 2)).level = 0 ∧
      (seeDrained o.time.elapsed o.fresh { (o.rxPort 2) with fifo := [⟨3, 1022, 5, false⟩] }).level = 1022 ∧ cdiv 80 32 = 3 ∧
      frame0.deadline < s.time.passed ∧ boundChan s 2 2 = none := by decide +kernel

/-- R158. A RAW10 line of 64 pixels is 80 bytes; R163, R168. -/
theorem test_a_short_line_is_replaced :
    let o := camera fun x => { x with frames := [{ frame1 with opened := true, lastGood := some (List.replicate 80 1#8) }] }
    lineBytes 0x2B 64 = 80 ∧
    (openFrame ((after (.csi2LongPacket 2 1 0x2B 40 true .good (List.replicate 40 9#8)) o).chan 3)).map (fun f => (f.lines, f.bad)) =
      some ([List.replicate 80 1#8], 1) := by decide +kernel

/-- R26, R31, R58. The pulse of channel 3 is due at boundary 2, 3 of 64ths later. -/
theorem test_fsync_hypotheses_are_met :
    let s := camera fun x => { x with enabled := true, cfg := { x.cfg with rate := some ⟨1, 0, 3, true, 1000⟩ } }
    pulseDue s 3 = some 2 ∧ (s.chan 3).cfg.rate = some ⟨1, 0, 3, true, 1000⟩ ∧ s.time.refclk = true ∧
      ((camera fun x => { x with fsyncEnd := some 1071000000 }).chan 3).fsyncEnd = some 1071000000 ∧
      (after (.fsyncPulse 3) s).out = [.fsync 3 false 1000] := by decide +kernel

/-- R173. A frame that never started is dropped. -/
theorem test_a_missing_frame_is_dropped :
    let t := after (.ingressDeadline 3) (camera fun x => { x with frames := [frame0] })
    (t.chan 3).lastRec.map Frame.outcome = some .dropped ∧ (t.chan 3).drop = 1 := by decide +kernel

/-- A booking of a job in force on an engine. -/
def bookOn (k : JobKey) (e : Engine) (s : State) : State :=
  { s with bookings := [{ (default : Booking) with key := k, engine := e, frets := 10, div := 1, held := true }] }

/-- Channel 3 with a pipeline job, and with an encode job of stream 1. -/
def piping : State := bookOn (pipeKey 3) 2 (camera fun x => { x with pipeJob := some frame0 })
def encoding (g : StreamRun → StreamRun) : State :=
  bookOn (encKey 3 1) 5 (modRun 3 1 (fun r => g { r with job := some frame0 })
    (modStream 3 1 (fun x => { x with hrd := some default }) (camera fun x => { x with cfg := { x.cfg with fine := true } })))

/-- R301. Interpolation of a flat plane gives its value at every fraction, on and beyond the edge, in both codecs. -/
theorem test_a_flat_plane_interpolates_to_itself :
    let p : List (List Nat) := List.replicate 8 (List.replicate 8 100)
    ∀ h ∈ [true, false], ∀ v ∈ [(0, 0), (2, 0), (1, 3), (-7, 2)], predicted h 8 0 p 0 4 v.1 v.2 = 100 := by decide +kernel

/-- Decode stream 7 with one access unit on its core. -/
def decoding : State := modDec 7 (fun d => { d with isOpen := true, job := some ⟨[0, 1], 1, 0⟩ }) (ticking 0)

theorem test_job_hypotheses_are_met : (piping.chan 3).pipeJob = some frame0 ∧ stalled piping (pipeKey 3) = false ∧
    (piping.chan 3).pipeCut = none ∧ seqOf piping (pipeKey 3) = some 2 ∧ (tget piping.seqs 2).halted = false ∧
    frame0.cfg.hooks = Vector.replicate 6 none ∧ jobOn piping 2 = some (.pipe 3) ∧ frame0.outcome ≠ .dropped ∧ frame0.cfg.bind = some (rawBind 2) ∧
    sourcePresent piping (224 + 2) = true ∧ engineOf piping (pipeKey 3) = some 2 := by decide +kernel

theorem test_encode_job_hypotheses_are_met :
    let s := encoding id
    (tget (s.chan 3).runs 1).job.isSome = true ∧ (tget (s.chan 3).cfg.streams 1).hrd = some default ∧ (tget (s.chan 3).runs 1).current = none ∧
      stalled s (encKey 3 1) = false ∧ (s.chan 3).cfg.fine = true ∧ (tget (s.chan 3).runs 1).itpDone = false ∧ (tget (s.chan 3).runs 1).cut = none ∧
      (tget (s.chan 3).runs 1).itpCut = none ∧ frame0.outcome = .complete ∧ engineOf s (encKey 3 1) = some 5 ∧ jobOn s 5 = some (.enc 3 1) ∧
      (let a := { (default : AccessUnit) with nals := [⟨.sealSei, [], 0⟩] }
       (tget ((encoding fun r => { r with current := some a }).chan 3).runs 1).current = some a ∧ a.sealed_ = false) := by decide +kernel

theorem test_decode_job_hypotheses_are_met : (decoding.decS 7).job = some ⟨[0, 1], 1, 0⟩ ∧ stalled decoding (decKey 7) = false ∧
    (decoding.decS 7).cut = none := by decide +kernel

/-- R342, R344. An access unit that cannot be decoded repeats. -/
theorem test_an_undecodable_unit_repeats :
    let t := after (.decJobEnd 7 { decRes with decodable := false }) decoding
    (t.decS 7).repeated = 1 ∧ (t.decS 7).decoded = 0 ∧ (t.decS 7).outCount = 1 := by decide +kernel

/-- Channel 3 with the estimator of a parameter changed. -/
def calibrating (p : Nat) (g : Estimator → Estimator) : State :=
  modEst 3 p g (camera fun x => { x with enabled := true })

theorem test_calibration_hypotheses_are_met :
    (∀ p, p < 4 → estimateDue (calibrating p fun e => { e with completeAt := some 2 }) 3 p = some 2) ∧
    (∀ p, p < 4 → let s := calibrating p id
      (s.chan 3).enabled = true ∧ estRuns (s.chan 3) p = true ∧ (tget (s.chan 3).cal.est p).completeAt = none ∧ s.time.refclk = true) ∧
    (let s := camera fun x => { x with head := { x.head with state := .paired, pairing := some ⟨[1], [2]⟩ }, cal := { x.cal with recordAt := some 5 } }
     (s.chan 3).head.state = .paired ∧ (s.chan 3).head.pairing = some ⟨[1], [2]⟩ ∧ (s.chan 3).cal.recordAt = some 5 ∧
       (s.chan 3).cal.stored = none) := by decide +kernel

theorem test_window_hypotheses_are_met : (ticking 0).ready = true ∧ 3 < (ticking 0).nChan ∧ (ticking 0).time.tickRun = true ∧ 0 < (ticking 0).time.passed ∧
    ((camera fun x => { x with lastRec := some frame0 }).chan 3).lastRec = some frame0 := by decide +kernel

/-- R96. The frame counter at offset 0x10 of the window of channel 3. -/
theorem test_the_window_shows_the_record :
    let t := after (.chanStatusUpdate 3) (camera fun x => { x with lastRec := some frame0, closed := (5, 900000000), trunc := 2, drop := 3 })
    bar0 t 0 0x20D0 = 5#32 ∧ bar0 t 0 0x20E0 = 0x00030002#32 ∧ bar0 t 0 0x20C0 = 2#32 := by decide +kernel
/-! ### Witnesses: heads, egress, memory -/

/-- Channel 3 attached to bus 4, with a check at a step. -/
def checking (k : CheckStep) : State :=
  camera fun x => { x with
    cfg := { x.cfg with attach := some { (default : Attach) with bus := 4 } }
    head := { x.head with checks := [{ (default : Check) with step := k }] } }

theorem test_check_hypotheses_are_met : (∀ k ∈ [CheckStep.due, .waitSig, .judged], (curCheck (checking k) 3).map Check.step = some k) ∧
    ((checking .due).chan 3).cfg.attach = some { (default : Attach) with bus := 4 } ∧ (checkWindow (ready 0)).isSome = true ∧
    firstDue (checking .due) 3 { (default : Check) with step := .due } = true ∧
    (curCheck (checking .waitSig) 3).map Check.polling = some false ∧ (checking .waitSig).time.refclk = true := by decide +kernel

/-- A transaction on bus 4. -/
def xfer (u : BusUse) : BusXfer := { (default : BusXfer) with ch := 3, use_ := u, todo := [default], active := true }
def busy (u : BusUse) (e : List ExecEntry) : State :=
  { ticking 0 with buses := tset (ticking 0).buses 4 [xfer u], exec := e }

/-- A read by the device itself, of `n` bytes. -/
def reading (u : BusUse) (n : Nat) : BusXfer := { (default : BusXfer) with ch := 3, cls := .device, use_ := u, todo := [⟨[0, 0], n, true⟩], active := true }

/-- A request in execution in function 2, tag 7. -/
def inExec (o : Op) (pay : List Byte) (w : Wait) : ExecEntry :=
  { func := 2, entry := Op.entry o (req o pay), wait := w, members := [3], since := 0, data := [], role := 0, slot := 0, dead := false }

theorem test_bus_hypotheses_are_met : tget (busy .sensorWrite []).buses 4 = xfer .sensorWrite :: [] ∧
    tget (busy (.hostXfer 2 7) [inExec .headI3cXfer [] (.bus 3)]).buses 4 = xfer (.hostXfer 2 7) :: [] ∧
    findExec (busy (.hostXfer 2 7) [inExec .headI3cXfer [] (.bus 3)]) 2 7 Wait.isBus = some (inExec .headI3cXfer [] (.bus 3)) := by decide +kernel

theorem test_head_life_hypotheses_are_met :
    (let s := camera fun x => { x with head := { x.head with changeAt := some (1000000, [1]) } }
     headChangeDue s 3 = true ∧ headChangeNext s 3 = true ∧ s.resetAt = none ∧ s.exec = [] ∧ (s.chan 3).head.pairPending = none) ∧
    (let s := camera fun x => { x with
       enabled := true, recordAt := 61000000000, cfg := { x.cfg with attach := some { (default : Attach) with bus := 4 } }
       head := { x.head with state := .paired, life := some default, pairing := some ⟨[1], [2]⟩ } }
     (s.chan 3).head.life = some default ∧ (s.chan 3).head.pairing.isSome = true ∧ s.time.refclk = true ∧
       operating (s.chan 3) 60000000000 = true ∧ operating (s.chan 3) 1 = false ∧ (s.chan 3).cfg.attach.isSome = true ∧
       (∀ k ∈ (s.chan 3).head.checks, k.why ≠ .push)) ∧
    (∀ u ∈ [BusUse.temp true, .temp false], (reading u 2).use_ = u ∧ (reading u 2).todo = [⟨[0, 0], 2, true⟩]) ∧
    (reading .checkStep 1).todo = [⟨[0, 0], 1, true⟩] ∧ (reading .checkStep 1).active = true ∧ (reading .checkStep 1).cls = .device := by
  decide +kernel

/-- R199. A reading above 85 degrees (1,360 sixteenths) makes the minute a hot one; R240: it is one of the last five. -/
theorem test_a_hot_minute :
    let s (m : Bool) : State := { camera fun x => { x with head := { x.head with life := some { (default : Life) with budget := 1000 } } } with
      buses := tset (ticking 0).buses 4 [reading (.temp m) 2] }
    ((after (.i3cTransactionDone 4 (.ack [0x05, 0x51])) (s true)).chan 3).head.life.map (fun l => (l.cool, l.hot)) = some (0, 1) ∧
    ((after (.i3cTransactionDone 4 (.ack [0x05, 0x50])) (s true)).chan 3).head.life.map (fun l => (l.cool, l.hot)) = some (1, 0) ∧
    ((after (.i3cTransactionDone 4 (.ack [0xFF, 0xF0])) (s false)).chan 3).head.temps = [some (-16)] := by decide +kernel

/-- Flow 9 of route `r` on port 1 with one item whose packet can go, and what a port sends. -/
def anItem : Item := { (default : Item) with counter := 4, parts := some [⟨[1, 2], 2, 0, false⟩], data := [1, 2] }
def flowing (r w : Nat) (g : FlowRun → FlowRun) : State :=
  { modFlow 9 (fun x => g { x with active := true, items := [anItem], credit := 100000 }) (ticking 0) with
    flowCfg := tmod (ticking 0).flowCfg 9 fun y => { y with route := r, port := 1, weight := w, func := some 2 } }

theorem test_a_packet_can_go : (candidate (flowing 0 256 id) 0 9).isSome = true ∧ (tget (flowing 0 256 id).ports 0).staged = none ∧
    (tget (flowing 0 256 id).ports 0).sending = none := by decide +kernel

theorem only_candidate (m : Nat) (h : m ≠ 9) (hm : m < 256) : candidate (flowing 0 256 id) 0 m = none := by
  have e : (flowing 0 256 id).flow m = default := by
    have k : (ticking 0).flows = Vector.replicate 256 default := rfl
    simp only [flowing, modFlow, State.flow, tget_tmod_ne _ (Ne.symm h), k, tget_replicate _ hm]
  unfold candidate
  exact if_neg (by rw [e]; rintro ⟨-, h | h, -⟩ <;> exact Bool.noConfusion h)

theorem selects_the_only_one (s : State) (p m : Nat) (h : idx 256 (fun m => (candidate s p m).isSome) = [m]) : selectFlow s p = some m := by
  unfold selectFlow
  rw [h]
  by_cases k : (decide (0 < flowW s m) && decide ((s.flow m).guaranteed ≤ s.time.dev)) = true <;> simp [k]

theorem one_in_256 (q : Nat → Bool) (h : q 9 = true) (k : ∀ m, m ≠ 9 → m < 256 → q m = false) : idx 256 q = [9] := by
  have : idx 256 q = idx 256 (fun m => m == 9) := by
    refine List.filter_congr fun m hm => ?_
    by_cases e : m = 9
    · rw [e, h]; rfl
    · rw [k m e (List.mem_range.mp hm)]; simp [e]
  rw [this]; decide

theorem test_a_flow_is_selected : selectFlow (flowing 0 256 id) 0 = some 9 :=
  selects_the_only_one _ _ _ (one_in_256 _ (by decide +kernel) fun m h hm => by rw [only_candidate m h hm]; rfl)

def sending (p : Nat) (up : Bool) : State :=
  { flowing p 256 id with ports := tmod (flowing p 256 id).ports p fun y => { y with up := up, sending := some { (default : Staged) with flow := 9, counter := 4 } } }

theorem test_sending_hypotheses_are_met : (∀ p ∈ [0, 1, 2], ∀ u ∈ [true, false],
    (tget (sending p u).ports p).sending = some { (default : Staged) with flow := 9, counter := 4 } ∧ (tget (sending p u).ports p).up = u) ∧
    ((sending 2 true).fcfg 9).func = some 2 ∧ ((sending 2 true).flow 9).stopping = false ∧ (sending 2 true).clockRuns = true ∧
    ((sending 0 true).fcfg 9).route = 0 ∧ ((flowing 0 256 fun x => { x with wheel := 1 }).flow 9).wheel = 1 := by decide +kernel

theorem test_ring_and_port_hypotheses_are_met :
    (let it := { anItem with parts := none }
     let s := flowing 2 256 fun x => { x with items := [it] }
     (s.flow 9).items = it :: [] ∧ (s.fcfg 9).route = 2 ∧ (s.flow 9).active = true ∧ it.parts = none ∧ (s.flow 9).going = [] ∧ (s.flow 9).pollAt = none) ∧
    (∀ w ∈ [0, 256], let s := flowing 3 w id; (s.fcfg 9).route = 3 ∧ (s.fcfg 9).port < 4 ∧ (s.flow 9).items.find? (fun i => !i.due) = some anItem ∧
      (s.fcfg 9).weight = w ∧ (tget s.tx 1).busy = none ∧ (tget s.tx 1).queue = []) ∧
    (let s := { flowing 3 256 (fun x => { x with going := [anItem] }) with tx := tset (ticking 0).tx 1 { (tget (ticking 0).tx 1) with busy := some 9 } }
     (tget s.tx 1).busy = some 9 ∧ (tget s.tx 1).queue = [] ∧ (s.flow 9).going = [anItem] ∧ (s.flow 9).stopping = false) ∧
    (ticking 0).time.tickRun = true ∧ 0 < (ticking 0).time.passed ∧ 9 < (ticking 0).nFlow := by decide +kernel

theorem test_refresh_hypotheses_are_met : 1 < (fitted (ready 0)).nDmc ∧ ((fitted (ready 0)).dmcN 1).trained = true ∧
    ((fitted (ready 0)).dmcN 1).selfRef = false ∧ 31 / 32 * 32 + 32 ≤ ((fitted (ready 0)).dmcN 1).size ∧
    (∀ n, n < 9 → (tget ((modDmc 1 (fun d => { d with chans := tmod d.chans 7 fun y => { y with debt := n } }) (fitted (ready 0))).dmcN 1).chans 7).debt = n) ∧
    ((modDmc 1 (fun d => { d with entering := true }) (fitted (ready 0))).dmcN 1).entering = true ∧
    ((modDmc 1 (fun d => { d with leaving := true }) (fitted (ready 0))).dmcN 1).leaving = true := by decide +kernel

/-- R402. The debt does not pass 8. -/
theorem test_debt_stops_at_eight :
    let s := modDmc 1 (fun d => { d with chans := tmod d.chans 7 fun y => { y with debt := 8 } }) (fitted (ready 0))
    (tget ((after (.refreshDue 1 7) s).dmcN 1).chans 7).debt = 8 ∧ (tget ((after (.refreshForced 1 7) s).dmcN 1).chans 7).debt = 7 := by decide +kernel

/-- Chunks of the processor and of a camera port. -/
def chunk (m : Master) (a : Nat) (k : ChunkKind) : Chunk := ⟨m, a, k, [], [], .other, 0⟩
def drainable : State := modDmc 0 (fun d => { d with wbuf := [default] }) (fitted (ready 0))

theorem test_chunk_hypotheses_are_met : (0 < (fitted (ready 0)).nDmc ∧
    ∀ c ∈ [chunk (.ingress 0) 512 (.write (List.replicate 256 3)), chunk .firmware 60 (.write [1, 2, 3, 4]), chunk .firmware 5 (.read 1), chunk .firmware 0 .drain],
      chunkGood c = true ∧ c.addr + chunkLen c ≤ ((fitted (ready 0)).dmcN 0).size ∧ c.findings = [] ∧ c.badLines = []) ∧
    isRealTime (.ingress 0) = true ∧ isRealTime .firmware = false ∧ 60 % 64 + 4 ≤ 64 ∧ ((fitted (ready 0)).dmcN 0).wbuf.length < 64 ∧
    inSealed ((fitted (ready 0)).dmcN 0) 60 = false ∧ ((fitted (ready 0)).dmcN 0).poison = [] ∧ ((fitted (ready 0)).dmcN 0).entering = false ∧
    ((fitted (ready 0)).dmcN 0).leaving = false ∧ (ready 0).tarn.tampered = false ∧ ((drainable.dmcN 0).wbuf = default :: []) := by decide +kernel

/-- A line of a sealed region, and a read that finds it corrupted. -/
theorem test_sealed_chunk_hypotheses_are_met :
    let s := modDmc 0 (fun d => { d with sealed_ := [(1024, 4096)] }) (fitted (ready 0))
    let w := chunk .firmware 1024 (.write (List.replicate 64 3))
    let r : Chunk := { chunk .firmware 1024 (.read 64) with badLines := [1024] }
    (0 < s.nDmc ∧ (s.dmcN 0).selfRef = false ∧ inSealed (s.dmcN 0) 1024 = true ∧ inSealed (s.dmcN 0) 1023 = false ∧
      inSealed (s.dmcN 0) 5119 = true ∧ inSealed (s.dmcN 0) 5120 = false ∧ 1024 + 64 ≤ (s.dmcN 0).size) ∧
    (chunkGood w = true ∧ isRealTime w.master = false ∧ w.findings = []) ∧
    (chunkGood r = true ∧ r.owner = .other ∧ r.findings = [] ∧ tagBad s 0 r 1024 = true) ∧
    memoryCanonical s := by
  refine ⟨by decide +kernel, by decide +kernel, by decide +kernel, canonical_of_two _ (by decide +kernel) (by decide +kernel)⟩

/-- R404, R412. A buffered write is seen by the next read; the array has it once drained. -/
theorem test_a_buffered_write_is_forwarded :
    let t := after (.chunkServiceDone 0 (chunk .firmware 60 (.write [1, 2, 3, 4]))) (fitted (ready 0))
    seenByte (t.dmcN 0) 61 = 2 ∧ memGet (t.dmcN 0).memory 61 = 0 ∧
      memGet ((after (.chunkServiceDone 0 (chunk .firmware 0 .drain)) t).dmcN 0).memory 61 = 2 := by decide +kernel
/-! ### Witnesses: requests that are served -/

/-- Channel 3 bound, attached, paired and with a coded window; flow 9 to the host's ring; decode stream 7 open; every unit fitted; sessions of a role. -/
def rich (role : Nat) : State :=
  let s0 : State := fitted (ticking role)
  let s : State := { s0 with dmc := s0.dmc.map fun (d : Dmc) => { d with pool := 4000000000, rate := 6400 } }
  let hook : Routine := ⟨0x3800, 1, 0, 0, 0, 0, false⟩
  { s with
    chans := tmod s.chans 3 fun x => { x with
      cfg := { x.cfg with
        bind := some (rawBind 64), rate := some ⟨1, 0, 0, false, 1000⟩, attach := some ⟨4, 0x20, 0x21, false⟩, allowUnpaired := true
        windows := tset x.cfg.windows 1 (some { (default : Window) with format := 0x10, cropW := 64, cropH := 64, outW := 64, outH := 64 })
        streams := x.cfg.streams.map fun y => { y with hrd := some ⟨true, 64000, 64000, 45000⟩ } }
      head := { x.head with state := .paired, pairing := some ⟨[1], [2]⟩ } }
    flowCfg := tmod s.flowCfg 9 fun y => { y with func := some 0, route := 2, src := .decoded, ring := some (4096, 8) }
    dec := tmod s.dec 7 fun d => { d with isOpen := true, div := 1, width := 64, height := 64, codec := 1, level := 93, bitRate := 100 }
    tarn := { s.tarn with pool := List.replicate 40 1, nodes := s.tarn.nodes.map fun n => { n with state := .valid } }
    cls := s.cls.map fun k => { k with openIn := true, routines := [hook] }
    power := { s.power with domains := s.power.domains.map fun d => { d with on := true } } }

/-- A request with selectors. -/
def ask (o : Op) (c f : Nat) (pay : List Byte) : Request :=
  let q := req o pay
  { q with csel := BitVec.ofNat 8 c, fsel := BitVec.ofNat 16 f }

/-- A role that may issue it. -/
def roleFor (o : Op) : Nat := if o.info.roles % 2 = 1 then 0 else if o.info.roles / 4 % 2 = 1 then 2 else if o.info.roles / 2 % 2 = 1 then 1 else 3

/-- Commands with selectors and payloads that are served; each case beside the next is another form. -/
def asked : List (Op × Nat × Nat × List Byte) := [
  (.sysNop, 0, 0, []), (.sysCaps, 0, 0, []), (.sysGroupGet, 0, 0, []), (.chanQuery, 3, 0, []), (.encQuery, 3, 0, []), (.decQuery, 0, 0, []),
  (.flowStats, 0, 9, []), (.memMapQuery, 0, 0, []), (.memPoolQuery, 0, 0, []), (.memErrQuery, 0, 0, []), (.tarnIdGet, 0, 0, []),
  (.tarnNodeQuery, 0, 0, []), (.roleCounterGet, 0, 0, []), (.seqQuery, 0, 0, []), (.pwrQuery, 0, 0, []), (.headLifeQuery, 3, 0, []),
  (.calQuery, 3, 0, []), (.timeLedgerQuery, 0, 0, []), (.sysGroupSet, 0, 0, [5, 0, 0, 0, 8]), (.sysFgroupSet, 0, 0, [5]),
  (.encEgoUpdate, 0, 0, zeros 8 ++ le 8 1070000000), (.roleClose, 0, 0, []), (.timeGptpConfig, 0, 0, [248]), (.timePpsConfig, 0, 0, [1]),
  (.flowAttach, 0, 9, [0]), (.flowAttach, 0, 8, [0xFF]), (.sysReset, 0, 0, [0x52, 0x53, 0x59, 0x53]), (.tarnRandom, 0, 0, [32]), (.roleChallenge, 0, 0, [2, 1]),
  (.pwrDvfsSet, 0, 0, [2, 0, 0x20, 0x03])]

def askedDeferred : List (Op × Nat × Nat × List Byte) := [
  (.flowTemplateSet, 0, 9, le 8 64 ++ le 4 128), (.tarnVerify, 0, 0, le 8 64 ++ le 4 160), (.seqImageLoad, 0, 0, le 8 64 ++ le 4 148),
  (.seqPatchApply, 0, 0, le 8 64 ++ le 4 152), (.roleUpdate, 0, 0, le 8 64 ++ le 4 128), (.chanLutLoad, 3, 0, [3, 0, 0, 0] ++ le 8 64 ++ le 4 32),
  (.decFeed, 0, 0, [7]), (.decFeed, 0, 0, [7, 0, 0, 0] ++ le 8 64 ++ le 4 9), (.roleOpen, 0, 0, [2, 1, 0, 0] ++ le 8 64 ++ le 4 64),
  (.tarnSign, 0, 0, [8] ++ zeros 27 ++ [1]), (.tarnSign, 0, 0, [8, 0, 0, 0] ++ le 8 64 ++ le 4 32 ++ le 8 64 ++ le 4 64 ++ [1]),
  (.tarnSign, 0, 0, [8, 0, 0, 0] ++ zeros 12 ++ le 8 64 ++ le 4 64 ++ [1]), (.roleAuditRead, 0, 0, zeros 4 ++ le 8 64 ++ le 4 64),
  (.tarnPubkeyGet, 0, 0, []), (.tarnPubkeyGet, 0, 0, le 8 64 ++ le 4 2456), (.sysConfigSave, 0, 0, []), (.headPair, 3, 0, [0, 0, 1]),
  (.headIdGet, 3, 0, []), (.headIdGet, 3, 0, le 8 64 ++ le 4 328), (.headI3cXfer, 3, 0, [0x21, 1])]

def askedNext : List (Op × Nat × Nat × List Byte) := [
  (.chanPortSet, 0, 0, [2, 0, 1, 0] ++ le 2 1000), (.chanBind, 3, 0, [2, 1, 0x2B, 0, 64, 0, 64, 0]), (.chanStart, 3, 0, []), (.chanStop, 3, 0, []),
  (.chanSensorSet, 3, 0, [2]), (.chanPipeSet, 3, 0, []), (.chanWindowSet, 3, 0, [0, 0x10, 0, 0, 0, 0, 0, 0, 64, 0, 64, 0, 64, 0, 64, 0]),
  (.chanWindowClear, 3, 0, [1]), (.encStreamSet, 3, 0, [1, 1, 1, 93, 0, 1, 1, 0]), (.encHrdSet, 3, 0, [1, 0, 0, 0] ++ le 4 64000 ++ le 4 64000 ++ le 4 45000),
  (.encRateSet, 3, 0, [1, 0, 0, 0] ++ le 4 6400), (.encQpSet, 3, 0, [1]), (.encRefreshSet, 3, 0, [1]), (.encMotionSet, 3, 0, [1]),
  (.encLtrRecover, 3, 0, [1]), (.encForceIdr, 3, 0, []), (.decOpen, 0, 0, [8, 1, 93, 0, 64, 0, 64, 0, 1, 0, 0, 0, 100]), (.decOutputSet, 0, 0, [7]),
  (.decClose, 0, 0, [7]), (.flowRouteSet, 0, 9, []), (.flowRateSet, 0, 9, []), (.flowWeightSet, 0, 9, [1]), (.flowStart, 0, 9, []), (.flowStop, 0, 9, []),
  (.flowRingSet, 0, 9, le 8 4096 ++ le 4 64), (.flowCryptSet, 0, 8, [1]), (.seqHookSet, 3, 0, [0, 0, 0, 1]), (.headPolicySet, 3, 0, [0xFF]),
  (.headPolicySet, 3, 0, [4, 0x31, 0x21, 0]), (.timeChanRate, 3, 0, [2, 1]), (.calEnable, 3, 0, [15]), (.calPin, 3, 0, [3]), (.calUnpin, 3, 0, [3]),
  (.calReset, 3, 0, [3]), (.encGeometrySet, 3, 0, []), (.headUnpair, 3, 0, []), (.tarnNodeInvalidate, 0, 0, [81]), (.pwrDomainSet, 0, 0, [1, 2])]

def isServed (p : Op × Nat × Nat × List Byte) (s : State) : Bool := served p.1 0 (ask p.1 p.2.1 p.2.2.1 p.2.2.2) s
def isAdmitted (p : Op × Nat × Nat × List Byte) (s : State) : Bool := (admission (atMailbox 0 s) (ctxOf p.1 0 (ask p.1 p.2.1 p.2.2.1 p.2.2.2) s)).isSome

theorem test_requests_are_served : ∀ p ∈ asked, isServed p (rich (roleFor p.1)) = true := by decide +kernel

theorem test_deferred_requests_are_served : ∀ p ∈ askedDeferred, isServed p (rich (roleFor p.1)) = true := by decide +kernel

/-- Served and admitted, one tick ahead, and the log has room for what an audited one writes. -/
def isPassed (p : Op × Nat × Nat × List Byte) : Bool :=
  isServed p (rich (roleFor p.1)) && isAdmitted p (rich (roleFor p.1)) && auditGuard (rich (roleFor p.1))

theorem test_channel_requests_pass : ∀ p ∈ askedNext.take 9, isPassed p = true := by decide +kernel

theorem test_an_hrd_set_passes : ∀ p ∈ (askedNext.drop 9).take 1, isPassed p = true := by decide +kernel

theorem test_a_rate_set_passes : ∀ p ∈ (askedNext.drop 10).take 1, isPassed p = true := by decide +kernel

theorem test_stream_and_decode_requests_pass : ∀ p ∈ (askedNext.drop 11).take 9, isPassed p = true := by decide +kernel

theorem test_flow_rate_and_weight_sets_pass : ∀ p ∈ (askedNext.drop 20).take 2, isPassed p = true := by decide +kernel

theorem test_a_flow_start_passes : ∀ p ∈ (askedNext.drop 22).take 1, isPassed p = true := by decide +kernel

theorem test_flow_and_head_requests_pass : ∀ p ∈ (askedNext.drop 23).take 7, isPassed p = true := by decide +kernel

theorem test_audited_requests_pass : ∀ p ∈ askedNext.drop 30, isPassed p = true := by decide +kernel

theorem test_they_are_one_tick_ahead : ∀ r ∈ [0, 1, 2, 3], (rich r).clockRuns = true ∧ (rich r).time.tickRun = true ∧
    (rich r).time.dev + 1000000 ≤ (rich r).time.boundary (rich r).time.passed ∧ (rich r).exec = [] := by decide +kernel

/-- Without memory to book, the same command is turned away. -/
def starved : State := { rich 2 with dmc := (rich 2).dmc.map fun d => { d with pool := 0 } }

theorem test_a_command_without_memory_is_not_admitted : isServed (.chanStop, 3, 0, []) starved = true ∧
    isAdmitted (.chanStop, 3, 0, []) starved = false := by decide +kernel

/-- Time: what is served while nothing runs, with 1PPS_IN enabled. -/
def pulsed (role : Nat) : State := timed (fun t => { t with ppsEn := true }) (ticking role)

theorem test_time_requests_are_served : isAdmitted (.timeTickSet, 0, 0, le 4 40000000) (ticking 2) = true ∧ isServed (.timeTickSet, 0, 0, le 4 40000000) (ticking 2) = true ∧
    isServed (.timeSetBase, 0, 0, [0, 0, 1]) (ticking 2) = true ∧
    isServed (.timeSetBase, 0, 0, [0, 0, 1, 0, 0, 0, 0, 0, 1]) (pulsed 2) = true ∧ auditGuard (ticking 2) = true ∧ (ticking 2).enrolled = true ∧
    (ticking 2).roles.nextSeq + 32 ≤ 2 ^ 32 ∧ (ticking 2).time.tickRun = true := by decide +kernel

theorem test_other_forms_are_served : isServed (.memPoolQuery, 0, 0, [1]) (ticking 2) = true ∧ ((ticking 2).dmcN 1).fitted = false ∧
    isServed (.memErrQuery, 0, 0, [1]) (ticking 2) = true ∧ isServed (.pwrDvfsSet, 0, 0, [2]) (modDomain 2 (fun d => { d with on := false }) (ticking 2)) = true ∧
    ((rich 2).domain 2).on = true ∧ 32 ≤ (rich 2).tarn.pool.length ∧ (ticking 2).tarn.pool.length < 32 ∧ isServed (.tarnRandom, 0, 0, [32]) (ticking 2) = true ∧
    isServed (.roleChallenge, 0, 0, [2, 1]) (ticking 0) = true ∧ isServed (.tarnSign, 0, 0, [8, 0, 0, 0] ++ zeros 12 ++ le 8 64 ++ le 4 64 ++ [1])
      { rich 2 with tarn := { (rich 2).tarn with pool := [] } } = true := by decide +kernel

theorem test_self_refresh_is_served : let s := fitted (ticking 2)
    isServed (.pwrSelfRefresh, 0, 0, [3]) s = true ∧ isServed (.pwrSelfRefresh, 0, 0, [3, 1]) s = true ∧ (s.dmcN 0).selfRef = false := by decide +kernel

/-- R102. The other side of the command: the answer to a query, with its payload. -/
theorem test_a_query_is_answered :
    ((after (.sysGroupGet 0 (ask .sysGroupGet 0 0 [0, 5])) { ticking 2 with groups := tset (ticking 2).groups 5 9 }).fn 0).rspQ.map
      (fun r => (r.status, r.payload)) = [(0, [5, 0, 2, 0, 9] ++ zeros 31)] := by decide +kernel

/-! ### Witnesses: what waits ends -/

/-- Function 2's request waits, from a state of the mailbox it came by. -/
def holding (o : Op) (pay : List Byte) (w : Wait) (s : State) : State := { s with exec := [inExec o pay w] }

theorem test_dma_waits_hypotheses_are_met :
    (∀ o ∈ [Op.tarnVerify, .decFeed, .roleOpen, .seqImageLoad, .chanLutLoad, .flowTemplateSet, .roleUpdate],
      dmaWaits (holding o [7] (.dma 64 16388) (ticking 2)) 2 7 = some (inExec o [7] (.dma 64 16388)) ∧ (inExec o [7] (.dma 64 16388)).dead = false) ∧
    ((rich 2).decS 7).isOpen = true ∧ auditGuard (ticking 2) = true ∧ ((ticking 2).fn 2).opening = [] ∧
    findExec (holding .headIdGet [] (.dmaOut 64 [1] []) (ticking 2)) 2 7 Wait.isDma = some (inExec .headIdGet [] (.dmaOut 64 [1] [])) ∧
    Op.ofCode (inExec .headIdGet [] (.dmaOut 64 [1] [])).entry.opcode.toNat = some .headIdGet ∧
    findExec (holding .headI3cXfer [] (.bus 3) (ticking 2)) 2 7 (fun w => !w.isDma && w != .tick) = some (inExec .headI3cXfer [] (.bus 3)) ∧
    (entryDeadline (inExec .headI3cXfer [] (.bus 3))).isSome = true ∧ (ticking 2).time.refclk = true := by decide +kernel

/-- An image of one word of open microcode, a table, and a template of IPv4. -/
def anImage : List Byte := [0x53, 0x56, 0x4E, 0x4B, 1, 0, 1, 0, 0, 0, 0, 0, 0, 0x38, 1, 0] ++ zeros 132
def aTemplate : List Byte :=
  [1, 0, 0, 5, 54] ++ zeros 11 ++ zeros 12 ++ [8, 0, 0x45] ++ zeros 8 ++ [17] ++ zeros 10 ++ zeros 8 ++ [0x80, 0x60]
def aTable : Request := ask .chanLutLoad 3 0 ([3, 0, 0, 0] ++ le 8 64 ++ le 4 32)

/-- A patch of one word of open microcode. -/
def aPatch : List Byte := [0x53, 0x56, 0x50, 0x48, 1, 0, 1, 0, 0, 0, 0, 0, 1, 0, 1, 0] ++ zeros 16 ++ [0x00, 0x38] ++ zeros 118

theorem test_image_hypotheses_are_met :
    let s := rich (roleFor .seqImageLoad)
    let q := ask .seqImageLoad 0 0 (le 8 64 ++ le 4 148)
    let p := ask .seqPatchApply 0 0 (le 8 64 ++ le 4 152)
    let y := readEntry .seqPatchApply 0 p 64 152 aPatch s
    (served .seqImageLoad 0 q s = true ∧ auditGuard s = true ∧ q.bit 28 0 = false ∧ (q.dma 16).2 = imageLen (fit 148 anImage) ∧
      imageGood (fit 148 anImage) = true ∧
      loadState ((readEntry .seqImageLoad 0 q 64 148 anImage s).ctx .seqImageLoad) (readState .seqImageLoad 0 q 64 148 anImage s) = none) ∧
    (served .seqPatchApply 0 p s = true ∧ p.bit 28 0 = false ∧ (p.dma 16).2 = patchLen (fit 152 aPatch) ∧ patchGood s (fit 152 aPatch) = true ∧
      loadState (y.ctx .seqPatchApply) (readState .seqPatchApply 0 p 64 152 aPatch s) = none ∧
      (admission (readState .seqPatchApply 0 p 64 152 aPatch s) (y.ctx .seqPatchApply)).isSome = true) := by decide +kernel

theorem test_template_hypotheses_are_met :
    let s := rich (roleFor .flowTemplateSet)
    let q := ask .flowTemplateSet 0 9 (le 8 64 ++ le 4 128)
    let y := readEntry .flowTemplateSet 0 q 64 128 aTemplate s
    served .flowTemplateSet 0 q s = true ∧ tmplGood (fit 128 aTemplate) = true ∧ y.members = [9] ∧ flowOn s 9 = false ∧
      (admission (readState .flowTemplateSet 0 q 64 128 aTemplate s) (y.ctx .flowTemplateSet)).isSome = true := by decide +kernel

/-- A table of colours is good as it is; one of defects is read on once its count is known. -/
theorem test_table_hypotheses_are_met_from_the_command :
    let s := rich (roleFor .chanLutLoad)
    let q := ask .chanLutLoad 3 0 ([3, 0, 0, 0] ++ le 8 64 ++ le 4 32)
    let y := readEntry .chanLutLoad 0 q 64 32 [] s
    let s1 := readState .chanLutLoad 0 q 64 32 [] s
    (lutResume (y.ctx .chanLutLoad) 32 s1 = (.wait .tick, s1) ∧ dataCheck (y.ctx .chanLutLoad) (.wait .tick, s1) = (.wait .tick, s1)) ∧
      served .chanLutLoad 0 q s = true ∧ (admission s1 (y.ctx .chanLutLoad)).isSome = true ∧
      (let q2 := ask .chanLutLoad 3 0 ([2, 0, 0, 0] ++ le 8 64 ++ le 4 8)
       served .chanLutLoad 0 q2 s = true ∧ field (readEntry .chanLutLoad 0 q2 64 4 [1] s).data 0 4 = 1 ∧ 4 + 4 * 1 ≤ (q2.dma 20).2) := by
  intro s q y s1
  refine ⟨⟨?_, ?_⟩, by decide +kernel, by decide +kernel, by decide +kernel⟩
  · unfold lutResume lutRead
    simp only
    rw [if_neg (by decide +kernel), if_neg (by decide +kernel), if_neg (by decide +kernel), if_neg (by decide +kernel)]
  · unfold dataCheck
    simp only
    rw [show memberAnswer _ _ _ = none from by decide +kernel]

/-- Enrolled, with a challenge issued to function 0 for operator slot 1 and its credential; with an update message that installs one. -/
def challenged : State :=
  let s := modFn 0 (fun x => { x with challenge := some ⟨1, 1, [5], 1000000000⟩ }) (rich 0)
  { s with roles := { s.roles with operator := tset s.roles.operator 1 (some [9]) } }

def anUpdate : List Byte := [0x43, 0x4D, 0x55, 0x50, 1, 0x12, 2, 0, 1, 0, 0, 0, 0, 0, 0, 0] ++ zeros 32 ++ [1, 0, 0, 0, 64] ++ zeros 139

theorem test_role_hypotheses_are_met :
    let q := ask .roleOpen 0 0 ([1, 1, 0, 0] ++ le 8 64 ++ le 4 64)
    (served .roleOpen 0 q challenged = true ∧ auditGuard challenged = true ∧ challenged.tarn.tampered = false ∧
      (challenged.fn 0).challenge = some ⟨1, 1, [5], 1000000000⟩ ∧ q.u 16 1 = 1 ∧ q.u 17 1 = 1 ∧
      challenged.time.elapsed < 1000000000 + 5000000000 ∧ credential challenged 1 1 = some [9]) ∧
    (let u := ask .roleUpdate 0 0 (le 8 64 ++ le 4 192)
     let s := rich (roleFor .roleUpdate)
     served .roleUpdate 0 u s = true ∧ s.boot.queue = [] ∧ (u.dma 16).2 = 128 + (Update.ofBytes (fit 192 anUpdate)).bodyLen) := by decide +kernel

theorem test_bus_and_controller_hypotheses_are_met :
    (let s := rich (roleFor .headI3cXfer)
     let q := ask .headI3cXfer 3 0 [0x21, 1]
     served .headI3cXfer 0 q s = true ∧ (ctxOf .headI3cXfer 0 q s).members = [3] ∧ (s.chan 3).cfg.attach = some ⟨4, 0x20, 0x21, false⟩ ∧
       tget s.buses 4 = [] ∧ mayStart s .host = true) ∧
    (∀ w ∈ [0, 1], let s := modDmc 1 (fun d => { d with selfRef := w == 1 }) (fitted (ticking 2))
     let q := ask .pwrSelfRefresh 0 0 [2, BitVec.ofNat 8 w]
     served .pwrSelfRefresh 0 q s = true ∧ 1 < s.nDmc ∧ ((srMask q).filter fun d => (s.dmcN d).selfRef != (q.u 17 1 == 0)) = [1] ∧
       (s.dmcN 1).entering = false ∧ (s.dmcN 1).leaving = false ∧ s.exec = []) ∧
    (let s := rich (roleFor .roleAuditRead)
     let t : State := { s with roles := { s.roles with audit := [zeros 64], nextSeq := 1 } }
     served .roleAuditRead 0 (ask .roleAuditRead 0 0 (zeros 4 ++ le 8 64 ++ le 4 64)) t = true ∧ oldestSeq t = 0) ∧
    (let p : PairPending := { (default : PairPending) with ready := true }
     let s := camera fun x => { x with head := { x.head with pairPending := some p } }
     (s.chan 3).head.pairPending = some p ∧ p.same = false ∧ (s.chan 3).head.changeAt = none ∧ s.power.watchdog = false ∧ s.exec = []) := by
  decide +kernel

theorem test_data_hypotheses_are_met : imageLen anImage = 148 ∧ imageGood anImage = true ∧ field anImage 5 1 < 2 ∧
    (ask .seqImageLoad 0 0 (le 8 64 ++ le 4 148)).dma 16 = (64, 148) ∧ (ask .seqImageLoad 0 0 (le 8 64 ++ le 4 148)).bit 28 0 = false ∧
    loadState ((inExec .seqImageLoad (le 8 64 ++ le 4 148) (.dma 64 148)).ctx .seqImageLoad) (ticking 3) = none ∧
    tmplGood (fit 128 aTemplate) = true ∧ flowOn (ticking 2) 3 = false := by decide +kernel

theorem test_table_hypotheses_are_met :
    let x := inExec .chanLutLoad ([3, 0, 0, 0] ++ le 8 64 ++ le 4 32) (.dma 64 32)
    let s := { camera id with exec := [x] }
    lutResume (x.ctx .chanLutLoad) 32 s = (.wait .tick, s) ∧ dataCheck (x.ctx .chanLutLoad) (.wait .tick, s) = (.wait .tick, s) ∧
      (admission s (x.ctx .chanLutLoad)).isSome = true := by
  intro x s
  refine ⟨?_, ?_, by decide +kernel⟩
  · unfold lutResume lutRead
    simp only
    rw [if_neg (by decide +kernel), if_neg (by decide +kernel), if_neg (by decide +kernel), if_neg (by decide +kernel)]
  · unfold dataCheck
    simp only
    rw [show memberAnswer _ _ _ = none from by decide +kernel]

theorem test_flash_hypotheses_are_met :
    let x := { inExec .roleUpdate [] .flash with data := [0, 0, 0, 0, 1, 0x12] }
    let s := { ticking 2 with exec := [x], boot := { (ticking 2).boot with queue := [⟨.credential, some (2, 7)⟩] } }
    flashWaiter ⟨.credential, some (2, 7)⟩ s = some x ∧ (Update.ofBytes x.data).kind = 0x12 ∧ (Update.ofBytes x.data).target < 16 ∧
    (let y := inExec .sysConfigSave [] .flash
     flashWaiter ⟨.config default, some (2, 7)⟩ { ticking 2 with exec := [y] } = some y ∧ Op.ofCode y.entry.opcode.toNat = some .sysConfigSave) := by
  decide +kernel

/-! ### Witnesses: Tarn, power, bring-up -/

theorem test_tarn_hypotheses_are_met : (ready 0).boot.inReset = false ∧ State.reset.tarn.trng = .restarting ∧
    (let s := { ready 0 with tarn := { (ready 0).tarn with trng := .healthy } }
     s.tarn.trng ≠ .latched ∧ s.exec = [] ∧ ∀ c, c < 32 → curCheck s c = none) := by decide +kernel

/-- Domains powered, rails good. -/
def powered : State := { ticking 0 with power := { (ticking 0).power with
  domains := (ticking 0).power.domains.map fun d => { d with on := true }, rails := (ticking 0).power.rails.map fun r => { r with good := true } } }

theorem test_power_hypotheses_are_met : (∀ d ∈ [1, 2, 3, 4, 6], isAvs d = true ∧ railUp powered d = true) ∧ powered.power.tripped = false ∧
    powered.ready = true ∧ (∀ r, r < 6 → (powered.domain (railDomain r)).on = true ∧ (powered.rail r).lost = false) ∧ powered.power.watchdog = false ∧
    (∀ d, d < 7 → let s := modDomain d (fun x => { x with on := false, ramping := true }) powered
      (s.domain d).ramping = true ∧ (s.domain d).on = false) := by decide +kernel

/-- R516. A floor falls by 10 mV at most. -/
theorem test_a_floor_falls_slowly :
    let s := modDomain 2 (fun x => { x with floor := 800 }) powered
    ((after (.avsFloorUpdate 2 700) s).domain 2).floor = 790 ∧ ((after (.avsFloorUpdate 2 803) s).domain 2).floor = 805 := by decide +kernel

/-- A release that fails, one that does not, and the states between. -/
def puf (noise : Option (List Byte)) : PufRead := { (default : PufRead) with flashOk := true, noise := noise }
def boarded : State := { State.reset with boot := { State.reset.boot with board := some ⟨3, 0, 8, 6400, Vector.ofFn fun i => i.val, zeros 48, true⟩, bankGood := Vector.replicate 2 true } }
def booting (r : Nat) (tr ini : Bool) : State := { boarded with boot := { boarded.boot with inReset := false, released := true, railsUp := r, trained := tr, inited := ini } }

theorem test_bring_up_hypotheses_are_met : boarded.boot.inReset = true ∧ boarded.power.tripped = false ∧ releaseError (puf (some [])) boarded = none ∧
    releaseError (puf none) boarded = some 7 ∧ (∀ r, r < 7 → (booting r false false).boot.railsUp = r) ∧ (booting 6 true false).boot.fw = .boot ∧
    (booting 6 true true).boot.inited = true ∧ vendorFails (booting 6 true true) = false ∧
    vendorFails { booting 6 true true with boot := { (booting 6 true true).boot with images := [(0, true, { (default : Image) with good := false })] } } = true := by
  decide +kernel

/-- R537. The first rail that fails is BOOT_ERR 1. -/
theorem test_a_rail_that_fails : (after (.railPowerUp 2 false) (booting 2 false false)).boot.bootErr = 1 ∧
    (after (.railPowerUp 2 true) (booting 2 false false)).boot.railsUp = 3 ∧ (after (.railPowerUp 3 true) (booting 2 false false)).boot.railsUp = 2 := by
  decide +kernel
end Sys2Proof.Tests
end

section
/-!
PROOF. What a full reset leaves and what it keeps (O4).
-/
namespace Sys2Proof.Machine

/-! ### What a pairing that takes effect leaves as it is (R196, R529, R552) -/

/-- The commands that wait, the fuses, and what boot and the boot flash hold. -/
def outsidePairing (s : State) : List Instr × Fuses × Boot := (s.pending, s.fuses, s.boot)

@[simp] theorem outsidePairing_ite (c : Prop) [Decidable c] (s t : State) :
    outsidePairing (if c then s else t) = if c then outsidePairing s else outsidePairing t := apply_ite outsidePairing c s t

@[simp] theorem outsidePairing_modChan (c : Nat) (g : Chan → Chan) (s : State) : outsidePairing (modChan c g s) = outsidePairing s := rfl
@[simp] theorem outsidePairing_modTime (g : TimeBase → TimeBase) (s : State) : outsidePairing (modTime g s) = outsidePairing s := rfl
@[simp] theorem outsidePairing_modTarn (g : Tarn → Tarn) (s : State) : outsidePairing (modTarn g s) = outsidePairing s := rfl
@[simp] theorem outsidePairing_modRoles (g : Roles → Roles) (s : State) : outsidePairing (modRoles g s) = outsidePairing s := rfl
@[simp] theorem outsidePairing_raise (n bit : Nat) (s : State) : outsidePairing (raise n bit s) = outsidePairing s := by rw [raise_eq]; rfl

@[simp] theorem outsidePairing_audit (event role slot func time : Nat) (detail : List Byte) (s : State) :
    outsidePairing (audit event role slot func time detail s) = outsidePairing s := by simp [audit]

@[simp] theorem outsidePairing_auditDevice (event : Nat) (detail : List Byte) (s : State) :
    outsidePairing (auditDevice event detail s) = outsidePairing s := by simp [auditDevice, auditAt, clusterRead]

@[simp] theorem outsidePairing_restartEst (c : Nat) (l : List Nat) (s : State) : outsidePairing (restartEst c l s) = outsidePairing s :=
  forEach_same outsidePairing _ _ _ fun _ _ _ => rfl

@[simp] theorem outsidePairing_discardParam (c p : Nat) (s : State) : outsidePairing (discardParam c p s) = outsidePairing s := by
  simp [discardParam, bumpGen, modPipe]

@[simp] theorem outsidePairing_discardEstimates (c : Nat) (s : State) : outsidePairing (discardEstimates c s) = outsidePairing s := by
  simp [discardEstimates]

@[simp] theorem outsidePairing_freeHead (c : Nat) (s : State) : outsidePairing (freeHead c s) = outsidePairing s := by
  simp [freeHead, newGen]

@[simp] theorem outsidePairing_unpairEffects (c : Nat) (s : State) : outsidePairing (unpairEffects c s) = outsidePairing s := by
  simp [unpairEffects, discardReferences]

@[simp] theorem outsidePairing_computeKey (n : Nat) (s : State) : outsidePairing (computeKey n s) = outsidePairing s := by
  simp [computeKey, setKey]

@[simp] theorem outsidePairing_applyPairing (c : Nat) (s : State) : outsidePairing (applyPairing c s) = outsidePairing s := by
  unfold applyPairing
  split
  · rfl
  · simp

/-! ### Full reset -/

/-- R552. The state whose pairings that flash holds have taken effect: what a full reset keeps is kept of it. -/
def pairingsApplied (s : State) : State := forEach (List.range 32) applyPairing s

theorem outsidePairing_pairingsApplied (s : State) : outsidePairing (pairingsApplied s) = outsidePairing s :=
  forEach_same outsidePairing _ _ _ fun c _ t => outsidePairing_applyPairing c t

theorem applyPairing_of_none {c : Nat} {s : State} (h : (s.chan c).head.pairPending = none) : applyPairing c s = s := by
  unfold applyPairing
  rw [h]

/-- Where no pairing waits for its boundary, none takes effect. -/
theorem pairingsApplied_of_none {s : State} (h : ∀ c, c < 32 → (s.chan c).head.pairPending = none) : pairingsApplied s = s :=
  forEach_keeps (fun t => t = s) _ _ s rfl fun c hc t ht => by
    rw [ht]
    exact applyPairing_of_none (h c (List.mem_range.mp hc))

/-- R530, R551. Of the state that the reset leaves, its trigger changes only what has been emitted. -/
theorem beginReset_eq (t : ResetTrigger) (s : State) : ∃ l, beginReset t s = { resetState t s with out := l } := by
  unfold beginReset
  generalize resetState t s = u
  simp only
  split
  · exact ⟨_, rfl⟩
  · exact ⟨_, rfl⟩

section
variable (t : ResetTrigger) (s : State)

theorem pending_resetState : (resetState t s).pending = (pairingsApplied s).pending := by
  unfold resetState pairingsApplied
  generalize forEach _ applyPairing s = p
  rfl

theorem fuses_resetState : (resetState t s).fuses = (pairingsApplied s).fuses := by
  unfold resetState pairingsApplied
  generalize forEach _ applyPairing s = p
  rfl

/-- R529, R552. Firmware is in BOOT and held in reset with the cause of the trigger; the flash keeps what it holds. -/
theorem boot_resetState : (resetState t s).boot.fw = .boot ∧ (resetState t s).boot.inReset = true ∧
    (resetState t s).boot.cause = resetCause t ∧ (resetState t s).boot.helper = (pairingsApplied s).boot.helper ∧
    (resetState t s).boot.saved = (pairingsApplied s).boot.saved := by
  unfold resetState pairingsApplied
  generalize forEach _ applyPairing s = p
  exact ⟨rfl, rfl, rfl, rfl, rfl⟩

/-- R39, R64, R99, R419. Time is that of a reset, nothing executes, and the books are empty. -/
theorem books_resetState : (resetState t s).time = TimeBase.reset ∧ (resetState t s).exec = [] ∧ (resetState t s).bookings = [] ∧
    (resetState t s).buffers = [] := ⟨rfl, rfl, rfl, rfl⟩

theorem roles_resetState : (resetState t s).roles = { (pairingsApplied s).roles with candidate := none, auditLost := false } := by
  unfold resetState pairingsApplied
  generalize forEach _ applyPairing s = p
  rfl

theorem tarn_resetState : (resetState t s).tarn = keptTarn (!losesAon t) (pairingsApplied s).tarn := by
  unfold resetState pairingsApplied
  generalize forEach _ applyPairing s = p
  rfl

/-- R552. Of every key slot the record is kept, and the cell is empty. -/
theorem node_resetState {n : Nat} (hn : n < 512) :
    tget (resetState t s).tarn.nodes n = { tget (pairingsApplied s).tarn.nodes n with cell := [] } := by
  rw [tarn_resetState]
  exact tget_map _ _ hn

/-- R552. Every channel is that of a reset, with what a reset keeps of it. -/
theorem chan_resetState {c : Nat} (hc : c < 32) : (resetState t s).chan c = keptChan ((pairingsApplied s).chan c) := tget_map _ keptChan hc

theorem fn_resetState {f : Nat} (hf : f < 16) : (resetState t s).fn f = Fn.reset := by
  show tget (Vector.replicate 16 Fn.reset) f = Fn.reset
  exact tget_replicate _ hf

theorem flow_resetState {m : Nat} (hm : m < 256) : (resetState t s).flow m = default := by
  show tget (Vector.replicate 256 (default : FlowRun)) m = default
  exact tget_replicate _ hm

theorem decS_resetState {h : Nat} (hh : h < 32) : (resetState t s).decS h = default := by
  show tget (Vector.replicate 32 (default : DecStream)) h = default
  exact tget_replicate _ hh
end

/-- Settles O4: the reset leaves the reset state but for what it keeps, and it keeps that of the state in which the pairings that flash
holds have taken effect. -/
theorem fullResetKeepsOnlyWhatPersists : Obligations.FullResetKeepsOnlyWhatPersists := by
  unfold Obligations.FullResetKeepsOnlyWhatPersists
  intro t s ht
  have hexec : exec (.fullReset t) s = .next (beginReset t s) := by
    show Host.Outcome.next (if triggers t s then beginReset t s else s) = _
    rw [if_pos ht]
  obtain ⟨hpending, hfuses, hboot⟩ : (pairingsApplied s).pending = s.pending ∧ (pairingsApplied s).fuses = s.fuses ∧
      (pairingsApplied s).boot = s.boot := by simpa [outsidePairing] using outsidePairing_pairingsApplied s
  obtain ⟨l, hl⟩ := beginReset_eq t s
  obtain ⟨hfw, hin, hcause, hhelper, hsaved⟩ := boot_resetState t s
  obtain ⟨htime, hrun, hbookings, hbuffers⟩ := books_resetState t s
  have hp := pending_resetState t s
  have hf := fuses_resetState t s
  have hfn := @fn_resetState t s
  have hchan := @chan_resetState t s
  have hflow := @flow_resetState t s
  have hdec := @decS_resetState t s
  have hnode := @node_resetState t s
  have htarn := tarn_resetState t s
  have hroles := roles_resetState t s
  generalize resetState t s = r at *
  refine ⟨_, hexec.trans (congrArg _ hl), hp.trans hpending, hf.trans hfuses, hfw, hin, hcause,
    hhelper.trans (congrArg Boot.helper hboot), hsaved.trans (congrArg Boot.saved hboot), htime, hrun, hbookings, hbuffers,
    fun f hf => (hfn hf).symm ▸ ⟨rfl, rfl, rfl, rfl, rfl⟩, fun c hc => (hchan hc).symm ▸ ⟨rfl, rfl⟩,
    fun m hm => congrArg FlowRun.active (hflow hm), fun h hh => congrArg DecStream.isOpen (hdec hh), fun n hn => congrArg Node.cell (hnode hn),
    fun hnone => ?_⟩
  rw [pairingsApplied_of_none hnone] at hnode hchan htarn hroles
  exact ⟨fun n hn => (congrArg Node.gen (hnode hn) :), fun c hc => congrArg (fun x => x.head.pairing) (hchan hc),
    (congrArg Tarn.gctr htarn :), (congrArg Roles.audit hroles :), (congrArg Roles.nextSeq hroles :)⟩

end Sys2Proof.Machine
end

section
/-!
PROOF. What every command keeps, and where one stops (O10). Of each operation of the model it is said once that it changes neither the
commands that wait nor the part, in the order of the model's files; the lemmas are simp lemmas, so that an operation made of others is
closed by theirs. From these follows, command by command, how it ends.
-/
namespace Sys2Proof.Machine

/-- R1, R6. The commands that wait behind the one that runs, and the part. -/
def lasting (s : State) : List Instr × Part := (s.pending, s.fuses.part)

@[simp] theorem lasting_ite (c : Prop) [Decidable c] (s t : State) :
    lasting (if c then s else t) = if c then lasting s else lasting t := apply_ite lasting c s t

@[simp] theorem lasting_snd_ite {α : Type} (c : Prop) [Decidable c] (r r' : α × State) :
    lasting (if c then r else r').2 = if c then lasting r.2 else lasting r'.2 := apply_ite (fun x => lasting x.2) c r r'

/-- An update of a state that takes over its queue and its fuses. -/
@[simp] theorem lasting_update (s : State) (boot time fns numVfs vfEnable irq exec lastServed resetAt groups fgroups rx chans buses ego egoTaken
    dec flowCfg flows ports lanes gts10 mps tx macOther dmc tarn roles cls seqs power bookings buffers meters out fresh) :
    lasting ⟨s.pending, s.fuses, boot, time, fns, numVfs, vfEnable, irq, exec, lastServed, resetAt, groups, fgroups, rx, chans, buses, ego,
      egoTaken, dec, flowCfg, flows, ports, lanes, gts10, mps, tx, macOther, dmc, tarn, roles, cls, seqs, power, bookings, buffers, meters,
      out, fresh⟩ = lasting s := rfl

@[simp] theorem lasting_forEach {α : Type} (l : List α) {g : α → State → State} (h : ∀ a t, lasting (g a t) = lasting t) (s : State) :
    lasting (forEach l g s) = lasting s := forEach_same lasting l g s fun a _ t => h a t

@[simp] theorem lasting_when (b : Bool) {g : State → State} (h : ∀ t, lasting (g t) = lasting t) (s : State) :
    lasting (when b g s) = lasting s := by simp [when, h]

/-! ### Tables, units and outputs -/

@[simp] theorem lasting_modFn (f : Nat) (g : Fn → Fn) (s : State) : lasting (modFn f g s) = lasting s := by simp [modFn]

@[simp] theorem lasting_modChan (c : Nat) (g : Chan → Chan) (s : State) : lasting (modChan c g s) = lasting s := by simp [modChan]

@[simp] theorem lasting_modCal (c : Nat) (g : Cal → Cal) (s : State) : lasting (modCal c g s) = lasting s := by simp [modCal]

@[simp] theorem lasting_modRx (p : Nat) (g : RxPort → RxPort) (s : State) : lasting (modRx p g s) = lasting s := by simp [modRx]

@[simp] theorem lasting_modFlow (m : Nat) (g : FlowRun → FlowRun) (s : State) : lasting (modFlow m g s) = lasting s := by simp [modFlow]

@[simp] theorem lasting_modFcfg (m : Nat) (g : FlowCfg → FlowCfg) (s : State) : lasting (modFcfg m g s) = lasting s := by simp [modFcfg]

@[simp] theorem lasting_modDec (h : Nat) (g : DecStream → DecStream) (s : State) : lasting (modDec h g s) = lasting s := by simp [modDec]

@[simp] theorem lasting_modDmc (d : Nat) (g : Dmc → Dmc) (s : State) : lasting (modDmc d g s) = lasting s := by simp [modDmc]

@[simp] theorem lasting_modPort (p : Nat) (g : Port → Port) (s : State) : lasting (modPort p g s) = lasting s := by simp [modPort]

@[simp] theorem lasting_modTx (p : Nat) (g : TxPort → TxPort) (s : State) : lasting (modTx p g s) = lasting s := by simp [modTx]

@[simp] theorem lasting_modSeq (q : Nat) (g : Seq → Seq) (s : State) : lasting (modSeq q g s) = lasting s := by simp [modSeq]

@[simp] theorem lasting_modCls (c : Nat) (g : SeqClass → SeqClass) (s : State) : lasting (modCls c g s) = lasting s := by simp [modCls]

@[simp] theorem lasting_modTime (g : TimeBase → TimeBase) (s : State) : lasting (modTime g s) = lasting s := by simp [modTime]

@[simp] theorem lasting_modBoot (g : Boot → Boot) (s : State) : lasting (modBoot g s) = lasting s := by simp [modBoot]

@[simp] theorem lasting_modTarn (g : Tarn → Tarn) (s : State) : lasting (modTarn g s) = lasting s := by simp [modTarn]

@[simp] theorem lasting_modRoles (g : Roles → Roles) (s : State) : lasting (modRoles g s) = lasting s := by simp [modRoles]

@[simp] theorem lasting_modPower (g : Power → Power) (s : State) : lasting (modPower g s) = lasting s := by simp [modPower]

@[simp] theorem lasting_emit (o : Output) (s : State) : lasting (emit o s) = lasting s := by simp [emit]

@[simp] theorem lasting_assertFaultN (why : Nat) (s : State) : lasting (assertFaultN why s) = lasting s := by simp [assertFaultN]

@[simp] theorem lasting_releaseFaultN (why : Nat) (s : State) : lasting (releaseFaultN why s) = lasting s := by simp [releaseFaultN]

@[simp] theorem lasting_advanceTo (at_ : Nat) (s : State) : lasting (advanceTo at_ s) = lasting s := by simp [advanceTo]

@[simp] theorem lasting_advanceElapsed (at_ : Nat) (s : State) : lasting (advanceElapsed at_ s) = lasting s := by simp [advanceElapsed]

@[simp] theorem lasting_startTick (s : State) : lasting (startTick s) = lasting s := by simp [startTick]

/-! ### Interrupts -/

@[simp] theorem lasting_modSrc (n : Nat) (g : Source → Source) (s : State) : lasting (modSrc n g s) = lasting s := by simp [modSrc]

@[simp] theorem lasting_modFwSrc (n : Nat) (g : Source → Source) (s : State) : lasting (modFwSrc n g s) = lasting s := by simp [modFwSrc]

@[simp] theorem lasting_modTgt (t : Nat) (g : Target → Target) (s : State) : lasting (modTgt t g s) = lasting s := by simp [modTgt]

@[simp] theorem lasting_sendMsix (f v : Nat) (s : State) : lasting (sendMsix f v s) = lasting s := by simp [sendMsix]

@[simp] theorem lasting_resignal (t : Nat) (s : State) : lasting (resignal t s) = lasting s := by simp [resignal]

@[simp] theorem lasting_raise (n bit : Nat) (s : State) : lasting (raise n bit s) = lasting s := by simp [raise]

@[simp] theorem lasting_reroute (n r : Nat) (s : State) : lasting (reroute n r s) = lasting s := by simp [reroute]

@[simp] theorem lasting_resetTarget (f : Nat) (s : State) : lasting (resetTarget f s) = lasting s := by simp [resetTarget]

@[simp] theorem lasting_raiseFrame (c : Nat) (s : State) : lasting (raiseFrame c s) = lasting s := lasting_raise _ _ s

@[simp] theorem lasting_raiseIngress (c bit : Nat) (s : State) : lasting (raiseIngress c bit s) = lasting s := lasting_raise _ _ s

@[simp] theorem lasting_raisePipe (c bit : Nat) (s : State) : lasting (raisePipe c bit s) = lasting s := lasting_raise _ _ s

@[simp] theorem lasting_raiseEncDone (c : Nat) (s : State) : lasting (raiseEncDone c s) = lasting s := lasting_raise _ _ s

@[simp] theorem lasting_raiseEnc (c bit : Nat) (s : State) : lasting (raiseEnc c bit s) = lasting s := lasting_raise _ _ s

@[simp] theorem lasting_raiseDec (h bit : Nat) (s : State) : lasting (raiseDec h bit s) = lasting s := lasting_raise _ _ s

@[simp] theorem lasting_raiseFlow (m : Nat) (s : State) : lasting (raiseFlow m s) = lasting s := lasting_raise _ _ s

/-! ### Responses and flash programs -/

@[simp] theorem lasting_post (f : Nat) (r : Response) (s : State) : lasting (post f r s) = lasting s := by simp [post]

@[simp] theorem lasting_postFinal (f : Nat) (e : Entry) (r : Response) (s : State) :
    lasting (postFinal f e r s) = lasting s := by simp [postFinal]

@[simp] theorem lasting_answer (f : Nat) (e : Entry) (st : Byte) (payload : List Byte) (s : State) :
    lasting (answer f e st payload s) = lasting s := by simp [answer]

@[simp] theorem lasting_finishAt (x : ExecEntry) (st : Byte) (tick : Long) (payload : List Byte) (s : State) :
    lasting (finishAt x st tick payload s) = lasting s := by simp [finishAt]

@[simp] theorem lasting_finish (x : ExecEntry) (st : Byte) (payload : List Byte) (s : State) :
    lasting (finish x st payload s) = lasting s := by simp [finish]

@[simp] theorem lasting_updExec (x y : ExecEntry) (s : State) : lasting (updExec x y s) = lasting s := by simp [updExec]

@[simp] theorem lasting_flashQueue (w : FlashWork) (waiter : Option (Nat × BitVec 16)) (s : State) :
    lasting (flashQueue w waiter s) = lasting s := by simp [flashQueue]

/-! ### Audit records and keys -/

@[simp] theorem lasting_setKey (n : Nat) (k : List Byte) (s : State) : lasting (setKey n k s) = lasting s := by simp [setKey]

@[simp] theorem lasting_computeKey (n : Nat) (s : State) : lasting (computeKey n s) = lasting s := by simp [computeKey]

@[simp] theorem lasting_newGen (n : Nat) (s : State) : lasting (newGen n s) = lasting s := by simp [newGen]

@[simp] theorem lasting_deriveNode (n : Nat) (s : State) : lasting (deriveNode n s) = lasting s := by simp [deriveNode]

@[simp] theorem lasting_renewPublic (s : State) : lasting (renewPublic s) = lasting s := by simp [renewPublic]

@[simp] theorem lasting_rederiveAll (l : List Nat) (s : State) : lasting (rederiveAll l s) = lasting s := by simp [rederiveAll]

@[simp] theorem lasting_headsNeedKey (cs : List Nat) (s : State) : lasting (headsNeedKey cs s) = lasting s := by simp [headsNeedKey]

@[simp] theorem lasting_rederiveDev (s : State) : lasting (rederiveDev s) = lasting s := by simp [rederiveDev]

/-- What is drawn leaves the pool and nothing else changes. -/
theorem lasting_takeEntropy {n : Nat} {s t : State} {d : List Byte} (h : takeEntropy n s = some (d, t)) : lasting t = lasting s := by
  unfold takeEntropy at h
  split at h
  · cases h; rfl
  · cases h

@[simp] theorem lasting_audit (event role slot func time : Nat) (detail : List Byte) (s : State) :
    lasting (audit event role slot func time detail s) = lasting s := by simp [audit]

@[simp] theorem lasting_clusterRead (s : State) : lasting (clusterRead s) = lasting s := by simp [clusterRead]

@[simp] theorem lasting_auditAt (event role slot func : Nat) (detail : List Byte) (s0 : State) :
    lasting (auditAt event role slot func detail s0) = lasting s0 := by simp [auditAt]

@[simp] theorem lasting_auditDevice (event : Nat) (detail : List Byte) (s : State) :
    lasting (auditDevice event detail s) = lasting s := by simp [auditDevice]

@[simp] theorem lasting_auditNow (c : Ctx) (event : Nat) (detail : List Byte) (s : State) :
    lasting (auditNow c event detail s) = lasting s := by simp [auditNow]

@[simp] theorem lasting_auditTick (c : Ctx) (event : Nat) (detail : List Byte) (s : State) :
    lasting (auditTick c event detail s) = lasting s := by simp [auditTick]

@[simp] theorem lasting_tickAudited (event : Nat) (detail : List Byte) (c : Ctx) (s : State) :
    lasting (tickAudited event detail c s).2 = lasting s := by simp [tickAudited]

/-! ### Calibration records -/

@[simp] theorem lasting_restartEst (c : Nat) (ps : List Nat) (s : State) : lasting (restartEst c ps s) = lasting s := by simp [restartEst]

@[simp] theorem lasting_bumpGen (c : Nat) (s : State) : lasting (bumpGen c s) = lasting s := by simp [bumpGen]

@[simp] theorem lasting_modPipe (c : Nat) (g : Pipe → Pipe) (s : State) : lasting (modPipe c g s) = lasting s := by simp [modPipe]

@[simp] theorem lasting_putEstimate (c : Nat) (v : CalValue) (s : State) : lasting (putEstimate c v s) = lasting s := by
  unfold putEstimate
  split <;> simp

@[simp] theorem lasting_discardParam (c p : Nat) (s : State) : lasting (discardParam c p s) = lasting s := by simp [discardParam]

@[simp] theorem lasting_saveEstimates (c : Nat) (s : State) : lasting (saveEstimates c s) = lasting s := by
  unfold saveEstimates
  split <;> simp

@[simp] theorem lasting_discardEstimates (c : Nat) (s : State) : lasting (discardEstimates c s) = lasting s := by simp [discardEstimates]

@[simp] theorem lasting_noteChanges (c : Nat) (old : ChanCfg) (s : State) :
    lasting (noteChanges c old s) = lasting s := by simp [noteChanges]

/-! ### Camera ingress -/

@[simp] theorem lasting_pulse (c b : Nat) (r : Rate) (s : State) : lasting (pulse c b r s) = lasting s := by simp [pulse]

theorem lasting_takeHeader {port : Nat} {ecc : HdrEcc} {s t : State} (h : takeHeader port ecc s = some t) : lasting t = lasting s := by
  unfold takeHeader at h
  split at h
  · cases h
  · cases ecc <;> cases h <;> rfl

@[simp] theorem lasting_countUncorr (port : Nat) (ecc : HdrEcc) (s : State) :
    lasting (countUncorr port ecc s) = lasting s := by simp [countUncorr]

@[simp] theorem lasting_ignore (c : Nat) (s : State) : lasting (ignore c s) = lasting s := by simp [ignore]

@[simp] theorem lasting_modFrame (c counter : Nat) (g : Frame → Frame) (s : State) :
    lasting (modFrame c counter g s) = lasting s := by simp [modFrame]

@[simp] theorem lasting_frameStart (c port vc : Nat) (s : State) : lasting (frameStart c port vc s) = lasting s := by simp [frameStart]

@[simp] theorem lasting_onFrame (c port vc : Nat) {g : Frame → Bind → State → State} (h : ∀ f b t, lasting (g f b t) = lasting t) (s : State) :
    lasting (onFrame c port vc g s) = lasting s := by
  unfold onFrame
  split
  · exact h _ _ s
  · exact lasting_ignore c s
  · rfl

@[simp] theorem lasting_throughFifo (c port dt wc : Nat) (stored : Bool) (s : State) :
    lasting (throughFifo c port dt wc stored s).2 = lasting s := by simp [throughFifo]

@[simp] theorem lasting_keepPacket (c port dt wc counter : Nat) (store cut : Frame → Frame) (s : State) :
    lasting (keepPacket c port dt wc counter store cut s) = lasting s := by simp [keepPacket]

@[simp] theorem lasting_dropPacket (c port dt wc : Nat) (s : State) :
    lasting (dropPacket c port dt wc s) = lasting s := by simp [dropPacket]

@[simp] theorem lasting_imageLine (c : Nat) (b : Bind) (wc : Nat) (crcOk : Bool) (data : List Byte) (f : Frame) (s : State) :
    lasting (imageLine c b wc crcOk data f s) = lasting s := by simp [imageLine]

@[simp] theorem lasting_longPacket (c port dt wc : Nat) (crcOk : Bool) (data : List Byte) (f : Frame) (b : Bind) (s0 : State) :
    lasting (longPacket c port dt wc crcOk data f b s0) = lasting s0 := by simp [longPacket]

@[simp] theorem lasting_frameEnd (c : Nat) (f : Frame) (b : Bind) (s : State) : lasting (frameEnd c f b s) = lasting s := by simp [frameEnd]

@[simp] theorem lasting_onPacket (port vc : Nat) (ecc : HdrEcc) {g : Nat → State → State} (h : ∀ c t, lasting (g c t) = lasting t) (s : State) :
    lasting (onPacket port vc ecc g s) = lasting s := by
  unfold onPacket
  split
  · exact lasting_countUncorr port ecc s
  · next s1 hs =>
    rw [← lasting_takeHeader hs]
    split
    · rfl
    · exact h _ s1

@[simp] theorem lasting_takeLong (port vc dt wc : Nat) (crcOk : Bool) (data : List Byte) (s : State) :
    lasting (takeLong port vc dt wc crcOk data s) = lasting s := by
  unfold takeLong
  split
  · simp
  · split <;> simp

@[simp] theorem lasting_closeRecord (c : Nat) (f0 : Frame) (s : State) : lasting (closeRecord c f0 s) = lasting s := by simp [closeRecord]

@[simp] theorem lasting_stopChan (c : Nat) (s : State) : lasting (stopChan c s) = lasting s := by simp [stopChan]

@[simp] theorem lasting_busPush (c : Nat) (x : BusXfer) (s : State) : lasting (busPush c x s) = lasting s := by
  unfold busPush
  split <;> simp

@[simp] theorem lasting_sensorEffect (c : Ctx) (m : Nat) (s : State) : lasting (sensorEffect c m s) = lasting s := by simp [sensorEffect]

/-! ### The image pipeline -/

@[simp] theorem lasting_pipeSet (q : Request) (c : Nat) (s : State) : lasting (pipeSet q c s) = lasting s := by simp [pipeSet]

@[simp] theorem lasting_lutPut (kind : Nat) (bs : List Byte) (c : Nat) (s : State) :
    lasting (lutPut kind bs c s) = lasting s := by simp [lutPut]

@[simp] theorem lasting_lutRead (c : Ctx) (s : State) : lasting (lutRead c s).2 = lasting s := by
  simp [lutRead]

@[simp] theorem lasting_lutResume (c : Ctx) (n : Nat) (s : State) : lasting (lutResume c n s).2 = lasting s := by
  simp [lutResume]

/-! ### Self-calibration -/

@[simp] theorem lasting_calAccept (c : Nat) (f : Frame) (s : State) : lasting (calAccept c f s) = lasting s := by
  unfold calAccept
  split
  · rfl
  · refine (lasting_modCal _ _ _).trans (lasting_forEach _ (fun p t => ?_) s)
    split
    · split <;> simp
    · rfl

@[simp] theorem lasting_hold (c p : Nat) (v : CalValue) (g : Nat × Nat × Nat) (s : State) :
    lasting (hold c p v g s) = lasting s := by simp [hold]

@[simp] theorem lasting_insufficient (c p : Nat) (s : State) : lasting (insufficient c p s) = lasting s := by simp [insufficient]

@[simp] theorem lasting_completeEstimate (c p at_ : Nat) (s : State) :
    lasting (completeEstimate c p at_ s) = lasting s := by simp [completeEstimate]

@[simp] theorem lasting_runEstimates (c : Nat) (s : State) : lasting (runEstimates c s) = lasting s :=
  lasting_forEach _ (fun p t => by split <;> simp) s

@[simp] theorem lasting_applyEstimates (c k : Nat) (s : State) : lasting (applyEstimates c k s) = lasting s := by
  refine lasting_forEach _ (fun p t => ?_) s
  split
  · split
    · simp only
      split <;> simp
    · rfl
  · rfl

@[simp] theorem lasting_restoreEstimates (c : Nat) (s : State) : lasting (restoreEstimates c s) = lasting s := by
  unfold restoreEstimates
  simp only
  split
  · split
    · exact lasting_forEach _ (fun p t => by split <;> simp) s
    · rfl
  · rfl

@[simp] theorem lasting_calAudited (code : Nat) (c : Ctx) (s : State) : lasting (calAudited code c s).2 = lasting s := by simp [calAudited]

@[simp] theorem lasting_pinNow (mask c : Nat) (s : State) : lasting (pinNow mask c s) = lasting s :=
  lasting_forEach _ (fun p t => by split <;> simp) s

/-! ### Frame jobs -/

@[simp] theorem lasting_meterJob (k : JobKey) (cut : Bool) (s : State) : lasting (meterJob k cut s) = lasting s := by
  unfold meterJob
  split <;> simp

@[simp] theorem lasting_meterOverrun (k : JobKey) (s : State) : lasting (meterOverrun k s) = lasting s := by
  unfold meterOverrun
  split <;> simp

@[simp] theorem lasting_reportRoutine (k : JobKey) (routine : Nat) (e : RunEnd) {overrun : State → State}
    (h : ∀ t, lasting (overrun t) = lasting t) (s : State) : lasting (reportRoutine k routine e overrun s) = lasting s := by
  unfold reportRoutine
  cases e <;> simp [h]

@[simp] theorem lasting_countHook (k : JobKey) (h : Hooked) (s : State) : lasting (countHook k h s) = lasting s := by
  unfold countHook
  split <;> simp

@[simp] theorem lasting_rewriteRecord (c : Nat) (old new : Frame) (s : State) :
    lasting (rewriteRecord c old new s) = lasting s := by simp [rewriteRecord]

@[simp] theorem lasting_keepTone (c : Nat) (f : Frame) (lin : List Plane) (s : State) :
    lasting (keepTone c f lin s) = lasting s := by simp [keepTone]

@[simp] theorem lasting_pipeJobEnd (c : Nat) (s : State) : lasting (pipeJobEnd c s) = lasting s := by
  unfold pipeJobEnd
  simp only
  split
  · rfl
  · split
    · simp
    · split
      · simp
      · simp only [lasting_modChan, lasting_keepTone, lasting_rewriteRecord]
        split <;> simp

/-! ### Motion search -/

@[simp] theorem lasting_takeEgo (k : Nat) (s : State) : lasting (takeEgo k s) = lasting s := by simp [takeEgo]

/-! ### The decoder -/

@[simp] theorem lasting_repeatPicture (h : Nat) (error : Bool) (s : State) :
    lasting (repeatPicture h error s) = lasting s := by simp [repeatPicture]

@[simp] theorem lasting_decodeTick (h : Nat) (s : State) : lasting (decodeTick h s) = lasting s := by
  unfold decodeTick
  simp only
  split
  · rfl
  · split <;> simp

@[simp] theorem lasting_streamErrors (h n : Nat) (s : State) : lasting (streamErrors h n s) = lasting s := by simp [streamErrors]

@[simp] theorem lasting_decJobEnd (h : Nat) (r : DecResult) (s : State) : lasting (decJobEnd h r s) = lasting s := by
  unfold decJobEnd
  simp only
  split
  · rfl
  · simp

@[simp] theorem lasting_decJobLate (h : Nat) (s : State) : lasting (decJobLate h s) = lasting s := by
  unfold decJobLate
  split <;> simp

@[simp] theorem lasting_feed (h : Nat) (bytes : List Byte) (last : Bool) (s : State) :
    lasting (feed h bytes last s) = lasting s := by simp [feed]

/-! ### The encoder -/

@[simp] theorem lasting_putStream (c st : Nat) (n : StreamCfg) (s : State) : lasting (putStream c st n s) = lasting s := by simp [putStream]

@[simp] theorem lasting_putRate (c st r : Nat) (s : State) : lasting (putRate c st r s) = lasting s := by simp [putRate]

@[simp] theorem lasting_fixSeal (c st : Nat) (s : State) : lasting (fixSeal c st s) = lasting s := by simp [fixSeal]

@[simp] theorem lasting_startEncode (c : Nat) (s : State) : lasting (startEncode c s) = lasting s := by
  unfold startEncode
  simp only
  split
  · rfl
  · simp

@[simp] theorem lasting_encJobEnd (c st : Nat) (s : State) : lasting (encJobEnd c st s) = lasting s := by
  unfold encJobEnd
  split
  · rfl
  · split
    · rfl
    · split
      · simp
      · simp
        split <;> simp

@[simp] theorem lasting_itpJobEnd (c st : Nat) (s : State) : lasting (itpJobEnd c st s) = lasting s := by simp [itpJobEnd]

@[simp] theorem lasting_sealJobEnd (c st : Nat) (s : State) : lasting (sealJobEnd c st s) = lasting s := by simp [sealJobEnd]

@[simp] theorem lasting_releaseCounts (c st : Nat) (a : AccessUnit) (s : State) :
    lasting (releaseCounts c st a s) = lasting s := by simp [releaseCounts]

/-! ### Egress -/

@[simp] theorem lasting_exception (m bit : Nat) (s : State) : lasting (exception m bit s) = lasting s := by simp [exception]

@[simp] theorem lasting_backlog (m : Nat) (s : State) : lasting (backlog m s) = lasting s := by simp [backlog]

@[simp] theorem lasting_offer (m : Nat) (it : Item) (s : State) : lasting (offer m it s) = lasting s := by simp [offer]

@[simp] theorem lasting_freeBuffer (ms : List Nat) (s : State) : lasting (freeBuffer ms s) = lasting s := by
  unfold freeBuffer
  split
  · rfl
  · split <;> simp

@[simp] theorem lasting_offerAll (src : FlowSrc) (it : Nat → Item) (s : State) :
    lasting (offerAll src it s) = lasting s := by simp [offerAll]

@[simp] theorem lasting_offerAu (a : AccessUnit) (rate : Nat) (s : State) : lasting (offerAu a rate s) = lasting s := by simp [offerAu]

@[simp] theorem lasting_offerWindow (c i : Nat) (f : Frame) (g : Formed) (s : State) :
    lasting (offerWindow c i f g s) = lasting s := by simp [offerWindow]

@[simp] theorem lasting_offerDecoded (h : Nat) (s : State) : lasting (offerDecoded h s) = lasting s := by
  unfold offerDecoded
  simp only
  split
  · rfl
  · simp

@[simp] theorem lasting_offerRaw (c : Nat) (f : Frame) (s : State) : lasting (offerRaw c f s) = lasting s := by
  unfold offerRaw
  split <;> simp

@[simp] theorem lasting_settleFlow (m : Nat) (s : State) : lasting (settleFlow m s) = lasting s := by simp [settleFlow]

@[simp] theorem lasting_stopFlow (m : Nat) (s : State) : lasting (stopFlow m s) = lasting s := by simp [stopFlow]

@[simp] theorem lasting_abandon (m counter : Nat) (s : State) : lasting (abandon m counter s) = lasting s := by simp [abandon]

@[simp] theorem lasting_stopHost (f : Nat) (s : State) : lasting (stopHost f s) = lasting s := by simp [stopHost]

@[simp] theorem lasting_dequeue (p m : Nat) (it : Item) (pk : Packet) (l : Nat) (s : State) :
    lasting (dequeue p m it pk l s).1 = lasting s := by simp [dequeue]

@[simp] theorem lasting_packetDequeue (p : Nat) (s : State) : lasting (packetDequeue p s) = lasting s := by
  unfold packetDequeue
  split
  · rfl
  · split
    · rfl
    · split <;> simp

@[simp] theorem lasting_countPacket (m n : Nat) (pkt au : Bool) (s : State) :
    lasting (countPacket m n pkt au s) = lasting s := by simp [countPacket]

@[simp] theorem lasting_itemGone (m counter : Nat) (s : State) : lasting (itemGone m counter s) = lasting s := by simp [itemGone]

@[simp] theorem lasting_macDone (p : Nat) (g : Staged) (s : State) : lasting (macDone p g s) = lasting s := by simp [macDone]

@[simp] theorem lasting_hostDone (g : Staged) (ok : Bool) (s : State) : lasting (hostDone g ok s) = lasting s := by
  unfold hostDone
  simp only
  split
  · rfl
  · simp

@[simp] theorem lasting_packetTxComplete (p : Nat) (ok : Bool) (s0 : State) : lasting (packetTxComplete p ok s0) = lasting s0 := by
  unfold packetTxComplete
  split <;> simp

@[simp] theorem lasting_calendarSlot (p : Nat) (s0 : State) : lasting (calendarSlot p s0) = lasting s0 := by simp [calendarSlot]

@[simp] theorem lasting_ringPoll (m : Nat) (ok : Bool) (addr blen : Nat) (ctrl : Word) (s : State) :
    lasting (ringPoll m ok addr blen ctrl s) = lasting s := by
  have polled : lasting (match (s.flow m).pollAt with | some t => advanceElapsed t s | none => s) = lasting s := by split <;> simp
  unfold ringPoll
  simp only
  split
  · rfl
  · split
    · rfl
    · split
      · exact (lasting_exception ..).trans polled
      · split
        · exact (lasting_when _ (lasting_exception m 0) _).trans polled
        · exact polled

@[simp] theorem lasting_startTx (p : Nat) (s : State) : lasting (startTx p s) = lasting s := by
  unfold startTx
  simp only
  split
  · split <;> simp
  · rfl

@[simp] theorem lasting_txFrameDue (m : Nat) (s0 : State) : lasting (txFrameDue m s0) = lasting s0 := by
  unfold txFrameDue
  split <;> simp

@[simp] theorem lasting_txFrameSent (p : Nat) (s : State) : lasting (txFrameSent p s) = lasting s := by
  unfold txFrameSent
  split
  · rfl
  · simp only
    split <;> simp

@[simp] theorem lasting_flowSample (i : Nat) (s0 : State) : lasting (flowSample i s0) = lasting s0 := by simp [flowSample]

/-! ### Flows -/

@[simp] theorem lasting_putRoute (m : Nat) (n : FlowCfg) (s : State) : lasting (putRoute m n s) = lasting s := by
  unfold putRoute
  split <;> simp

@[simp] theorem lasting_stepStart (m : Nat) (s : State) : lasting (stepStart m s) = lasting s := by simp [stepStart]

@[simp] theorem lasting_newContext (m mode : Nat) (s : State) : lasting (newContext m mode s) = lasting s := by simp [newContext]

@[simp] theorem lasting_startFlow (m : Nat) (s : State) : lasting (startFlow m s) = lasting s := by simp [startFlow]

@[simp] theorem lasting_putOutput (h : Nat) (n : DecStream) (s : State) : lasting (putOutput h n s) = lasting s := by simp [putOutput]

/-! ### Camera heads -/

@[simp] theorem lasting_busRun (b : Nat) (s : State) : lasting (busRun b s) = lasting s := by
  unfold busRun
  split
  · rfl
  · split
    · rfl
    · split <;> rfl

@[simp] theorem lasting_busSend (c : Nat) (x : BusXfer) (s : State) : lasting (busSend c x s) = lasting s := by
  unfold busSend
  split <;> simp

@[simp] theorem lasting_dropXfers (drop : BusXfer → Bool) (s : State) : lasting (dropXfers drop s) = lasting s := by simp [dropXfers]

@[simp] theorem lasting_modCheck (c : Nat) (g : Check → Check) (s : State) : lasting (modCheck c g s) = lasting s := by simp [modCheck]

@[simp] theorem lasting_addCheck (c : Nat) (why : CheckWhy) (s : State) : lasting (addCheck c why s) = lasting s := by simp [addCheck]

@[simp] theorem lasting_addAuto (c : Nat) (s : State) : lasting (addAuto c s) = lasting s := by simp [addAuto]

@[simp] theorem lasting_sendChallenge (c : Nat) (s : State) : lasting (sendChallenge c s) = lasting s := by
  unfold sendChallenge
  split
  · simp
  · split
    · next hn => simp [lasting_takeEntropy hn]
    · simp

@[simp] theorem lasting_endCheck (c : Nat) (s : State) : lasting (endCheck c s) = lasting s := by simp [endCheck]

@[simp] theorem lasting_answerCheck (w : CheckWhy) (st : Byte) (s : State) : lasting (answerCheck w st s) = lasting s := by
  cases w with
  | idGet f tag | pair f tag =>
    simp only [answerCheck]
    split <;> simp
  | push | auto => rfl

@[simp] theorem lasting_readSlot (c k : Nat) (s : State) : lasting (readSlot c k s) = lasting s := by simp [readSlot]

@[simp] theorem lasting_writeKey (c : Nat) (s : State) : lasting (writeKey c s) = lasting s := by simp [writeKey]

@[simp] theorem lasting_writeLife (c : Nat) (s : State) : lasting (writeLife c s) = lasting s := by
  unfold writeLife
  split
  · next hn => simp [lasting_takeEntropy hn]
  · simp

@[simp] theorem lasting_pairCommit (c f : Nat) (tag : BitVec 16) (k : Check) (s : State) :
    lasting (pairCommit c f tag k s) = lasting s := by
  unfold pairCommit
  split <;> simp

@[simp] theorem lasting_pushFailed (c : Nat) (s : State) : lasting (pushFailed c s) = lasting s := by simp [pushFailed]

@[simp] theorem lasting_afterKey (c : Nat) (k : Check) (s : State) : lasting (afterKey c k s) = lasting s := by simp [afterKey]

@[simp] theorem lasting_afterLife (c : Nat) (k : Check) (s : State) : lasting (afterLife c k s) = lasting s := by
  unfold afterLife
  split <;> simp

@[simp] theorem lasting_raiseWear (c : Nat) (s : State) : lasting (raiseWear c s) = lasting s := by
  unfold raiseWear
  split <;> simp

@[simp] theorem lasting_afterSlots (c : Nat) (k : Check) (s : State) : lasting (afterSlots c k s) = lasting s := by
  unfold afterSlots
  split <;> simp

@[simp] theorem lasting_headAdvance (c : Nat) (ok : Bool) (got : List Byte) (s : State) : lasting (headAdvance c ok got s) = lasting s := by
  unfold headAdvance
  split
  · rfl
  · next k _ =>
    cases k.step with
    | keyWrite | waitKey => cases k.why <;> simp
    | _ => simp

theorem lasting_checkWindow {s t : State} (h : checkWindow s = some t) : lasting t = lasting s := by
  unfold checkWindow at h
  split at h
  · cases h; rfl
  · simp only at h
    split at h
    · cases h; simp
    · cases h

@[simp] theorem lasting_pollDone (c : Nat) (k : Check) (ok : Bool) (got : List Byte) (s : State) :
    lasting (pollDone c k ok got s) = lasting s := by simp [pollDone]

@[simp] theorem lasting_countFailure (c : Nat) (s : State) : lasting (countFailure c s) = lasting s := by simp [countFailure]

@[simp] theorem lasting_countMinute (c : Nat) (temp : Option Int) (s : State) :
    lasting (countMinute c temp s) = lasting s := by simp [countMinute]

@[simp] theorem lasting_xferDone (x : BusXfer) (ok : Bool) (s : State) : lasting (xferDone x ok s) = lasting s := by
  unfold xferDone
  split
  · split <;> simp
  · split <;> simp
  · simp
  · rfl

@[simp] theorem lasting_busShift (b : Nat) (y : BusXfer) (s : State) : lasting (busShift b y s) = lasting s := by simp [busShift]

@[simp] theorem lasting_transactionEnds (b : Nat) (x : BusXfer) (r : BusResult) (s : State) :
    lasting (transactionEnds b x r s) = lasting s := by
  unfold transactionEnds
  split <;> simp

@[simp] theorem lasting_markBind (c : Nat) (s : State) : lasting (markBind c s) = lasting s := by simp [markBind]

@[simp] theorem lasting_discardReferences (c : Nat) (s : State) : lasting (discardReferences c s) = lasting s := by simp [discardReferences]

@[simp] theorem lasting_freeHead (c : Nat) (s : State) : lasting (freeHead c s) = lasting s := by simp [freeHead]

@[simp] theorem lasting_unpairEffects (c : Nat) (s : State) : lasting (unpairEffects c s) = lasting s := by simp [unpairEffects]

@[simp] theorem lasting_headChange (c : Nat) (s : State) : lasting (headChange c s) = lasting s := by
  unfold headChange
  split <;> simp

@[simp] theorem lasting_swapEffects (c : Nat) (s : State) : lasting (swapEffects c s) = lasting s := by simp [swapEffects]

@[simp] theorem lasting_judge (c : Nat) (k : Check) (s0 : State) : lasting (judge c k s0) = lasting s0 := by simp [judge]

@[simp] theorem lasting_afterJudge (c : Nat) (k : Check) (timedOut first : Bool) (s : State) :
    lasting (afterJudge c k timedOut first s) = lasting s := by
  unfold afterJudge
  simp only
  split
  · simp only [lasting_ite, lasting_readSlot, lasting_afterLife, lasting_modCheck, lasting_endCheck, ite_self]
    split <;> simp
  all_goals simp

@[simp] theorem lasting_checkOnStart (c : Nat) (s : State) : lasting (checkOnStart c s) = lasting s := by simp [checkOnStart]

@[simp] theorem lasting_readTemp (c : Nat) (minute : Bool) (s : State) : lasting (readTemp c minute s) = lasting s := by simp [readTemp]

@[simp] theorem lasting_applyPairing (c : Nat) (s : State) : lasting (applyPairing c s) = lasting s := by
  unfold applyPairing
  split <;> simp

@[simp] theorem lasting_reattach (c : Nat) (a : Attach) (s : State) : lasting (reattach c a s) = lasting s := by simp [reattach]

@[simp] theorem lasting_cancelHead (c f : Nat) (tag : BitVec 16) (s : State) :
    lasting (cancelHead c f tag s) = lasting s := by simp [cancelHead]

/-! ### Start of a channel -/

@[simp] theorem lasting_startChan (c : Nat) (s : State) : lasting (startChan c s) = lasting s := by simp [startChan]

/-! ### Mailboxes and registers -/

@[simp] theorem lasting_completeRead (f : Nat) (v : Word) (s : State) : lasting (completeRead f v s) = lasting s := by simp [completeRead]

@[simp] theorem lasting_readTimeLo (f : Nat) (s : State) : lasting (readTimeLo f s) = lasting s := by simp [readTimeLo]

@[simp] theorem lasting_readPtmSeq (f : Nat) (s : State) : lasting (readPtmSeq f s) = lasting s := by simp [readPtmSeq]

@[simp] theorem lasting_pushRequest (f : Nat) (e : Entry) (s : State) : lasting (pushRequest f e s) = lasting s := by simp [pushRequest]

@[simp] theorem lasting_popResponse (f : Nat) (s : State) : lasting (popResponse f s) = lasting s := by simp [popResponse]

@[simp] theorem lasting_writeMbxCtrl (f : Nat) (value : Word) (s : State) :
    lasting (writeMbxCtrl f value s) = lasting s := by simp [writeMbxCtrl]

@[simp] theorem lasting_acknowledge (f : Nat) (s : State) : lasting (acknowledge f s) = lasting s := by
  unfold acknowledge
  split <;> simp

@[simp] theorem lasting_endOfInterrupt (f : Nat) (s : State) : lasting (endOfInterrupt f s) = lasting s := by
  unfold endOfInterrupt
  split <;> simp

@[simp] theorem lasting_writeSrcCfg (f : Nat) (value : Word) (s : State) :
    lasting (writeSrcCfg f value s) = lasting s := by simp [writeSrcCfg]

@[simp] theorem lasting_writeSrcCause (f : Nat) (value : Word) (s : State) :
    lasting (writeSrcCause f value s) = lasting s := by simp [writeSrcCause]

@[simp] theorem lasting_writeIrqCtrl (f : Nat) (value : Word) (s : State) :
    lasting (writeIrqCtrl f value s) = lasting s := by simp [writeIrqCtrl]

@[simp] theorem lasting_writeOther (f off : Nat) (value : Word) (s : State) :
    lasting (writeOther f off value s) = lasting s := by simp [writeOther]

@[simp] theorem lasting_unmask (f v : Nat) (s : State) : lasting (unmask f v s) = lasting s := by simp [unmask]

@[simp] theorem lasting_promoteDue (s : State) : lasting (promoteDue s) = lasting s := by simp [promoteDue]

@[simp] theorem lasting_foldAges (s : State) : lasting (foldAges s) = lasting s := by simp [foldAges]

/-! ### Memory -/

@[simp] theorem lasting_lastError (i : Nat) (m : Master) (a kind : Nat) (s : State) :
    lasting (lastError i m a kind s) = lasting s := by simp [lastError]

@[simp] theorem lasting_eccFound (i : Nat) (m : Master) (sector : Nat) (e : EccFinding) (s : State) :
    lasting (eccFound i m sector e s) = lasting s := by
  unfold eccFound
  split <;> simp

@[simp] theorem lasting_tagFailed (i : Nat) (m : Master) (line : Nat) (s : State) :
    lasting (tagFailed i m line s) = lasting s := by simp [tagFailed]

@[simp] theorem lasting_degrade (s : State) : lasting (degrade s) = lasting s := by simp [degrade]

@[simp] theorem lasting_completeJob (j : MeterJob) (s : State) : lasting (completeJob j s) = lasting s := by
  unfold completeJob
  split <;> simp

@[simp] theorem lasting_raiseOverrun (j : MeterJob) (s : State) : lasting (raiseOverrun j s) = lasting s := by
  unfold raiseOverrun
  split <;> simp

@[simp] theorem lasting_engineFault (j : MeterJob) (s : State) : lasting (engineFault j s) = lasting s := by simp [engineFault]

@[simp] theorem lasting_poisonRead (i : Nat) (c : Chunk) (sectors : List Nat) (s : State) :
    lasting (poisonRead i c sectors s) = lasting s := by
  unfold poisonRead
  split <;> simp

@[simp] theorem lasting_errorCompletion (i : Nat) (c : Chunk) (sectors : List Nat) (s : State) :
    lasting (errorCompletion i c sectors s) = lasting s := by
  unfold errorCompletion
  split <;> simp

@[simp] theorem lasting_openRow (i a : Nat) (s : State) : lasting (openRow i a s) = lasting s := by simp [openRow]

@[simp] theorem lasting_checkSectors (i : Nat) (c : Chunk) (secs : List Nat) (s : State) :
    lasting (checkSectors i c secs s) = lasting s := by simp [checkSectors]

@[simp] theorem lasting_readRange (i : Nat) (c : Chunk) (a len : Nat) (s : State) :
    lasting (readRange i c a len s) = lasting s := by simp [readRange]

@[simp] theorem lasting_bufferWrite (i a : Nat) (bs : List Byte) (s : State) :
    lasting (bufferWrite i a bs s) = lasting s := by simp [bufferWrite]

@[simp] theorem lasting_setTag (i line : Nat) (tag : List Byte) (s : State) : lasting (setTag i line tag s) = lasting s := by simp [setTag]

@[simp] theorem lasting_unpoison (i : Nat) (secs : List Nat) (s : State) : lasting (unpoison i secs s) = lasting s := by simp [unpoison]

@[simp] theorem lasting_ordinaryWrite (i : Nat) (c : Chunk) (a : Nat) (bs : List Byte) (s : State) :
    lasting (ordinaryWrite i c a bs s) = lasting s := by
  unfold ordinaryWrite
  simp only
  split <;> simp

@[simp] theorem lasting_sealedWrite (i : Nat) (c : Chunk) (a : Nat) (bs : List Byte) (s : State) :
    lasting (sealedWrite i c a bs s) = lasting s := by simp [sealedWrite]

@[simp] theorem lasting_realTime (i : Nat) (c : Chunk) (s : State) : lasting (realTime i c s) = lasting s := by
  unfold realTime
  split <;> simp

@[simp] theorem lasting_drainEntry (i : Nat) (s : State) : lasting (drainEntry i s) = lasting s := by
  unfold drainEntry
  split <;> simp

@[simp] theorem lasting_makeRoom (i n : Nat) (s : State) : lasting (makeRoom i n s) = lasting s := by simp [makeRoom]

@[simp] theorem lasting_chunkDone (i : Nat) (c : Chunk) (s : State) : lasting (chunkDone i c s) = lasting s := by
  unfold chunkDone
  split <;> simp

@[simp] theorem lasting_modMem (i ch : Nat) (g : MemChan → MemChan) (s : State) : lasting (modMem i ch g s) = lasting s := by simp [modMem]

@[simp] theorem lasting_refreshOnce (i ch : Nat) (s : State) : lasting (refreshOnce i ch s) = lasting s := by simp [refreshOnce]

@[simp] theorem lasting_tamperBuffers (s : State) : lasting (tamperBuffers s) = lasting s := by simp [tamperBuffers]

/-! ### The ledger and the pools -/

@[simp] theorem lasting_withBooks (b : Books) (s : State) : lasting (withBooks b s) = lasting s := by simp [withBooks]

@[simp] theorem lasting_ledgerTick (k : Nat) (s : State) : lasting (ledgerTick k s) = lasting s := by simp [ledgerTick]

@[simp] theorem lasting_metersTick (s : State) : lasting (metersTick s) = lasting s := by simp [metersTick]

/-! ### Sequencers -/

@[simp] theorem lasting_loadImage (cls : Nat) (vendor : Bool) (im : Image) (s : State) :
    lasting (loadImage cls vendor im s) = lasting s := by simp [loadImage]

@[simp] theorem lasting_applyPatch (cls : Nat) (vendor : Bool) (p : Patch) (s : State) :
    lasting (applyPatch cls vendor p s) = lasting s := by simp [applyPatch]

@[simp] theorem lasting_finishLoad (c : Ctx) (s : State) : lasting (finishLoad c s).2 = lasting s := by simp [finishLoad]

@[simp] theorem lasting_meterExpiry (j : MeterJob) (undone : Nat) (s : State) : lasting (meterExpiry j undone s) = lasting s := by
  cases j with
  | pipe c =>
    simp only [meterExpiry]
    split <;> simp
  | enc c st => simp [meterExpiry]
  | itp c st => simp [meterExpiry]
  | dec h => simp [meterExpiry]

@[simp] theorem lasting_seqStopped (q pc reason : Nat) (s : State) : lasting (seqStopped q pc reason s) = lasting s := by
  have job : lasting (match jobOn s q with
      | some j => if jobRuns s j then completeJob j s else s
      | none => s) = lasting s := by split <;> simp
  unfold seqStopped
  simp only
  split
  · split
    · exact (lasting_modCls ..).trans ((lasting_modSeq ..).trans job)
    · exact (lasting_modSeq ..).trans job
  · exact (lasting_assertFaultN ..).trans ((lasting_modSeq ..).trans ((lasting_modSeq ..).trans job))

@[simp] theorem lasting_seqWatchdog (q pc : Nat) (why : SeqWhy) (s : State) : lasting (seqWatchdog q pc why s) = lasting s := by
  unfold seqWatchdog
  split <;> simp

@[simp] theorem lasting_disableFailing (s : State) : lasting (disableFailing s) = lasting s := by simp [disableFailing]

/-! ### Power -/

@[simp] theorem lasting_setRail (r mv : Nat) (s : State) : lasting (setRail r mv s) = lasting s := by simp [setRail]

@[simp] theorem lasting_setVoltage (d : Nat) (s : State) : lasting (setVoltage d s) = lasting s := by
  unfold setVoltage
  split <;> simp

@[simp] theorem lasting_setSat (d : Nat) (sat : Bool) (s : State) : lasting (setSat d sat s) = lasting s := by simp [setSat]

@[simp] theorem lasting_avsUpdate (d computed : Nat) (s : State) : lasting (avsUpdate d computed s) = lasting s := by simp [avsUpdate]

@[simp] theorem lasting_loseRail (r : Nat) (s : State) : lasting (loseRail r s) = lasting s := by simp [loseRail]

@[simp] theorem lasting_railPoll (r : Nat) (ack : Bool) (status iout : Nat) (s : State) :
    lasting (railPoll r ack status iout s) = lasting s := by simp [railPoll]

@[simp] theorem lasting_thermalTrip (s : State) : lasting (thermalTrip s) = lasting s := by simp [thermalTrip]

@[simp] theorem lasting_thermal (tj : Int) (s : State) : lasting (thermal tj s) = lasting s := by simp [thermal]

@[simp] theorem lasting_thermalInReset (tj : Int) (s : State) : lasting (thermalInReset tj s) = lasting s := by simp [thermalInReset]

@[simp] theorem lasting_dvfsSet (d level vreq : Nat) (s : State) : lasting (dvfsSet d level vreq s).2 = lasting s := by
  unfold dvfsSet
  split <;> simp

@[simp] theorem lasting_levelTick (s : State) : lasting (levelTick s) = lasting s := by simp [levelTick]

@[simp] theorem lasting_beginPower (d : Nat) (s : State) : lasting (beginPower d s) = lasting s := by simp [beginPower]

@[simp] theorem lasting_rampFailed (d : Nat) (s : State) : lasting (rampFailed d s) = lasting s := by simp [rampFailed]

@[simp] theorem lasting_powerUp (d : Nat) (s : State) : lasting (powerUp d s) = lasting s := by simp [powerUp]

@[simp] theorem lasting_gate (d : Nat) (s : State) : lasting (gate d s) = lasting s := by simp [gate]

@[simp] theorem lasting_srFinish (s : State) : lasting (srFinish s) = lasting s :=
  lasting_forEach _ (fun x t => by split <;> simp) s

@[simp] theorem lasting_enterSelfRefresh (i : Nat) (s : State) : lasting (enterSelfRefresh i s) = lasting s := by simp [enterSelfRefresh]

/-! ### Time -/

@[simp] theorem lasting_loadBase (b : Nat) (ptp : Bool) (s0 : State) : lasting (loadBase b ptp s0) = lasting s0 := by simp [loadBase]

@[simp] theorem lasting_baseNow (c : Ctx) (s : State) : lasting (baseNow c s).2 = lasting s := by
  simp [baseNow]

@[simp] theorem lasting_steer (s : State) : lasting (steer s) = lasting s := by simp [steer]

@[simp] theorem lasting_missPulse (s : State) : lasting (missPulse s) = lasting s := by simp [missPulse]

@[simp] theorem lasting_goodPulse (s : State) : lasting (goodPulse s) = lasting s := by
  unfold goodPulse
  simp only
  split <;> simp

@[simp] theorem lasting_missAll (n : Nat) (s : State) : lasting (missAll n s) = lasting s := by
  induction n generalizing s with
  | zero => rfl
  | succ n ih => rw [missAll, ih, lasting_missPulse]

@[simp] theorem lasting_loadAtPulse (s : State) : lasting (loadAtPulse s) = lasting s := by
  refine lasting_forEach _ (fun x t => ?_) s
  have h := lasting_baseNow (x.ctx .timeSetBase) t
  split
  · next e => rw [e] at h; simpa using h
  · next e => rw [e] at h; exact h

@[simp] theorem lasting_sendGptp (port kind seq : Nat) (fields : List Int) (s : State) :
    lasting (sendGptp port kind seq fields s) = lasting s := by simp [sendGptp]

@[simp] theorem lasting_modPdelay (p : Nat) (g : PeerDelay → PeerDelay) (s : State) :
    lasting (modPdelay p g s) = lasting s := by simp [modPdelay]

@[simp] theorem lasting_modGptp (p : Nat) (g : Nat × Nat × Nat → Nat × Nat × Nat) (s : State) :
    lasting (modGptp p g s) = lasting s := by simp [modGptp]

@[simp] theorem lasting_toDialogue (s : State) : lasting (toDialogue s) = lasting s := by
  unfold toDialogue
  split <;> simp

/-! ### Roles and updates -/

@[simp] theorem lasting_setCredential (r slot : Nat) (k : Option (List Byte)) (s : State) :
    lasting (setCredential r slot k s) = lasting s := by simp [setCredential]

@[simp] theorem lasting_closeSessions (p : Session → Bool) (s : State) : lasting (closeSessions p s) = lasting s := by simp [closeSessions]

@[simp] theorem lasting_issueChallenge (c : Ctx) (nonce : List Byte) (s : State) :
    lasting (issueChallenge c nonce s) = lasting s := by simp [issueChallenge]

@[simp] theorem lasting_openSession (c : Ctx) (ch : Option Challenge) (s : State) : lasting (openSession c ch s).2 = lasting s := by
  simp [openSession]

/-- A counter row is blown into a fuse, and the part stays. -/
@[simp] theorem lasting_storeCounter (v : Nat) (s : State) : lasting (storeCounter v s) = lasting s := by
  unfold storeCounter
  split <;> rfl

@[simp] theorem lasting_enrolCommit (u : Update) (s : State) : lasting (enrolCommit u s) = lasting s := by simp [enrolCommit]

@[simp] theorem lasting_orphanFlow (m : Nat) (s : State) : lasting (orphanFlow m s) = lasting s := by simp [orphanFlow]

@[simp] theorem lasting_installKey (u : Update) (k : List Byte) (s : State) : lasting (installKey u k s) = lasting s := by simp [installKey]

@[simp] theorem lasting_applyUpdate (u : Update) (s : State) : lasting (applyUpdate u s) = lasting s := by simp [applyUpdate]

@[simp] theorem lasting_commitUpdate (c : Ctx) (u : Update) (s : State) : lasting (commitUpdate c u s) = lasting s := by simp [commitUpdate]

@[simp] theorem lasting_updateRead (c : Ctx) (s : State) : lasting (updateRead c s).2 = lasting s := by
  unfold updateRead
  simp only
  split
  · rfl
  · split <;> simp

@[simp] theorem lasting_signDraw (s : State) : lasting (signDraw s).2 = lasting s := by simp [signDraw]

@[simp] theorem lasting_signNow (c : Ctx) (nonce : List Byte) (s : State) : lasting (signNow c nonce s).2 = lasting s := by
  simp [signNow]

/-! ### The key vault -/

@[simp] theorem lasting_invalidate (n : Nat) (s : State) : lasting (invalidate n s) = lasting s := by simp [invalidate]

@[simp] theorem lasting_eraseImported (s : State) : lasting (eraseImported s) = lasting s := by simp [eraseImported]

@[simp] theorem lasting_discardEncrypted (m : Nat) (s : State) : lasting (discardEncrypted m s) = lasting s := by simp [discardEncrypted]

@[simp] theorem lasting_tamper (s : State) : lasting (tamper s) = lasting s := by simp [tamper]

@[simp] theorem lasting_failEntropy (s : State) : lasting (failEntropy s) = lasting s := by simp [failEntropy]

@[simp] theorem lasting_healthFail (s : State) : lasting (healthFail s) = lasting s := by simp [healthFail]

/-! ### The block as a whole -/

@[simp] theorem lasting_abandonDeferred (x : ExecEntry) (s : State) : lasting (abandonDeferred x s) = lasting s := by
  unfold abandonDeferred
  split
  · simp only
    split <;> simp
  · rfl

@[simp] theorem lasting_updateChanWindow (c : Nat) (s : State) : lasting (updateChanWindow c s) = lasting s := by simp [updateChanWindow]

@[simp] theorem lasting_snapFlows (s : State) : lasting (snapFlows s) = lasting s := by simp [snapFlows]

@[simp] theorem lasting_reassert (s : State) : lasting (reassert s) = lasting s := by simp [reassert]

@[simp] theorem lasting_reassertStopped (s : State) : lasting (reassertStopped s) = lasting s := by simp [reassertStopped]

@[simp] theorem lasting_resetFunction (f : Nat) (s : State) : lasting (resetFunction f s) = lasting s := by simp [resetFunction]

@[simp] theorem lasting_leaveFunction (f : Nat) (s : State) : lasting (leaveFunction f s) = lasting s := by simp [leaveFunction]

@[simp] theorem lasting_functionReset (f : Nat) (s : State) : lasting (functionReset f s) = lasting s := by simp [functionReset]

@[simp] theorem lasting_vfChange (n : Nat) (en : Bool) (s : State) : lasting (vfChange n en s) = lasting s := by simp [vfChange]

/-! ### Reset and bring-up -/

/-- A full reset begins with the pairings that take effect, and takes over the queue and the fuses. -/
@[simp] theorem lasting_resetState (t : ResetTrigger) (s : State) : lasting (resetState t s) = lasting s := by
  have h := outsidePairing_pairingsApplied s
  simp only [outsidePairing, Prod.mk.injEq] at h
  obtain ⟨hpending, hfuses, -⟩ := h
  simp only [lasting, pending_resetState, fuses_resetState, hpending, hfuses]

@[simp] theorem lasting_beginReset (t : ResetTrigger) (s : State) : lasting (beginReset t s) = lasting s := by simp [beginReset]

@[simp] theorem lasting_failBoot (code : Nat) (s : State) : lasting (failBoot code s) = lasting s := by simp [failBoot]

@[simp] theorem lasting_bootNode (first : Bool) (n : Nat) (s : State) : lasting (bootNode first n s) = lasting s := by simp [bootNode]

@[simp] theorem lasting_bootTarn (root noise : List Byte) (s : State) : lasting (bootTarn root noise s) = lasting s := by simp [bootTarn]

@[simp] theorem lasting_releaseTrip (s : State) : lasting (releaseTrip s) = lasting s := by simp [releaseTrip]

@[simp] theorem lasting_bootStart (puf : PufRead) (s : State) : lasting (bootStart puf s) = lasting s := by
  unfold bootStart
  simp only
  split <;> simp

@[simp] theorem lasting_release (straps : Straps) (puf : PufRead) (s : State) : lasting (release straps puf s) = lasting s := by
  unfold release
  simp only
  split <;> simp

@[simp] theorem lasting_raiseRail (r : Nat) (ok : Bool) (s0 : State) : lasting (raiseRail r ok s0) = lasting s0 := by simp [raiseRail]

@[simp] theorem lasting_bootPool (i : Nat) (s : State) : lasting (bootPool i s) = lasting s := by simp [bootPool]

@[simp] theorem lasting_loadPatches (cls : Nat) (vendor : Bool) (ver n l : Nat) (s : State) :
    lasting (loadPatches cls vendor ver n l s) = lasting s := by
  induction n generalizing l s with
  | zero => rfl
  | succ n ih =>
    unfold loadPatches
    split
    · simp [ih]
    · rfl

@[simp] theorem lasting_loadPersisted (cls : Nat) (vendor : Bool) (s : State) : lasting (loadPersisted cls vendor s) = lasting s := by
  unfold loadPersisted
  split <;> simp

@[simp] theorem lasting_tamperRecord (s : State) : lasting (tamperRecord s) = lasting s := by simp [tamperRecord]

@[simp] theorem lasting_assignAddress (c : Nat) (s : State) : lasting (assignAddress c s) = lasting s := by
  unfold assignAddress
  split <;> simp

@[simp] theorem lasting_restore (k : SavedConfig) (s : State) : lasting (restore k s) = lasting s := by simp [restore]

@[simp] theorem lasting_autoRun (chs fls : List Nat) (s : State) : lasting (autoRun chs fls s) = lasting s := by simp [autoRun]

@[simp] theorem lasting_applyConfig (k : SavedConfig) (s : State) : lasting (applyConfig k s) = lasting s := by
  unfold applyConfig
  simp only
  split
  · simp
  · split <;> simp

@[simp] theorem lasting_defaultPeriod (s : State) : lasting (defaultPeriod s) = lasting s := by simp [defaultPeriod]

@[simp] theorem lasting_goReady (s : State) : lasting (goReady s) = lasting s := by
  unfold goReady
  split <;> simp

@[simp] theorem lasting_autoStart (s : State) : lasting (autoStart s) = lasting s := by simp [autoStart]

@[simp] theorem lasting_autoHeld (k : Nat) (s : State) : lasting (autoHeld k s) = lasting s := by
  refine lasting_forEach _ (fun c t => ?_) s
  simp only
  split
  · simp
  · split
    · split <;> simp
    · rfl

/-! ### Commands of the host -/

/-- What a command does at once, what it does when its wait ends, and its effect at a boundary: none changes what lasts. -/
structure Behaviour.Lasts (b : Behaviour) : Prop where
  run (c : Ctx) (s : State) : lasting (b.run c s).2 = lasting s
  resume (c : Ctx) (w : Wait) (s : State) : lasting (b.resume c w s).2 = lasting s
  effect (c : Ctx) (s : State) : lasting (b.effect c s) = lasting s

theorem lasts_chanPortSetB : chanPortSetB.Lasts where
  run _ _ := rfl
  resume _ _ _ := rfl
  effect c s := by simp [chanPortSetB]

theorem lasts_chanBindB : chanBindB.Lasts where
  run _ _ := rfl
  resume _ _ _ := rfl
  effect c s := by simp [chanBindB]

theorem lasts_chanStopB : chanStopB.Lasts where
  run _ _ := rfl
  resume _ _ _ := rfl
  effect c s := by simp [chanStopB]

theorem lasts_chanSensorSetB : chanSensorSetB.Lasts where
  run _ _ := rfl
  resume _ _ _ := rfl
  effect c s := by simp [chanSensorSetB]

theorem lasts_chanQueryB : chanQueryB.Lasts where
  run _ _ := rfl
  resume _ _ _ := rfl
  effect _ _ := rfl

theorem lasts_chanPipeSetB : chanPipeSetB.Lasts where
  run _ _ := rfl
  resume _ _ _ := rfl
  effect c s := by simp [chanPipeSetB]

theorem lasts_chanLutLoadB : chanLutLoadB.Lasts where
  run _ _ := rfl
  resume c w s := by
    simp only [chanLutLoadB]
    split <;> simp
  effect c s := by simp [chanLutLoadB]

theorem lasts_chanWindowSetB : chanWindowSetB.Lasts where
  run _ _ := rfl
  resume _ _ _ := rfl
  effect c s := by simp [chanWindowSetB]

theorem lasts_chanWindowClearB : chanWindowClearB.Lasts where
  run _ _ := rfl
  resume _ _ _ := rfl
  effect c s := by simp [chanWindowClearB]

theorem lasts_calEnableB : calEnableB.Lasts where
  run c s := by simp [calEnableB]
  resume _ _ _ := rfl
  effect c s := by simp [calEnableB]

theorem lasts_calPinB : calPinB.Lasts where
  run c s := by
    have h := lasting_calAudited 2 c s
    simp only [calPinB]
    split
    · rfl
    · split
      · next e => rw [e] at h; simpa using h
      · exact h
  resume _ _ _ := rfl
  effect c s := by simp [calPinB]

theorem lasts_calUnpinB : calUnpinB.Lasts where
  run c s := by simp [calUnpinB]
  resume _ _ _ := rfl
  effect c s := by simp [calUnpinB]

theorem lasts_calResetB : calResetB.Lasts where
  run c s := by simp [calResetB]
  resume _ _ _ := rfl
  effect c s := by simp [calResetB]

theorem lasts_calQueryB : calQueryB.Lasts where
  run _ _ := rfl
  resume _ _ _ := rfl
  effect _ _ := rfl

theorem lasts_encMotionSetB : encMotionSetB.Lasts where
  run _ _ := rfl
  resume _ _ _ := rfl
  effect c s := by simp [encMotionSetB]

theorem lasts_encGeometrySetB : encGeometrySetB.Lasts where
  run c s := by simp [encGeometrySetB]
  resume _ _ _ := rfl
  effect c s := by simp [encGeometrySetB]

theorem lasts_encEgoUpdateB : encEgoUpdateB.Lasts where
  run _ _ := rfl
  resume _ _ _ := rfl
  effect _ _ := rfl

theorem lasts_decOpenB : decOpenB.Lasts where
  run _ _ := rfl
  resume _ _ _ := rfl
  effect c s := by simp [decOpenB]

theorem lasts_decFeedB : decFeedB.Lasts where
  run c s := by simp [decFeedB]
  resume c w s := by simp [decFeedB]
  effect _ _ := rfl

theorem lasts_decCloseB : decCloseB.Lasts where
  run _ _ := rfl
  resume _ _ _ := rfl
  effect c s := by simp [decCloseB]

theorem lasts_decQueryB : decQueryB.Lasts where
  run c s := by simp [decQueryB]
  resume _ _ _ := rfl
  effect _ _ := rfl

theorem lasts_encStreamSetB : encStreamSetB.Lasts where
  run _ _ := rfl
  resume _ _ _ := rfl
  effect c s := by simp [encStreamSetB]

theorem lasts_encHrdSetB : encHrdSetB.Lasts where
  run _ _ := rfl
  resume _ _ _ := rfl
  effect c s := by simp [encHrdSetB]

theorem lasts_encRateSetB : encRateSetB.Lasts where
  run _ _ := rfl
  resume _ _ _ := rfl
  effect c s := by simp [encRateSetB]

theorem lasts_encQpSetB : encQpSetB.Lasts where
  run _ _ := rfl
  resume _ _ _ := rfl
  effect c s := by simp [encQpSetB]

theorem lasts_encRefreshSetB : encRefreshSetB.Lasts where
  run _ _ := rfl
  resume _ _ _ := rfl
  effect c s := by simp [encRefreshSetB]

theorem lasts_encLtrRecoverB : encLtrRecoverB.Lasts where
  run _ _ := rfl
  resume _ _ _ := rfl
  effect c s := by simp [encLtrRecoverB]

theorem lasts_encForceIdrB : encForceIdrB.Lasts where
  run _ _ := rfl
  resume _ _ _ := rfl
  effect c s := by simp [encForceIdrB]

theorem lasts_encQueryB : encQueryB.Lasts where
  run _ _ := rfl
  resume _ _ _ := rfl
  effect _ _ := rfl

theorem lasts_flowAttachB : flowAttachB.Lasts where
  run c s := by simp [flowAttachB]
  resume _ _ _ := rfl
  effect _ _ := rfl

theorem lasts_flowRouteSetB : flowRouteSetB.Lasts where
  run _ _ := rfl
  resume _ _ _ := rfl
  effect c s := by simp [flowRouteSetB]

theorem lasts_flowTemplateSetB : flowTemplateSetB.Lasts where
  run _ _ := rfl
  resume c w s := by simp [flowTemplateSetB]
  effect c s := by simp [flowTemplateSetB]

theorem lasts_flowRingSetB : flowRingSetB.Lasts where
  run _ _ := rfl
  resume _ _ _ := rfl
  effect c s := by simp [flowRingSetB]

theorem lasts_flowRateSetB : flowRateSetB.Lasts where
  run _ _ := rfl
  resume _ _ _ := rfl
  effect c s := by simp [flowRateSetB]

theorem lasts_flowWeightSetB : flowWeightSetB.Lasts where
  run _ _ := rfl
  resume _ _ _ := rfl
  effect c s := by simp [flowWeightSetB]

theorem lasts_flowCryptSetB : flowCryptSetB.Lasts where
  run _ _ := rfl
  resume _ _ _ := rfl
  effect c s := by simp [flowCryptSetB]

theorem lasts_flowStartB : flowStartB.Lasts where
  run _ _ := rfl
  resume _ _ _ := rfl
  effect c s := by simp [flowStartB]

theorem lasts_flowStopB : flowStopB.Lasts where
  run _ _ := rfl
  resume _ _ _ := rfl
  effect c s := by simp [flowStopB]

theorem lasts_flowStatsB : flowStatsB.Lasts where
  run _ _ := rfl
  resume _ _ _ := rfl
  effect _ _ := rfl

theorem lasts_decOutputSetB : decOutputSetB.Lasts where
  run _ _ := rfl
  resume _ _ _ := rfl
  effect c s := by simp [decOutputSetB]

theorem lasts_headPairB : headPairB.Lasts where
  run c s := by simp [headPairB]
  resume c w s := by simp [headPairB]
  effect _ _ := rfl

theorem lasts_headUnpairB : headUnpairB.Lasts where
  run c s := by simp [headUnpairB]
  resume _ _ _ := rfl
  effect c s := by simp [headUnpairB]

theorem lasts_headPolicySetB : headPolicySetB.Lasts where
  run _ _ := rfl
  resume _ _ _ := rfl
  effect c s := by simp [headPolicySetB]

theorem lasts_headIdGetB : headIdGetB.Lasts where
  run c s := by simp [headIdGetB]
  resume _ _ _ := rfl
  effect _ _ := rfl

theorem lasts_headLifeQueryB : headLifeQueryB.Lasts where
  run _ _ := rfl
  resume _ _ _ := rfl
  effect _ _ := rfl

theorem lasts_headI3cXferB : headI3cXferB.Lasts where
  run c s := by simp [headI3cXferB]
  resume _ _ _ := rfl
  effect _ _ := rfl

theorem lasts_chanStartB : chanStartB.Lasts where
  run _ _ := rfl
  resume _ _ _ := rfl
  effect c s := by simp [chanStartB]

theorem lasts_memMapQueryB : memMapQueryB.Lasts where
  run c s := by simp [memMapQueryB]
  resume _ _ _ := rfl
  effect _ _ := rfl

theorem lasts_memPoolQueryB : memPoolQueryB.Lasts where
  run c s := by simp [memPoolQueryB]
  resume _ _ _ := rfl
  effect _ _ := rfl

theorem lasts_memErrQueryB : memErrQueryB.Lasts where
  run c s := by simp [memErrQueryB]
  resume _ _ _ := rfl
  effect _ _ := rfl

theorem lasts_seqImageLoadB : seqImageLoadB.Lasts where
  run _ _ := rfl
  resume c w s := by
    simp only [seqImageLoadB]
    split
    · split
      · rfl
      · split
        · rfl
        · split <;> simp
    · simp
  effect _ _ := rfl

theorem lasts_seqPatchApplyB : seqPatchApplyB.Lasts where
  run _ _ := rfl
  resume c w s := by
    simp only [seqPatchApplyB]
    split
    · split
      · rfl
      · split
        · rfl
        · split <;> simp
    · simp
  effect c s := by simp [seqPatchApplyB]

theorem lasts_seqHookSetB : seqHookSetB.Lasts where
  run _ _ := rfl
  resume _ _ _ := rfl
  effect c s := by simp [seqHookSetB]

theorem lasts_seqQueryB : seqQueryB.Lasts where
  run _ _ := rfl
  resume _ _ _ := rfl
  effect _ _ := rfl

theorem lasts_pwrDvfsSetB : pwrDvfsSetB.Lasts where
  run c s := by simp [pwrDvfsSetB]
  resume _ _ _ := rfl
  effect _ _ := rfl

theorem lasts_pwrDomainSetB : pwrDomainSetB.Lasts where
  run c s := by simp [pwrDomainSetB]
  resume _ _ _ := rfl
  effect c s := by simp [pwrDomainSetB]

theorem lasts_pwrSelfRefreshB : pwrSelfRefreshB.Lasts where
  run c s := by simp [pwrSelfRefreshB]
  resume _ _ _ := rfl
  effect _ _ := rfl

theorem lasts_pwrQueryB : pwrQueryB.Lasts where
  run _ _ := rfl
  resume _ _ _ := rfl
  effect _ _ := rfl

theorem lasts_timeSetBaseB : timeSetBaseB.Lasts where
  run c s := by simp [timeSetBaseB]
  resume c w s := by simp [timeSetBaseB]
  effect _ _ := rfl

theorem lasts_timePpsConfigB : timePpsConfigB.Lasts where
  run _ _ := rfl
  resume _ _ _ := rfl
  effect _ _ := rfl

theorem lasts_timeTickSetB : timeTickSetB.Lasts where
  run _ _ := rfl
  resume _ _ _ := rfl
  effect c s := by simp [timeTickSetB]

theorem lasts_timeChanRateB : timeChanRateB.Lasts where
  run _ _ := rfl
  resume _ _ _ := rfl
  effect c s := by simp [timeChanRateB]

theorem lasts_timeGptpConfigB : timeGptpConfigB.Lasts where
  run _ _ := rfl
  resume _ _ _ := rfl
  effect _ _ := rfl

theorem lasts_timeLedgerQueryB : timeLedgerQueryB.Lasts where
  run _ _ := rfl
  resume _ _ _ := rfl
  effect _ _ := rfl

theorem lasts_roleChallengeB : roleChallengeB.Lasts where
  run c s := by
    simp only [roleChallengeB]
    split
    · next e => simp [lasting_takeEntropy e]
    · rfl
  resume c w s := by
    simp only [roleChallengeB]
    split <;> simp
  effect _ _ := rfl

theorem lasts_roleOpenB : roleOpenB.Lasts where
  run c s := by
    simp only [roleOpenB]
    split <;> simp
  resume c w s := by simp [roleOpenB]
  effect _ _ := rfl

theorem lasts_roleCloseB : roleCloseB.Lasts where
  run _ _ := rfl
  resume _ _ _ := rfl
  effect _ _ := rfl

theorem lasts_roleCounterGetB : roleCounterGetB.Lasts where
  run _ _ := rfl
  resume _ _ _ := rfl
  effect _ _ := rfl

theorem lasts_roleUpdateB : roleUpdateB.Lasts where
  run _ _ := rfl
  resume c w s := by
    simp only [roleUpdateB]
    split <;> simp
  effect _ _ := rfl

theorem lasts_roleAuditReadB : roleAuditReadB.Lasts where
  run c s := by simp [roleAuditReadB]
  resume _ _ _ := rfl
  effect _ _ := rfl

theorem lasts_tarnIdGetB : tarnIdGetB.Lasts where
  run _ _ := rfl
  resume _ _ _ := rfl
  effect _ _ := rfl

theorem lasts_tarnRandomB : tarnRandomB.Lasts where
  run c s := by
    simp only [tarnRandomB]
    split
    · next e => exact lasting_takeEntropy e
    · rfl
  resume c w s := by
    simp only [tarnRandomB]
    split <;> rfl
  effect _ _ := rfl

theorem lasts_tarnSignB : tarnSignB.Lasts where
  run c s := by simp [tarnSignB]
  resume c w s := by
    simp only [tarnSignB]
    split <;> simp
  effect _ _ := rfl

theorem lasts_tarnVerifyB : tarnVerifyB.Lasts where
  run _ _ := rfl
  resume _ _ _ := rfl
  effect _ _ := rfl

theorem lasts_tarnNodeQueryB : tarnNodeQueryB.Lasts where
  run _ _ := rfl
  resume _ _ _ := rfl
  effect _ _ := rfl

theorem lasts_tarnPubkeyGetB : tarnPubkeyGetB.Lasts where
  run c s := by simp [tarnPubkeyGetB]
  resume _ _ _ := rfl
  effect _ _ := rfl

theorem lasts_tarnNodeInvalidateB : tarnNodeInvalidateB.Lasts where
  run c s := by
    have h := lasting_tickAudited 0x40 (le 2 (invalidNode c.q) ++ zeros 2 ++ le 4 (s.tarn.gctr + 1)) c s
    simp only [tarnNodeInvalidateB]
    split
    · rfl
    · split
      · next e => rw [e] at h; simpa using h
      · exact h
  resume _ _ _ := rfl
  effect c s := by simp [tarnNodeInvalidateB]

theorem lasts_sysNopB : sysNopB.Lasts where
  run _ _ := rfl
  resume _ _ _ := rfl
  effect _ _ := rfl

theorem lasts_sysCapsB : sysCapsB.Lasts where
  run _ _ := rfl
  resume _ _ _ := rfl
  effect _ _ := rfl

theorem lasts_sysResetB : sysResetB.Lasts where
  run c s := by simp [sysResetB]
  resume _ _ _ := rfl
  effect _ _ := rfl

theorem lasts_sysGroupSetB : sysGroupSetB.Lasts where
  run _ _ := rfl
  resume _ _ _ := rfl
  effect _ _ := rfl

theorem lasts_sysFgroupSetB : sysFgroupSetB.Lasts where
  run _ _ := rfl
  resume _ _ _ := rfl
  effect _ _ := rfl

theorem lasts_sysGroupGetB : sysGroupGetB.Lasts where
  run _ _ := rfl
  resume _ _ _ := rfl
  effect _ _ := rfl

theorem lasts_sysConfigSaveB : sysConfigSaveB.Lasts where
  run c s := by simp [sysConfigSaveB]
  resume c w s := by simp [sysConfigSaveB]
  effect _ _ := rfl

theorem behaviour_lasts (o : Op) : o.behaviour.Lasts := by
  cases o
  case chanPortSet => exact lasts_chanPortSetB
  case chanBind => exact lasts_chanBindB
  case chanStop => exact lasts_chanStopB
  case chanSensorSet => exact lasts_chanSensorSetB
  case chanQuery => exact lasts_chanQueryB
  case chanPipeSet => exact lasts_chanPipeSetB
  case chanLutLoad => exact lasts_chanLutLoadB
  case chanWindowSet => exact lasts_chanWindowSetB
  case chanWindowClear => exact lasts_chanWindowClearB
  case calEnable => exact lasts_calEnableB
  case calPin => exact lasts_calPinB
  case calUnpin => exact lasts_calUnpinB
  case calReset => exact lasts_calResetB
  case calQuery => exact lasts_calQueryB
  case encMotionSet => exact lasts_encMotionSetB
  case encGeometrySet => exact lasts_encGeometrySetB
  case encEgoUpdate => exact lasts_encEgoUpdateB
  case decOpen => exact lasts_decOpenB
  case decFeed => exact lasts_decFeedB
  case decClose => exact lasts_decCloseB
  case decQuery => exact lasts_decQueryB
  case encStreamSet => exact lasts_encStreamSetB
  case encHrdSet => exact lasts_encHrdSetB
  case encRateSet => exact lasts_encRateSetB
  case encQpSet => exact lasts_encQpSetB
  case encRefreshSet => exact lasts_encRefreshSetB
  case encLtrRecover => exact lasts_encLtrRecoverB
  case encForceIdr => exact lasts_encForceIdrB
  case encQuery => exact lasts_encQueryB
  case flowAttach => exact lasts_flowAttachB
  case flowRouteSet => exact lasts_flowRouteSetB
  case flowTemplateSet => exact lasts_flowTemplateSetB
  case flowRingSet => exact lasts_flowRingSetB
  case flowRateSet => exact lasts_flowRateSetB
  case flowWeightSet => exact lasts_flowWeightSetB
  case flowCryptSet => exact lasts_flowCryptSetB
  case flowStart => exact lasts_flowStartB
  case flowStop => exact lasts_flowStopB
  case flowStats => exact lasts_flowStatsB
  case decOutputSet => exact lasts_decOutputSetB
  case headPair => exact lasts_headPairB
  case headUnpair => exact lasts_headUnpairB
  case headPolicySet => exact lasts_headPolicySetB
  case headIdGet => exact lasts_headIdGetB
  case headLifeQuery => exact lasts_headLifeQueryB
  case headI3cXfer => exact lasts_headI3cXferB
  case chanStart => exact lasts_chanStartB
  case memMapQuery => exact lasts_memMapQueryB
  case memPoolQuery => exact lasts_memPoolQueryB
  case memErrQuery => exact lasts_memErrQueryB
  case seqImageLoad => exact lasts_seqImageLoadB
  case seqPatchApply => exact lasts_seqPatchApplyB
  case seqHookSet => exact lasts_seqHookSetB
  case seqQuery => exact lasts_seqQueryB
  case pwrDvfsSet => exact lasts_pwrDvfsSetB
  case pwrDomainSet => exact lasts_pwrDomainSetB
  case pwrSelfRefresh => exact lasts_pwrSelfRefreshB
  case pwrQuery => exact lasts_pwrQueryB
  case timeSetBase => exact lasts_timeSetBaseB
  case timePpsConfig => exact lasts_timePpsConfigB
  case timeTickSet => exact lasts_timeTickSetB
  case timeChanRate => exact lasts_timeChanRateB
  case timeGptpConfig => exact lasts_timeGptpConfigB
  case timeLedgerQuery => exact lasts_timeLedgerQueryB
  case roleChallenge => exact lasts_roleChallengeB
  case roleOpen => exact lasts_roleOpenB
  case roleClose => exact lasts_roleCloseB
  case roleCounterGet => exact lasts_roleCounterGetB
  case roleUpdate => exact lasts_roleUpdateB
  case roleAuditRead => exact lasts_roleAuditReadB
  case tarnIdGet => exact lasts_tarnIdGetB
  case tarnRandom => exact lasts_tarnRandomB
  case tarnSign => exact lasts_tarnSignB
  case tarnVerify => exact lasts_tarnVerifyB
  case tarnNodeQuery => exact lasts_tarnNodeQueryB
  case tarnPubkeyGet => exact lasts_tarnPubkeyGetB
  case tarnNodeInvalidate => exact lasts_tarnNodeInvalidateB
  case sysNop => exact lasts_sysNopB
  case sysCaps => exact lasts_sysCapsB
  case sysReset => exact lasts_sysResetB
  case sysGroupSet => exact lasts_sysGroupSetB
  case sysFgroupSet => exact lasts_sysFgroupSetB
  case sysGroupGet => exact lasts_sysGroupGetB
  case sysConfigSave => exact lasts_sysConfigSaveB

/-! ### Serving a request -/

/-- Step 12 makes books for a command, or lets it do nothing. -/
theorem lasting_stepTwelve {c : Ctx} {s : State} {r : Reply × State} (h : lasting r.2 = lasting s) : lasting (stepTwelve c s r).2 = lasting s := by
  unfold stepTwelve
  split
  · split
    · exact h
    · rfl
  · exact h
  · split
    · rfl
    · exact h

/-- The check of what a buffer holds changes the reply only. -/
theorem lasting_dataCheck (c : Ctx) (r : Reply × State) : lasting (dataCheck c r).2 = lasting r.2 := by
  unfold dataCheck
  split
  · simp only
    split <;> rfl
  · rfl

@[simp] theorem lasting_resumeOf (x : ExecEntry) (w : Wait) (s : State) : lasting (resumeOf x w s).2 = lasting s := by
  unfold resumeOf
  split
  · next o _ => exact lasting_stepTwelve ((lasting_dataCheck _ _).trans ((behaviour_lasts o).resume _ w s))
  · rfl

/-- A request that waits for entropy which is there is resumed, and its meaning keeps what lasts. -/
@[simp] theorem lasting_settle (n : Nat) (x : ExecEntry) (r : Reply × State) : lasting (settle n x r) = lasting r.2 := by
  induction n generalizing x r with
  | zero =>
    obtain ⟨_ | _, s⟩ := r
    · exact lasting_finish ..
    · exact lasting_updExec ..
  | succ n ih =>
    obtain ⟨_ | w, s⟩ := r
    · exact lasting_finish ..
    · unfold settle
      simp only
      split
      · split
        · next e => rw [ih, lasting_resumeOf, lasting_takeEntropy e, lasting_updExec]
        · exact lasting_updExec ..
      · exact lasting_updExec ..

@[simp] theorem lasting_execute (c : Ctx) (e : Entry) (s : State) : lasting (execute c e s) = lasting s := by
  unfold execute
  simp only [lasting_settle]
  refine lasting_stepTwelve ?_
  split
  · rfl
  · exact (behaviour_lasts c.op).run c s

@[simp] theorem lasting_serve (f : Nat) (e : Entry) (s : State) : lasting (serve f e s) = lasting s := by
  unfold serve
  split
  · simp
  · split
    · simp
    · split <;> simp

@[simp] theorem lasting_readRequest (s : State) : lasting (readRequest s) = lasting s := by
  unfold readRequest
  split <;> simp

@[simp] theorem lasting_command (o : Op) (f : Nat) (q : Request) (s : State) : lasting (command o f q s) = lasting s := by simp [command]

@[simp] theorem lasting_dropOpening (x : ExecEntry) (s : State) : lasting (dropOpening x s) = lasting s := by simp [dropOpening]

@[simp] theorem lasting_dmaFailed (x : ExecEntry) (s : State) : lasting (dmaFailed x s) = lasting s := by simp [dmaFailed]

@[simp] theorem lasting_dmaDone (x : ExecEntry) (data : List Byte) (s : State) : lasting (dmaDone x data s) = lasting s := by
  unfold dmaDone
  split <;> simp

@[simp] theorem lasting_dropPairing (x : ExecEntry) (s : State) : lasting (dropPairing x s) = lasting s := by simp [dropPairing]

@[simp] theorem lasting_abandonWait (x : ExecEntry) (s : State) : lasting (abandonWait x s) = lasting s := by
  unfold abandonWait
  split <;> simp

@[simp] theorem lasting_applyFlash (w : FlashWork) (s : State) : lasting (applyFlash w s) = lasting s := by
  unfold applyFlash
  split <;> simp

@[simp] theorem lasting_flashDone (j : FlashJob) (ok : Bool) (s : State) : lasting (flashDone j ok s) = lasting s := by
  unfold flashDone
  split <;> simp

@[simp] theorem lasting_drawWaiting (s : State) : lasting (drawWaiting s) = lasting s := by
  unfold drawWaiting
  refine (lasting_forEach _ lasting_sendChallenge _).trans (lasting_forEach _ (fun x t => ?_) s)
  split
  · split
    · next e => simp [lasting_takeEntropy e]
    · rfl
  · rfl

/-! ### The master tick boundary -/

@[simp] theorem lasting_headRecord (c : Nat) (f : Frame) (s : State) : lasting (headRecord c f s) = lasting s := by simp [headRecord]

@[simp] theorem lasting_deadline (c : Nat) (s : State) : lasting (deadline c s) = lasting s := by
  unfold deadline
  split
  · rfl
  · simp only
    split <;> simp

@[simp] theorem lasting_latePulse (c : Nat) (s : State) : lasting (latePulse c s) = lasting s := by
  unfold latePulse
  split <;> simp

@[simp] theorem lasting_endEncode (c st : Nat) (s : State) : lasting (endEncode c st s) = lasting s := by simp [endEncode]

@[simp] theorem lasting_endTick (s : State) : lasting (endTick s) = lasting s := by simp [endTick]

@[simp] theorem lasting_ageQueues (s0 : State) : lasting (ageQueues s0) = lasting s0 := by simp [ageQueues]

@[simp] theorem lasting_passBoundary (s : State) : lasting (passBoundary s) = lasting s := by simp [passBoundary]

/-- The commands whose boundary it is make their effects, and are answered. -/
@[simp] theorem lasting_takeEffects (due : List ExecEntry) (s : State) : lasting (takeEffects due s) = lasting s := by
  refine lasting_forEach _ (fun x t => ?_) s
  split
  · next o _ => exact (lasting_finishAt ..).trans ((behaviour_lasts o).effect _ t)
  · simp

@[simp] theorem lasting_channelTick (k c : Nat) (s : State) : lasting (channelTick k c s) = lasting s := by
  unfold channelTick
  split <;> simp

@[simp] theorem lasting_releaseItems (s : State) : lasting (releaseItems s) = lasting s := by
  have units (c st : Nat) (t : State) : lasting (match (tget (t.chan c).runs st).current with
      | some a => releaseCounts c st a (offerAu a (tget (t.chan c).runs st).ledgerRate t)
      | none => t) = lasting t := by split <;> simp
  unfold releaseItems
  simp only
  refine (lasting_forEach _ lasting_offerDecoded _).trans (lasting_forEach _ (fun c t => ?_) s)
  split
  · refine (lasting_forEach _ (fun p t => lasting_offerWindow ..) _).trans ?_
    exact (units c 1 _).trans (units c 0 t)
  · exact (units c 1 _).trans (units c 0 t)

@[simp] theorem lasting_beginJobs (k : Nat) (s : State) : lasting (beginJobs k s) = lasting s := by simp [beginJobs]

@[simp] theorem lasting_atTickEnd (s : State) : lasting (atTickEnd s) = lasting s := by simp [atTickEnd]

@[simp] theorem lasting_beforeCommands (s : State) : lasting (beforeCommands s) = lasting s := by simp [beforeCommands]

@[simp] theorem lasting_afterCommands (s u : State) : lasting (afterCommands s u) = lasting u := by simp [afterCommands]

@[simp] theorem lasting_unlaunched (s : State) : lasting (unlaunched s) = lasting s := by simp [unlaunched]

@[simp] theorem lasting_nextBoundary (s : State) : lasting (nextBoundary s) = lasting s := by simp [nextBoundary]

/-! ### How a command ends -/

/-- R1, R6, R582, and log entries 1, 16 and 17 (the model's choices). How a command ends: it keeps what lasts; where it is well-formed it
is refused only of a memory controller that the part does not have; and it faults only at an address beyond the installed array. -/
def Ends (i : Instr) (s : State) : Host.Outcome State Fault Refusal → Prop
  | .next t => lasting t = lasting s
  | .refused r => i.wf = true → ∃ d, r = .noSuchUnit "memory controller" d ∧ s.nDmc ≤ d
  | .fault e => ∃ d a, e = .noSuchAddress d a ∧ ((∃ c : Chunk, i = .chunkServiceDone d c ∧ (s.dmcN d).size < c.addr + chunkLen c)
      ∨ (∃ x, i = .patrolScrub d a x ∧ (s.dmcN d).size < a / 32 * 32 + 32))

section
variable {i : Instr} {s : State} {p : Prop} [Decidable p] {o o' : Host.Outcome State Fault Refusal}

@[simp] theorem ends_next {t : State} : Ends i s (.next t) ↔ lasting t = lasting s := Iff.rfl

@[simp] theorem ends_ite : Ends i s (if p then o else o') ↔ (p → Ends i s o) ∧ (¬p → Ends i s o') := by
  split <;> simp_all

/-- A guard that no well-formed command meets. -/
theorem ends_guard {unit : String} {n : Nat} (hw : i.wf = true → ¬p) (ho : Ends i s o) :
    Ends i s (if p then .refused (.noSuchUnit unit n) else o) :=
  ends_ite.mpr ⟨fun h w => absurd h (hw w), fun _ => ho⟩

/-- A well-formed command meets each of its checks. -/
theorem check_of_wf {b : Bool} {flaw : Flaw} {before after : List (Bool × Flaw)}
    (hc : i.checks = before ++ (b, flaw) :: after) (hw : i.wf = true) : b = true :=
  List.all_eq_true.mp hw (b, flaw) (by simp [hc])

/-- A guard that refuses a number which the first check of the command refuses as well. -/
theorem ends_numberGuard {unit : String} {k n m : Nat} {flaw : Flaw} {rest : List (Bool × Flaw)}
    (hc : i.checks = (decide (n < k), flaw) :: rest) (ho : Ends i s o) :
    Ends i s (if k ≤ n then .refused (.noSuchUnit unit m) else o) :=
  ends_guard (fun hw => Nat.not_le.mpr (of_decide_eq_true (check_of_wf (before := []) hc hw))) ho

/-- The guard of a camera port and its virtual channels. -/
theorem ends_portGuard {unit : String} {port vc m : Nat} {flaw flaw' : Flaw} {rest : List (Bool × Flaw)}
    (hc : i.checks = (decide (port < 16), flaw) :: (decide (vc < 16), flaw') :: rest) (ho : Ends i s o) :
    Ends i s (if noPort port vc then .refused (.noSuchUnit unit m) else o) := by
  refine ends_guard (fun hw => ?_) ho
  have hport : port < 16 := of_decide_eq_true (check_of_wf (before := []) hc hw)
  have hvc : vc < 16 := of_decide_eq_true (check_of_wf (before := [_]) hc hw)
  simp [noPort, hport, hvc]

/-- The guard of a channel's streams. -/
theorem ends_streamGuard {unit : String} {ch st m : Nat} {flaw flaw' : Flaw} {rest : List (Bool × Flaw)}
    (hc : i.checks = (decide (ch < 32), flaw) :: (decide (st < 2), flaw') :: rest) (ho : Ends i s o) :
    Ends i s (if 32 ≤ ch ∨ 2 ≤ st then .refused (.noSuchUnit unit m) else o) := by
  refine ends_guard (fun hw => ?_) ho
  have hch : ch < 32 := of_decide_eq_true (check_of_wf (before := []) hc hw)
  have hst : st < 2 := of_decide_eq_true (check_of_wf (before := [_]) hc hw)
  omega

/-- The guard of the part's memory controllers. -/
theorem ends_controllerGuard {d : Nat} (ho : Ends i s o) :
    Ends i s (if s.nDmc ≤ d then .refused (.noSuchUnit "memory controller" d) else o) :=
  ends_ite.mpr ⟨fun h _ => ⟨d, rfl, h⟩, fun _ => ho⟩

/-- R400, R401. What stops a refresh: a memory channel that no controller has, or a controller that does not refresh. -/
theorem ends_refreshing {d ch : Nat} {check : Bool × Flaw} {flaw : Flaw} {rest : List (Bool × Flaw)}
    (hc : i.checks = check :: (decide (ch < 8), flaw) :: rest) (h : refreshing s d ch = some o) : Ends i s o := by
  unfold refreshing at h
  split at h
  · next hd => cases h; exact fun _ => ⟨d, rfl, hd⟩
  · split at h
    · next hch => cases h; exact fun hw => absurd (of_decide_eq_true (check_of_wf (before := [_]) hc hw)) (Nat.not_lt.mpr hch)
    · split at h
      · cases h; rfl
      · cases h
end

/-- R397, R399. A well-formed chunk is one that a master can issue. -/
theorem chunkGood_of_good {c : Chunk} (h : c.good = true) : chunkGood c = true := by
  have hlen : chunkLen c = c.size := rfl
  have hreal : isRealTime c.master = c.master.realTime := rfl
  simpa [chunkGood, Chunk.good, hlen, hreal] using h

/-- R66. A job of a well-formed command belongs to an engine. -/
theorem meterJobUnit_of_known {j : MeterJob} (h : j.known = true) : meterJobUnit j = none := by
  cases j <;> simp_all [MeterJob.known, meterJobUnit]

/-! ### The events of the device, one by one -/

theorem ends_fsyncPulse (ch : Nat) (s : State) : Ends (.fsyncPulse ch) s (execFsyncPulse ch s) := by
  unfold execFsyncPulse
  split <;> simp

theorem ends_fsyncPulseEnd (ch : Nat) (s : State) : Ends (.fsyncPulseEnd ch) s (execFsyncPulseEnd ch s) := by
  unfold execFsyncPulseEnd
  split <;> simp

theorem ends_csi2LineStart (port vc line : Nat) (ecc : HdrEcc) (s : State) :
    Ends (.csi2LineStart port vc line ecc) s (execCsi2LineStart port vc line ecc s) :=
  ends_portGuard rfl (by simp)

theorem ends_csi2LongPacket (port vc dt wc : Nat) (crcOk : Bool) (ecc : HdrEcc) (data : List Byte) (s : State) :
    Ends (.csi2LongPacket port vc dt wc crcOk ecc data) s (execCsi2LongPacket port vc dt wc crcOk ecc data s) := by
  refine ends_portGuard rfl ?_
  split
  · simp
  · next h => simp [lasting_takeHeader h]

theorem ends_csi2FrameEnd (port vc : Nat) (ecc : HdrEcc) (s : State) :
    Ends (.csi2FrameEnd port vc ecc) s (execCsi2FrameEnd port vc ecc s) :=
  ends_portGuard rfl (by simp)

theorem ends_csi2PhyError (port : Nat) (s : State) : Ends (.csi2PhyError port) s (execCsi2PhyError port s) :=
  ends_numberGuard rfl (by simp)

theorem ends_calEstimate (ch param : Nat) (s : State) : Ends (.calEstimate ch param) s (execCalEstimate ch param s) := by
  refine ends_numberGuard rfl ?_
  split <;> simp

theorem ends_calTimeLimit (ch param : Nat) (s : State) : Ends (.calTimeLimit ch param) s (execCalTimeLimit ch param s) :=
  ends_numberGuard rfl (by simp)

theorem ends_calRecordWrite (ch : Nat) (s : State) : Ends (.calRecordWrite ch) s (execCalRecordWrite ch s) := by
  refine ends_numberGuard rfl ?_
  simp only
  split <;> simp

theorem ends_pipeJobEnd (ch : Nat) (s : State) : Ends (.pipeJobEnd ch) s (execPipeJobEnd ch s) :=
  ends_numberGuard rfl (by simp)

theorem ends_decJobEnd (h : Nat) (r : DecResult) (s : State) : Ends (.decJobEnd h r) s (execDecJobEnd h r s) :=
  ends_numberGuard rfl (by simp)

theorem ends_encJobEnd (ch st : Nat) (s : State) : Ends (.encJobEnd ch st) s (execEncJobEnd ch st s) :=
  ends_streamGuard rfl (by simp)

theorem ends_itpJobEnd (ch st : Nat) (s : State) : Ends (.itpJobEnd ch st) s (execItpJobEnd ch st s) :=
  ends_streamGuard rfl (by simp)

theorem ends_sealJobEnd (ch st : Nat) (s : State) : Ends (.sealJobEnd ch st) s (execSealJobEnd ch st s) :=
  ends_streamGuard rfl (by simp)

theorem ends_packetDequeue (port : Nat) (s : State) : Ends (.packetDequeue port) s (execPacketDequeue port s) :=
  ends_numberGuard rfl (by simp)

theorem ends_packetTxComplete (port : Nat) (ok : Bool) (s : State) : Ends (.packetTxComplete port ok) s (execPacketTxComplete port ok s) :=
  ends_numberGuard rfl (by simp)

theorem ends_calendarSlot (port : Nat) (s : State) : Ends (.calendarSlot port) s (execCalendarSlot port s) :=
  ends_numberGuard rfl (by simp)

theorem ends_ringSlotPoll (flow : Nat) (ok : Bool) (addr blen : Nat) (ctrl : Word) (s : State) :
    Ends (.ringSlotPoll flow ok addr blen ctrl) s (execRingSlotPoll flow ok addr blen ctrl s) :=
  ends_numberGuard rfl (by simp)

theorem ends_txFrameDue (flow : Nat) (s : State) : Ends (.txFrameDue flow) s (execTxFrameDue flow s) :=
  ends_numberGuard rfl (by simp)

theorem ends_txFrameSent (port : Nat) (s : State) : Ends (.txFrameSent port) s (execTxFrameSent port s) :=
  ends_numberGuard rfl (by simp)

theorem ends_flowSample (i : Nat) (s : State) : Ends (.flowSample i) s (execFlowSample i s) :=
  ends_numberGuard rfl (by simp)

theorem ends_macLinkDown (mac : Nat) (s : State) : Ends (.macLinkDown mac) s (execMacLinkDown mac s) :=
  ends_numberGuard rfl (by simp)

theorem ends_macLinkUp (mac : Nat) (s : State) : Ends (.macLinkUp mac) s (execMacLinkUp mac s) :=
  ends_numberGuard rfl (by simp)

theorem ends_macFrameReceived (mac : Nat) (s : State) : Ends (.macFrameReceived mac) s (execMacFrameReceived mac s) :=
  ends_numberGuard rfl (by simp)

theorem ends_pcieLinkRetrain (lanes : Nat) (l : LinkSetting) (s : State) :
    Ends (.pcieLinkRetrain lanes l) s (execPcieLinkRetrain lanes l s) := by
  simp [execPcieLinkRetrain]

theorem ends_headCheckStart (ch : Nat) (s : State) : Ends (.headCheckStart ch) s (execHeadCheckStart ch s) := by
  unfold execHeadCheckStart
  split
  · split
    · split
      · next h => simp [lasting_checkWindow h]
      · simp
    · simp
  · simp

theorem ends_seStatusPoll (ch : Nat) (u : Unit) (s : State) : Ends (.seStatusPoll ch u) s (execSeStatusPoll ch u s) := by
  unfold execSeStatusPoll
  split <;> simp

theorem ends_i3cTransactionDone (bus : Nat) (r : BusResult) (s : State) :
    Ends (.i3cTransactionDone bus r) s (execI3cTransactionDone bus r s) := by
  refine ends_numberGuard rfl ?_
  split <;> simp

theorem ends_headCheckDone (ch : Nat) (s : State) : Ends (.headCheckDone ch) s (execHeadCheckDone ch s) := by
  unfold execHeadCheckDone
  split <;> simp

theorem ends_csi2FrameStart (port vc : Nat) (ecc : HdrEcc) (s : State) :
    Ends (.csi2FrameStart port vc ecc) s (execCsi2FrameStart port vc ecc s) :=
  ends_portGuard rfl (by simp)

theorem ends_lifeMinute (ch : Nat) (u : Unit) (s : State) : Ends (.lifeMinute ch u) s (execLifeMinute ch u s) := by
  unfold execLifeMinute
  split <;> simp

theorem ends_lifePush (ch : Nat) (s : State) : Ends (.lifePush ch) s (execLifePush ch s) := by
  unfold execLifePush
  split <;> simp

theorem ends_headTempRead (ch : Nat) (u : Unit) (s : State) : Ends (.headTempRead ch u) s (execHeadTempRead ch u s) :=
  ends_numberGuard rfl (by simp)

theorem ends_timeLoRead (f size : Nat) (s : State) : Ends (.timeLoRead f size) s (execTimeLoRead f size s) := by
  simp [execTimeLoRead]

theorem ends_timePtmSeqRead (f size : Nat) (s : State) : Ends (.timePtmSeqRead f size) s (execTimePtmSeqRead f size s) := by
  simp [execTimePtmSeqRead]

theorem ends_mbxReqPush (f size : Nat) (value : Word) (s : State) : Ends (.mbxReqPush f size value) s (execMbxReqPush f size value s) := by
  simp [execMbxReqPush]

theorem ends_mbxRspPop (f size : Nat) (s : State) : Ends (.mbxRspPop f size) s (execMbxRspPop f size s) := by
  simp [execMbxRspPop]

theorem ends_mbxCtrlWrite (f size : Nat) (value : Word) (s : State) :
    Ends (.mbxCtrlWrite f size value) s (execMbxCtrlWrite f size value s) := by
  simp [execMbxCtrlWrite]

theorem ends_irqAck (f size : Nat) (s : State) : Ends (.irqAck f size) s (execIrqAck f size s) := by
  simp [execIrqAck]

theorem ends_irqEoi (f size : Nat) (value : Word) (s : State) : Ends (.irqEoi f size value) s (execIrqEoi f size value s) := by
  simp [execIrqEoi]

theorem ends_irqSrcCfgWrite (f size : Nat) (value : Word) (s : State) :
    Ends (.irqSrcCfgWrite f size value) s (execIrqSrcCfgWrite f size value s) := by
  simp [execIrqSrcCfgWrite]

theorem ends_irqSrcCauseWrite (f size : Nat) (value : Word) (s : State) :
    Ends (.irqSrcCauseWrite f size value) s (execIrqSrcCauseWrite f size value s) := by
  simp [execIrqSrcCauseWrite]

theorem ends_irqCtrlWrite (f size : Nat) (value : Word) (s : State) :
    Ends (.irqCtrlWrite f size value) s (execIrqCtrlWrite f size value s) := by
  simp [execIrqCtrlWrite]

theorem ends_registerWrite (f offset size : Nat) (value : Word) (s : State) :
    Ends (.registerWrite f offset size value) s (execRegisterWrite f offset size value s) := by
  simp [execRegisterWrite]

theorem ends_msixUnmask (f vector : Nat) (s : State) : Ends (.msixUnmask f vector) s (execMsixUnmask f vector s) := by
  simp [execMsixUnmask]

theorem ends_requestPromotion (s : State) : Ends (.requestPromotion) s (execRequestPromotion s) := by
  simp [execRequestPromotion]

theorem ends_chunkServiceDone (dmc : Nat) (c : Chunk) (s : State) : Ends (.chunkServiceDone dmc c) s (execChunkServiceDone dmc c s) := by
  have good (hw : (Instr.chunkServiceDone dmc c).wf = true) : ¬(!chunkGood c) = true := by
    simpa using chunkGood_of_good (check_of_wf (before := [_]) rfl hw)
  refine ends_controllerGuard (ends_guard good (ends_ite.mpr ⟨fun h => ?_, fun _ => by simp⟩))
  simp only [Bool.and_eq_true, decide_eq_true_eq] at h
  exact ⟨dmc, c.addr, rfl, .inl ⟨c, rfl, h.2⟩⟩

theorem ends_refreshDue (dmc mch : Nat) (s : State) : Ends (.refreshDue dmc mch) s (execRefreshDue dmc mch s) := by
  unfold execRefreshDue
  split
  · next h => exact ends_refreshing rfl h
  · simp

theorem ends_refreshIssue (dmc mch : Nat) (s : State) : Ends (.refreshIssue dmc mch) s (execRefreshIssue dmc mch s) := by
  unfold execRefreshIssue
  split
  · next h => exact ends_refreshing rfl h
  · simp

theorem ends_refreshForced (dmc mch : Nat) (s : State) : Ends (.refreshForced dmc mch) s (execRefreshForced dmc mch s) := by
  unfold execRefreshForced
  split
  · next h => exact ends_refreshing rfl h
  · simp

theorem ends_mr4Read (dmc mch : Nat) (mult : Nat) (s : State) : Ends (.mr4Read dmc mch mult) s (execMr4Read dmc mch mult s) := by
  unfold execMr4Read
  split
  · next h => exact ends_refreshing rfl h
  · simp

theorem ends_patrolScrub (dmc sector : Nat) (e : EccFinding) (s : State) :
    Ends (.patrolScrub dmc sector e) s (execPatrolScrub dmc sector e s) :=
  ends_controllerGuard (ends_ite.mpr ⟨fun h => ⟨dmc, sector, rfl, .inr ⟨e, rfl, h⟩⟩, fun _ => by simp⟩)

theorem ends_cycleMeterExpiry (j : MeterJob) (undone : Nat) (s : State) :
    Ends (.cycleMeterExpiry j undone) s (execCycleMeterExpiry j undone s) := by
  unfold execCycleMeterExpiry
  split
  · next h =>
    intro hw
    have known : j.known = true := check_of_wf (before := []) rfl hw
    rw [meterJobUnit_of_known known] at h
    cases h
  · simp

theorem ends_seqWatchdog (q : Nat) (x : SeqStop) (s : State) : Ends (.seqWatchdog q x) s (execSeqWatchdog q x s) :=
  ends_numberGuard rfl (by simp)

theorem ends_avsFloorUpdate (dom floor : Nat) (s : State) : Ends (.avsFloorUpdate dom floor) s (execAvsFloorUpdate dom floor s) :=
  ends_numberGuard rfl (by simp)

theorem ends_pmbusStatusPoll (rail : Nat) (ack : Bool) (status iout : Nat) (s : State) :
    Ends (.pmbusStatusPoll rail ack status iout) s (execPmbusStatusPoll rail ack status iout s) :=
  ends_numberGuard rfl (by simp)

theorem ends_thermalSample (tj : Int) (s : State) : Ends (.thermalSample tj) s (execThermalSample tj s) := by
  simp [execThermalSample]

theorem ends_domainPowerUpDone (dom : Nat) (ok : Bool) (s : State) : Ends (.domainPowerUpDone dom ok) s (execDomainPowerUpDone dom ok s) :=
  ends_numberGuard rfl (by simp)

theorem ends_selfRefreshEntryDone (dmc : Nat) (s : State) : Ends (.selfRefreshEntryDone dmc) s (execSelfRefreshEntryDone dmc s) :=
  ends_controllerGuard (by simp)

theorem ends_selfRefreshExitDone (dmc : Nat) (s : State) : Ends (.selfRefreshExitDone dmc) s (execSelfRefreshExitDone dmc s) :=
  ends_controllerGuard (by simp)

theorem ends_ppsInPulse (at_ : Nat) (s : State) : Ends (.ppsInPulse at_) s (execPpsInPulse at_ s) := by
  simp [execPpsInPulse]

theorem ends_ppsInMissing (s : State) : Ends .ppsInMissing s (execPpsInMissing s) := by
  unfold execPpsInMissing
  split <;> simp

theorem ends_ppsOutPulse (s : State) : Ends (.ppsOutPulse) s (execPpsOutPulse s) := by
  simp [execPpsOutPulse]

theorem ends_gptpSyncTx (port : Nat) (s : State) : Ends (.gptpSyncTx port) s (execGptpSyncTx port s) :=
  ends_numberGuard rfl (by simp)

theorem ends_gptpAnnounceTx (port : Nat) (s : State) : Ends (.gptpAnnounceTx port) s (execGptpAnnounceTx port s) :=
  ends_numberGuard rfl (by simp)

theorem ends_gptpPdelayReqTx (port : Nat) (s : State) : Ends (.gptpPdelayReqTx port) s (execGptpPdelayReqTx port s) :=
  ends_numberGuard rfl (by simp)

theorem ends_gptpFrameReceived (port : Nat) (m : GptpMsg) (s : State) :
    Ends (.gptpFrameReceived port m) s (execGptpFrameReceived port m s) := by
  refine ends_numberGuard rfl (ends_ite.mpr ⟨fun _ => rfl, fun _ => ?_⟩)
  cases m <;> simp

theorem ends_ptmDialogue (s : State) : Ends (.ptmDialogue) s (execPtmDialogue s) := by
  simp [execPtmDialogue]

theorem ends_ptmDialogueDone (ok : Bool) (root : Nat) (s : State) : Ends (.ptmDialogueDone ok root) s (execPtmDialogueDone ok root s) := by
  simp [execPtmDialogueDone]

theorem ends_tamperAssert (s : State) : Ends (.tamperAssert) s (execTamperAssert s) := by
  simp [execTamperAssert]

theorem ends_trngHealthFail (s : State) : Ends (.trngHealthFail) s (execTrngHealthFail s) := by
  simp [execTrngHealthFail]

theorem ends_trngRestartDone (s : State) : Ends (.trngRestartDone) s (execTrngRestartDone s) := by
  simp [execTrngRestartDone]

theorem ends_chanStatusUpdate (ch : Nat) (s : State) : Ends (.chanStatusUpdate ch) s (execChanStatusUpdate ch s) :=
  ends_numberGuard rfl (by simp)

theorem ends_flowStatusUpdate (s : State) : Ends (.flowStatusUpdate) s (execFlowStatusUpdate s) := by
  simp [execFlowStatusUpdate]

theorem ends_conditionReassert (s : State) : Ends (.conditionReassert) s (execConditionReassert s) := by
  simp [execConditionReassert]

theorem ends_challengeExpiry (f : Nat) (s : State) : Ends (.challengeExpiry f) s (execChallengeExpiry f s) := by
  refine ends_numberGuard rfl ?_
  split <;> simp

theorem ends_functionLevelReset (f : Nat) (s : State) : Ends (.functionLevelReset f) s (execFunctionLevelReset f s) :=
  ends_numberGuard rfl (by simp)

theorem ends_vfEnableChange (numVfs : Nat) (enable : Bool) (s : State) :
    Ends (.vfEnableChange numVfs enable) s (execVfEnableChange numVfs enable s) :=
  ends_numberGuard rfl (by simp)

theorem ends_fullReset (t : ResetTrigger) (s : State) : Ends (.fullReset t) s (execFullReset t s) := by
  simp [execFullReset]

theorem ends_resetRelease (straps : Straps) (puf : PufRead) (s : State) :
    Ends (.resetRelease straps puf) s (execResetRelease straps puf s) := by
  simp [execResetRelease]

theorem ends_railPowerUp (rail : Nat) (ok : Bool) (s : State) : Ends (.railPowerUp rail ok) s (execRailPowerUp rail ok s) :=
  ends_numberGuard rfl (by simp)

theorem ends_dmcTrainingDone (ok : Bool) (s : State) : Ends (.dmcTrainingDone ok) s (execDmcTrainingDone ok s) := by
  simp [execDmcTrainingDone]

theorem ends_memoryInitDone (s : State) : Ends (.memoryInitDone) s (execMemoryInitDone s) := by
  simp [execMemoryInitDone]

theorem ends_bringUpReady (s : State) : Ends (.bringUpReady) s (execBringUpReady s) := by
  simp [execBringUpReady]

theorem ends_controlWatchdog (s : State) : Ends (.controlWatchdog) s (execControlWatchdog s) := by
  simp [execControlWatchdog]

theorem ends_refclkInFailure (s : State) : Ends (.refclkInFailure) s (execRefclkInFailure s) := by
  simp [execRefclkInFailure]

theorem ends_requestRead (s : State) : Ends (.requestRead) s (execRequestRead s) := by
  simp [execRequestRead]

theorem ends_dmaTransferDone (f tag : Nat) (ok : Bool) (data : List Byte) (s : State) :
    Ends (.dmaTransferDone f tag ok data) s (execDmaTransferDone f tag ok data s) := by
  unfold execDmaTransferDone
  split <;> simp

theorem ends_dmaTimeout (f tag : Nat) (s : State) : Ends (.dmaTimeout f tag) s (execDmaTimeout f tag s) := by
  unfold execDmaTimeout
  split <;> simp

theorem ends_deferredTimeout (f tag : Nat) (s : State) : Ends (.deferredTimeout f tag) s (execDeferredTimeout f tag s) := by
  unfold execDeferredTimeout
  split
  · split <;> simp
  · simp

theorem ends_flashProgramDone (ok : Bool) (s : State) : Ends (.flashProgramDone ok) s (execFlashProgramDone ok s) := by
  unfold execFlashProgramDone
  simp only
  split <;> simp

theorem ends_trngBlockReady (block : List Byte) (s : State) : Ends (.trngBlockReady block) s (execTrngBlockReady block s) := by
  simp [execTrngBlockReady]

theorem ends_ingressDeadline (ch : Nat) (s : State) : Ends (.ingressDeadline ch) s (execIngressDeadline ch s) :=
  ends_numberGuard rfl (by simp)

theorem ends_masterTickBoundary (s : State) : Ends (.masterTickBoundary) s (execMasterTickBoundary s) := by
  simp [execMasterTickBoundary]

theorem ends_headChange (ch : Nat) (s : State) : Ends (.headChange ch) s (execHeadChange ch s) := by
  simp [execHeadChange, execMasterTickBoundary]

/-! ### Every command -/

theorem ends_command (i : Instr) (o : Op) (f : Nat) (q : Request) (s : State) : Ends i s (.next (command o f q s)) := lasting_command o f q s

/-- An event ends as its own lemma says; a command of the host is served. -/
theorem exec_ends (i : Instr) (s : State) : Ends i s (exec i s) := by
  cases i
  case fsyncPulse ch => exact ends_fsyncPulse ch s
  case fsyncPulseEnd ch => exact ends_fsyncPulseEnd ch s
  case csi2LineStart port vc line ecc => exact ends_csi2LineStart port vc line ecc s
  case csi2LongPacket port vc dt wc crcOk ecc data => exact ends_csi2LongPacket port vc dt wc crcOk ecc data s
  case csi2FrameEnd port vc ecc => exact ends_csi2FrameEnd port vc ecc s
  case csi2PhyError port => exact ends_csi2PhyError port s
  case calEstimate ch param => exact ends_calEstimate ch param s
  case calTimeLimit ch param => exact ends_calTimeLimit ch param s
  case calRecordWrite ch => exact ends_calRecordWrite ch s
  case pipeJobEnd ch => exact ends_pipeJobEnd ch s
  case decJobEnd h r => exact ends_decJobEnd h r s
  case encJobEnd ch st => exact ends_encJobEnd ch st s
  case itpJobEnd ch st => exact ends_itpJobEnd ch st s
  case sealJobEnd ch st => exact ends_sealJobEnd ch st s
  case packetDequeue port => exact ends_packetDequeue port s
  case packetTxComplete port ok => exact ends_packetTxComplete port ok s
  case calendarSlot port => exact ends_calendarSlot port s
  case ringSlotPoll flow ok addr blen ctrl => exact ends_ringSlotPoll flow ok addr blen ctrl s
  case txFrameDue flow => exact ends_txFrameDue flow s
  case txFrameSent port => exact ends_txFrameSent port s
  case flowSample i => exact ends_flowSample i s
  case macLinkDown mac => exact ends_macLinkDown mac s
  case macLinkUp mac => exact ends_macLinkUp mac s
  case macFrameReceived mac => exact ends_macFrameReceived mac s
  case pcieLinkRetrain lanes l => exact ends_pcieLinkRetrain lanes l s
  case headCheckStart ch => exact ends_headCheckStart ch s
  case seStatusPoll ch u => exact ends_seStatusPoll ch u s
  case i3cTransactionDone bus r => exact ends_i3cTransactionDone bus r s
  case headCheckDone ch => exact ends_headCheckDone ch s
  case csi2FrameStart port vc ecc => exact ends_csi2FrameStart port vc ecc s
  case lifeMinute ch u => exact ends_lifeMinute ch u s
  case lifePush ch => exact ends_lifePush ch s
  case headTempRead ch u => exact ends_headTempRead ch u s
  case timeLoRead f size => exact ends_timeLoRead f size s
  case timePtmSeqRead f size => exact ends_timePtmSeqRead f size s
  case mbxReqPush f size value => exact ends_mbxReqPush f size value s
  case mbxRspPop f size => exact ends_mbxRspPop f size s
  case mbxCtrlWrite f size value => exact ends_mbxCtrlWrite f size value s
  case irqAck f size => exact ends_irqAck f size s
  case irqEoi f size value => exact ends_irqEoi f size value s
  case irqSrcCfgWrite f size value => exact ends_irqSrcCfgWrite f size value s
  case irqSrcCauseWrite f size value => exact ends_irqSrcCauseWrite f size value s
  case irqCtrlWrite f size value => exact ends_irqCtrlWrite f size value s
  case registerWrite f offset size value => exact ends_registerWrite f offset size value s
  case msixUnmask f vector => exact ends_msixUnmask f vector s
  case requestPromotion => exact ends_requestPromotion s
  case chunkServiceDone dmc c => exact ends_chunkServiceDone dmc c s
  case refreshDue dmc mch => exact ends_refreshDue dmc mch s
  case refreshIssue dmc mch => exact ends_refreshIssue dmc mch s
  case refreshForced dmc mch => exact ends_refreshForced dmc mch s
  case mr4Read dmc mch mult => exact ends_mr4Read dmc mch mult s
  case patrolScrub dmc sector e => exact ends_patrolScrub dmc sector e s
  case cycleMeterExpiry j undone => exact ends_cycleMeterExpiry j undone s
  case seqWatchdog q x => exact ends_seqWatchdog q x s
  case avsFloorUpdate dom floor => exact ends_avsFloorUpdate dom floor s
  case pmbusStatusPoll rail ack status iout => exact ends_pmbusStatusPoll rail ack status iout s
  case thermalSample tj => exact ends_thermalSample tj s
  case domainPowerUpDone dom ok => exact ends_domainPowerUpDone dom ok s
  case selfRefreshEntryDone dmc => exact ends_selfRefreshEntryDone dmc s
  case selfRefreshExitDone dmc => exact ends_selfRefreshExitDone dmc s
  case ppsInPulse at_ => exact ends_ppsInPulse at_ s
  case ppsInMissing => exact ends_ppsInMissing s
  case ppsOutPulse => exact ends_ppsOutPulse s
  case gptpSyncTx port => exact ends_gptpSyncTx port s
  case gptpAnnounceTx port => exact ends_gptpAnnounceTx port s
  case gptpPdelayReqTx port => exact ends_gptpPdelayReqTx port s
  case gptpFrameReceived port m => exact ends_gptpFrameReceived port m s
  case ptmDialogue => exact ends_ptmDialogue s
  case ptmDialogueDone ok root => exact ends_ptmDialogueDone ok root s
  case tamperAssert => exact ends_tamperAssert s
  case trngHealthFail => exact ends_trngHealthFail s
  case trngRestartDone => exact ends_trngRestartDone s
  case chanStatusUpdate ch => exact ends_chanStatusUpdate ch s
  case flowStatusUpdate => exact ends_flowStatusUpdate s
  case conditionReassert => exact ends_conditionReassert s
  case challengeExpiry f => exact ends_challengeExpiry f s
  case functionLevelReset f => exact ends_functionLevelReset f s
  case vfEnableChange numVfs enable => exact ends_vfEnableChange numVfs enable s
  case fullReset t => exact ends_fullReset t s
  case resetRelease straps puf => exact ends_resetRelease straps puf s
  case railPowerUp rail ok => exact ends_railPowerUp rail ok s
  case dmcTrainingDone ok => exact ends_dmcTrainingDone ok s
  case memoryInitDone => exact ends_memoryInitDone s
  case bringUpReady => exact ends_bringUpReady s
  case controlWatchdog => exact ends_controlWatchdog s
  case refclkInFailure => exact ends_refclkInFailure s
  case requestRead => exact ends_requestRead s
  case dmaTransferDone f tag ok data => exact ends_dmaTransferDone f tag ok data s
  case dmaTimeout f tag => exact ends_dmaTimeout f tag s
  case deferredTimeout f tag => exact ends_deferredTimeout f tag s
  case flashProgramDone ok => exact ends_flashProgramDone ok s
  case trngBlockReady block => exact ends_trngBlockReady block s
  case ingressDeadline ch => exact ends_ingressDeadline ch s
  case masterTickBoundary => exact ends_masterTickBoundary s
  case headChange ch => exact ends_headChange ch s
  all_goals exact ends_command ..

/-- Settles O10: each of the three clauses is what `exec_ends` says of one outcome. -/
theorem whatCommandsKeepAndWhereTheyStop : Obligations.WhatCommandsKeepAndWhereTheyStop := by
  unfold Obligations.WhatCommandsKeepAndWhereTheyStop
  refine ⟨fun i s t h => ?_, fun i s r hw h => ?_, fun i s e h => ?_⟩
  · have ends := exec_ends i s
    rw [h] at ends
    exact Prod.mk.inj ends
  · have ends := exec_ends i s
    rw [h] at ends
    exact ends hw
  · have ends := exec_ends i s
    rw [h] at ends
    exact ends

end Sys2Proof.Machine
end

section
/-!
PROOF. The FSYNC pulse of a channel tick, and its end (O28).
-/
namespace Sys2Proof.Machine

/-! ### Marks that come into force (R176) -/

theorem foldl_mark_eq (l : List SensorMark) (x : Chan) : l.foldl (fun y m => y.mark m.marks m.reasons) x =
    { x with
      settle := (l.foldl (fun y m => y.mark m.marks m.reasons) x).settle
      reasons := (l.foldl (fun y m => y.mark m.marks m.reasons) x).reasons } := by
  induction l generalizing x with
  | nil => rfl
  | cons m l ih => rw [List.foldl_cons, ih]; rfl

/-- R176. Marks that come into force change what the channel holds of settling, and nothing else of it. -/
theorem takeMarks_eq (t : Nat) (x : Chan) : takeMarks t x =
    { x with settle := (takeMarks t x).settle, reasons := (takeMarks t x).reasons, marks := (takeMarks t x).marks } := by
  unfold takeMarks
  simp only
  rw [foldl_mark_eq]

@[simp] theorem cfg_takeMarks (t : Nat) (x : Chan) : (takeMarks t x).cfg = x.cfg := by rw [takeMarks_eq]
@[simp] theorem nextCounter_takeMarks (t : Nat) (x : Chan) : (takeMarks t x).nextCounter = x.nextCounter := by rw [takeMarks_eq]
@[simp] theorem frames_takeMarks (t : Nat) (x : Chan) : (takeMarks t x).frames = x.frames := by rw [takeMarks_eq]

/-! ### Time carried to an instant (choice 2) -/

@[simp] theorem chan_advanceTo (at_ : Nat) (s : State) (c : Nat) : (advanceTo at_ s).chan c = s.chan c := rfl

/-- R38. With REFCLK_IN, device time reaches an instant that lies ahead, and does not go back to one that has passed. -/
theorem dev_advanceTo {s : State} (h : s.time.refclk = true) (at_ : Nat) : (advanceTo at_ s).time.dev = max s.time.dev at_ := by
  simp [advanceTo, TimeBase.advance, h]
  omega

/-! ### The pulse (R26, R31, R58) -/

section
variable {c b : Nat} {r : Rate} {s : State}

theorem exec_fsyncPulse_of_due (hdue : pulseDue s c = some b) (hrate : (s.chan c).cfg.rate = some r) (hclk : s.time.refclk = true) :
    exec (.fsyncPulse c) s = .next (pulse c b r s) := by
  show execFsyncPulse c s = _
  simp [execFsyncPulse, hdue, hrate, hclk]

/-- What a pulse can change: its channel, time, and the output. -/
theorem pulse_eq : pulse c b r s = { s with chans := (pulse c b r s).chans, time := (pulse c b r s).time, out := (pulse c b r s).out } := by
  unfold pulse
  simp only
  split <;> rfl

theorem time_pulse : (pulse c b r s).time = (advanceTo (pulseTime s r b) s).time := by
  unfold pulse
  simp only
  split <;> rfl

/-- R58, R60. The output takes its active level where the pulse has a width. -/
theorem out_pulse : (pulse c b r s).out = if r.width = 0 then s.out else .fsync c (!r.low) r.width :: s.out := by
  unfold pulse
  rcases Nat.eq_zero_or_pos r.width with h | h
  · simp [h, advanceTo]
  · simp [h, h.ne', pinLevel, advanceTo]

theorem chan_pulse_ne {d : Nat} (hd : d ≠ c) : (pulse c b r s).chan d = s.chan d := by
  unfold pulse
  simp only
  split <;> simp [hd.symm]

/-- R31, R173. The channel expects the new frame behind those it has. -/
theorem chan_pulse_same (hc : c < 32) :
    ((pulse c b r s).chan c).frames = (s.chan c).frames ++ [newFrame s c b (pulseTime s r b) r] ∧
    ((pulse c b r s).chan c).nextCounter = (s.chan c).nextCounter + 1 ∧ ((pulse c b r s).chan c).cfg = (s.chan c).cfg ∧
    ((pulse c b r s).chan c).fsync = decide (0 < r.width) := by
  unfold pulse
  simp only
  split <;> simp [hc]
end

/-! ### Its end (R60) -/

theorem exec_fsyncPulseEnd_of_high {c e : Nat} {s : State} (h : (s.chan c).fsyncEnd = some e) :
    exec (.fsyncPulseEnd c) s = .next (emit (.fsync c (pinLevel (s.chan c).cfg.rate false) 0)
      (modChan c (fun x => { x with fsync := false, fsyncEnd := none }) (advanceTo e s))) := by
  show execFsyncPulseEnd c s = _
  simp [execFsyncPulseEnd, h]

/-- R58, R60. The inactive level is high where POLARITY says active low. -/
theorem pinLevel_inactive (r : Option Rate) : pinLevel r false = r.any Rate.low := by simp [pinLevel]

/-- Settles O28: a due pulse is `pulse`, and a pulse that is high ends by what its end emits. -/
theorem fsyncPulses : Obligations.FsyncPulses := by
  unfold Obligations.FsyncPulses
  refine ⟨fun c b r s hc hdue hrate hclk => ?_, fun c e s hc hend hclk => ?_⟩
  · obtain ⟨hframes, hcounter, hcfg, hfsync⟩ := chan_pulse_same (b := b) (r := r) (s := s) hc
    refine ⟨pulse c b r s, newFrame s c b (pulseTime s r b) r, exec_fsyncPulse_of_due hdue hrate hclk, pulse_eq,
      fun d hd => chan_pulse_ne hd, hframes, ?_, rfl, ?_, rfl, rfl, rfl, rfl, hcounter, hcfg, hfsync, ?_, out_pulse⟩
    · simp [newFrame]
    · simp [newFrame]
    · rw [time_pulse, dev_advanceTo hclk]
      rfl
  · refine ⟨_, exec_fsyncPulseEnd_of_high hend, ?_, ?_, fun d hd => ?_, ?_⟩
    · rw [pinLevel_inactive]
      rfl
    · exact chan_modChan_same _ hc _
    · exact chan_modChan_ne _ hd.symm _
    · show e ≤ (advanceTo e s).time.dev
      rw [dev_advanceTo hclk]
      exact Nat.le_max_right _ _

end Sys2Proof.Machine
end

section
/-!
PROOF. The ingress deadline of a channel's oldest frame (O32): the outcome of its record, what the channel keeps of it, and what the offer of
the raw frame leaves as it was.
-/
namespace Sys2Proof.Machine

/-! ### What sources and flows hold, left out of view -/

/-- The state with what a raised source and an offered item can change left out. -/
def unoffered (s : State) : State := { s with flows := default, irq := default, fns := default, out := default }

@[simp] theorem unoffered_ite (b : Prop) [Decidable b] (s t : State) :
    unoffered (if b then s else t) = if b then unoffered s else unoffered t := apply_ite unoffered b s t

@[simp] theorem unoffered_modFlow (m : Nat) (g : FlowRun → FlowRun) (s : State) : unoffered (modFlow m g s) = unoffered s := rfl
@[simp] theorem unoffered_modChan (c : Nat) (g : Chan → Chan) (s : State) : unoffered (modChan c g s) = modChan c g (unoffered s) := rfl
@[simp] theorem chan_unoffered (s : State) : (unoffered s).chan = s.chan := rfl
@[simp] theorem unoffered_raise (n bit : Nat) (s : State) : unoffered (raise n bit s) = unoffered s := by rw [raise_eq]; rfl

@[simp] theorem unoffered_forEach {α : Type} (l : List α) {g : α → State → State} (h : ∀ a t, unoffered (g a t) = unoffered t) (s : State) :
    unoffered (forEach l g s) = unoffered s := forEach_same unoffered l g s fun a _ t => h a t

@[simp] theorem unoffered_exception (m bit : Nat) (s : State) : unoffered (exception m bit s) = unoffered s := by simp [exception, raiseFlow]
@[simp] theorem unoffered_backlog (m : Nat) (s : State) : unoffered (backlog m s) = unoffered s := by simp [backlog]
@[simp] theorem unoffered_offer (m : Nat) (it : Item) (s : State) : unoffered (offer m it s) = unoffered s := by simp [offer, when]

@[simp] theorem unoffered_offerRaw (c : Nat) (f : Frame) (s : State) : unoffered (offerRaw c f s) = unoffered s := by
  unfold offerRaw
  split <;> simp

/-! ### The record of a frame (R172) -/

/-- R172. What closing a frame decides. -/
theorem close_eq (f : Frame) :
    f.close = { f with outcome := f.close.outcome, fifoOvf := f.close.fifoOvf, late := f.close.late, truncLine := f.close.truncLine } := by
  unfold Frame.close
  simp only
  split
  · rfl
  · split
    · rfl
    · split <;> rfl

/-- R172. The first outcome that applies. -/
theorem outcome_close (f : Frame) : f.close.outcome = (if f.opened = false ∨ f.barred = true ∨ 16 < f.bad then .dropped
    else if f.ovfLine.isSome = true ∨ f.ended = false then .truncated else .complete) := by
  unfold Frame.close
  simp only [Bool.or_eq_true, Bool.not_eq_true', decide_eq_true_eq, or_assoc]
  split
  · rfl
  · cases f.ovfLine with
    | some l => rfl
    | none => cases f.ended <;> rfl

/-- R172. Only a truncated record has a first line that is not of the frame. -/
theorem truncLine_close {f : Frame} (h : f.close.outcome ≠ .truncated) : f.close.truncLine = 0xFFFF := by
  revert h
  unfold Frame.close
  simp only
  split
  · exact fun _ => rfl
  · split
    · exact fun h => absurd rfl h
    · split
      · exact fun h => absurd rfl h
      · exact fun _ => rfl

/-- R166, R172. A truncated record of a frame that overflowed begins to be cut at the line of the overflow. -/
theorem truncLine_close_of_overflow {f : Frame} {n : Nat} (h : f.close.outcome = .truncated) (hn : f.ovfLine = some n) :
    f.close.truncLine = n := by
  revert h
  unfold Frame.close
  simp only [hn]
  split
  · exact fun h => nomatch h
  · exact fun _ => rfl

/-! ### What a channel keeps of it (R96, R172, R173) -/

/-- R172, R238. The record of frame `f` as a channel closes it. -/
def Chan.recordFor (x : Chan) (f : Frame) : Frame :=
  { f.close with
    headKnown := x.head.state == .paired || x.head.state == .unpaired
    prevOk := x.lastRec.isNone || !x.lastDropped }

/-- R96, R173. A channel whose oldest frame's record has closed as `g`. -/
def Chan.recordClosed (g : Frame) (x : Chan) : Chan :=
  { x with
    frames := x.frames.tail
    lastRec := some g
    closed := (g.counter, g.capture)
    lastDropped := g.outcome == .dropped
    frameHwm := g.hwm
    embBytes := g.emb.length
    noFrame := if ofRun x g then x.enabled && !g.opened else x.noFrame
    trunc := satAdd 0xFFFF x.trunc (b2n (g.outcome == .truncated))
    drop := satAdd 0xFFFF x.drop (b2n (g.outcome == .dropped))
    pipeJob := some g
    pipeCut := none }

/-- R190, R199. What the record of frame `f` tells a channel of its head at an elapsed time. -/
def Chan.headSeen (f : Frame) (now : Nat) (x : Chan) : Chan :=
  if f.opened then { x with recordAt := now } else { x with head := { x.head with absent := true, startCheck := true, state := .unverified } }

theorem unoffered_closeRecord (c : Nat) (f : Frame) (s : State) :
    unoffered (closeRecord c f s) = modChan c (Chan.recordClosed ((s.chan c).recordFor f)) (unoffered s) := by
  unfold closeRecord raiseFrame raiseIngress
  simp only [unoffered_raise, unoffered_forEach, implies_true]
  rfl

theorem headRecord_eq (c : Nat) (f : Frame) (s : State) : headRecord c f s = modChan c (Chan.headSeen f s.time.elapsed) s := by
  unfold headRecord Chan.headSeen
  cases f.opened <;> rfl

/-- A closed record offers nothing: its flows stand. -/
theorem flows_closeRecord (c : Nat) (f : Frame) (s : State) : (closeRecord c f s).flows = s.flows := by
  have raised (n bit : Nat) (t : State) : (raise n bit t).flows = t.flows := by rw [raise_eq]
  unfold closeRecord raiseFrame raiseIngress
  rw [raised, forEach_same State.flows _ _ _ fun _ _ t => raised _ _ t]
  rfl

/-! ### The deadline -/

section
variable {c : Nat} {f : Frame} {s : State}

/-- R173. The record closes, the channel learns of its head, and the frame may be offered. -/
theorem unoffered_deadline (h : deadlineDue s c = some f) : unoffered (deadline c s) =
    modChan c (fun x => (x.recordClosed ((s.chan c).recordFor f)).headSeen f s.time.elapsed) (unoffered s) := by
  have time : (closeRecord c f s).time = s.time := (congrArg State.time (unoffered_closeRecord c f s) :)
  have closed : unoffered (headRecord c f (closeRecord c f s)) =
      modChan c (fun x => (x.recordClosed ((s.chan c).recordFor f)).headSeen f s.time.elapsed) (unoffered s) := by
    rw [headRecord_eq, unoffered_modChan, unoffered_closeRecord, modChan_modChan_fuse, time]
  unfold deadline
  rw [h]
  simp only
  split
  · split
    · exact closed
    · exact (unoffered_offerRaw ..).trans closed
  · exact closed

/-- R548. Once the control watchdog has fired no raw frame is offered (choice 85). -/
theorem flows_deadline_of_watchdog (hw : s.power.watchdog = true) : (deadline c s).flows = s.flows := by
  unfold deadline
  split
  · rfl
  · rw [headRecord_eq]
    simp only [hw, if_true]
    split <;> exact flows_closeRecord ..

theorem deadlineDue_of_oldest {rest : List Frame} (hf : (s.chan c).frames = f :: rest) (hlate : f.deadline < s.time.passed) :
    deadlineDue s c = some f := by simp [deadlineDue, hf, hlate]

theorem exec_ingressDeadline (hc : c < 32) : exec (.ingressDeadline c) s = .next (deadline c s) := if_neg (Nat.not_le.mpr hc)
end

section
variable (f : Frame) (now : Nat) (x : Chan)

/-- R190. A record with a Frame Start tells nothing of the head, one without makes it absent and the channel Unverified. -/
theorem head_headSeen : (x.headSeen f now).head =
    if f.opened then x.head else { x.head with absent := true, startCheck := true, state := .unverified } := by
  unfold Chan.headSeen
  cases f.opened <;> rfl

/-- R190, R199. What a record tells of the head changes nothing else but the time of the last one. -/
theorem headSeen_eq : x.headSeen f now = { x with recordAt := (x.headSeen f now).recordAt, head := (x.headSeen f now).head } := by
  unfold Chan.headSeen
  cases f.opened <;> rfl

/-- R172. A record has the outcome of its frame, and what it does not decide is the frame's. -/
theorem recordFor_eq : x.recordFor f =
    { f with
      outcome := f.close.outcome, fifoOvf := f.close.fifoOvf, late := f.close.late, truncLine := f.close.truncLine
      headKnown := (x.recordFor f).headKnown, prevOk := (x.recordFor f).prevOk } := by
  unfold Chan.recordFor
  rw [close_eq]
end

/-- R96. A saturating count of those records that have an outcome. -/
theorem satAdd_b2n_outcome (n m : Nat) (a b : RecOutcome) : satAdd n m (b2n (a == b)) = min n (m + if a = b then 1 else 0) := by
  simp [satAdd, b2n]

/-- Settles O32: the deadline closes the record as `Frame.close` decides, and the channel keeps it as `Chan.recordClosed` and
`Chan.headSeen` say. -/
theorem deadlineClosesTheRecord : Obligations.DeadlineClosesTheRecord := by
  unfold Obligations.DeadlineClosesTheRecord
  intro c f rest s hc hf hlate
  have hview := unoffered_deadline (deadlineDue_of_oldest hf hlate)
  have hother (d : Nat) (hd : d ≠ c) : (deadline c s).chan d = s.chan d :=
    (congrArg (State.chan · d) hview).trans (chan_modChan_ne _ hd.symm _)
  have hown : (deadline c s).chan c = ((s.chan c).recordClosed ((s.chan c).recordFor f)).headSeen f s.time.elapsed :=
    (congrArg (State.chan · c) hview).trans (chan_modChan_same _ hc _)
  have hhead := head_headSeen f s.time.elapsed ((s.chan c).recordClosed ((s.chan c).recordFor f))
  rw [← hown] at hhead
  rw [headSeen_eq] at hown
  have hg := recordFor_eq f (s.chan c)
  refine ⟨deadline c s, (s.chan c).recordFor f, exec_ingressDeadline hc, ?_, hother, ?_, ?_, ?_, ?_, ?_, ?_, ?_, outcome_close f,
    truncLine_close, fun h n => truncLine_close_of_overflow h, ?_, ?_, fun h => ?_, fun h => ?_, flows_deadline_of_watchdog⟩
  · exact congrArg (fun u : State => { u with
      flows := (deadline c s).flows, irq := (deadline c s).irq, fns := (deadline c s).fns, out := (deadline c s).out
      chans := (deadline c s).chans }) hview
  · rw [hown]
    exact congrArg List.tail hf
  · rw [hown]
    rfl
  · rw [hown]
    rfl
  · rw [hg]
  · rw [hg]
  · rw [hg]
  · rw [hg]
  · rw [hown]
    exact satAdd_b2n_outcome ..
  · rw [hown]
    exact satAdd_b2n_outcome ..
  · rw [hhead, h]
    exact ⟨rfl, rfl⟩
  · rw [hhead, h]
    rfl

end Sys2Proof.Machine
end

section
/-!
PROOF. The jobs of a channel (O33): what their hooks and meters report leaves the rest of the state as it was, the record and the windows of a
pipeline job, the access unit of an encode job, and what ITP and the seal job leave.
-/
namespace Sys2Proof.Machine

/-! ### What a job reports, left out of view -/

/-- The state with what the reports of a job can change left out: sources, meters and sequencers. -/
def unreported (s : State) : State :=
  { s with irq := default, fns := default, out := default, fresh := default, meters := default, seqs := default, cls := default }

@[simp] theorem unreported_ite (b : Prop) [Decidable b] (s t : State) :
    unreported (if b then s else t) = if b then unreported s else unreported t := apply_ite unreported b s t

@[simp] theorem unreported_modChan (c : Nat) (g : Chan → Chan) (s : State) : unreported (modChan c g s) = modChan c g (unreported s) := rfl
@[simp] theorem unreported_modSeq (q : Nat) (g : Seq → Seq) (s : State) : unreported (modSeq q g s) = unreported s := rfl
@[simp] theorem unreported_modCls (q : Nat) (g : SeqClass → SeqClass) (s : State) : unreported (modCls q g s) = unreported s := rfl
@[simp] theorem chan_unreported (s : State) : (unreported s).chan = s.chan := rfl
@[simp] theorem unreported_raise (n bit : Nat) (s : State) : unreported (raise n bit s) = unreported s := by rw [raise_eq]; rfl

@[simp] theorem unreported_raisePipe (c bit : Nat) (s : State) : unreported (raisePipe c bit s) = unreported s := unreported_raise ..
@[simp] theorem unreported_raiseEnc (c bit : Nat) (s : State) : unreported (raiseEnc c bit s) = unreported s := unreported_raise ..

@[simp] theorem unreported_forEach {α : Type} (l : List α) {g : α → State → State} (h : ∀ a t, unreported (g a t) = unreported t) (s : State) :
    unreported (forEach l g s) = unreported s := forEach_same unreported l g s fun a _ t => h a t

/-- R65. What metering a job can do. -/
theorem meterJob_eq (k : JobKey) (cut : Bool) (s : State) : meterJob k cut s =
    { s with fresh := (meterJob k cut s).fresh, meters := (meterJob k cut s).meters } := by
  unfold meterJob
  split <;> rfl

@[simp] theorem unreported_meterJob (k : JobKey) (cut : Bool) (s : State) : unreported (meterJob k cut s) = unreported s := by
  rw [meterJob_eq]; rfl

@[simp] theorem unreported_meterOverrun (k : JobKey) (s : State) : unreported (meterOverrun k s) = unreported s := by
  unfold meterOverrun
  split <;> rfl

@[simp] theorem unreported_countHook (k : JobKey) (h : Hooked) (s : State) : unreported (countHook k h s) = unreported s := by
  unfold countHook
  split <;> rfl

@[simp] theorem unreported_reportRoutine (k : JobKey) (routine : Nat) (e : RunEnd) {overrun : State → State}
    (h : ∀ t, unreported (overrun t) = unreported t) (s : State) : unreported (reportRoutine k routine e overrun s) = unreported s := by
  unfold reportRoutine
  cases e <;> simp [h]

/-! ### The windows of a pipeline job (R231) -/

/-- The numbers of what is made of a range of numbers. -/
theorem map_fst_filterMap {α : Type} (n : Nat) (g : Nat → Option (Nat × α)) (p : Nat → Bool)
    (h : ∀ i, (g i).map Prod.fst = if p i then some i else none) : ((List.range n).filterMap g).map Prod.fst = idx n p := by
  have guard : (fun i => (g i).map Prod.fst) = Option.guard p := funext h
  rw [List.map_filterMap, guard, List.filterMap_eq_filter, idx]

@[simp] theorem fst_formItem (s : State) (c : Nat) (f : Frame) (d : Nat × Window × List Plane) : (formItem s c f d).1 = d.1 := by
  unfold formItem
  simp only
  split <;> rfl

/-- R231. A pipeline job forms each window its frame is bound to. -/
theorem fst_formed_pipeResult (s : State) (c : Nat) (ext : Option Nat) (f : Frame) :
    (pipeResult s c ext f).formed.map Prod.fst = idx 4 fun i => (tget f.cfg.windows i).isSome := by
  unfold pipeResult
  simp only [List.map_map, Function.comp_def]
  exact map_fst_filterMap 4 _ _ fun i => by cases tget f.cfg.windows i <;> rfl

/-! ### The record of a pipeline job (R68) -/

/-- R68. Where a job was ended early it truncates its frame, which is still that frame, with its lines. -/
theorem frame_pipeResult (s : State) (c : Nat) (ext : Option Nat) (f : Frame) :
    (pipeResult s c ext f).frame.counter = f.counter ∧ (pipeResult s c ext f).frame.lines = f.lines := by
  unfold pipeResult
  simp only
  split <;> exact ⟨rfl, rfl⟩

theorem earlier_none (a : Option (Nat × Nat × RunEnd)) : earlier a none = a := by cases a <;> rfl

/-- R66. A meter that no hook uses meets no limit. -/
theorem meterLine_nil (left : Nat → Nat) : meterLine left [] = none := by simp [meterLine]

section
variable {s : State} {c : Nat} {f : Frame}

/-- R492. A hook that is not attached does not run. -/
theorem runHook_of_none {h : Nat} (hh : tget f.cfg.hooks h = none) (unit fmt w n rows : Nat) (left : Nat → Nat) (ports : Vector HPort 4) :
    runHook s c f h unit fmt w n rows left ports = none := by
  simp [runHook, hookRoutine, hh]

/-- Without a hook the pass is not cut and uses no cycles of one. -/
theorem onePass_of_unhooked (h0 : tget f.cfg.hooks 0 = none) (h1 : tget f.cfg.hooks 1 = none) :
    (onePass s c f).cut = none ∧ (onePass s c f).used = [] := by
  unfold onePass
  simp only [runHook_of_none h0, runHook_of_none h1]
  split <;> exact ⟨rfl, rfl⟩

/-- Without a hook a window is not cut and uses no cycles of one. -/
theorem hookWindow_of_unhooked (h2 : tget f.cfg.hooks 2 = none) (h3 : tget f.cfg.hooks 3 = none) (i : Nat) (w : Window) (xs : List Plane) :
    (hookWindow s c f i w xs).cut = none ∧ (hookWindow s c f i w xs).used = [] := by
  have unhooked : tget f.cfg.hooks (if isVision w.format then 3 else 2) = none := by split <;> assumption
  simp [hookWindow, unhooked]

/-- R68, R497. With no hook attached and nothing that ends the job the record stands. -/
theorem frame_pipeResult_of_unhooked (hh : ∀ h, h < 4 → tget f.cfg.hooks h = none) : (pipeResult s c none f).frame = f := by
  obtain ⟨hcut, hused⟩ := onePass_of_unhooked (s := s) (c := c) (hh 0 (by decide)) (hh 1 (by decide))
  have hwin := hookWindow_of_unhooked (s := s) (c := c) (hh 2 (by decide)) (hh 3 (by decide))
  have idle (l : List (Nat × Window)) : (l.flatMap fun _ => ([] : List (Nat × Nat))) = [] := List.flatMap_eq_nil_iff.mpr fun _ _ => rfl
  unfold pipeResult
  simp [hcut, hused, idle, hwin, List.foldl_map, List.flatMap_map, earlier_none, meterLine_nil]
end

/-! ### The pipeline job (R28) -/

/-- The channel whose pipeline job has handed on a frame with its windows. -/
def Chan.pipeDone (g : Frame) (forms : List (Nat × Formed)) (x : Chan) : Chan :=
  { x with pipeJob := none, pipeCut := none, encNext := some g, formed := forms }

/-- R68, R499. The line from which a pipeline job goes on without its engine: the first where its sequencer is halted, else that of its meter. -/
def pipeExt (s : State) (c : Nat) : Option Nat :=
  if (seqOf s (pipeKey c)).any fun q => (tget s.seqs q).halted then some 0 else (s.chan c).pipeCut.map Prod.fst

/-- What a job writes back of its record and its luma means is in its channel. -/
theorem keepTone_eq (c : Nat) (f : Frame) (lin : List Plane) (s : State) : keepTone c f lin s = { s with chans := (keepTone c f lin s).chans } := by
  unfold keepTone
  split <;> rfl

@[simp] theorem unreported_keepTone (c : Nat) (f : Frame) (lin : List Plane) (s : State) :
    unreported (keepTone c f lin s) = keepTone c f lin (unreported s) := by
  unfold keepTone
  split <;> rfl

@[simp] theorem chan_keepTone_ne {c d : Nat} (hd : c ≠ d) (f : Frame) (lin : List Plane) (s : State) :
    (keepTone c f lin s).chan d = s.chan d := by
  unfold keepTone
  split
  · rfl
  · exact chan_modChan_ne _ hd _

@[simp] theorem unreported_rewriteRecord (c : Nat) (old new : Frame) (s : State) :
    unreported (rewriteRecord c old new s) = rewriteRecord c old new (unreported s) := rfl

@[simp] theorem chan_rewriteRecord_ne {c d : Nat} (hd : c ≠ d) (old new : Frame) (s : State) :
    (rewriteRecord c old new s).chan d = s.chan d := chan_modChan_ne _ hd _

section
variable {s : State} {c : Nat} {f : Frame}

theorem exec_pipeJobEnd (hc : c < 32) : exec (.pipeJobEnd c) s = .next (pipeJobEnd c s) := if_neg (Nat.not_le.mpr hc)

/-- R231. The job of a dropped record hands its frame on, with the headers of the windows that are not coding ones. -/
theorem pipeJobEnd_of_dropped (hjob : (s.chan c).pipeJob = some f) (hrun : stalled s (pipeKey c) = false) (hf : f.outcome = .dropped) :
    ∃ forms, pipeJobEnd c s = modChan c (Chan.pipeDone f forms) s ∧
      forms.map Prod.fst = idx 4 fun i => (tget f.cfg.windows i).any fun w => !isCoding w.format := by
  unfold pipeJobEnd
  simp only [hjob, hrun, hf, Bool.false_eq_true, if_false, beq_self_eq_true, if_true]
  refine ⟨_, rfl, map_fst_filterMap 4 _ _ fun i => ?_⟩
  cases tget f.cfg.windows i with
  | none => rfl
  | some w => cases hw : isCoding w.format <;> simp [hw]

/-- R28, R68. The job of a record that is not dropped hands on what its pass has made of the frame. -/
theorem unreported_pipeJobEnd_of_kept {r : PipeResult} (hjob : (s.chan c).pipeJob = some f) (hrun : stalled s (pipeKey c) = false)
    (hf : f.outcome ≠ .dropped) (hr : pipeResult s c (pipeExt s c) f = r) :
    unreported (pipeJobEnd c s) = modChan c (Chan.pipeDone r.frame (r.formed.map (formItem s c r.frame)))
      (keepTone c r.frame r.linear (rewriteRecord c f r.frame (unreported s))) := by
  have kept : (f.outcome == .dropped) = false := beq_eq_false_iff_ne.mpr hf
  unfold pipeJobEnd
  extract_lets +onlyGivenNames x
  simp -zeta only [x, hjob, hrun, Bool.false_eq_true, if_false, kept]
  extract_lets halted ext r' s1 s2 s3 forms
  obtain rfl : r' = r := hr
  have h1 : unreported s1 = unreported s := by simp [s1]
  have h2 : unreported s2 = unreported s := by
    unfold s2
    split
    · simp [h1]
    · exact h1
  rw [unreported_modChan]
  unfold s3
  rw [unreported_keepTone, unreported_rewriteRecord, h2]
  rfl

/-- What a pipeline job leaves, where it hands on frame `g`. -/
theorem pipeJob_leaves {t u : State} {g : Frame} {forms : List (Nat × Formed)} (hc : c < 32)
    (ht : unreported t = modChan c (Chan.pipeDone g forms) u) (hu : u = { unreported s with chans := u.chans })
    (hother : ∀ d, d ≠ c → u.chan d = s.chan d) :
    t = { s with
      chans := t.chans, irq := t.irq, fns := t.fns, out := t.out, fresh := t.fresh, meters := t.meters, seqs := t.seqs, cls := t.cls } ∧
    (∀ d, d ≠ c → t.chan d = s.chan d) ∧ (t.chan c).pipeJob = none ∧ (t.chan c).encNext = some g ∧ (t.chan c).formed = forms := by
  have hown : t.chan c = Chan.pipeDone g forms (u.chan c) := (congrArg (State.chan · c) ht).trans (chan_modChan_same _ hc _)
  refine ⟨?_, fun d hd => ?_, ?_, ?_, ?_⟩
  · rw [hu] at ht
    exact congrArg (fun v : State => { v with
      chans := t.chans, irq := t.irq, fns := t.fns, out := t.out, fresh := t.fresh, meters := t.meters, seqs := t.seqs, cls := t.cls }) ht
  · exact ((congrArg (State.chan · d) ht).trans (chan_modChan_ne _ hd.symm _)).trans (hother d hd)
  · rw [hown]; rfl
  · rw [hown]; rfl
  · rw [hown]; rfl
end

/-! ### The encode job (R29, R287) -/

/-- A loop that changes flows changes nothing else. -/
theorem forEach_modFlow (l : List Nat) (g : Nat → FlowRun → FlowRun) (s : State) :
    ∃ flows, forEach l (fun m => modFlow m (g m)) s = { s with flows := flows } :=
  forEach_keeps (fun t => ∃ flows, t = { s with flows := flows }) l _ s ⟨_, rfl⟩ fun _ _ _ ⟨_, ht⟩ => ht ▸ ⟨_, rfl⟩

/-- The channel with the access unit of a stream, coded on an encoder core. -/
def Chan.coded (st core : Nat) (d : Coded) (x : Chan) : Chan :=
  { x with
    runs := tset x.runs st { d.run with current := some d.au, core := core }
    ovrEnc := satAdd 0xFFFF x.ovrEnc (b2n d.au.encOvr) }

/-- What is gathered for a stream is of its run. -/
theorem run_codingOf {s : State} {c st : Nat} {k : Coding} {w : Option Window} (h : codingOf s c st = some (k, w)) :
    k.run = tget (s.chan c).runs st := by
  unfold codingOf at h
  simp only at h
  split at h
  · cases h
    rfl
  · cases h

/-- What an access unit shows of the frame and the stream it was coded for. -/
theorem au_codeAu (s : State) (k : Coding) (r : StreamRun) (cut itpCut : Option Nat) :
    let a := (codeAu s k r cut itpCut).au
    a.channel = k.c ∧ a.stream = k.st ∧ a.counter = k.f.counter ∧ a.capture = k.f.capture ∧ a.sealed_ = false ∧
      a.eligible = s.lastBoundary + 1 ∧ a.skip = !k.usable := ⟨rfl, rfl, rfl, rfl, rfl, rfl, rfl⟩

section
variable {s : State} {c st : Nat}

theorem exec_encJobEnd (hc : c < 32) (hst : st < 2) : exec (.encJobEnd c st) s = .next (encJobEnd c st s) := if_neg (by omega)

/-- R279, R287. What a stream with a job and a declared rate is coded from: its frame, usable only where the record is complete. -/
theorem codingOf_of_job {f : Frame} {h : Hrd} (hjob : (tget (s.chan c).runs st).job = some f)
    (hhrd : (tget (s.chan c).cfg.streams st).hrd = some h) :
    ∃ k w, codingOf s c st = some (k, w) ∧ k.c = c ∧ k.st = st ∧ k.f = f ∧ (f.outcome ≠ .complete → k.usable = false) := by
  unfold codingOf
  simp only [hjob, hhrd]
  exact ⟨_, _, rfl, rfl, rfl, rfl, fun h => by simp [h]⟩

/-- A stream whose access unit is coded has no encode job left. -/
theorem encJobEnd_of_coded {a : AccessUnit} (h : (tget (s.chan c).runs st).current = some a) : encJobEnd c st s = s := by
  unfold encJobEnd
  split
  · rfl
  · next k w hcode =>
    rw [run_codingOf hcode, h]
    rfl

/-- R29, R288, R327. An encode job that runs codes an access unit, and leaves its stream's run, a count of the channel, and counts of flows. -/
theorem unreported_encJobEnd {k : Coding} {w : Option Window} (hcode : codingOf s c st = some (k, w)) (hcur : k.run.current = none)
    (hrun : stalled s (encKey c st) = false) :
    ∃ src cut core flows, unreported (encJobEnd c st s) =
      { modChan c (Chan.coded st core (codeAu s { k with src := src } k.run cut k.run.itpCut)) (unreported s) with flows := flows } := by
  unfold encJobEnd
  simp -zeta only [hcode, hcur, Option.isSome_none, Bool.false_eq_true, if_false, hrun]
  extract_lets hooked halted ext cut d core s1 s2 r s3 s4 s5 s6
  have h1 : unreported s1 = unreported s := by simp [s1]
  have h2 : unreported s2 = unreported s := by
    unfold s2
    split
    · simp [h1]
    · exact h1
  have h5 : unreported s5 = unreported s3 := by simp [s5, s4]
  have h6 : unreported s6 = modChan c (Chan.coded st core d) (unreported s) := by
    unfold s6
    rw [unreported_modChan, h5]
    unfold s3
    rw [modRun_eq, unreported_modChan, h2, modChan_modChan_fuse]
    rfl
  refine ⟨paddedSource k.cfg.codec k.dims hooked.planes, cut, core, ?_⟩
  split
  · obtain ⟨flows, hflows⟩ := forEach_modFlow (idx 256 fun m => carries s c st m)
      (fun _ y => { y with hrdClamp := satAdd 0xFFFF y.hrdClamp 1 }) (raiseEnc c 2 s6)
    have raised := (unreported_raiseEnc c 2 s6).trans h6
    exact ⟨flows, (congrArg unreported hflows).trans (congrArg (fun u : State => { u with flows := flows }) raised)⟩
  · exact ⟨_, h6⟩
end

/-! ### ITP, and the seal job (R301, R447) -/

section
variable {s : State} {c st : Nat}

theorem exec_itpJobEnd (hc : c < 32) (hst : st < 2) : exec (.itpJobEnd c st) s = .next (itpJobEnd c st s) := if_neg (by omega)

/-- R301. ITP ends its part of the stream's job, and is metered where it had work. -/
theorem itpJobEnd_eq (hfine : (s.chan c).cfg.fine = true) (hjob : (tget (s.chan c).runs st).job.isSome = true)
    (hdone : (tget (s.chan c).runs st).itpDone = false) : itpJobEnd c st s =
    { modRun c st (fun x => { x with itpDone := true }) s with
      fresh := (itpJobEnd c st s).fresh, meters := (itpJobEnd c st s).meters } := by
  unfold itpJobEnd
  simp only [hfine, hjob, hdone, Bool.not_false, Bool.and_self, if_true]
  split
  · rw [meterJob_eq]
  · rfl

theorem exec_sealJobEnd (hc : c < 32) (hst : st < 2) : exec (.sealJobEnd c st) s = .next (sealJobEnd c st s) := if_neg (by omega)

/-- R447. The seal job of a coded access unit seals it. -/
theorem sealJobEnd_of_coded {a : AccessUnit} (hc : c < 32) (hst : st < 2) (ha : (tget (s.chan c).runs st).current = some a)
    (hsealed : a.sealed_ = false) :
    sealJobEnd c st s = { s with chans := (sealJobEnd c st s).chans } ∧ (∀ d, d ≠ c → (sealJobEnd c st s).chan d = s.chan d) ∧
    tget ((sealJobEnd c st s).chan c).runs st =
      { tget (s.chan c).runs st with current := some (sealAu s (tget (s.chan c).runs st) a) } := by
  unfold sealJobEnd
  simp only [encJobEnd_of_coded ha, modRun_eq]
  refine ⟨rfl, fun d hd => chan_modChan_ne _ hd.symm _, ?_⟩
  rw [chan_modChan_same _ hc, tget_tmod_same _ hst, ha]
  simp [hsealed]

/-- R276, R447. Sealing an access unit fills in its seal SEI and nothing else. -/
theorem sealAu_eq (s : State) (r : StreamRun) (a : AccessUnit) : ∃ nal : Nal, nal.kind = .sealSei ∧
    sealAu s r a = { a with nals := a.nals.map fun n => if n.kind = .sealSei then nal else n, sealed_ := true } := ⟨sealNal a.h265 _, rfl, rfl⟩
end

/-! ### The four jobs -/

section
variable {c : Nat} {s : State}

/-- R28, R68, R231. The pipeline job of a channel whose engine runs. -/
theorem pipeJob_ends (hc : c < 32) {f : Frame} (hjob : (s.chan c).pipeJob = some f) (hrun : stalled s (pipeKey c) = false) :
    ∃ t g, exec (.pipeJobEnd c) s = .next t ∧
      t = { s with chans := t.chans, irq := t.irq, fns := t.fns, out := t.out, fresh := t.fresh, meters := t.meters, seqs := t.seqs, cls := t.cls } ∧
      (∀ d, d ≠ c → t.chan d = s.chan d) ∧ (t.chan c).pipeJob = none ∧ (t.chan c).encNext = some g ∧ g.counter = f.counter ∧ g.lines = f.lines ∧
      (t.chan c).formed.map Prod.fst = idx 4 (fun i => (tget f.cfg.windows i).any fun w => f.outcome != .dropped || !isCoding w.format) ∧
      (f.outcome = .dropped → g = f) ∧
      (f.cfg.hooks = Vector.replicate 6 none → (s.chan c).pipeCut = none → (∀ q, seqOf s (pipeKey c) = some q → (tget s.seqs q).halted = false) →
        g = f) := by
  by_cases hf : f.outcome = .dropped
  · obtain ⟨forms, ht, hforms⟩ := pipeJobEnd_of_dropped hjob hrun hf
    obtain ⟨hframe, hother, hdone, hnext, hformed⟩ := pipeJob_leaves (u := unreported s) hc (congrArg unreported ht) rfl fun _ _ => rfl
    refine ⟨_, f, exec_pipeJobEnd hc, hframe, hother, hdone, hnext, rfl, rfl, ?_, fun _ => rfl, fun _ _ _ => rfl⟩
    simp only [hformed, hforms, hf, bne_self_eq_false, Bool.false_or]
  · have ht := unreported_pipeJobEnd_of_kept hjob hrun hf rfl
    obtain ⟨hframe, hother, hdone, hnext, hformed⟩ := pipeJob_leaves hc ht
      (by rw [keepTone_eq]; rfl) fun d hd => by rw [chan_keepTone_ne hd.symm, chan_rewriteRecord_ne hd.symm, chan_unreported]
    obtain ⟨hcounter, hlines⟩ := frame_pipeResult s c (pipeExt s c) f
    refine ⟨_, _, exec_pipeJobEnd hc, hframe, hother, hdone, hnext, hcounter, hlines, ?_, fun h => absurd h hf, fun hhooks hcut hhalt => ?_⟩
    · have number (g : Frame) : Prod.fst ∘ formItem s c g = Prod.fst := funext fun d => fst_formItem s c g d
      rw [hformed, List.map_map, number, fst_formed_pipeResult]
      refine congrArg (idx 4) (funext fun i => ?_)
      cases tget f.cfg.windows i <;> simp [hf]
    · have hext : pipeExt s c = none := by
        have running : ((seqOf s (pipeKey c)).any fun q => (tget s.seqs q).halted) = false := by
          cases hq : seqOf s (pipeKey c) with
          | none => rfl
          | some q => exact hhalt q hq
        simp [pipeExt, running, hcut]
      rw [hext]
      exact frame_pipeResult_of_unhooked fun h hh => by rw [hhooks]; exact tget_replicate none (by omega)

/-- R29, R279, R287. The encode job of a stream whose core runs. -/
theorem encJob_ends {st : Nat} (hc : c < 32) (hst : st < 2) {f : Frame} {h : Hrd} (hjob : (tget (s.chan c).runs st).job = some f)
    (hhrd : (tget (s.chan c).cfg.streams st).hrd = some h) (hcur : (tget (s.chan c).runs st).current = none)
    (hrun : stalled s (encKey c st) = false) :
    ∃ t a, exec (.encJobEnd c st) s = .next t ∧
      t = { s with chans := t.chans, flows := t.flows, irq := t.irq, fns := t.fns, out := t.out, fresh := t.fresh, meters := t.meters,
                   seqs := t.seqs, cls := t.cls } ∧
      (∀ d, d ≠ c → t.chan d = s.chan d) ∧ (tget (t.chan c).runs st).current = some a ∧ a.channel = c ∧ a.stream = st ∧
      a.counter = f.counter ∧ a.capture = f.capture ∧ a.sealed_ = false ∧ a.eligible = s.lastBoundary + 1 ∧
      (f.outcome ≠ .complete → a.skip = true) ∧ (∀ n, n ≠ st → tget (t.chan c).runs n = tget (s.chan c).runs n) := by
  obtain ⟨k, w, hcode, rfl, rfl, rfl, husable⟩ := codingOf_of_job hjob hhrd
  rw [← run_codingOf hcode] at hcur
  obtain ⟨src, cut, core, flows, hview⟩ := unreported_encJobEnd hcode hcur hrun
  obtain ⟨hchannel, hstream, hcounter, hcapture, hsealed, heligible, hskip⟩ := au_codeAu s { k with src := src } k.run cut k.run.itpCut
  generalize codeAu s { k with src := src } k.run cut k.run.itpCut = d at *
  have hother (n : Nat) (hn : n ≠ k.c) : (encJobEnd k.c k.st s).chan n = s.chan n :=
    (congrArg (State.chan · n) hview).trans (chan_modChan_ne _ hn.symm _)
  have hown : (encJobEnd k.c k.st s).chan k.c = (s.chan k.c).coded k.st core d :=
    (congrArg (State.chan · k.c) hview).trans (chan_modChan_same _ hc _)
  refine ⟨_, d.au, exec_encJobEnd hc hst, ?_, hother, ?_, hchannel, hstream, hcounter, hcapture, hsealed, heligible, fun hf => ?_,
    fun n hn => ?_⟩
  · generalize encJobEnd k.c k.st s = t at hview
    exact congrArg (fun v : State => { v with
      chans := t.chans, flows := t.flows, irq := t.irq, fns := t.fns, out := t.out, fresh := t.fresh, meters := t.meters, seqs := t.seqs
      cls := t.cls }) hview
  · rw [hown, Chan.coded, tget_tset_same _ hst]
  · rw [hskip, husable hf]
    rfl
  · rw [hown, Chan.coded, tget_tset_ne _ hn.symm]
end

/-- Settles O33: each job ends as the lemma about it says. -/
theorem jobsOfAChannelEnd : Obligations.JobsOfAChannelEnd := by
  unfold Obligations.JobsOfAChannelEnd
  intro c s hc
  refine ⟨fun f hjob hrun => pipeJob_ends hc hjob hrun, fun st f h hst hjob hhrd hcur hrun => encJob_ends hc hst hjob hhrd hcur hrun,
    fun st hst hfine hjob hdone => ?_, fun st a hst ha hsealed => ?_⟩
  · have hview := itpJobEnd_eq hfine hjob hdone
    generalize ht : itpJobEnd c st s = t at hview
    refine ⟨t, ht ▸ exec_itpJobEnd hc hst, ?_, ?_, fun d hd => ?_⟩
    · rw [hview]
      rfl
    · rw [hview]
      exact (congrArg (fun x : Chan => tget x.runs st) (chan_modChan_same _ hc _)).trans (tget_tmod_same _ hst _)
    · rw [hview]
      exact chan_modChan_ne _ hd.symm _
  · obtain ⟨hframe, hother, hown⟩ := sealJobEnd_of_coded hc hst ha hsealed
    obtain ⟨nal, hkind, hnal⟩ := sealAu_eq s (tget (s.chan c).runs st) a
    exact ⟨_, nal, exec_sealJobEnd hc hst, hframe, hother, hkind, hnal ▸ hown⟩

end Sys2Proof.Machine
end

section
/-!
PROOF. The state after reset, the step on an empty queue, and the reads with a side action (O2, O5, O16).
-/
namespace Sys2Proof.Machine

/-- Settles O2: with the queue empty the step is `idle`, whose clock adds a whole number of ns. -/
theorem idleStepPassesOneClock : Obligations.IdleStepPassesOneClock := by
  unfold Obligations.IdleStepPassesOneClock
  intro s hpending
  have hstep : step s = idle s := by
    unfold step
    rw [hpending]
  refine ⟨fun hstopped => ?_, fun hruns hdev => ⟨?_, Nat.le_add_right .., Nat.mod_lt _ (by norm_num)⟩⟩
  · rw [hstep, idle, if_neg (by simp [hstopped])]
  · have hdev' : (clock s.time).dev < 18446744073709551616 := hdev
    rw [hstep, idle, if_pos hruns, if_pos hdev']
    rfl

namespace AtReset

/-- Settles O5: every table of the reset state repeats one entry. -/
theorem resetState : Obligations.ResetState := by
  unfold Obligations.ResetState
  refine ⟨rfl, rfl, rfl, rfl, rfl, rfl, rfl, fun n hn => tget_replicate _ hn, fun f hf => ?_, fun m hm => ?_, fun c hc => ?_⟩
  · have hfn : State.reset.fn f = Fn.reset := tget_replicate _ hf
    rw [hfn]
    exact ⟨rfl, rfl, rfl⟩
  · have hcfg : State.reset.fcfg m = FlowCfg.reset := tget_replicate _ hm
    have hrun : State.reset.flow m = default := tget_replicate _ hm
    rw [hcfg, hrun]
    exact ⟨rfl, rfl, rfl⟩
  · have hchan : State.reset.chan c = Chan.reset := tget_replicate _ hc
    rw [hchan]
    exact ⟨rfl, rfl⟩

end AtReset

/-! ### Reads -/

/-- Two changes that agree on the function as it stands. -/
theorem modFn_congr {f : Nat} {g k : Fn → Fn} {s : State} (h : g (s.fn f) = k (s.fn f)) : modFn f g s = modFn f k s :=
  congrArg (fun x => { s with fns := tset s.fns f x }) h

/-- A read of 32 bits of a present function, at an aligned offset, has its action. -/
theorem goodAccess_of_present {f off : Nat} {s : State} (h : s.fnPresent f = true) (hoff : off % 4 = 0) : goodAccess s f off 4 = true := by
  simp [goodAccess, h, hoff]

/-- A read with an action `g` of a present function completes with `v` after it. -/
theorem completeRead_modFn {f : Nat} {s : State} (h : s.fnPresent f = true) (v : Word) (g : Fn → Fn) :
    completeRead f v (modFn f g s) = modFn f (fun x => { g x with readData := v }) s := by
  rw [completeRead, if_pos (show (modFn f g s).fnPresent f = true from h), modFn_modFn_fuse]

/-- The first word of a response's 64 bytes. -/
theorem tget_wordsOf_zero (b : List Byte) : tget (wordsOf b) 0 = wOf (field b 0 4) := tget_ofFn _ (by norm_num)

/-- Settles O16: each read is a good access, so its action is taken and then the read completes. -/
theorem readsWithActions : Obligations.ReadsWithActions := by
  unfold Obligations.ReadsWithActions
  intro f s hpresent
  have hread {off : Nat} (hoff : off % 4 = 0) : goodAccess s f off 4 = true := goodAccess_of_present hpresent hoff
  have hpop : exec (.mbxRspPop f 4) s = .next (popResponse f s) := congrArg Host.Outcome.next (if_pos (hread rfl))
  refine ⟨congrArg Host.Outcome.next ((if_pos (hread rfl)).trans (completeRead_modFn hpresent ..)),
    congrArg Host.Outcome.next ((if_pos (hread rfl)).trans (completeRead_modFn hpresent ..)), fun r l hq => ?_, fun hq => ?_⟩
  · rw [hpop, popResponse, completeRead_modFn hpresent, tget_wordsOf_zero]
    exact congrArg Host.Outcome.next (modFn_congr (by simp only [hq]; rfl))
  · rw [hpop, popResponse, completeRead_modFn hpresent, hq]
    exact congrArg Host.Outcome.next (modFn_congr (by simp only [hq]; rfl))

end Sys2Proof.Machine
end

section
/-!
PROOF. What leaves on the clocks' own account, and what arrives from the links (O26, O27).
-/
namespace Sys2Proof.Machine

/-! ### Time while the timebase runs -/

theorem refclk_of_clockRuns {s : State} (h : s.clockRuns = true) : s.time.refclk = true := by
  simp only [State.clockRuns, Bool.and_eq_true] at h
  exact h.1

/-- R38, R566. With REFCLK_IN, elapsed time reaches an instant that lies ahead. -/
theorem elapsed_advanceElapsed {s : State} (h : s.time.refclk = true) (at_ : Nat) :
    (advanceElapsed at_ s).time.elapsed = max s.time.elapsed at_ := by
  simp [advanceElapsed, TimeBase.advance, h]
  omega

/-! ### 1PPS_OUT (R49) -/

/-- The next whole second is one, has not risen, does not lie behind, and no such second comes before it. -/
theorem nextSecond_spec (t : TimeBase) : nextSecond t % 1000000000 = 0 ∧ t.dev ≤ nextSecond t ∧ t.ppsRoseAt ≠ some (nextSecond t) ∧
    ∀ m, m % 1000000000 = 0 → t.dev ≤ m → t.ppsRoseAt ≠ some m → nextSecond t ≤ m := by
  unfold nextSecond cdiv
  simp only
  split
  · next hrose =>
    refine ⟨by omega, by omega, fun h => ?_, fun m hm hdev hne => ?_⟩
    · have := Option.some.inj (hrose.symm.trans h)
      omega
    · have : m ≠ (t.dev + 1000000000 - 1) / 1000000000 * 1000000000 := fun e => hne (e ▸ hrose)
      omega
  · next hrose => exact ⟨by omega, by omega, hrose, fun m hm hdev _ => by omega⟩

theorem exec_ppsOutPulse {s : State} (h : s.clockRuns = true) : exec .ppsOutPulse s = .next
    (emit (.ppsOut (nextSecond s.time + 10000000) false) (emit (.ppsOut (nextSecond s.time) true)
      (modTime (fun t => { t with ppsRoseAt := some (nextSecond s.time) }) (advanceTo (nextSecond s.time) s)))) :=
  congrArg Host.Outcome.next (if_pos h)

/-! ### gPTP (R50 to R52) -/

section
variable {p : Nat} {s : State}

theorem gptpUp_of_up (hp : p < 2) (hruns : s.clockRuns = true) (hup : (tget s.ports p).up = true) : gptpUp s p = true := by
  simp [gptpUp, hp, hruns, hup]

/-- The number is a MAC's, and what it sends or receives takes effect. -/
theorem port_ite {α : Type} (hp : p < 2) {a b : α} : (if 2 ≤ p then a else b) = b := if_neg (Nat.not_le.mpr hp)

/-- The counts of a port, from the counts as they stand. -/
theorem modGptp_of_counts {x : Nat × Nat × Nat} (h : tget s.time.gptpSeq p = x) (g : Nat × Nat × Nat → Nat × Nat × Nat) :
    modGptp p g s = { s with time := { s.time with gptpSeq := tset s.time.gptpSeq p (g x) } } := by
  rw [← h]
  rfl

variable {a b c : Nat} (hp : p < 2) (hup : gptpUp s p = true) (hseq : tget s.time.gptpSeq p = (a, b, c))
include hp hup hseq

/-- R51. Sync and its Follow_Up share a number. -/
theorem exec_gptpSyncTx : exec (.gptpSyncTx p) s = .next { s with
    time := { s.time with gptpSeq := tset s.time.gptpSeq p ((a + 1) % 65536, b, c) }
    out := .gptp p 0x0180C200000E 0x88F7 1 a [(s.time.dev / 4 * 4 : Nat), s.time.timeBaseInd, s.time.lastPhaseChange] ::
      .gptp p 0x0180C200000E 0x88F7 0 a [0, s.time.logSync] :: s.out } := by
  show execGptpSyncTx p s = _
  rw [execGptpSyncTx, port_ite hp, if_pos hup]
  simp only [hseq, modGptp_of_counts hseq]
  rfl

/-- R51. -/
theorem exec_gptpAnnounceTx : exec (.gptpAnnounceTx p) s = .next { s with
    time := { s.time with gptpSeq := tset s.time.gptpSeq p (a, (b + 1) % 65536, c) }
    out := .gptp p 0x0180C200000E 0x88F7 2 b [0, s.time.prio1, clockClass s.time, clockAccuracy s.time, 248, timeSource s.time,
      b2n (s.time.ptpTs && s.time.baseSet)] :: s.out } := by
  show execGptpAnnounceTx p s = _
  rw [execGptpAnnounceTx, port_ite hp, if_pos hup]
  simp only [hseq, modGptp_of_counts hseq]
  rfl

/-- R51. The request and when it left are kept until its answer. -/
theorem exec_gptpPdelayReqTx : exec (.gptpPdelayReqTx p) s = .next { s with
    time := { s.time with
      gptpSeq := tset s.time.gptpSeq p (a, b, (c + 1) % 65536)
      pdelay := tset s.time.pdelay p { tget s.time.pdelay p with req := some (c, s.time.dev / 4 * 4), resp := none } }
    out := .gptp p 0x0180C200000E 0x88F7 3 c [0] :: s.out } := by
  show execGptpPdelayReqTx p s = _
  rw [execGptpPdelayReqTx, port_ite hp, if_pos hup]
  simp only [hseq, modGptp_of_counts hseq]
  rfl
end

/-! ### PTM (R53) -/

/-- A dialogue is due 10 ms after the last, and time does not go back. -/
theorem elapsed_toDialogue {s : State} (h : s.time.refclk = true) : s.time.elapsed ≤ (toDialogue s).time.elapsed ∧
    ∀ a, s.time.ptmAt = some a → a + 10000000 ≤ (toDialogue s).time.elapsed := by
  unfold toDialogue
  split
  · next hlast =>
    rw [elapsed_advanceElapsed h]
    refine ⟨le_max_left .., fun a ha => ?_⟩
    rw [hlast, Option.some.injEq] at ha
    exact ha ▸ le_max_right ..
  · next hlast => exact ⟨le_rfl, fun a ha => by simp [hlast] at ha⟩

theorem toDialogue_eq (s : State) : toDialogue s =
    { s with time := { s.time with dev := (toDialogue s).time.dev, elapsed := (toDialogue s).time.elapsed } } := by
  unfold toDialogue
  split
  · simp only [advanceElapsed, modTime, TimeBase.advance]
    split <;> rfl
  · rfl

theorem exec_ptmDialogue_of_idle {s : State} (hruns : s.clockRuns = true) (hen : s.time.ptmEn = true) (hidle : s.time.ptmBusy = false) :
    exec .ptmDialogue s = .next
      (emit .ptmRequest (modTime (fun t => { t with ptmBusy := true, ptmAt := some t.elapsed }) (toDialogue s))) := by
  show execPtmDialogue s = _
  simp [execPtmDialogue, hruns, hen, hidle]

/-- Settles O26, output by output: each leaves at its own instant, to which time advances. -/
theorem clockOutputs : Obligations.ClockOutputs := by
  unfold Obligations.ClockOutputs
  intro p s hruns
  have hclk := refclk_of_clockRuns hruns
  refine ⟨?_, fun hp hlink a b c hseq => ?_, fun hen hidle => ?_, fun hdis => ?_⟩
  · obtain ⟨hwhole, hahead, hnew, hfirst⟩ := nextSecond_spec s.time
    have hdev : (advanceTo (nextSecond s.time) s).time.dev = nextSecond s.time := (dev_advanceTo hclk _).trans (max_eq_right hahead)
    exact ⟨_, nextSecond s.time, exec_ppsOutPulse hruns, rfl, hwhole, hahead, hnew, hfirst, hdev, rfl, fun d => by simp [ppsLevel]⟩
  · have hup := gptpUp_of_up hp hruns hlink
    refine ⟨exec_gptpSyncTx hp hup hseq, ?_, exec_gptpPdelayReqTx hp hup hseq⟩
    rw [exec_gptpAnnounceTx hp hup hseq]
    have hclass : (clockClass s.time : Int) = match s.time.disc with | .locked => 6 | .holdover => 7 | _ => 248 := by
      cases h : s.time.disc <;> simp [clockClass, h]
    have haccuracy : (clockAccuracy s.time : Int) = if s.time.disc = .locked then 0x21 else 0xFE := by
      unfold clockAccuracy
      split <;> rfl
    have hsource : (timeSource s.time : Int) = if s.time.disc = .locked ∧ s.time.ptpTs = true then 0x20 else 0xA0 := by
      simp [timeSource]
    have htraceable : (b2n (s.time.ptpTs && s.time.baseSet) : Int) = if s.time.ptpTs = true ∧ s.time.baseSet = true then 1 else 0 := by
      simp [b2n]
    rw [hclass, haccuracy, hsource, htraceable] <;> rfl
  · obtain ⟨hforward, hdue⟩ := elapsed_toDialogue hclk
    refine ⟨_, exec_ptmDialogue_of_idle hruns hen hidle, ?_, rfl, ?_, rfl, hdue, hforward⟩
    · conv => lhs; rw [toDialogue_eq s]
      conv => rhs; rw [toDialogue_eq s]
      rfl
    · rw [toDialogue_eq s]
      exact hen
  · show execPtmDialogue s = _
    simp [execPtmDialogue, hdis]

/-! ### Links (R369, R377, R388, R566) -/

theorem exec_gptpFrameReceived (p : Nat) (m : GptpMsg) (s : State) : exec (.gptpFrameReceived p m) s = execGptpFrameReceived p m s := rfl

/-- R52. An Announce that would win is counted, and its identity raises source 218 once on a port. -/
theorem exec_announce_of_win {p : Nat} {s : State} (hp : p < 2) (hup : gptpUp s p = true) {id_ p1 cls acc var p2 : Nat}
    (hwin : wouldWin s.time id_ p1 cls acc var p2 = true) :
    exec (.gptpFrameReceived p (.announce id_ p1 cls acc var p2)) s = .next (
      if (id_, p) ∈ s.time.foreign then { s with time := { s.time with foreignCount := s.time.foreignCount + 1 } }
      else raise 218 0 { s with time := { s.time with
        foreignCount := s.time.foreignCount + 1, foreign := (id_, p) :: s.time.foreign } }) := by
  rw [exec_gptpFrameReceived, execGptpFrameReceived, port_ite hp, hup]
  simp only [Bool.not_true, Bool.false_eq_true, if_false, hwin, if_true, List.contains_iff_mem]
  rfl

/-- R51. The answers to a Pdelay_Req change the port's measurement alone. -/
theorem exec_pdelayResp {p : Nat} {s : State} (hp : p < 2) (hup : gptpUp s p = true) (id_ n receipt : Nat) :
    exec (.gptpFrameReceived p (.pdelayResp id_ n receipt)) s = .next (modPdelay p (takeResp id_ n receipt (gptpStamp s.time)) s) := by
  rw [exec_gptpFrameReceived, execGptpFrameReceived, port_ite hp, hup]
  rfl

theorem exec_pdelayFollowUp {p : Nat} {s : State} (hp : p < 2) (hup : gptpUp s p = true) (id_ n origin : Nat) :
    exec (.gptpFrameReceived p (.pdelayFollowUp id_ n origin)) s = .next (modPdelay p (takeFollowUp id_ n origin) s) := by
  rw [exec_gptpFrameReceived, execGptpFrameReceived, port_ite hp, hup]
  rfl

/-- The measurement of a port, from the measurement as it stands. -/
theorem modPdelay_eq (p : Nat) (g : PeerDelay → PeerDelay) (s : State) :
    modPdelay p g s = { s with time := { s.time with pdelay := tset s.time.pdelay p (g (tget s.time.pdelay p)) } } := rfl

/-- Settles O27, arrival by arrival. -/
theorem linkArrivals : Obligations.LinkArrivals := by
  unfold Obligations.LinkArrivals
  intro p s hp
  refine ⟨fun hruns hlink => ?_, ?_, ?_, ?_, fun l g m e => rfl, rfl, fun hbusy => ⟨fun root => ?_, fun root => ?_⟩⟩
  · have hup := gptpUp_of_up hp hruns hlink
    refine ⟨fun id_ p1 cls acc var p2 => exec_announce_of_win hp hup, fun id_ p1 cls acc var p2 hlose => ?_, fun id_ n => ?_,
      fun n m t1 t2 t3 t4 hasked hnow => ⟨?_, fun t5 hanswered => ?_⟩, ?_⟩
    · rw [exec_gptpFrameReceived, execGptpFrameReceived, port_ite hp, hup]
      simp [hlose]
    · rw [exec_gptpFrameReceived, execGptpFrameReceived, port_ite hp, hup]
      rfl
    · rw [exec_pdelayResp hp hup, hnow, modPdelay_eq, hasked]
      simp [takeResp, gptpStamp]
    · rw [exec_pdelayFollowUp hp hup, modPdelay_eq, hasked, hanswered]
      simp [takeFollowUp]
    · rw [exec_gptpFrameReceived, execGptpFrameReceived, port_ite hp, hup]
      rfl
  · exact port_ite hp
  · exact port_ite hp
  · exact port_ite hp
  · show execPtmDialogueDone true root s = _
    simp only [execPtmDialogueDone, hbusy, Bool.not_true, Bool.false_eq_true, if_false, if_true]
    rfl
  · show execPtmDialogueDone false root s = _
    simp only [execPtmDialogueDone, hbusy, Bool.not_true, Bool.false_eq_true, if_false]
    rfl

end Sys2Proof.Machine
end

section
/-!
PROOF. Pulses of 1PPS_IN and their absence (O25).
-/
namespace Sys2Proof.Machine

/-! ### What a pulse, and one that is missing, can change -/

@[simp] theorem time_raise (n bit : Nat) (s : State) : (raise n bit s).time = s.time := by rw [raise_eq]

theorem advanceTo_eq (at_ : Nat) (s : State) : advanceTo at_ s = { s with time := (advanceTo at_ s).time } := rfl

/-- Time carried forward changes device time and elapsed time alone. -/
theorem time_advanceTo (at_ : Nat) (s : State) : (advanceTo at_ s).time =
    { s.time with dev := (advanceTo at_ s).time.dev, elapsed := (advanceTo at_ s).time.elapsed } := by
  simp only [advanceTo, modTime, TimeBase.advance]
  split <;> rfl

@[simp] theorem disc_advanceTo (at_ : Nat) (s : State) : (advanceTo at_ s).time.disc = s.time.disc := by rw [time_advanceTo]
@[simp] theorem corr_advanceTo (at_ : Nat) (s : State) : (advanceTo at_ s).time.corr = s.time.corr := by rw [time_advanceTo]
@[simp] theorem lastValid_advanceTo (at_ : Nat) (s : State) : (advanceTo at_ s).time.lastValid = s.time.lastValid := by rw [time_advanceTo]
@[simp] theorem missRun_advanceTo (at_ : Nat) (s : State) : (advanceTo at_ s).time.missRun = s.time.missRun := by rw [time_advanceTo]
@[simp] theorem validRun_advanceTo (at_ : Nat) (s : State) : (advanceTo at_ s).time.validRun = s.time.validRun := by rw [time_advanceTo]
@[simp] theorem goodRun_advanceTo (at_ : Nat) (s : State) : (advanceTo at_ s).time.goodRun = s.time.goodRun := by rw [time_advanceTo]
@[simp] theorem lockedCorrs_advanceTo (at_ : Nat) (s : State) : (advanceTo at_ s).time.lockedCorrs = s.time.lockedCorrs := by rw [time_advanceTo]

theorem missPulse_eq (s : State) : missPulse s =
    { s with time := (missPulse s).time, irq := (missPulse s).irq, fns := (missPulse s).fns, out := (missPulse s).out } := by
  unfold missPulse
  simp only
  split
  · rw [raise_eq 217, raise_eq 219]
    rfl
  · rw [raise_eq 219]
    rfl

theorem goodPulse_eq (s : State) : goodPulse s =
    { s with time := (goodPulse s).time, fresh := (goodPulse s).fresh, irq := (goodPulse s).irq, fns := (goodPulse s).fns, out := (goodPulse s).out } := by
  unfold goodPulse
  simp only
  split
  · split <;> rfl
  · split
    · rw [raise_eq]
      rfl
    · rfl
  · rfl
  · rfl

/-- R40. No TIME_SET_BASE waits for the pulse. -/
theorem loadAtPulse_of_none {s : State} (h : ∀ x ∈ s.exec, x.wait ≠ .pps) : loadAtPulse s = s := by
  have hnil : (s.exec.filter fun x => x.wait == .pps) = [] := List.filter_eq_nil_iff.mpr fun x hx => by simpa using h x hx
  rw [loadAtPulse, hnil, forEach_nil]

/-! ### The correction (R46) -/

/-- A value clamped to a range that holds another lies between the two. -/
theorem clampI_bounds {lo hi v : Int} (h : lo ≤ hi) : lo ≤ clampI lo hi v ∧ clampI lo hi v ≤ hi := by
  unfold clampI
  omega

theorem mayMove_le (t : TimeBase) : mayMove t ≤ 50000 := by
  unfold mayMove
  split
  · rfl
  · exact min_le_left ..

/-- A step of `n` towards `m`, no longer than the way there and than `k`. -/
theorem step_towards {c m : Int} {k n : Nat} (hn : n ≤ (clampI (-(k : Int)) k (m - c)).natAbs) (hc : -50000000 ≤ c ∧ c ≤ 50000000)
    (hm : -50000000 ≤ m ∧ m ≤ 50000000) (v : Int)
    (hv : v = clampI (-50000000) 50000000 (c + if clampI (-(k : Int)) k (m - c) < 0 then -(n : Int) else n)) :
    c - k ≤ v ∧ v ≤ c + k ∧ min c m ≤ v ∧ v ≤ max c m := by
  obtain ⟨hlo, hhi⟩ := clampI_bounds (lo := -(k : Int)) (hi := k) (v := m - c) (by omega)
  have hway : clampI (-(k : Int)) k (m - c) < 0 → m - c ≤ clampI (-(k : Int)) k (m - c) := by
    unfold clampI
    omega
  have hway' : 0 ≤ clampI (-(k : Int)) k (m - c) → clampI (-(k : Int)) k (m - c) ≤ max 0 (m - c) := by
    unfold clampI
    omega
  generalize clampI (-(k : Int)) k (m - c) = w at *
  subst hv
  unfold clampI
  split <;> omega

theorem corr_steer_eq (s : State) : (steer s).time.corr =
    clampI (-50000000) 50000000 (s.time.corr +
      if clampI (-(mayMove s.time : Int)) (mayMove s.time) (meetsSecond s.time - s.time.corr) < 0 then
        -((Config.freeNat s.fresh % ((clampI (-(mayMove s.time : Int)) (mayMove s.time) (meetsSecond s.time - s.time.corr)).natAbs + 1) : Nat) : Int)
      else ((Config.freeNat s.fresh % ((clampI (-(mayMove s.time : Int)) (mayMove s.time) (meetsSecond s.time - s.time.corr)).natAbs + 1) : Nat) : Int)) :=
  rfl

/-- R46. The correction moves by at most 50 ppb, and not past the value that meets the second. -/
theorem corr_steer {s : State} (hlo : -50000000 ≤ s.time.corr) (hhi : s.time.corr ≤ 50000000) :
    s.time.corr - 50000 ≤ (steer s).time.corr ∧ (steer s).time.corr ≤ s.time.corr + 50000 ∧
      min s.time.corr (meetsSecond s.time) ≤ (steer s).time.corr ∧ (steer s).time.corr ≤ max s.time.corr (meetsSecond s.time) := by
  have hmove := mayMove_le s.time
  obtain ⟨hdown, hup, hmin, hmax⟩ := step_towards (Nat.lt_succ_iff.mp (Nat.mod_lt _ (Nat.succ_pos _))) ⟨hlo, hhi⟩
    (clampI_bounds (by norm_num)) _ (corr_steer_eq s)
  exact ⟨by omega, by omega, hmin, hmax⟩

/-! ### A valid pulse (R46, R47) -/

/-- R46, R47. The timebase with a valid pulse counted. -/
def TimeBase.withValid (x : TimeBase) : TimeBase :=
  { x with lastValid := some x.dev, missRun := 0, validRun := x.validRun + 1, goodRun := if phaseGood x.dev then x.goodRun + 1 else 0 }

section
variable {s : State}

theorem goodPulse_of_free (h : s.time.disc = .free) : goodPulse s = modTime TimeBase.withValid s := by
  simp only [goodPulse, h]
  rfl

/-- R47. The fourth valid pulse in a row ends a HOLDOVER. -/
theorem time_goodPulse_of_holdover (h : s.time.disc = .holdover) : (goodPulse s).time =
    { s.time.withValid with
      disc := if 3 ≤ s.time.validRun then .acquiring else .holdover
      goodRun := if 3 ≤ s.time.validRun then 0 else s.time.withValid.goodRun
      holdoverS := if 3 ≤ s.time.validRun then min 65535 ((s.time.elapsed - s.time.holdoverAt) / 1000000000) else s.time.holdoverS } := by
  simp only [goodPulse, h]
  by_cases hfour : 3 ≤ s.time.validRun
  · rw [if_pos (by omega), if_pos hfour, if_pos hfour, if_pos hfour]
    rfl
  · rw [if_neg (by omega), if_neg hfour, if_neg hfour, if_neg hfour, ← h]
    rfl

/-- R47. The 16th valid pulse in a row within 100 ns locks. -/
theorem time_goodPulse_of_acquiring (h : s.time.disc = .acquiring) : (goodPulse s).time =
    if phaseGood s.time.dev = true ∧ 15 ≤ s.time.goodRun then
      { (steer (modTime TimeBase.withValid s)).time with
        disc := .locked, lockedCorrs := [(s.time.dev, (steer (modTime TimeBase.withValid s)).time.corr)] }
    else (steer (modTime TimeBase.withValid s)).time := by
  have hrun : (steer (modTime TimeBase.withValid s)).time.goodRun = if phaseGood s.time.dev then s.time.goodRun + 1 else 0 := rfl
  have hlocks : 16 ≤ (steer (modTime TimeBase.withValid s)).time.goodRun ↔ phaseGood s.time.dev = true ∧ 15 ≤ s.time.goodRun := by
    rw [hrun]
    split <;> simp_all
  have heq : goodPulse s = if 16 ≤ (steer (modTime TimeBase.withValid s)).time.goodRun then
      raise 216 0 (modTime (fun x => { x with disc := .locked, lockedCorrs := [(x.dev, x.corr)] }) (steer (modTime TimeBase.withValid s)))
    else steer (modTime TimeBase.withValid s) := by
    simp only [goodPulse, h]
    rfl
  rw [heq]
  by_cases hlock : phaseGood s.time.dev = true ∧ 15 ≤ s.time.goodRun
  · rw [if_pos (hlocks.mpr hlock), if_pos hlock, time_raise]
    rfl
  · rw [if_neg (fun hn => hlock (hlocks.mp hn)), if_neg hlock]

theorem time_goodPulse_of_locked (h : s.time.disc = .locked) : (goodPulse s).time =
    { (steer (modTime TimeBase.withValid s)).time with lockedCorrs := (goodPulse s).time.lockedCorrs } := by
  simp only [goodPulse, h]
  rfl

/-- R47. Where a valid pulse leads. -/
theorem time_goodPulse (s : State) : (goodPulse s).time.dev = s.time.dev ∧ (goodPulse s).time.lastValid = some s.time.dev ∧
    (goodPulse s).time.missRun = 0 ∧ (goodPulse s).time.validRun = s.time.validRun + 1 ∧
    (goodPulse s).time.disc = (match s.time.disc with
      | .holdover => if 3 ≤ s.time.validRun then .acquiring else .holdover
      | .acquiring => if phaseGood s.time.dev ∧ 15 ≤ s.time.goodRun then .locked else .acquiring
      | d => d) := by
  cases h : s.time.disc with
  | holdover =>
    rw [time_goodPulse_of_holdover h]
    exact ⟨rfl, rfl, rfl, rfl, rfl⟩
  | acquiring =>
    rw [time_goodPulse_of_acquiring h]
    split
    · exact ⟨rfl, rfl, rfl, rfl, rfl⟩
    · exact ⟨rfl, rfl, rfl, rfl, h⟩
  | locked =>
    rw [time_goodPulse_of_locked h]
    exact ⟨rfl, rfl, rfl, rfl, h⟩
  | free =>
    rw [goodPulse_of_free h]
    exact ⟨rfl, rfl, rfl, rfl, h⟩

/-- R46. A valid pulse steers the correction while ACQUIRING and LOCKED, and leaves it in HOLDOVER and while disabled. -/
theorem corr_goodPulse (s : State) : (goodPulse s).time.corr = s.time.corr ∨
    s.time.disc ≠ .holdover ∧ (goodPulse s).time.corr = (steer (modTime TimeBase.withValid s)).time.corr := by
  cases h : s.time.disc with
  | holdover =>
    rw [time_goodPulse_of_holdover h]
    exact .inl rfl
  | acquiring =>
    rw [time_goodPulse_of_acquiring h]
    refine .inr ⟨by decide, ?_⟩
    split <;> rfl
  | locked =>
    rw [time_goodPulse_of_locked h]
    exact .inr ⟨by decide, rfl⟩
  | free =>
    rw [goodPulse_of_free h]
    exact .inl rfl
end

/-! ### A missing pulse (R47, R48) -/

/-- R47. The third in a row enters HOLDOVER. -/
theorem time_missPulse (s : State) : (missPulse s).time =
    if 2 ≤ s.time.missRun ∧ (s.time.disc = .locked ∨ s.time.disc = .acquiring) then
      { s.time with
        missRun := s.time.missRun + 1, validRun := 0, goodRun := 0, lastValid := s.time.lastValid.map fun v => v + 1000000000
        disc := .holdover, corr := frozen s.time, holdoverAt := s.time.elapsed, holdoverS := 0, lockedCorrs := [] }
    else { s.time with
        missRun := s.time.missRun + 1, validRun := 0, goodRun := 0, lastValid := s.time.lastValid.map fun v => v + 1000000000 } := by
  have hthird : (3 ≤ s.time.missRun + 1 && (s.time.disc == .locked || s.time.disc == .acquiring)) = true ↔
      2 ≤ s.time.missRun ∧ (s.time.disc = .locked ∨ s.time.disc = .acquiring) := by
    simp
  unfold missPulse
  simp only
  by_cases h : 2 ≤ s.time.missRun ∧ (s.time.disc = .locked ∨ s.time.disc = .acquiring)
  · rw [if_pos (hthird.mpr h), if_pos h, time_raise, time_modTime, time_raise]
    rfl
  · rw [if_neg (fun hn => h (hthird.mp hn)), if_neg h, time_raise]
    rfl

theorem frozen_eq (t : TimeBase) : frozen t =
    match t.disc, (t.lockedCorrs.filter fun p => t.dev ≤ p.1 + 64000000000).map Prod.snd with
    | .locked, a :: l => roundTo 47 ((a :: l).foldl (· + ·) 0) (a :: l).length
    | _, _ => t.corr := by
  unfold frozen
  simp only
  generalize (t.lockedCorrs.filter fun p => t.dev ≤ p.1 + 64000000000).map Prod.snd = l
  cases t.disc <;> cases l <;> rfl

/-- R47. A pulse within a second of the window of the one expected finds just that one missing, and is itself not valid. -/
theorem missedBy_of_late {t : TimeBase} {v : Nat} (hlast : t.lastValid = some v) (hafter : v + 1000100000 < t.dev) (hbefore : t.dev < v + 1999900000) :
    missedBy t t.dev = 1 := by
  simp only [missedBy, hlast]
  omega

/-- R46, R47. What a pulse does while discipline is enabled and no TIME_SET_BASE waits for it. -/
theorem exec_ppsInPulse {at_ : Nat} {s : State} (hen : s.time.ppsEn = true) (hout : s.boot.inReset = false) {u : State}
    (hu : missAll (missedBy (advanceTo at_ s).time (advanceTo at_ s).time.dev) (advanceTo at_ s) = u) :
    exec (.ppsInPulse at_) s = .next (if pulseValid u.time then loadAtPulse (goodPulse u) else u) := by
  show execPpsInPulse at_ s = _
  simp only [execPpsInPulse, hu, hen, hout, Bool.not_true, Bool.or_self, Bool.false_eq_true, if_false]

/-- The state of discipline after one more missing pulse. -/
theorem disc_missPulse (s : State) : (missPulse s).time.disc =
    if 2 ≤ s.time.missRun ∧ (s.time.disc = .locked ∨ s.time.disc = .acquiring) then .holdover else s.time.disc := by
  rw [time_missPulse]
  split <;> rfl

/-- What one more missing pulse counts, whatever state it leads to. -/
theorem counts_missPulse (s : State) : (missPulse s).time.dev = s.time.dev ∧
    (missPulse s).time.lastValid = s.time.lastValid.map (· + 1000000000) ∧
    (missPulse s).time.missRun = s.time.missRun + 1 ∧ (missPulse s).time.validRun = 0 ∧ (missPulse s).time.goodRun = 0 := by
  rw [time_missPulse]
  split <;> exact ⟨rfl, rfl, rfl, rfl, rfl⟩

/-! ### The pulse and the window that passes -/

section
variable {at_ : Nat} {s : State}

/-- R46. Where no window has passed, the pulse is valid or ignored. -/
theorem exec_ppsInPulse_of_none_missed (hen : s.time.ppsEn = true) (hout : s.boot.inReset = false) (hwaits : ∀ x ∈ s.exec, x.wait ≠ .pps)
    (hnone : missedBy (advanceTo at_ s).time (advanceTo at_ s).time.dev = 0) :
    exec (.ppsInPulse at_) s = .next (if pulseValid (advanceTo at_ s).time then goodPulse (advanceTo at_ s) else advanceTo at_ s) := by
  have hwaits' : ∀ x ∈ (goodPulse (advanceTo at_ s)).exec, x.wait ≠ .pps := by
    rw [goodPulse_eq]
    exact hwaits
  rw [exec_ppsInPulse hen hout (u := advanceTo at_ s) (by rw [hnone, missAll]), loadAtPulse_of_none hwaits']

/-- R47. A pulse after the window of the one expected is one more missing pulse. -/
theorem exec_ppsInPulse_of_late {v : Nat} (hen : s.time.ppsEn = true) (hout : s.boot.inReset = false) (hlast : s.time.lastValid = some v)
    (hafter : v + 1000100000 < (advanceTo at_ s).time.dev) (hbefore : (advanceTo at_ s).time.dev < v + 1999900000) :
    exec (.ppsInPulse at_) s = .next (missPulse (advanceTo at_ s)) := by
  have hlast' : (advanceTo at_ s).time.lastValid = some v := (lastValid_advanceTo at_ s).trans hlast
  obtain ⟨hdev, hnext, -⟩ := counts_missPulse (advanceTo at_ s)
  rw [hlast', Option.map_some] at hnext
  have hinvalid : ¬ pulseValid (missPulse (advanceTo at_ s)).time = true := by
    simp only [pulseValid, hnext, hdev, Bool.and_eq_true, decide_eq_true_eq]
    omega
  rw [exec_ppsInPulse hen hout (u := missPulse (advanceTo at_ s)) (by rw [missedBy_of_late hlast' hafter hbefore, missAll, missAll]),
    if_neg hinvalid]

/-- R47. -/
theorem exec_ppsInMissing {v : Nat} (hen : s.time.ppsEn = true) (hruns : s.clockRuns = true) (hlast : s.time.lastValid = some v) :
    exec .ppsInMissing s = .next (missPulse (advanceTo (v + 1000100001) s)) := by
  simp only [State.clockRuns, Bool.and_eq_true, Bool.not_eq_true'] at hruns
  show execPpsInMissing s = _
  simp only [execPpsInMissing, hlast, hen, hruns.2, Bool.not_false, Bool.and_self, if_true]

/-- R46. The correction after a valid pulse. -/
theorem corr_goodPulse_bounds (hlo : -50000000 ≤ s.time.corr) (hhi : s.time.corr ≤ 50000000) :
    s.time.corr - 50000 ≤ (goodPulse s).time.corr ∧ (goodPulse s).time.corr ≤ s.time.corr + 50000 ∧
      min s.time.corr (meetsSecond s.time) ≤ (goodPulse s).time.corr ∧ (goodPulse s).time.corr ≤ max s.time.corr (meetsSecond s.time) := by
  rcases corr_goodPulse s with h | ⟨-, h⟩
  · rw [h]
    omega
  · rw [h]
    exact corr_steer (s := modTime TimeBase.withValid s) hlo hhi
end

/-- Settles O25: a pulse is `goodPulse`, is ignored, or finds the one expected missing; and a window that passes is `missPulse`. -/
theorem pulsesAndTheirAbsence : Obligations.PulsesAndTheirAbsence := by
  unfold Obligations.PulsesAndTheirAbsence
  refine ⟨fun at_ s hen hout hwaits => ⟨fun hnone hvalid => ?_, fun hnone hextra => ?_, fun v hlast hafter hbefore => ?_⟩,
    fun v s hen hruns hlast => ?_⟩
  · obtain ⟨hdev, hlast, hmiss, hrun, hdisc⟩ := time_goodPulse (advanceTo at_ s)
    refine ⟨goodPulse (advanceTo at_ s), (exec_ppsInPulse_of_none_missed hen hout hwaits hnone).trans (congrArg _ (if_pos hvalid)),
      goodPulse_eq _, hdev, hlast, hmiss, by rw [hrun, validRun_advanceTo], ?_, fun hhold => ?_, fun hlo hhi => ?_⟩
    · rw [hdisc, disc_advanceTo, validRun_advanceTo, goodRun_advanceTo] <;> rfl
    · rcases corr_goodPulse (advanceTo at_ s) with h | ⟨hsteered, -⟩
      · rw [h, corr_advanceTo]
      · exact absurd ((disc_advanceTo at_ s).trans hhold) hsteered
    · have hbounds := corr_goodPulse_bounds (s := advanceTo at_ s) (by rwa [corr_advanceTo]) (by rwa [corr_advanceTo])
      rwa [corr_advanceTo] at hbounds
  · exact (exec_ppsInPulse_of_none_missed hen hout hwaits hnone).trans (congrArg _ (if_neg (hextra ▸ Bool.false_ne_true)))
  · rw [lastValid_advanceTo] at hlast
    obtain ⟨hdev, hnext, hmiss, hvalid, hgood⟩ := counts_missPulse (advanceTo at_ s)
    refine ⟨_, exec_ppsInPulse_of_late hen hout hlast hafter hbefore, missPulse_eq _, hdev, by rw [hnext, lastValid_advanceTo, hlast]; rfl,
      by rw [hmiss, missRun_advanceTo], hvalid, hgood, ?_⟩
    rw [disc_missPulse, disc_advanceTo, missRun_advanceTo]
  · obtain ⟨hdev, hnext, hmiss, hvalid, -⟩ := counts_missPulse (advanceTo (v + 1000100001) s)
    rw [dev_advanceTo (refclk_of_clockRuns hruns)] at hdev
    refine ⟨_, exec_ppsInMissing hen hruns hlast, missPulse_eq _, hdev ▸ le_max_right .., by rw [hnext, lastValid_advanceTo, hlast]; rfl,
      by rw [hmiss, missRun_advanceTo], hvalid, fun hthird hstate => ?_, fun hother => ?_⟩
    · rw [time_missPulse, missRun_advanceTo, disc_advanceTo, if_pos ⟨hthird, hstate⟩, frozen_eq, disc_advanceTo, corr_advanceTo,
        lockedCorrs_advanceTo]
      exact ⟨rfl, rfl, rfl⟩
    · have hstays : ¬(2 ≤ s.time.missRun ∧ (s.time.disc = .locked ∨ s.time.disc = .acquiring)) := by
        rintro ⟨hthird, hstate⟩
        rcases hother with hfew | hfree | hhold
        · omega
        · simp [hfree] at hstate
        · simp [hhold] at hstate
      rw [time_missPulse, missRun_advanceTo, disc_advanceTo, if_neg hstays]
      exact ⟨disc_advanceTo .., corr_advanceTo ..⟩

end Sys2Proof.Machine
end

section
/-!
PROOF. What the jobs of a tick and the effects of commands leave as it is, and with it what a boundary does (O29).
-/
namespace Sys2Proof.Machine

/-! ### What stays -/

/-- A function but for the messages it holds. -/
def Fn.unheld (x : Fn) : Fn := { x with held := default }

/-- R36, R55. Boot but for the flash's queue and the saved run, the timebase but for the cluster's latch, the mailboxes, what is in execution,
the pending full reset, and whether the control watchdog has fired. -/
def steady (s : State) : Boot × TimeBase × Vector Fn 16 × List ExecEntry × Option Nat × Bool :=
  ({ s.boot with queue := [], autoChans := [], autoFlows := [] }, { s.time with clusterHi := 0 }, s.fns.map Fn.unheld, s.exec, s.resetAt,
    s.power.watchdog)

@[simp] theorem steady_ite (c : Prop) [Decidable c] (s t : State) :
    steady (if c then s else t) = if c then steady s else steady t := apply_ite steady c s t

@[simp] theorem steady_snd_ite {α : Type} (c : Prop) [Decidable c] (r r' : α × State) :
    steady (if c then r else r').2 = if c then steady r.2 else steady r'.2 := apply_ite (fun x => steady x.2) c r r'

/-- An update of a state that takes over what stays. -/
@[simp] theorem steady_update (s : State) (pending fuses numVfs vfEnable irq lastServed groups fgroups rx chans buses ego egoTaken
    dec flowCfg flows ports lanes gts10 mps tx macOther dmc tarn roles cls seqs bookings buffers meters out fresh) :
    steady ⟨pending, fuses, s.boot, s.time, s.fns, numVfs, vfEnable, irq, s.exec, lastServed, s.resetAt, groups, fgroups, rx, chans, buses, ego,
      egoTaken, dec, flowCfg, flows, ports, lanes, gts10, mps, tx, macOther, dmc, tarn, roles, cls, seqs, s.power, bookings, buffers, meters, out,
      fresh⟩ = steady s := rfl

@[simp] theorem steady_forEach {α : Type} (l : List α) {g : α → State → State} (h : ∀ a t, steady (g a t) = steady t) (s : State) :
    steady (forEach l g s) = steady s := forEach_same steady l g s fun a _ t => h a t

@[simp] theorem steady_when (b : Bool) {g : State → State} (h : ∀ t, steady (g t) = steady t) (s : State) :
    steady (when b g s) = steady s := by
  cases b
  · rfl
  · exact h s

/-! ### Units, outputs and messages -/

@[simp] theorem steady_modPower {g : Power → Power} (h : ∀ p, (g p).watchdog = p.watchdog) (s : State) : steady (modPower g s) = steady s := by
  simp [steady, modPower, h]

@[simp] theorem steady_modBoot {g : Boot → Boot}
    (h : ∀ b, ({ g b with queue := [], autoChans := [], autoFlows := [] } : Boot) = { b with queue := [], autoChans := [], autoFlows := [] }) (s : State) :
    steady (modBoot g s) = steady s := by
  simp [steady, modBoot, h]

@[simp] theorem steady_assertFaultN (why : Nat) (s : State) : steady (assertFaultN why s) = steady s := by
  unfold assertFaultN
  simp only
  split <;> rfl

@[simp] theorem steady_releaseFaultN (why : Nat) (s : State) : steady (releaseFaultN why s) = steady s := by
  unfold releaseFaultN
  simp only
  split <;> rfl

@[simp] theorem steady_flashQueue (w : FlashWork) (waiter : Option (Nat × BitVec 16)) (s : State) :
    steady (flashQueue w waiter s) = steady s := rfl

/-- An update of functions that changes what they hold alone. -/
theorem map_unheld_tmod (v : Vector Fn 16) (f : Nat) {g : Fn → Fn} (h : ∀ x, (g x).unheld = x.unheld) :
    (tmod v f g).map Fn.unheld = v.map Fn.unheld := by
  ext i hi : 1
  simp only [Vector.getElem_map, tmod, tset, Vector.getElem_setIfInBounds]
  split
  · next e =>
    subst e
    rw [h, tget_of_lt v hi]
  · rfl

@[simp] theorem steady_sendMsix (f v : Nat) (s : State) : steady (sendMsix f v s) = steady s := by
  unfold sendMsix
  split
  · simp only [steady, modFn, map_unheld_tmod s.fns f (g := fun x => { x with held := tset x.held v true }) fun _ => rfl]
  · rfl

@[simp] theorem steady_clusterRead (s : State) : steady (clusterRead s) = steady s := by
  unfold clusterRead
  split <;> rfl

/-! ### The operations, in the order of the model's files -/

@[simp] theorem steady_modChan (c : Nat) (g : Chan → Chan) (s : State) : steady (modChan c g s) = steady s := by simp [modChan]

@[simp] theorem steady_modCal (c : Nat) (g : Cal → Cal) (s : State) : steady (modCal c g s) = steady s := by simp [modCal]

@[simp] theorem steady_modRx (p : Nat) (g : RxPort → RxPort) (s : State) : steady (modRx p g s) = steady s := by simp [modRx]

@[simp] theorem steady_modFlow (m : Nat) (g : FlowRun → FlowRun) (s : State) : steady (modFlow m g s) = steady s := by simp [modFlow]

@[simp] theorem steady_modFcfg (m : Nat) (g : FlowCfg → FlowCfg) (s : State) : steady (modFcfg m g s) = steady s := by simp [modFcfg]

@[simp] theorem steady_modDec (h : Nat) (g : DecStream → DecStream) (s : State) : steady (modDec h g s) = steady s := by simp [modDec]

@[simp] theorem steady_modDmc (d : Nat) (g : Dmc → Dmc) (s : State) : steady (modDmc d g s) = steady s := by simp [modDmc]

@[simp] theorem steady_modPort (p : Nat) (g : Port → Port) (s : State) : steady (modPort p g s) = steady s := by simp [modPort]

@[simp] theorem steady_modTx (p : Nat) (g : TxPort → TxPort) (s : State) : steady (modTx p g s) = steady s := by simp [modTx]

@[simp] theorem steady_modSeq (q : Nat) (g : Seq → Seq) (s : State) : steady (modSeq q g s) = steady s := by simp [modSeq]

@[simp] theorem steady_modCls (c : Nat) (g : SeqClass → SeqClass) (s : State) : steady (modCls c g s) = steady s := by simp [modCls]

@[simp] theorem steady_modTarn (g : Tarn → Tarn) (s : State) : steady (modTarn g s) = steady s := by simp [modTarn]

@[simp] theorem steady_modRoles (g : Roles → Roles) (s : State) : steady (modRoles g s) = steady s := by simp [modRoles]

@[simp] theorem steady_emit (o : Output) (s : State) : steady (emit o s) = steady s := by simp [emit]

@[simp] theorem steady_modSrc (n : Nat) (g : Source → Source) (s : State) : steady (modSrc n g s) = steady s := by simp [modSrc]

@[simp] theorem steady_modFwSrc (n : Nat) (g : Source → Source) (s : State) : steady (modFwSrc n g s) = steady s := by simp [modFwSrc]

@[simp] theorem steady_modTgt (t : Nat) (g : Target → Target) (s : State) : steady (modTgt t g s) = steady s := by simp [modTgt]

@[simp] theorem steady_resignal (t : Nat) (s : State) : steady (resignal t s) = steady s := by simp [resignal]

@[simp] theorem steady_raise (n bit : Nat) (s : State) : steady (raise n bit s) = steady s := by simp [raise]

@[simp] theorem steady_reroute (n r : Nat) (s : State) : steady (reroute n r s) = steady s := by simp [reroute]

@[simp] theorem steady_raiseFrame (c : Nat) (s : State) : steady (raiseFrame c s) = steady s := steady_raise _ _ s

@[simp] theorem steady_raiseIngress (c bit : Nat) (s : State) : steady (raiseIngress c bit s) = steady s := steady_raise _ _ s

@[simp] theorem steady_raisePipe (c bit : Nat) (s : State) : steady (raisePipe c bit s) = steady s := steady_raise _ _ s

@[simp] theorem steady_raiseEncDone (c : Nat) (s : State) : steady (raiseEncDone c s) = steady s := steady_raise _ _ s

@[simp] theorem steady_raiseEnc (c bit : Nat) (s : State) : steady (raiseEnc c bit s) = steady s := steady_raise _ _ s

@[simp] theorem steady_raiseDec (h bit : Nat) (s : State) : steady (raiseDec h bit s) = steady s := steady_raise _ _ s

@[simp] theorem steady_raiseFlow (m : Nat) (s : State) : steady (raiseFlow m s) = steady s := steady_raise _ _ s

@[simp] theorem steady_setKey (n : Nat) (k : List Byte) (s : State) : steady (setKey n k s) = steady s := by simp [setKey]

@[simp] theorem steady_computeKey (n : Nat) (s : State) : steady (computeKey n s) = steady s := by simp [computeKey]

@[simp] theorem steady_newGen (n : Nat) (s : State) : steady (newGen n s) = steady s := by simp [newGen]

@[simp] theorem steady_deriveNode (n : Nat) (s : State) : steady (deriveNode n s) = steady s := by simp [deriveNode]

@[simp] theorem steady_renewPublic (s : State) : steady (renewPublic s) = steady s := by simp [renewPublic]

@[simp] theorem steady_rederiveAll (l : List Nat) (s : State) : steady (rederiveAll l s) = steady s := by simp [rederiveAll]

@[simp] theorem steady_headsNeedKey (cs : List Nat) (s : State) : steady (headsNeedKey cs s) = steady s := by simp [headsNeedKey]

@[simp] theorem steady_rederiveDev (s : State) : steady (rederiveDev s) = steady s := by simp [rederiveDev]

@[simp] theorem steady_audit (event role slot func time : Nat) (detail : List Byte) (s : State) :
    steady (audit event role slot func time detail s) = steady s := by simp [audit]

@[simp] theorem steady_auditAt (event role slot func : Nat) (detail : List Byte) (s0 : State) :
    steady (auditAt event role slot func detail s0) = steady s0 := by simp [auditAt]

@[simp] theorem steady_auditDevice (event : Nat) (detail : List Byte) (s : State) :
    steady (auditDevice event detail s) = steady s := by simp [auditDevice]

@[simp] theorem steady_auditNow (c : Ctx) (event : Nat) (detail : List Byte) (s : State) :
    steady (auditNow c event detail s) = steady s := by simp [auditNow]

@[simp] theorem steady_auditTick (c : Ctx) (event : Nat) (detail : List Byte) (s : State) :
    steady (auditTick c event detail s) = steady s := by simp [auditTick]

@[simp] theorem steady_tickAudited (event : Nat) (detail : List Byte) (c : Ctx) (s : State) :
    steady (tickAudited event detail c s).2 = steady s := by simp [tickAudited]

@[simp] theorem steady_restartEst (c : Nat) (ps : List Nat) (s : State) : steady (restartEst c ps s) = steady s := by simp [restartEst]

@[simp] theorem steady_bumpGen (c : Nat) (s : State) : steady (bumpGen c s) = steady s := by simp [bumpGen]

@[simp] theorem steady_modPipe (c : Nat) (g : Pipe → Pipe) (s : State) : steady (modPipe c g s) = steady s := by simp [modPipe]

@[simp] theorem steady_putEstimate (c : Nat) (v : CalValue) (s : State) : steady (putEstimate c v s) = steady s := by
  unfold putEstimate
  split <;> simp

@[simp] theorem steady_discardParam (c p : Nat) (s : State) : steady (discardParam c p s) = steady s := by simp [discardParam]

@[simp] theorem steady_saveEstimates (c : Nat) (s : State) : steady (saveEstimates c s) = steady s := by
  unfold saveEstimates
  split <;> simp

@[simp] theorem steady_discardEstimates (c : Nat) (s : State) : steady (discardEstimates c s) = steady s := by simp [discardEstimates]

@[simp] theorem steady_noteChanges (c : Nat) (old : ChanCfg) (s : State) :
    steady (noteChanges c old s) = steady s := by simp [noteChanges]

@[simp] theorem steady_closeRecord (c : Nat) (f0 : Frame) (s : State) : steady (closeRecord c f0 s) = steady s := by simp [closeRecord]

@[simp] theorem steady_stopChan (c : Nat) (s : State) : steady (stopChan c s) = steady s := by simp [stopChan]

@[simp] theorem steady_busPush (c : Nat) (x : BusXfer) (s : State) : steady (busPush c x s) = steady s := by
  unfold busPush
  split <;> simp

@[simp] theorem steady_sensorEffect (c : Ctx) (m : Nat) (s : State) : steady (sensorEffect c m s) = steady s := by simp [sensorEffect]

@[simp] theorem steady_pipeSet (q : Request) (c : Nat) (s : State) : steady (pipeSet q c s) = steady s := by simp [pipeSet]

@[simp] theorem steady_lutPut (kind : Nat) (bs : List Byte) (c : Nat) (s : State) :
    steady (lutPut kind bs c s) = steady s := by simp [lutPut]

@[simp] theorem steady_calAccept (c : Nat) (f : Frame) (s : State) : steady (calAccept c f s) = steady s := by
  unfold calAccept
  split
  · rfl
  · refine (steady_modCal _ _ _).trans (steady_forEach _ (fun p t => ?_) s)
    split
    · split <;> simp
    · rfl

@[simp] theorem steady_hold (c p : Nat) (v : CalValue) (g : Nat × Nat × Nat) (s : State) :
    steady (hold c p v g s) = steady s := by simp [hold]

@[simp] theorem steady_insufficient (c p : Nat) (s : State) : steady (insufficient c p s) = steady s := by simp [insufficient]

@[simp] theorem steady_completeEstimate (c p at_ : Nat) (s : State) :
    steady (completeEstimate c p at_ s) = steady s := by simp [completeEstimate]

@[simp] theorem steady_runEstimates (c : Nat) (s : State) : steady (runEstimates c s) = steady s :=
  steady_forEach _ (fun p t => by split <;> simp) s

@[simp] theorem steady_applyEstimates (c k : Nat) (s : State) : steady (applyEstimates c k s) = steady s := by
  refine steady_forEach _ (fun p t => ?_) s
  split
  · split
    · simp only
      split <;> simp
    · rfl
  · rfl

@[simp] theorem steady_restoreEstimates (c : Nat) (s : State) : steady (restoreEstimates c s) = steady s := by
  unfold restoreEstimates
  simp only
  split
  · split
    · exact steady_forEach _ (fun p t => by split <;> simp) s
    · rfl
  · rfl

@[simp] theorem steady_calAudited (code : Nat) (c : Ctx) (s : State) : steady (calAudited code c s).2 = steady s := by simp [calAudited]

@[simp] theorem steady_pinNow (mask c : Nat) (s : State) : steady (pinNow mask c s) = steady s :=
  steady_forEach _ (fun p t => by split <;> simp) s

@[simp] theorem steady_meterJob (k : JobKey) (cut : Bool) (s : State) : steady (meterJob k cut s) = steady s := by
  unfold meterJob
  split <;> simp

@[simp] theorem steady_meterOverrun (k : JobKey) (s : State) : steady (meterOverrun k s) = steady s := by
  unfold meterOverrun
  split <;> simp

@[simp] theorem steady_reportRoutine (k : JobKey) (routine : Nat) (e : RunEnd) {overrun : State → State}
    (h : ∀ t, steady (overrun t) = steady t) (s : State) : steady (reportRoutine k routine e overrun s) = steady s := by
  unfold reportRoutine
  cases e <;> simp [h]

@[simp] theorem steady_countHook (k : JobKey) (h : Hooked) (s : State) : steady (countHook k h s) = steady s := by
  unfold countHook
  split <;> simp

@[simp] theorem steady_rewriteRecord (c : Nat) (old new : Frame) (s : State) :
    steady (rewriteRecord c old new s) = steady s := by simp [rewriteRecord]

@[simp] theorem steady_keepTone (c : Nat) (f : Frame) (lin : List Plane) (s : State) :
    steady (keepTone c f lin s) = steady s := by simp [keepTone]

@[simp] theorem steady_pipeJobEnd (c : Nat) (s : State) : steady (pipeJobEnd c s) = steady s := by
  unfold pipeJobEnd
  simp only
  split
  · rfl
  · split
    · simp
    · split
      · simp
      · simp only [steady_modChan, steady_keepTone, steady_rewriteRecord]
        split <;> simp

@[simp] theorem steady_takeEgo (k : Nat) (s : State) : steady (takeEgo k s) = steady s := by simp [takeEgo]

@[simp] theorem steady_repeatPicture (h : Nat) (error : Bool) (s : State) :
    steady (repeatPicture h error s) = steady s := by simp [repeatPicture]

@[simp] theorem steady_decodeTick (h : Nat) (s : State) : steady (decodeTick h s) = steady s := by
  unfold decodeTick
  simp only
  split
  · rfl
  · split <;> simp

@[simp] theorem steady_streamErrors (h n : Nat) (s : State) : steady (streamErrors h n s) = steady s := by simp [streamErrors]

@[simp] theorem steady_decJobEnd (h : Nat) (r : DecResult) (s : State) : steady (decJobEnd h r s) = steady s := by
  unfold decJobEnd
  simp only
  split
  · rfl
  · simp

@[simp] theorem steady_decJobLate (h : Nat) (s : State) : steady (decJobLate h s) = steady s := by
  unfold decJobLate
  split <;> simp

@[simp] theorem steady_putStream (c st : Nat) (n : StreamCfg) (s : State) : steady (putStream c st n s) = steady s := by simp [putStream]

@[simp] theorem steady_putRate (c st r : Nat) (s : State) : steady (putRate c st r s) = steady s := by simp [putRate]

@[simp] theorem steady_fixSeal (c st : Nat) (s : State) : steady (fixSeal c st s) = steady s := by simp [fixSeal]

@[simp] theorem steady_startEncode (c : Nat) (s : State) : steady (startEncode c s) = steady s := by
  unfold startEncode
  simp only
  split
  · rfl
  · simp

@[simp] theorem steady_encJobEnd (c st : Nat) (s : State) : steady (encJobEnd c st s) = steady s := by
  unfold encJobEnd
  split
  · rfl
  · split
    · rfl
    · split
      · simp
      · simp
        split <;> simp

@[simp] theorem steady_itpJobEnd (c st : Nat) (s : State) : steady (itpJobEnd c st s) = steady s := by simp [itpJobEnd]

@[simp] theorem steady_sealJobEnd (c st : Nat) (s : State) : steady (sealJobEnd c st s) = steady s := by simp [sealJobEnd]

@[simp] theorem steady_releaseCounts (c st : Nat) (a : AccessUnit) (s : State) :
    steady (releaseCounts c st a s) = steady s := by simp [releaseCounts]

@[simp] theorem steady_exception (m bit : Nat) (s : State) : steady (exception m bit s) = steady s := by simp [exception]

@[simp] theorem steady_backlog (m : Nat) (s : State) : steady (backlog m s) = steady s := by simp [backlog]

@[simp] theorem steady_offer (m : Nat) (it : Item) (s : State) : steady (offer m it s) = steady s := by simp [offer]

@[simp] theorem steady_freeBuffer (ms : List Nat) (s : State) : steady (freeBuffer ms s) = steady s := by
  unfold freeBuffer
  split
  · rfl
  · split <;> simp

@[simp] theorem steady_offerAll (src : FlowSrc) (it : Nat → Item) (s : State) :
    steady (offerAll src it s) = steady s := by simp [offerAll]

@[simp] theorem steady_offerAu (a : AccessUnit) (rate : Nat) (s : State) : steady (offerAu a rate s) = steady s := by simp [offerAu]

@[simp] theorem steady_offerWindow (c i : Nat) (f : Frame) (g : Formed) (s : State) :
    steady (offerWindow c i f g s) = steady s := by simp [offerWindow]

@[simp] theorem steady_offerDecoded (h : Nat) (s : State) : steady (offerDecoded h s) = steady s := by
  unfold offerDecoded
  simp only
  split
  · rfl
  · simp

@[simp] theorem steady_offerRaw (c : Nat) (f : Frame) (s : State) : steady (offerRaw c f s) = steady s := by
  unfold offerRaw
  split <;> simp

@[simp] theorem steady_settleFlow (m : Nat) (s : State) : steady (settleFlow m s) = steady s := by simp [settleFlow]

@[simp] theorem steady_stopFlow (m : Nat) (s : State) : steady (stopFlow m s) = steady s := by simp [stopFlow]

@[simp] theorem steady_putRoute (m : Nat) (n : FlowCfg) (s : State) : steady (putRoute m n s) = steady s := by
  unfold putRoute
  split <;> simp

@[simp] theorem steady_stepStart (m : Nat) (s : State) : steady (stepStart m s) = steady s := by simp [stepStart]

@[simp] theorem steady_newContext (m mode : Nat) (s : State) : steady (newContext m mode s) = steady s := by simp [newContext]

@[simp] theorem steady_startFlow (m : Nat) (s : State) : steady (startFlow m s) = steady s := by simp [startFlow]

@[simp] theorem steady_putOutput (h : Nat) (n : DecStream) (s : State) : steady (putOutput h n s) = steady s := by simp [putOutput]

@[simp] theorem steady_busRun (b : Nat) (s : State) : steady (busRun b s) = steady s := by
  unfold busRun
  split
  · rfl
  · split
    · rfl
    · split <;> rfl

@[simp] theorem steady_busSend (c : Nat) (x : BusXfer) (s : State) : steady (busSend c x s) = steady s := by
  unfold busSend
  split <;> simp

@[simp] theorem steady_dropXfers (drop : BusXfer → Bool) (s : State) : steady (dropXfers drop s) = steady s := by simp [dropXfers]

@[simp] theorem steady_addCheck (c : Nat) (why : CheckWhy) (s : State) : steady (addCheck c why s) = steady s := by simp [addCheck]

@[simp] theorem steady_addAuto (c : Nat) (s : State) : steady (addAuto c s) = steady s := by simp [addAuto]

@[simp] theorem steady_markBind (c : Nat) (s : State) : steady (markBind c s) = steady s := by simp [markBind]

@[simp] theorem steady_discardReferences (c : Nat) (s : State) : steady (discardReferences c s) = steady s := by simp [discardReferences]

@[simp] theorem steady_freeHead (c : Nat) (s : State) : steady (freeHead c s) = steady s := by simp [freeHead]

@[simp] theorem steady_unpairEffects (c : Nat) (s : State) : steady (unpairEffects c s) = steady s := by simp [unpairEffects]

@[simp] theorem steady_headChange (c : Nat) (s : State) : steady (headChange c s) = steady s := by
  unfold headChange
  split <;> simp

@[simp] theorem steady_applyPairing (c : Nat) (s : State) : steady (applyPairing c s) = steady s := by
  unfold applyPairing
  split <;> simp

@[simp] theorem steady_reattach (c : Nat) (a : Attach) (s : State) : steady (reattach c a s) = steady s := by simp [reattach]

@[simp] theorem steady_startChan (c : Nat) (s : State) : steady (startChan c s) = steady s := by simp [startChan]

@[simp] theorem steady_withBooks (b : Books) (s : State) : steady (withBooks b s) = steady s := by simp [withBooks]

@[simp] theorem steady_ledgerTick (k : Nat) (s : State) : steady (ledgerTick k s) = steady s := by simp [ledgerTick]

@[simp] theorem steady_metersTick (s : State) : steady (metersTick s) = steady s := by simp [metersTick]

@[simp] theorem steady_applyPatch (cls : Nat) (vendor : Bool) (p : Patch) (s : State) :
    steady (applyPatch cls vendor p s) = steady s := by simp [applyPatch]

@[simp] theorem steady_disableFailing (s : State) : steady (disableFailing s) = steady s := by simp [disableFailing]

@[simp] theorem steady_setRail (r mv : Nat) (s : State) : steady (setRail r mv s) = steady s := by simp [setRail]

@[simp] theorem steady_setVoltage (d : Nat) (s : State) : steady (setVoltage d s) = steady s := by
  unfold setVoltage
  split <;> simp

@[simp] theorem steady_levelTick (s : State) : steady (levelTick s) = steady s := by simp [levelTick]

@[simp] theorem steady_beginPower (d : Nat) (s : State) : steady (beginPower d s) = steady s := by simp [beginPower]

@[simp] theorem steady_powerUp (d : Nat) (s : State) : steady (powerUp d s) = steady s := by simp [powerUp]

@[simp] theorem steady_gate (d : Nat) (s : State) : steady (gate d s) = steady s := by simp [gate]

@[simp] theorem steady_orphanFlow (m : Nat) (s : State) : steady (orphanFlow m s) = steady s := by simp [orphanFlow]

@[simp] theorem steady_invalidate (n : Nat) (s : State) : steady (invalidate n s) = steady s := by simp [invalidate]

@[simp] theorem steady_snapFlows (s : State) : steady (snapFlows s) = steady s := by simp [snapFlows]

@[simp] theorem steady_reassert (s : State) : steady (reassert s) = steady s := by simp [reassert]

@[simp] theorem steady_autoRun (chs fls : List Nat) (s : State) : steady (autoRun chs fls s) = steady s := by simp [autoRun]

@[simp] theorem steady_autoStart (s : State) : steady (autoStart s) = steady s := by simp [autoStart]

@[simp] theorem steady_autoHeld (k : Nat) (s : State) : steady (autoHeld k s) = steady s := by
  refine steady_forEach _ (fun c t => ?_) s
  simp only
  split
  · simp
  · split
    · split <;> simp
    · rfl

@[simp] theorem steady_headRecord (c : Nat) (f : Frame) (s : State) : steady (headRecord c f s) = steady s := by simp [headRecord]

@[simp] theorem steady_deadline (c : Nat) (s : State) : steady (deadline c s) = steady s := by
  unfold deadline
  split
  · rfl
  · simp only
    split <;> simp

@[simp] theorem steady_endEncode (c st : Nat) (s : State) : steady (endEncode c st s) = steady s := by simp [endEncode]

@[simp] theorem steady_channelTick (k c : Nat) (s : State) : steady (channelTick k c s) = steady s := by
  unfold channelTick
  split <;> simp

@[simp] theorem steady_releaseItems (s : State) : steady (releaseItems s) = steady s := by
  have units (c st : Nat) (t : State) : steady (match (tget (t.chan c).runs st).current with
      | some a => releaseCounts c st a (offerAu a (tget (t.chan c).runs st).ledgerRate t)
      | none => t) = steady t := by split <;> simp
  unfold releaseItems
  simp only
  refine (steady_forEach _ steady_offerDecoded _).trans (steady_forEach _ (fun c t => ?_) s)
  split
  · refine (steady_forEach _ (fun p t => steady_offerWindow ..) _).trans ?_
    exact (units c 1 _).trans (units c 0 t)
  · exact (units c 1 _).trans (units c 0 t)

@[simp] theorem steady_beginJobs (k : Nat) (s : State) : steady (beginJobs k s) = steady s := by simp [beginJobs]

@[simp] theorem steady_unlaunched (s : State) : steady (unlaunched s) = steady s := by simp [unlaunched]

/-! ### The effects of commands -/

/-- R108. TIME_TICK_SET alone changes the numbering of the tick; the commands that are not named have no effect at a boundary. -/
theorem steady_effect {o : Op} (ho : o ≠ .timeTickSet) (c : Ctx) (s : State) : steady (o.behaviour.effect c s) = steady s := by
  cases o
  case timeTickSet => exact absurd rfl ho
  case chanPortSet => simp [Op.behaviour, chanPortSetB]
  case chanBind => simp [Op.behaviour, chanBindB]
  case chanStart => simp [Op.behaviour, chanStartB]
  case chanStop => simp [Op.behaviour, chanStopB]
  case chanSensorSet => simp [Op.behaviour, chanSensorSetB]
  case chanPipeSet => simp [Op.behaviour, chanPipeSetB]
  case chanWindowSet => simp [Op.behaviour, chanWindowSetB]
  case chanWindowClear => simp [Op.behaviour, chanWindowClearB]
  case chanLutLoad => simp [Op.behaviour, chanLutLoadB]
  case encStreamSet => simp [Op.behaviour, encStreamSetB]
  case encHrdSet => simp [Op.behaviour, encHrdSetB]
  case encRateSet => simp [Op.behaviour, encRateSetB]
  case encQpSet => simp [Op.behaviour, encQpSetB]
  case encRefreshSet => simp [Op.behaviour, encRefreshSetB]
  case encMotionSet => simp [Op.behaviour, encMotionSetB]
  case encGeometrySet => simp [Op.behaviour, encGeometrySetB]
  case encLtrRecover => simp [Op.behaviour, encLtrRecoverB]
  case encForceIdr => simp [Op.behaviour, encForceIdrB]
  case decOutputSet => simp [Op.behaviour, decOutputSetB]
  case decClose => simp [Op.behaviour, decCloseB]
  case flowRouteSet => simp [Op.behaviour, flowRouteSetB]
  case flowTemplateSet => simp [Op.behaviour, flowTemplateSetB]
  case flowRateSet => simp [Op.behaviour, flowRateSetB]
  case flowWeightSet => simp [Op.behaviour, flowWeightSetB]
  case flowStart => simp [Op.behaviour, flowStartB]
  case flowStop => simp [Op.behaviour, flowStopB]
  case flowRingSet => simp [Op.behaviour, flowRingSetB]
  case flowCryptSet => simp [Op.behaviour, flowCryptSetB]
  case tarnNodeInvalidate => simp [Op.behaviour, tarnNodeInvalidateB]
  case seqPatchApply => simp [Op.behaviour, seqPatchApplyB]
  case seqHookSet => simp [Op.behaviour, seqHookSetB]
  case pwrDomainSet => simp [Op.behaviour, pwrDomainSetB]
  case headUnpair => simp [Op.behaviour, headUnpairB]
  case headPolicySet => simp [Op.behaviour, headPolicySetB]
  case calEnable => simp [Op.behaviour, calEnableB]
  case calPin => simp [Op.behaviour, calPinB]
  case calUnpin => simp [Op.behaviour, calUnpinB]
  case calReset => simp [Op.behaviour, calResetB]
  case timeChanRate => simp [Op.behaviour, timeChanRateB]
  all_goals rfl

end Sys2Proof.Machine
end

section
/-!
PROOF. A master tick boundary, part by part, and what it leaves (O29).
-/
namespace Sys2Proof.Machine

/-! ### What two states that agree on what stays have in common -/

section
variable {s t : State} (h : steady t = steady s)
include h

theorem exec_of_steady : t.exec = s.exec := congrArg (fun p => p.2.2.2.1) h
theorem resetAt_of_steady : t.resetAt = s.resetAt := congrArg (fun p => p.2.2.2.2.1) h
theorem watchdog_of_steady : t.power.watchdog = s.power.watchdog := congrArg (fun p => p.2.2.2.2.2) h
theorem inReset_of_steady : t.boot.inReset = s.boot.inReset := congrArg (fun p => p.1.inReset) h
theorem dev_of_steady : t.time.dev = s.time.dev := congrArg (fun p => p.2.1.dev) h
theorem passed_of_steady : t.time.passed = s.time.passed := congrArg (fun p => p.2.1.passed) h
theorem tickRun_of_steady : t.time.tickRun = s.time.tickRun := congrArg (fun p => p.2.1.tickRun) h
theorem elapsed_of_steady : t.time.elapsed = s.time.elapsed := congrArg (fun p => p.2.1.elapsed) h

/-- The request queues. -/
theorem queues_of_steady : t.fns.map Fn.reqQ = s.fns.map Fn.reqQ := by
  have hfns : t.fns.map Fn.unheld = s.fns.map Fn.unheld := congrArg (fun p => p.2.2.1) h
  have hq := congrArg (Vector.map Fn.reqQ) hfns
  rw [Vector.map_map, Vector.map_map] at hq
  exact hq

/-- R38, R55. The timebase runs, and the next boundary is at the same instant. -/
theorem clockRuns_of_steady : t.clockRuns = s.clockRuns := by
  have hclk : t.time.refclk = s.time.refclk := congrArg (fun p => p.2.1.refclk) h
  rw [State.clockRuns, State.clockRuns, hclk, inReset_of_steady h]

theorem boundary_of_steady (k : Nat) : t.time.boundary k = s.time.boundary k := congrArg (fun p => p.2.1.boundary k) h
end

/-! ### The end of a tick: time goes forward and nothing else of what stays changes (R36) -/

/-- The state without the instant. -/
def timeless (s : State) : State := { s with time := { s.time with dev := 0, elapsed := 0 } }

/-- R36. `t` comes later in the tick of `s`. -/
structure Later (s t : State) : Prop where
  stays : steady (timeless t) = steady (timeless s)
  forward : s.time.dev ≤ t.time.dev

theorem Later.of_steady {s t : State} (h : steady t = steady s) : Later s t :=
  ⟨congrArg (fun p => (p.1, { p.2.1 with dev := 0, elapsed := 0 }, p.2.2)) h, (dev_of_steady h).ge⟩

theorem Later.trans {s t u : State} (h : Later s t) (k : Later t u) : Later s u :=
  ⟨k.stays.trans h.stays, h.forward.trans k.forward⟩

theorem Later.exec {s t : State} (h : Later s t) : t.exec = s.exec := exec_of_steady (s := timeless s) (t := timeless t) h.stays

theorem later_forEach {α : Type} (l : List α) {g : α → State → State} (h : ∀ a t, Later t (g a t)) (s : State) : Later s (forEach l g s) :=
  forEach_keeps (Later s) l g s (.of_steady rfl) fun a _ t ht => ht.trans (h a t)

theorem later_advanceTo (at_ : Nat) (s : State) : Later s (advanceTo at_ s) := by
  simp only [advanceTo, modTime, TimeBase.advance]
  split
  · exact ⟨rfl, Nat.le_add_right ..⟩
  · exact .of_steady rfl

theorem later_pulse (c b : Nat) (r : Rate) (s : State) : Later s (pulse c b r s) := by
  rw [pulse_eq, time_pulse]
  exact (later_advanceTo (pulseTime s r b) s).trans (.of_steady rfl)

theorem later_latePulse (c : Nat) (s : State) : Later s (latePulse c s) := by
  unfold latePulse
  split
  · exact later_pulse ..
  · exact .of_steady rfl

theorem later_endTick (s : State) : Later s (endTick s) := by
  have hframes : Later s (forEach (List.range 32) (fun c t => pipeJobEnd c (deadline c (latePulse c t))) s) :=
    later_forEach _ (fun c t => (later_latePulse c t).trans (.of_steady (by simp))) s
  exact hframes.trans (.of_steady (by simp [endTick]))

/-- R548. The same of a tick in which firmware has stopped. -/
theorem later_unlaunchedTick (s : State) : Later s (unlaunched (forEach (List.range 32) (fun c t => deadline c (latePulse c t)) s)) := by
  have hframes : Later s (forEach (List.range 32) (fun c t => deadline c (latePulse c t)) s) :=
    later_forEach _ (fun c t => (later_latePulse c t).trans (.of_steady (by simp))) s
  exact hframes.trans (.of_steady (by simp))

/-! ### The boundary passes (R55, R84) -/

/-- R84. What a waiting request has become after one more boundary. -/
def QEntry.aged (q : QEntry) : QEntry := { q with waited := q.waited + 1, promoted := q.promoted || decide (8 ≤ q.waited + 1) }

/-- R84, R85. While the tick runs no entry has aged by time. -/
theorem queues_ageQueues {s : State} (h : s.time.tickRun = true) :
    (ageQueues s).fns.map Fn.reqQ = (s.fns.map Fn.reqQ).map (List.map QEntry.aged) := by
  simp only [ageQueues, foldAges, stoppedAge, h, if_true, Vector.map_map, Nat.add_zero]
  congr 1
  funext x
  simp only [Function.comp_apply, List.map_map]
  rfl

theorem passBoundary_eq (s : State) : passBoundary s =
    { s with time := { s.time with
      passed := s.time.passed + 1, dev := (advanceTo (s.time.boundary s.time.passed) s).time.dev
      elapsed := (advanceTo (s.time.boundary s.time.passed) s).time.elapsed } } := by
  unfold passBoundary
  rw [advanceTo_eq, time_advanceTo]
  rfl

/-- R55, R84. The numbering of the tick, device time, and the request queues. -/
def counting (s : State) : Nat × Bool × Nat × Vector (List QEntry) 16 := (s.time.passed, s.time.tickRun, s.time.dev, s.fns.map Fn.reqQ)

theorem counting_of_steady {s t : State} (h : steady t = steady s) : counting t = counting s := by
  rw [counting, passed_of_steady h, tickRun_of_steady h, dev_of_steady h, queues_of_steady h]
  rfl

/-- R55. What the end of the tick `s`, `t`, becomes as its boundary passes. -/
structure Passed (s u : State) : Prop where
  count : u.time.passed = s.time.passed + 1
  runs : u.time.tickRun = true
  instant : s.time.boundary s.time.passed ≤ u.time.dev
  queues : u.fns.map Fn.reqQ = (s.fns.map Fn.reqQ).map (List.map QEntry.aged)

theorem passed_of_later {s t : State} (hruns : s.clockRuns = true) (htick : s.time.tickRun = true) (h : Later s t) :
    Passed s (passBoundary (ageQueues t)) := by
  have hpassed : t.time.passed = s.time.passed := passed_of_steady (s := timeless s) (t := timeless t) h.stays
  have hrun : t.time.tickRun = true := (tickRun_of_steady (s := timeless s) (t := timeless t) h.stays).trans htick
  have hclk : t.time.refclk = true := (congrArg (fun p => p.2.1.refclk) h.stays : t.time.refclk = s.time.refclk).trans (refclk_of_clockRuns hruns)
  have hboundary : t.time.boundary t.time.passed = s.time.boundary s.time.passed := congrArg (fun p => p.2.1.boundary p.2.1.passed) h.stays
  have hinstant : (advanceTo (t.time.boundary t.time.passed) (ageQueues t)).time.dev = max t.time.dev (t.time.boundary t.time.passed) :=
    dev_advanceTo (s := ageQueues t) hclk _
  have hqueues : t.fns.map Fn.reqQ = s.fns.map Fn.reqQ := queues_of_steady (s := timeless s) (t := timeless t) h.stays
  rw [passBoundary_eq]
  exact {
    count := congrArg (· + 1) hpassed
    runs := hrun
    instant := by
      show _ ≤ (advanceTo (t.time.boundary t.time.passed) (ageQueues t)).time.dev
      rw [hinstant, hboundary]
      exact le_max_right ..
    queues := (queues_ageQueues hrun).trans (by rw [hqueues]) }

theorem Passed.of_counting {s u v : State} (h : Passed s u) (hv : counting v = counting u) : Passed s v := by
  simp only [counting, Prod.mk.injEq] at hv
  obtain ⟨hcount, hrun, hdev, hqueues⟩ := hv
  exact ⟨hcount.trans h.count, hrun.trans h.runs, h.instant.trans hdev.ge, hqueues.trans h.queues⟩

theorem Passed.reqQ {s u : State} (h : Passed s u) {f : Nat} (hf : f < 16) : (u.fn f).reqQ = (s.fn f).reqQ.map QEntry.aged := by
  have hq := congrArg (fun v => tget v f) h.queues
  simp only [Vector.map_map, tget_map _ _ hf] at hq
  exact hq

theorem steady_beforeCommands (s : State) : steady (beforeCommands s) = steady (atTickEnd s) := by simp [beforeCommands]

/-- R55, R108. What the commands of a boundary find. -/
theorem passed_beforeCommands {s : State} (hruns : s.clockRuns = true) (htick : s.time.tickRun = true) : Passed s (beforeCommands s) :=
  (passed_of_later hruns htick (later_endTick s)).of_counting (counting_of_steady (steady_beforeCommands s))

theorem exec_ageQueues (s : State) : (ageQueues s).exec = s.exec := rfl

theorem exec_passBoundary (s : State) : (passBoundary s).exec = s.exec := by rw [passBoundary_eq]

@[simp] theorem exec_beforeCommands (s : State) : (beforeCommands s).exec = s.exec := by
  rw [exec_of_steady (steady_beforeCommands s), atTickEnd, exec_passBoundary, exec_ageQueues, (later_endTick s).exec]

@[simp] theorem steady_afterCommands (s u : State) : steady (afterCommands s u) = steady u := by simp [afterCommands]

/-! ### The commands that take effect (R108, R110) -/

/-- R108. No effect changes them, and none adds to or takes from what is in execution. -/
theorem counting_effect (o : Op) (c : Ctx) (s : State) : counting (o.behaviour.effect c s) = counting s ∧ (o.behaviour.effect c s).exec = s.exec := by
  by_cases ho : o = .timeTickSet
  · subst ho
    exact ⟨rfl, rfl⟩
  · exact ⟨counting_of_steady (steady_effect ho c s), exec_of_steady (steady_effect ho c s)⟩

/-- A message or a response leaves the request queues. -/
theorem map_reqQ_tmod (v : Vector Fn 16) (f : Nat) {g : Fn → Fn} (h : ∀ x, (g x).reqQ = x.reqQ) :
    (tmod v f g).map Fn.reqQ = v.map Fn.reqQ := by
  ext i hi : 1
  simp only [Vector.getElem_map, tmod, tset, Vector.getElem_setIfInBounds]
  split
  · next e =>
    subst e
    rw [h, tget_of_lt v hi]
  · rfl

theorem counting_modFn (f : Nat) {g : Fn → Fn} (h : ∀ x, (g x).reqQ = x.reqQ) (s : State) : counting (modFn f g s) = counting s := by
  simp only [counting, modFn, map_reqQ_tmod s.fns f h]

theorem counting_postFinal (f : Nat) (e : Entry) (r : Response) (s : State) : counting (postFinal f e r s) = counting s := by
  refine (counting_modFn f (g := fun y => { y with cache := cacheAdd e r y.cache }) (fun _ => rfl) (post f r s)).trans ?_
  simp only [post]
  split
  · rw [counting_of_steady (steady_sendMsix ..)]
    exact counting_modFn f (g := fun y => { y with rspQ := y.rspQ ++ [r] }) (fun _ => rfl) s
  · exact counting_modFn f (g := fun y => { y with rspQ := y.rspQ ++ [r] }) (fun _ => rfl) s

theorem counting_finishAt (x : ExecEntry) (st : Byte) (tick : Long) (pay : List Byte) (s : State) :
    counting (finishAt x st tick pay s) = counting s := by
  unfold finishAt
  simp only
  split
  · rfl
  · rw [counting_postFinal]
    rfl

theorem exec_finishAt (x : ExecEntry) (st : Byte) (tick : Long) (pay : List Byte) (s : State) : (finishAt x st tick pay s).exec = s.exec.erase x := by
  rw [finishAt_eq]

/-- R108. The pending commands that are due leave, one by one. -/
theorem takeEffects_spec (due : List ExecEntry) (s : State) : counting (takeEffects due s) = counting s ∧ (takeEffects due s).exec = s.exec.diff due := by
  induction due generalizing s with
  | nil => exact ⟨rfl, (List.diff_nil (l := s.exec)).symm⟩
  | cons x r ih =>
    rw [takeEffects, forEach_cons, List.diff_cons]
    split
    · next o ho =>
      obtain ⟨hcount, hexec⟩ := counting_effect o (x.ctx o) s
      obtain ⟨ihc, ihe⟩ := ih (finishAt x St.ok (BitVec.ofNat 64 s.lastBoundary) [] (o.behaviour.effect (x.ctx o) s))
      exact ⟨ihc.trans ((counting_finishAt ..).trans hcount), ihe.trans (by rw [exec_finishAt, hexec])⟩
    · obtain ⟨ihc, ihe⟩ := ih (finishAt x St.internal s.tickField [] s)
      exact ⟨ihc.trans (counting_finishAt ..), ihe.trans (by rw [exec_finishAt])⟩

/-- Taking away every entry that meets `p` leaves none. -/
theorem not_mem_diff_filter {α : Type} [DecidableEq α] (p : α → Bool) (l : List α) {x : α} (h : p x = true) : x ∉ l.diff (l.filter p) := by
  rw [← List.count_eq_zero, List.count_diff, List.count_filter h, Nat.sub_self]

/-! ### The boundary -/

theorem exec_masterTickBoundary {s : State} (hruns : s.clockRuns = true) (htick : s.time.tickRun = true) :
    exec .masterTickBoundary s = .next (if s.resetAt.any (resetFirst s) then beginReset .sysReset s else nextBoundary s) := by
  show execMasterTickBoundary s = _
  rw [execMasterTickBoundary, hruns, htick]
  rfl

/-- R548. After the control watchdog the boundary passes, and what is in execution stays there. -/
theorem nextBoundary_of_watchdog {s : State} (hruns : s.clockRuns = true) (htick : s.time.tickRun = true) (hdog : s.power.watchdog = true) :
    Passed s (nextBoundary s) ∧ (nextBoundary s).exec = s.exec := by
  rw [nextBoundary, if_pos hdog]
  have hlater := later_unlaunchedTick s
  generalize unlaunched (forEach (List.range 32) (fun c t => deadline c (latePulse c t)) s) = t at *
  exact ⟨(passed_of_later hruns htick hlater).of_counting (counting_of_steady (steady_reassert _)),
    (exec_of_steady (steady_reassert _)).trans ((exec_passBoundary _).trans ((exec_ageQueues t).trans hlater.exec))⟩

/-- R108, R110. Otherwise the pending commands that are due have left. -/
theorem nextBoundary_of_launched {s : State} (hruns : s.clockRuns = true) (htick : s.time.tickRun = true) (hdog : s.power.watchdog = false) :
    Passed s (nextBoundary s) ∧
      (nextBoundary s).exec = s.exec.diff (s.exec.filter fun x => x.wait == .tick && decide (dueOf s x ≤ s.time.passed)) := by
  rw [nextBoundary, if_neg (by simp [hdog])]
  simp only
  generalize (s.exec.filter fun x => x.wait == .tick && decide (dueOf s x ≤ s.time.passed)) = due
  obtain ⟨hcount, hleft⟩ := takeEffects_spec due (beforeCommands s)
  have hafter := steady_afterCommands s (takeEffects due (beforeCommands s))
  exact ⟨(passed_beforeCommands hruns htick).of_counting ((counting_of_steady hafter).trans hcount),
    (exec_of_steady hafter).trans (hleft.trans (by rw [exec_beforeCommands]))⟩

/-- Settles O29: a boundary is what its commands find, their effects, and what follows, and each part keeps the numbering it finds. -/
theorem boundariesPass : Obligations.BoundariesPass := by
  unfold Obligations.BoundariesPass
  intro s hruns htick
  have hexec := exec_masterTickBoundary hruns htick
  refine ⟨fun hreset => hexec.trans (congrArg _ (if_pos hreset)), fun hfirst => ⟨nextBoundary s, hexec.trans (congrArg _ (if_neg (by simp [hfirst]))), ?_⟩⟩
  cases hdog : s.power.watchdog with
  | true =>
    obtain ⟨hpassed, hstays⟩ := nextBoundary_of_watchdog hruns htick hdog
    exact ⟨hpassed.count, hpassed.runs, hpassed.instant, fun h => absurd h (by decide), fun _ => hstays, fun f hf => hpassed.reqQ hf⟩
  | false =>
    obtain ⟨hpassed, hleft⟩ := nextBoundary_of_launched hruns htick hdog
    refine ⟨hpassed.count, hpassed.runs, hpassed.instant, fun _ x hx hwait hdue => ?_, fun h => absurd h (by decide), fun f hf => hpassed.reqQ hf⟩
    rw [hleft]
    exact not_mem_diff_filter _ _ (by simp [hwait, hdue])

end Sys2Proof.Machine
end

section
/-!
PROOF. A next-tick command that is admitted one tick ahead completes at the next boundary: what `completes` asks for, from the command's run
and its effect. The lemmas that O54 and O58 cite.
-/
namespace Sys2Proof.Machine

/-! ### The run of a next-tick command -/

@[simp] theorem steady_atMailbox (f : Nat) (s : State) : steady (atMailbox f s) = steady s := rfl

/-- R108. What `i` does at once is the request's admission, with what the run changes besides in `t`. -/
def AdmitsAs (o : Op) (i : Instr) (f : Nat) (q : Request) (s : State) (ok : Prop) : Prop :=
  ∀ b, passes o f q s b → ok → ∃ t, exec i s = .next (waiting o f q .tick s t) ∧ steady t = steady s

/-- R105, R108. A command whose run only waits for the boundary. -/
theorem admitsAs_of_run {o : Op} {i : Instr} {f : Nat} {q : Request} {s : State} (hi : exec i s = .next (command o f q s))
    (hr : o.behaviour.run (ctxOf o f q s) (atMailbox f s) = (.wait .tick, atMailbox f s)) : AdmitsAs o i f q s True :=
  fun b hb _ => ⟨withBooks b (atMailbox f s), hi.trans (congrArg _ (command_admitted hb hr rfl rfl)), rfl⟩

/-- R471. A command whose run leaves its audit record first. -/
theorem admitsAs_of_audited {o : Op} {i : Instr} {f : Nat} {q : Request} {s t : State} {ok : Prop} (hi : exec i s = .next (command o f q s))
    (hr : ok → o.behaviour.run (ctxOf o f q s) (atMailbox f s) = (.wait .tick, t)) (ht : ok → steady t = steady s) : AdmitsAs o i f q s ok :=
  fun b hb hok => ⟨withBooks b t, hi.trans (congrArg _ (command_admitted hb (hr hok) (exec_of_steady (ht hok)) (elapsed_of_steady (ht hok)))), ht hok⟩

/-! ### One tick ahead -/

section
variable {o : Op} {f : Nat} {q : Request} {s t : State}

/-- R121, R548. A request is read only while no full reset is pending and firmware is served. -/
theorem reads_of_served (h : served o f q s = true) : s.resetAt = none ∧ s.power.watchdog = false := by
  simp only [served, State.reads, Bool.and_eq_true, Option.isNone_iff_eq_none, Bool.not_eq_true'] at h
  obtain ⟨⟨⟨⟨⟨-, ⟨-, hreset⟩, hdog⟩, -⟩, -⟩, -⟩, -⟩ := h
  exact ⟨hreset, hdog⟩

/-- R108. The boundary one tick ahead is the one a request admitted now is due at. -/
theorem dueOf_waiting (h : oneTickAhead s) (ht : steady t = steady s) :
    dueOf (waiting o f q .tick s t) (inExecution o f q .tick s) = t.time.passed := by
  obtain ⟨-, htick, hahead, -⟩ := h
  have htick' : t.time.tickRun = true := (tickRun_of_steady ht).trans htick
  have hsince : (inExecution o f q .tick s).since = s.time.elapsed := rfl
  show (if !t.time.tickRun then 0 else if _ ≤ _ then t.time.passed else _) = _
  rw [htick', Bool.not_true, if_neg Bool.false_ne_true, if_pos]
  show _ + t.time.dev ≤ t.time.boundary t.time.passed + t.time.elapsed
  rw [hsince, dev_of_steady ht, elapsed_of_steady ht, boundary_of_steady ht, passed_of_steady ht]
  omega

/-- R108. Nothing else is due at that boundary. -/
theorem due_waiting (h : oneTickAhead s) (ht : steady t = steady s) :
    ((waiting o f q .tick s t).exec.filter fun x => x.wait == .tick &&
      decide (dueOf (waiting o f q .tick s t) x ≤ (waiting o f q .tick s t).time.passed)) = [inExecution o f q .tick s] := by
  have hdue := dueOf_waiting (o := o) (f := f) (q := q) h ht
  obtain ⟨-, -, -, halone⟩ := h
  have hother : (s.exec.filter fun x => x.wait == .tick &&
      decide (dueOf (waiting o f q .tick s t) x ≤ (waiting o f q .tick s t).time.passed)) = [] :=
    List.filter_eq_nil_iff.mpr fun x hx => by simp [halone x hx]
  have hexec : (waiting o f q .tick s t).exec = s.exec ++ [inExecution o f q .tick s] := by rw [← exec_of_steady ht]; rfl
  have hwait : (inExecution o f q .tick s).wait = .tick := rfl
  rw [hexec, List.filter_append, hother, List.nil_append, List.filter_singleton, hdue, hwait]
  simp [waiting]

/-- R55, R108, R110. A request admitted one tick ahead completes at the next boundary with the effect of its command. -/
theorem completesAtBoundary_waiting {g : State → State → Prop} (hs : served o f q s = true) (h : oneTickAhead s) (ht : steady t = steady s)
    (hg : ∀ u, g u (o.behaviour.effect (ctxOf o f q s) u)) :
    completesAtBoundary (inExecution o f q .tick s) (waiting o f q .tick s t) g := by
  obtain ⟨hreset, hdog⟩ := reads_of_served hs
  have hruns : (waiting o f q .tick s t).clockRuns = true := (clockRuns_of_steady ht).trans h.1
  have htick : (waiting o f q .tick s t).time.tickRun = true := (tickRun_of_steady ht).trans h.2.1
  have hreset' : (waiting o f q .tick s t).resetAt = none := (resetAt_of_steady ht).trans hreset
  have hdog' : ¬ (waiting o f q .tick s t).power.watchdog = true := by
    rw [show (waiting o f q .tick s t).power.watchdog = t.power.watchdog from rfl, watchdog_of_steady ht, hdog]
    exact Bool.false_ne_true
  have hcount := (passed_beforeCommands hruns htick).count
  have heffect : takeEffects [inExecution o f q .tick s] (beforeCommands (waiting o f q .tick s t)) = _ :=
    takesEffect_of o f q s (beforeCommands (waiting o f q .tick s t))
  refine ⟨_, hg (beforeCommands (waiting o f q .tick s t)), ?_⟩
  rw [exec_masterTickBoundary hruns htick, hreset', Option.any_none, if_neg Bool.false_ne_true, nextBoundary, if_neg hdog']
  simp only
  rw [due_waiting h ht, heffect, State.lastBoundary, hcount, Nat.add_sub_cancel]

/-- R55, R105, R108, R110. -/
theorem completes_of_effect {i : Instr} {ok : Prop} {g : State → State → Prop} (hi : AdmitsAs o i f q s ok)
    (hg : served o f q s = true → ∀ u, g u (o.behaviour.effect (ctxOf o f q s) u)) : completes o i f q s ok g := by
  intro hs
  refine ⟨fun u => ⟨_, takesEffect_of o f q s u, hg hs u⟩, fun b hb hok hahead => ?_⟩
  obtain ⟨t, hexec, ht⟩ := hi b hb hok
  exact ⟨_, hexec, (passed_of_steady ht : t.time.passed = _), completesAtBoundary_waiting hs hahead ht (hg hs)⟩
end

/-! ### The members of a request (R114) -/

theorem mem_idx_lt {n m : Nat} {p : Nat → Bool} (h : m ∈ idx n p) : m < n := List.mem_range.mp (List.mem_filter.mp h).1

theorem nChan_le (s : State) : s.nChan ≤ 32 := by
  unfold State.nChan
  split <;> omega

/-- The members of a selector of channels are channels. -/
theorem members_lt_of_chan {o : Op} {f : Nat} {q : Request} {s : State} (ho : o.info.sel = .chan ∨ o.info.sel = .chans) {c : Nat}
    (hc : c ∈ (ctxOf o f q s).members) : c < 32 := by
  have hsel : c ∈ (if q.csel.toNat < 0x20 then [q.csel.toNat] else if q.csel.toNat = 0xFF then List.range s.nChan
      else idx 32 fun c => (tget s.groups (q.csel.toNat - 0xE0)).getLsbD c) := by
    have hm : c ∈ selMembers (atMailbox f s) o.info.sel f q := hc
    rcases ho with ho | ho <;> rw [ho] at hm <;> exact hm
  split at hsel
  · next hone => exact List.mem_singleton.mp hsel ▸ hone
  · split at hsel
    · exact (List.mem_range.mp hsel).trans_le (nChan_le s)
    · exact mem_idx_lt hsel

/-- R114. A loop over distinct members each of whose turns changes what is its own, and of the rest of the state nothing that `view` shows. -/
theorem forEach_owned {β γ : Type} (view : State → β) (own : State → Nat → γ) (R : Nat → γ → γ → Prop) {l : List Nat} (hl : l.Nodup)
    {g : Nat → State → State} {u v : State} (hv : v = forEach l g u) (h : ∀ m ∈ l, ∀ t, view t = view u →
      view (g m t) = view t ∧ (∀ c, c ≠ m → own (g m t) c = own t c) ∧ R m (own t m) (own (g m t) m)) :
    view v = view u ∧ (∀ c, c ∉ l → own v c = own u c) ∧ ∀ c, c ∈ l → R c (own u c) (own v c) := by
  subst hv
  induction l generalizing u with
  | nil => exact ⟨rfl, fun _ _ => rfl, fun _ hc => absurd hc List.not_mem_nil⟩
  | cons a r ih =>
    obtain ⟨ha, hr⟩ := List.nodup_cons.mp hl
    obtain ⟨hview, hother, hown⟩ := h a List.mem_cons_self u rfl
    obtain ⟨ihview, ihother, ihown⟩ := ih hr (u := g a u) fun m hm t ht => h m (List.mem_cons_of_mem a hm) t (ht.trans hview)
    rw [forEach_cons]
    refine ⟨ihview.trans hview, fun c hc => ?_, fun c hc => ?_⟩
    · rw [List.mem_cons, not_or] at hc
      rw [ihother c hc.2, hother c hc.1]
    · rcases List.mem_cons.mp hc with rfl | hc
      · rw [ihother c ha]
        exact hown
      · have hne : c ≠ a := fun e => ha (e ▸ hc)
        rw [← hother c hne]
        exact ihown c hc

/-- All of the state but the channels. -/
def unchanneled (s : State) : State := { s with chans := default }

theorem eq_of_unchanneled {s t : State} (h : unchanneled t = unchanneled s) : t = { s with chans := t.chans } :=
  congrArg (fun v : State => { v with chans := t.chans }) h

/-- R55, R108, R114. A next-tick command of channels each of whose turns changes its own channel alone. -/
theorem changesChannels_of_turns {o : Op} {i : Instr} {f : Nat} {q : Request} {s : State} {ok : Prop} {g : State → Chan → Chan → Prop}
    (hi : AdmitsAs o i f q s ok) (turn : Nat → State → State) (heff : ∀ u, o.behaviour.effect (ctxOf o f q s) u = forEach (ctxOf o f q s).members turn u)
    (ho : o.info.sel = .chan ∨ o.info.sel = .chans)
    (h : ∀ m, m < 32 → ∀ u t, unchanneled t = unchanneled u →
      unchanneled (turn m t) = unchanneled t ∧ (∀ c, c ≠ m → (turn m t).chan c = t.chan c) ∧ g u (t.chan m) ((turn m t).chan m)) :
    changesChannels o i f q s ok g := by
  refine completes_of_effect hi fun _ u => ?_
  obtain ⟨hview, hother, hown⟩ := forEach_owned unchanneled State.chan (fun _ => g u) (members_nodup o f q s) (heff u)
    fun m hm t ht => h m (members_lt_of_chan ho hm) u t ht
  exact ⟨eq_of_unchanneled hview, hother, hown⟩

/-- The same where each turn is one change of the channel. -/
theorem changesChannels_of_modChan {o : Op} {i : Instr} {f : Nat} {q : Request} {s : State} {ok : Prop} {g : State → Chan → Chan → Prop}
    (hi : AdmitsAs o i f q s ok) (k : Chan → Chan)
    (heff : ∀ u, o.behaviour.effect (ctxOf o f q s) u = forEach (ctxOf o f q s).members (fun m => modChan m k) u)
    (ho : o.info.sel = .chan ∨ o.info.sel = .chans) (h : ∀ u x, g u x (k x)) : changesChannels o i f q s ok g :=
  changesChannels_of_turns hi (fun m => modChan m k) heff ho fun m hm u t _ =>
    ⟨rfl, fun _ hc => chan_modChan_ne _ hc.symm _, by rw [chan_modChan_same _ hm]; exact h u _⟩

end Sys2Proof.Machine
end

section
/-!
PROOF. Channel settings take effect at their boundary (O54).
-/
namespace Sys2Proof.Machine

/-! ### Changes of one channel -/

theorem tset_tget {α : Type} [Inhabited α] {n : Nat} (v : Vector α n) (i : Nat) : tset v i (tget v i) = v := by
  ext j hj
  simp only [tset, Vector.getElem_setIfInBounds]
  split
  · next e =>
    subst e
    exact tget_of_lt v hj
  · rfl

/-- Two changes that agree on the channel as it stands. -/
theorem modChan_congr {c : Nat} {g k : Chan → Chan} {s : State} (h : g (s.chan c) = k (s.chan c)) : modChan c g s = modChan c k s :=
  congrArg (fun x => { s with chans := tset s.chans c x }) h

theorem modChan_of_fixed {c : Nat} {g : Chan → Chan} {s : State} (h : g (s.chan c) = s.chan c) : modChan c g s = s :=
  (modChan_congr (k := id) h).trans (congrArg (fun v => { s with chans := v }) (tset_tget s.chans c))

/-- A loop whose turns all change one channel, each in a way that time decides. -/
theorem forEach_modChan {α : Type} (c : Nat) (l : List α) {g : α → State → State} {k : α → Chan → Chan} (s : State)
    (h : ∀ a t, t.time = s.time → g a t = modChan c (k a) t) : forEach l g s = modChan c (fun x => l.foldl (fun y a => k a y) x) s := by
  induction l generalizing s with
  | nil => exact (modChan_of_fixed rfl).symm
  | cons a r ih =>
    rw [forEach_cons, h a s rfl, ih (modChan c (k a) s) h, modChan_modChan_fuse]
    rfl

/-! ### Calibration values of one channel (R219, R245, R259) -/

/-- R245. The channel with the estimators `ps` restarted. -/
def Chan.restarted (now : Nat) (ps : List Nat) (x : Chan) : Chan :=
  { x with cal := { x.cal with est := ps.foldl (fun e p => tmod e p (Estimator.restart now)) x.cal.est } }

theorem foldl_modEst (now : Nat) (ps : List Nat) (x : Chan) :
    ps.foldl (fun y p => { y with cal := { y.cal with est := tmod y.cal.est p (Estimator.restart now) } }) x = x.restarted now ps := by
  induction ps generalizing x with
  | nil => rfl
  | cons p r ih => exact ih _

theorem restartEst_eq (c : Nat) (ps : List Nat) (s : State) : restartEst c ps s = modChan c (Chan.restarted s.time.dev ps) s := by
  have hloop := forEach_modChan c ps s (g := fun p => modEst c p (Estimator.restart s.time.dev))
    (k := fun p x => { x with cal := { x.cal with est := tmod x.cal.est p (Estimator.restart s.time.dev) } }) fun p t _ => rfl
  exact hloop.trans (modChan_congr (foldl_modEst ..))

/-- R259, R262. The channel without the estimate of parameter `p`. -/
def Chan.discarded (now p : Nat) (x : Chan) : Chan :=
  let y : Chan := { x with cal := { x.cal with
    applied := tset x.cal.applied p none
    est := tmod x.cal.est p fun e => { e with apply := none, estimate := none, agree := 0, drift := 0, appliedAt := 0, last := .none }
    stored := x.cal.stored.map fun r => (r.1, tset r.2 p none) } }
  if (tget x.cal.applied p).isSome then
    Chan.restarted now (downstream p) { y with
      cfg := { y.cfg with pipe := revertPipe p y.cfg.pipe }, cal := { y.cal with gen := (y.cal.gen + 1) % 4294967296 } }
  else y

theorem discardParam_eq (c p : Nat) (s : State) : discardParam c p s = modChan c (Chan.discarded s.time.dev p) s := by
  unfold discardParam
  simp only [bumpGen, modPipe, modCal_eq, modCfg_eq, restartEst_eq, modChan_modChan_fuse, time_modChan]
  split
  · next had => exact modChan_congr (if_pos had).symm
  · next had => exact modChan_congr (if_neg had).symm

/-- R259. What a discarded estimate leaves of the channel. -/
theorem discarded_keeps (now p : Nat) (x : Chan) : x.discarded now p = { x with
    cal := (x.discarded now p).cal, cfg := { x.cfg with pipe := (x.discarded now p).cfg.pipe } } := by
  unfold Chan.discarded
  simp only
  split <;> rfl

/-- R196, R259. The channel without any of its estimates. -/
def Chan.discardedAll (now : Nat) (x : Chan) : Chan := ([0, 1, 2, 3].foldl (fun y p => y.discarded now p) x).restarted now [0, 1, 2, 3]

theorem discardEstimates_eq (c : Nat) (s : State) : discardEstimates c s = modChan c (Chan.discardedAll s.time.dev) s := by
  rw [discardEstimates, forEach_modChan c [0, 1, 2, 3] s (k := Chan.discarded s.time.dev) fun p t ht => by rw [discardParam_eq, ht],
    restartEst_eq, modChan_modChan_fuse]
  rfl

theorem foldl_discarded_keeps (now : Nat) (ps : List Nat) (x : Chan) : ps.foldl (fun y p => y.discarded now p) x = { x with
    cal := (ps.foldl (fun y p => y.discarded now p) x).cal
    cfg := { x.cfg with pipe := (ps.foldl (fun y p => y.discarded now p) x).cfg.pipe } } := by
  induction ps generalizing x with
  | nil => rfl
  | cons p r ih =>
    rw [List.foldl_cons, ih (x.discarded now p), discarded_keeps]

theorem discardedAll_keeps (now : Nat) (x : Chan) : x.discardedAll now = { x with
    cal := (x.discardedAll now).cal, cfg := { x.cfg with pipe := (x.discardedAll now).cfg.pipe } } := by
  unfold Chan.discardedAll
  rw [foldl_discarded_keeps]
  rfl

/-! ### The settings of a channel -/

/-- R158. A binding takes effect: without a pairing the head's estimates are lost, and every window is emptied. -/
def Chan.bound (now : Nat) (b : Option Bind) (x : Chan) : Chan :=
  let y := if x.head.pairing.isSome then x else x.discardedAll now
  { y with cfg := { y.cfg with bind := b } }.restarted now [0, 1, 2, 3]

theorem bind_turn (m : Nat) (b : Option Bind) (t : State) :
    restartEst m [0, 1, 2, 3] (modCfg m (fun x => { x with bind := b }) (if (t.chan m).head.pairing.isSome then t else discardEstimates m t)) =
      modChan m (Chan.bound t.time.dev b) t := by
  split
  · next hp =>
    rw [restartEst_eq, modCfg_eq, modChan_modChan_fuse]
    exact modChan_congr (by simp only [Chan.bound, hp, if_true]; rfl)
  · next hp =>
    rw [restartEst_eq, modCfg_eq, discardEstimates_eq, modChan_modChan_fuse, modChan_modChan_fuse]
    exact modChan_congr (by simp only [Chan.bound, hp]; rfl)

theorem bound_keeps (now : Nat) (b : Option Bind) (x : Chan) : x.bound now b = { x with
    cal := (x.bound now b).cal, cfg := { x.cfg with bind := b, pipe := (x.bound now b).cfg.pipe } } := by
  unfold Chan.bound
  simp only
  split
  · rfl
  · rw [discardedAll_keeps]
    rfl

theorem pipe_bound_of_paired {x : Chan} (now : Nat) (b : Option Bind) (h : x.head.pairing.isSome = true) : (x.bound now b).cfg.pipe = x.cfg.pipe := by
  simp only [Chan.bound, h, if_true]
  rfl

theorem bound_spec (now : Nat) (b : Option Bind) (x : Chan) : (x.bound now b).cfg.bind = b ∧ (x.bound now b).enabled = x.enabled ∧
    (x.bound now b).frames = x.frames ∧
    (x.head.pairing.isSome = true → (x.bound now b).cfg = { x.cfg with bind := (x.bound now b).cfg.bind }) := by
  have hpaired := pipe_bound_of_paired (x := x) now b
  have hkeeps := bound_keeps now b x
  generalize x.bound now b = y at *
  rw [hkeeps]
  exact ⟨rfl, rfl, rfl, fun h => by rw [hpaired h]⟩

/-- R207, R219. The channel with the controls of a request. -/
def Chan.piped (now : Nat) (q : Request) (x : Chan) : Chan :=
  let y := { x with cfg := { x.cfg with pipe := pipeOf q x.cfg.pipe } }.restarted now (pipeRestarts x.cfg.pipe (pipeOf q x.cfg.pipe))
  if q.bit 31 0 then { y with cal := { y.cal with applied := tset y.cal.applied 0 none, gen := (y.cal.gen + 1) % 4294967296 } } else y

theorem pipeSet_eq (q : Request) (m : Nat) (t : State) : pipeSet q m t = modChan m (Chan.piped t.time.dev q) t := by
  unfold pipeSet
  simp only [bumpGen, modPipe, modCal_eq, modCfg_eq, restartEst_eq, modChan_modChan_fuse, time_modChan]
  split
  · next hb => exact modChan_congr (if_pos hb).symm
  · next hb => exact modChan_congr (if_neg hb).symm

theorem piped_spec (now : Nat) (q : Request) (x : Chan) : (x.piped now q).cfg = { x.cfg with pipe := pipeOf q x.cfg.pipe } ∧
    (x.piped now q).frames = x.frames ∧ (x.piped now q).cal.gen = if q.bit 31 0 then (x.cal.gen + 1) % 2 ^ 32 else x.cal.gen := by
  unfold Chan.piped
  simp only
  split <;> exact ⟨rfl, rfl, rfl⟩

section
variable (f : Nat) (q : Request) (s : State)

/-- R158. -/
theorem chanBind_takesEffect : changesChannels .chanBind (.chanBind f q) f q s True fun _ x y =>
    y.cfg.bind = (if q.u 16 1 = 0xFF then none else some (bindOf q)) ∧ y.enabled = x.enabled ∧ y.frames = x.frames ∧
    (x.head.pairing.isSome = true → y.cfg = { x.cfg with bind := y.cfg.bind }) := by
  refine changesChannels_of_turns (admitsAs_of_run rfl rfl) _ (fun _ => rfl) (.inl rfl) fun m hm u t _ => ?_
  simp only [bind_turn]
  refine ⟨rfl, fun _ hc => chan_modChan_ne _ hc.symm _, ?_⟩
  rw [chan_modChan_same _ hm]
  exact bound_spec t.time.dev (if q.u 16 1 = 0xFF then none else some (bindOf q)) (t.chan m)

/-- R207, R219. -/
theorem chanPipeSet_takesEffect : changesChannels .chanPipeSet (.chanPipeSet f q) f q s True fun _ x y =>
    y.cfg = { x.cfg with pipe := pipeOf q x.cfg.pipe } ∧ y.frames = x.frames ∧
    y.cal.gen = if q.bit 31 0 then (x.cal.gen + 1) % 2 ^ 32 else x.cal.gen := by
  refine changesChannels_of_turns (admitsAs_of_run rfl rfl) _ (fun _ => rfl) (.inr rfl) fun m hm u t _ => ?_
  rw [pipeSet_eq]
  refine ⟨rfl, fun _ hc => chan_modChan_ne _ hc.symm _, ?_⟩
  rw [chan_modChan_same _ hm]
  exact piped_spec t.time.dev q (t.chan m)

/-- R221. -/
theorem chanWindowSet_takesEffect : changesChannels .chanWindowSet (.chanWindowSet f q) f q s True fun _ x y =>
    y = { x with cfg := { x.cfg with windows := y.cfg.windows } } ∧
    ∀ i, i < 4 → tget y.cfg.windows i = if i = q.u 16 1 then some (windowOf q) else tget x.cfg.windows i := by
  refine changesChannels_of_modChan (admitsAs_of_run rfl rfl) _ (fun _ => rfl) (.inr rfl) fun u x => ⟨rfl, fun i hi => ?_⟩
  split
  · next e => exact e ▸ tget_tset_same x.cfg.windows (e ▸ hi) _
  · next e => exact tget_tset_ne x.cfg.windows (Ne.symm e) _

/-- R227. -/
theorem chanWindowClear_takesEffect : changesChannels .chanWindowClear (.chanWindowClear f q) f q s True fun _ x y =>
    y = { x with cfg := { x.cfg with windows := y.cfg.windows } } ∧
    ∀ i, i < 4 → tget y.cfg.windows i = if q.bit 16 i then none else tget x.cfg.windows i :=
  changesChannels_of_modChan (admitsAs_of_run rfl rfl) _ (fun _ => rfl) (.inr rfl) fun _ _ => ⟨rfl, fun _ hi => tget_ofFn _ hi⟩

/-- R293. -/
theorem encMotionSet_takesEffect : changesChannels .encMotionSet (.encMotionSet f q) f q s True fun _ x y =>
    y = { x with cfg := { x.cfg with fine := q.u 16 1 == 1, ego := q.bit 17 0 } } :=
  changesChannels_of_modChan (admitsAs_of_run rfl rfl) _ (fun _ => rfl) (.inr rfl) fun _ _ => rfl

/-- R507. -/
theorem seqHookSet_takesEffect : changesChannels .seqHookSet (.seqHookSet f q) f q s True fun _ x y =>
    y = { x with cfg := { x.cfg with hooks := y.cfg.hooks } } ∧
    ∀ h, h < 6 → tget y.cfg.hooks h = if h = q.u 16 1 then hookOf q else tget x.cfg.hooks h := by
  refine changesChannels_of_modChan (admitsAs_of_run rfl rfl) _ (fun _ => rfl) (.inr rfl) fun u x => ⟨rfl, fun h hh => ?_⟩
  split
  · next e => exact e ▸ tget_tset_same x.cfg.hooks (e ▸ hh) _
  · next e => exact tget_tset_ne x.cfg.hooks (Ne.symm e) _
end

/-! ### Settings with an effect outside the channels -/

theorem busPush_eq (c : Nat) (x : BusXfer) (s : State) : busPush c x s = { s with buses := (busPush c x s).buses } := by
  unfold busPush
  split <;> rfl

theorem busRun_eq (b : Nat) (s : State) : busRun b s = { s with buses := (busRun b s).buses, out := (busRun b s).out } := by
  unfold busRun
  split
  · rfl
  · split
    · rfl
    · split <;> rfl

/-- All of the state but the buses and what leaves on them. -/
def unbussed (s : State) : State := { s with buses := default, out := default }

@[simp] theorem unbussed_busPush (c : Nat) (x : BusXfer) (s : State) : unbussed (busPush c x s) = unbussed s := by
  rw [busPush_eq]
  rfl

@[simp] theorem unbussed_busRun (b : Nat) (s : State) : unbussed (busRun b s) = unbussed s := by
  rw [busRun_eq]
  rfl

theorem unbussed_forEach {α : Type} (l : List α) {g : α → State → State} (h : ∀ a t, unbussed (g a t) = unbussed t) (s : State) :
    unbussed (forEach l g s) = unbussed s := forEach_same unbussed l g s fun a _ t => h a t

@[simp] theorem unbussed_dropXfers (drop : BusXfer → Bool) (s : State) : unbussed (dropXfers drop s) = unbussed s :=
  unbussed_forEach _ (fun b t => unbussed_busRun b t) _

/-- R183, R189. A check that the new attachment makes due. -/
theorem addAuto_eq (c : Nat) (s : State) : addAuto c s = s ∨ ∃ k, addAuto c s = modHead c (fun h => { h with checks := h.checks ++ [k] }) s := by
  unfold addAuto addCheck
  split
  · exact .inl rfl
  · split
    · exact .inr ⟨_, rfl⟩
    · exact .inl rfl

/-- R183. All of the state but the channels, the buses and what leaves on them. -/
def unattached (s : State) : State := { unchanneled s with buses := default, out := default }

theorem unattached_of_unbussed {s t : State} (h : unbussed t = unbussed s) : unattached t = unattached s :=
  congrArg (fun v : State => { v with chans := default }) h

theorem chan_of_unbussed {s t : State} (h : unbussed t = unbussed s) (c : Nat) : t.chan c = s.chan c := by
  show (unbussed t).chan c = (unbussed s).chan c
  rw [h]

/-- R183. The channel with a new attachment: Unverified, with the checks it keeps made anew. -/
def Chan.reattached (now : Nat) (a : Attach) (x : Chan) : Chan :=
  { x with
    cfg := { x.cfg with attach := some a }
    head := { x.head with
      state := .unverified
      checks := (x.head.checks.filter fun k => k.why != .auto).map fun k => { (default : Check) with why := k.why, step := .due, dueAt := now } } }

@[simp] theorem unbussed_modChan (c : Nat) (g : Chan → Chan) (s : State) : unbussed (modChan c g s) = modChan c g (unbussed s) := rfl

/-- R183. Of a new attachment the buses apart, the channel takes it, and then an automatic check becomes due. -/
theorem reattach_eq (c : Nat) (a : Attach) (s : State) : ∃ t, reattach c a s = addAuto c t ∧
    unbussed t = unbussed (modChan c (Chan.reattached s.time.elapsed a) s) := by
  refine ⟨_, rfl, ?_⟩
  rw [unbussed_forEach _ fun b u => unbussed_busRun b u, unbussed_forEach _ fun x u => unbussed_busPush c x u]
  simp only [modHead_eq, modCfg_eq, modChan_modChan_fuse]
  split
  · rw [unbussed_modChan, unbussed_dropXfers]
    rfl
  · rw [unbussed_busPush, unbussed_modChan, unbussed_dropXfers]
    rfl

/-- R183. A new attachment changes its channel and the buses alone. -/
theorem reattach_spec {c : Nat} (hc : c < 32) (a : Attach) (s : State) : unattached (reattach c a s) = unattached s ∧
    (∀ d, d ≠ c → (reattach c a s).chan d = s.chan d) ∧
    ((reattach c a s).chan c).cfg = { (s.chan c).cfg with attach := some a } ∧ ((reattach c a s).chan c).head.state = .unverified := by
  obtain ⟨t, he, ht⟩ := reattach_eq c a s
  have hview : unattached t = unattached (modChan c (Chan.reattached s.time.elapsed a) s) := unattached_of_unbussed ht
  have hother (d : Nat) (hd : d ≠ c) : t.chan d = s.chan d := (chan_of_unbussed ht d).trans (chan_modChan_ne _ hd.symm _)
  have hown : t.chan c = (s.chan c).reattached s.time.elapsed a := (chan_of_unbussed ht c).trans (chan_modChan_same _ hc _)
  rw [he]
  rcases addAuto_eq c t with hsame | ⟨k, hmore⟩
  · rw [hsame, hown]
    exact ⟨hview, hother, rfl, rfl⟩
  · rw [hmore, modHead_eq, chan_modChan_same _ hc, hown]
    exact ⟨hview, fun d hd => (chan_modChan_ne _ hd.symm _).trans (hother d hd), rfl, rfl⟩

section
variable (f : Nat) (q : Request) (s : State)

/-- R156. The port is set with an empty FIFO, and a frame with lines in it keeps nothing. -/
theorem chanPortSet_takesEffect : completes .chanPortSet (.chanPortSet f q) f q s True fun u v => v = { u with rx := v.rx, chans := v.chans } ∧
    (∀ p, p < 16 → v.rxPort p = if p = q.u 16 1 then { u.rxPort p with
      set := true, cphy := q.u 17 1 == 1, lanes := q.u 18 1, contClk := q.bit 19 0, rate := q.u 20 2
      map := BitVec.ofNat 16 (q.u 22 2), fifo := [], hwm := 0, lag := 0 } else u.rxPort p) ∧
    ∀ c, c < 32 → v.chan c = { u.chan c with frames := (v.chan c).frames } ∧
      ((∀ l ∈ (u.rxPort (q.u 16 1)).fifo, l.ch ≠ c ∨ l.dropped = true) → (v.chan c).frames = (u.chan c).frames) := by
  refine completes_of_effect (admitsAs_of_run rfl rfl) fun _ u => ⟨rfl, fun p hp => ?_, fun c hc => ?_⟩
  · split
    · next e =>
      subst e
      exact tget_tmod_same _ hp _
    · next e => exact tget_tmod_ne _ (Ne.symm e) _
  · have hchan : (Op.chanPortSet.behaviour.effect (ctxOf .chanPortSet f q s) u).chan c =
        (u.chan c).loseFifo (q.u 16 1) ((u.rxPort (q.u 16 1)).fifo.any fun l => l.ch == c && !l.dropped) := tget_ofFn _ hc
    rw [hchan]
    refine ⟨rfl, fun hnone => ?_⟩
    have hclear : ((u.rxPort (q.u 16 1)).fifo.any fun l => l.ch == c && !l.dropped) = false :=
      List.any_eq_false.mpr fun l hl => by rcases hnone l hl with h | h <;> simp [h]
    rw [hclear]
    simp [Chan.loseFifo]

/-- R58. -/
theorem timeChanRate_takesEffect : completes .timeChanRate (.timeChanRate f q) f q s True fun u v => v = { u with chans := v.chans, out := v.out } ∧
    (∀ c, c ∉ (ctxOf .timeChanRate f q s).members → v.chan c = u.chan c) ∧
    ∀ c, c ∈ (ctxOf .timeChanRate f q s).members → v.chan c = { u.chan c with cfg := { (u.chan c).cfg with rate := some (rateOf q) } } := by
  refine completes_of_effect (admitsAs_of_run rfl rfl) fun _ u => ?_
  generalize hv : Op.timeChanRate.behaviour.effect (ctxOf .timeChanRate f q s) u = v
  obtain ⟨hview, hother, hown⟩ := forEach_owned (fun v => { unchanneled v with out := default }) State.chan
    (fun _ x y => y = { x with cfg := { x.cfg with rate := some (rateOf q) } }) (members_nodup .timeChanRate f q s) hv.symm
    fun m hm t _ => ⟨rfl, fun c hc => chan_modChan_ne t hc.symm _, chan_modChan_same t (members_lt_of_chan (.inr rfl) hm) _⟩
  exact ⟨congrArg (fun w : State => { w with chans := v.chans, out := v.out }) hview, hother, hown⟩
end

/-- R176. What CHAN_SENSOR_SET marks on a channel at its boundary. -/
def sensorMark (q : Request) (t : Nat) : SensorMark := ⟨t + 1000000, q.u 28 1, if q.bit 16 2 then 2 else 1, sensorReasons (q.u 16 1)⟩

/-- R175, R176. The channel with the mark of the boundary at `t`, and its windows restarted where the request says so. -/
def Chan.sensed (now t : Nat) (q : Request) (x : Chan) : Chan :=
  let y : Chan := { x with marks := x.marks ++ [sensorMark q t] }
  if q.bit 16 2 then y.restarted now [0, 1, 2, 3] else y

theorem sensed_spec (now t : Nat) (q : Request) (x : Chan) :
    (x.sensed now t q).cfg = x.cfg ∧ (x.sensed now t q).marks = x.marks ++ [sensorMark q t] := by
  unfold Chan.sensed
  simp only
  split <;> exact ⟨rfl, rfl⟩

/-- R175. What CHAN_SENSOR_SET writes on the bus. -/
def sensorXfer (q : Request) (m t : Nat) : BusXfer :=
  { newXfer m .sensor .sensorWrite [⟨[BitVec.ofNat 8 (q.u 18 2 / 256), BitVec.ofNat 8 (q.u 18 2)] ++ q.bytes 20 (q.u 17 1), 0, false⟩] with
    due := t + 1000000 }

theorem sensorEffect_eq (c : Ctx) (m : Nat) (s : State) : sensorEffect c m s =
    when (decide (0 < c.q.u 17 1)) (busPush m (sensorXfer c.q m (s.time.boundary s.lastBoundary)))
      (modChan m (Chan.sensed s.time.dev (s.time.boundary s.lastBoundary) c.q) s) := by
  have hchan : when (c.q.bit 16 2) (restartEst m [0, 1, 2, 3])
      (modChan m (fun x => { x with marks := x.marks ++ [sensorMark c.q (s.time.boundary s.lastBoundary)] }) s) =
      modChan m (Chan.sensed s.time.dev (s.time.boundary s.lastBoundary) c.q) s := by
    unfold when
    split
    · next hrestart =>
      rw [restartEst_eq, modChan_modChan_fuse]
      exact modChan_congr (if_pos hrestart).symm
    · next hkeep => exact modChan_congr (if_neg hkeep).symm
  rw [← hchan]
  simp only [when, decide_eq_true_eq]
  rfl

section
variable (f : Nat) (q : Request) (s : State)

/-- R175. -/
theorem chanSensorSet_takesEffect : completes .chanSensorSet (.chanSensorSet f q) f q s True fun u v =>
    v = { u with chans := v.chans, buses := v.buses } ∧ (q.u 17 1 = 0 → v.buses = u.buses) ∧
    (∀ c, c ∉ (ctxOf .chanSensorSet f q s).members → v.chan c = u.chan c) ∧
    ∀ c, c ∈ (ctxOf .chanSensorSet f q s).members → (v.chan c).cfg = (u.chan c).cfg ∧ ∃ k, (v.chan c).marks = (u.chan c).marks ++ [k] ∧
      k.fromTime = u.time.boundary u.lastBoundary + 1000000 ∧ k.skip = q.u 28 1 ∧ k.marks = if q.bit 16 2 then 2 else 1 := by
  refine completes_of_effect (admitsAs_of_run rfl rfl) fun _ u => ?_
  generalize hv : Op.chanSensorSet.behaviour.effect (ctxOf .chanSensorSet f q s) u = v
  obtain ⟨hview, hother, hown⟩ := forEach_owned
    (fun v => ({ unchanneled v with buses := default }, if q.u 17 1 = 0 then v.buses else default)) State.chan
    (fun _ x y => y.cfg = x.cfg ∧ y.marks = x.marks ++ [sensorMark q (u.time.boundary u.lastBoundary)])
    (members_nodup .chanSensorSet f q s) hv.symm fun m hm t ht => by
      have htime : t.time = u.time := congrArg (fun p => p.1.time) ht
      have hwhen : t.time.boundary t.lastBoundary = u.time.boundary u.lastBoundary := by rw [State.lastBoundary, State.lastBoundary, htime]
      have hm' := members_lt_of_chan (.inr rfl) hm
      rw [sensorEffect_eq, hwhen]
      have hspec := sensed_spec t.time.dev (u.time.boundary u.lastBoundary) q (t.chan m)
      by_cases hwrite : q.u 17 1 = 0
      · rw [when, if_neg (by simp [ctxOf, contextOf, hwrite])]
        refine ⟨rfl, fun c hc => chan_modChan_ne t hc.symm _, ?_⟩
        rw [chan_modChan_same t hm']
        exact hspec
      · rw [when, if_pos (show decide (0 < (ctxOf .chanSensorSet f q s).q.u 17 1) = true from decide_eq_true (Nat.pos_of_ne_zero hwrite)), busPush_eq]
        refine ⟨by simp [hwrite, unchanneled], fun c hc => chan_modChan_ne t hc.symm _, ?_⟩
        show ((modChan m _ t).chan m).cfg = _ ∧ ((modChan m _ t).chan m).marks = _
        rw [chan_modChan_same t hm']
        exact hspec
  simp only [Prod.mk.injEq] at hview
  refine ⟨congrArg (fun w : State => { w with chans := v.chans, buses := v.buses }) hview.1, fun hnone => ?_, hother, fun c hc => ?_⟩
  · have := hview.2
    rwa [if_pos hnone, if_pos hnone] at this
  · obtain ⟨hcfg, hmarks⟩ := hown c hc
    exact ⟨hcfg, _, hmarks, rfl, rfl, rfl⟩

/-- What HEAD_POLICY_SET does on its member `m`. -/
def policyTurn (q : Request) (m : Nat) (t : State) : State :=
  let t1 := modCfg m (fun x => { x with allowUnpaired := q.bit 19 1 }) t
  if (attachOf q).bus = 0xFF then t1 else reattach m (attachOf q) t1

/-- R181, R183. -/
theorem headPolicySet_takesEffect : completes .headPolicySet (.headPolicySet f q) f q s True fun u v =>
    v = { u with chans := v.chans, buses := v.buses, out := v.out } ∧
    (∀ c, c ∉ (ctxOf .headPolicySet f q s).members → v.chan c = u.chan c) ∧
    ∀ c, c ∈ (ctxOf .headPolicySet f q s).members →
      if q.u 16 1 = 0xFF then v.chan c = { u.chan c with cfg := { (u.chan c).cfg with allowUnpaired := q.bit 19 1 } }
      else (v.chan c).cfg = { (u.chan c).cfg with allowUnpaired := q.bit 19 1, attach := some (attachOf q) } ∧
        (v.chan c).head.state = .unverified := by
  refine completes_of_effect (admitsAs_of_run rfl rfl) fun _ u => ?_
  generalize hv : Op.headPolicySet.behaviour.effect (ctxOf .headPolicySet f q s) u = v
  have hturns : v = forEach (ctxOf .headPolicySet f q s).members (policyTurn q) u := hv.symm
  obtain ⟨hview, hother, hown⟩ := forEach_owned unattached State.chan
    (fun _ x y => if q.u 16 1 = 0xFF then y = { x with cfg := { x.cfg with allowUnpaired := q.bit 19 1 } }
      else y.cfg = { x.cfg with allowUnpaired := q.bit 19 1, attach := some (attachOf q) } ∧ y.head.state = .unverified)
    (members_nodup .headPolicySet f q s) hturns fun m hm t _ => by
      have hm' := members_lt_of_chan (.inr rfl) hm
      have hallow : (modCfg m (fun x => { x with allowUnpaired := q.bit 19 1 }) t).chan m =
          { t.chan m with cfg := { (t.chan m).cfg with allowUnpaired := q.bit 19 1 } } := chan_modChan_same t hm' _
      by_cases hnone : q.u 16 1 = 0xFF
      · rw [policyTurn, if_pos (show (attachOf q).bus = 0xFF from hnone), if_pos hnone]
        exact ⟨rfl, fun c hc => chan_modChan_ne t hc.symm _, hallow⟩
      · rw [policyTurn, if_neg (show ¬ (attachOf q).bus = 0xFF from hnone), if_neg hnone]
        obtain ⟨hview, hother, hcfg, hstate⟩ := reattach_spec hm' (attachOf q) (modCfg m (fun x => { x with allowUnpaired := q.bit 19 1 }) t)
        rw [hallow] at hcfg
        exact ⟨hview, fun c hc => (hother c hc).trans (chan_modChan_ne t hc.symm _), hcfg, hstate⟩
  exact ⟨congrArg (fun w : State => { w with chans := v.chans, buses := v.buses, out := v.out }) hview, hother, hown⟩
end

/-- Settles O54, command by command: each run only waits for the boundary, and each effect is a loop of changes of single channels. -/
theorem channelSettingsTakeEffect : Obligations.ChannelSettingsTakeEffect := by
  unfold Obligations.ChannelSettingsTakeEffect
  exact fun f q s => ⟨chanPortSet_takesEffect f q s, chanBind_takesEffect f q s, chanPipeSet_takesEffect f q s, chanWindowSet_takesEffect f q s,
    chanWindowClear_takesEffect f q s, timeChanRate_takesEffect f q s, encMotionSet_takesEffect f q s, seqHookSet_takesEffect f q s,
    chanSensorSet_takesEffect f q s, headPolicySet_takesEffect f q s⟩

end Sys2Proof.Machine
end

section
/-!
PROOF. Calibration, key, power and tick settings take effect at their boundary (O58).
-/
namespace Sys2Proof.Machine

/-! ### Commands that leave their audit record as they are admitted (R471) -/

theorem waits_tickAudited {s : State} (h : auditGuard s = true) (event : Nat) (detail : List Byte) (c : Ctx) (f : Nat) :
    (tickAudited event detail c (atMailbox f s)).1 = .wait .tick := by
  rw [tickAudited, if_pos (show auditGuard (atMailbox f s) = true from h)]

theorem waits_calAudited {s : State} (h : auditGuard s = true) (code : Nat) (c : Ctx) (f : Nat) :
    (calAudited code c (atMailbox f s)).1 = .wait .tick := waits_tickAudited h ..

/-- R471. A command whose run waits for the boundary and leaves the timebase and what is in execution. -/
theorem admitsAs_of_waits {o : Op} {i : Instr} {f : Nat} {q : Request} {s : State} {ok : Prop} (hi : exec i s = .next (command o f q s))
    (hw : ok → (o.behaviour.run (ctxOf o f q s) (atMailbox f s)).1 = .wait .tick)
    (hs : steady (o.behaviour.run (ctxOf o f q s) (atMailbox f s)).2 = steady s) : AdmitsAs o i f q s ok :=
  admitsAs_of_audited hi (fun hok => Prod.ext (hw hok) rfl) fun _ => hs

/-! ### What discarded estimates leave of a channel (R259) -/

/-- What of an estimator a restart of its windows leaves. -/
theorem restarted_est (now : Nat) (ps : List Nat) (x : Chan) (p : Nat) :
    (tget (x.restarted now ps).cal.est p).estimate = (tget x.cal.est p).estimate ∧
    (tget (x.restarted now ps).cal.est p).last = (tget x.cal.est p).last := by
  have hkeep : ∀ e : Vector Estimator 4, (tget (ps.foldl (fun e p => tmod e p (Estimator.restart now)) e) p).estimate = (tget e p).estimate ∧
      (tget (ps.foldl (fun e p => tmod e p (Estimator.restart now)) e) p).last = (tget e p).last := by
    induction ps with
    | nil => exact fun _ => ⟨rfl, rfl⟩
    | cons a r ih =>
      intro e
      obtain ⟨hestimate, hlast⟩ := ih (tmod e a (Estimator.restart now))
      rw [List.foldl_cons, hestimate, hlast, tget_tmod]
      split
      · next h => rw [← h.1]; exact ⟨rfl, rfl⟩
      · exact ⟨rfl, rfl⟩
  exact hkeep x.cal.est

theorem applied_discarded (now p : Nat) (x : Chan) : (x.discarded now p).cal.applied = tset x.cal.applied p none := by
  unfold Chan.discarded
  simp only
  split <;> rfl

theorem discarded_settings (now p : Nat) (x : Chan) :
    (x.discarded now p).cal.enable = x.cal.enable ∧ (x.discarded now p).cal.pins = x.cal.pins := by
  unfold Chan.discarded
  simp only
  split <;> exact ⟨rfl, rfl⟩

/-- What a channel has of parameter `p` once its estimate is discarded. -/
def Chan.without (x : Chan) (p : Nat) : Prop :=
  tget x.cal.applied p = none ∧ (tget x.cal.est p).estimate = none ∧ (tget x.cal.est p).last = .none

theorem est_discarded (now a p : Nat) (x : Chan) :
    ((tget (x.discarded now a).cal.est p).estimate, (tget (x.discarded now a).cal.est p).last) =
      if a = p ∧ a < 4 then (none, .none) else ((tget x.cal.est p).estimate, (tget x.cal.est p).last) := by
  have hcleared : ∀ e : Vector Estimator 4, ∀ k : Estimator → Estimator, (∀ y, (k y).estimate = none ∧ (k y).last = .none) →
      ((tget (tmod e a k) p).estimate, (tget (tmod e a k) p).last) =
        if a = p ∧ a < 4 then (none, .none) else ((tget e p).estimate, (tget e p).last) := by
    intro e k hk
    rw [tget_tmod]
    split
    · rw [(hk _).1, (hk _).2]
    · rfl
  unfold Chan.discarded
  simp only
  split
  · rw [(restarted_est ..).1, (restarted_est ..).2]
    exact hcleared _ _ fun _ => ⟨rfl, rfl⟩
  · exact hcleared _ _ fun _ => ⟨rfl, rfl⟩

theorem without_discarded (now a p : Nat) (x : Chan) (hp : p < 4) (h : a = p ∨ x.without p) : (x.discarded now a).without p := by
  have hest := est_discarded now a p x
  have happlied := congrArg (tget · p) (applied_discarded now a x)
  by_cases ha : a = p
  · subst ha
    rw [if_pos ⟨rfl, hp⟩, Prod.mk.injEq] at hest
    exact ⟨happlied.trans (tget_tset_same _ hp _), hest⟩
  · obtain ⟨hnone, hestimate, hlast⟩ := h.resolve_left ha
    rw [if_neg fun hn => ha hn.1, hestimate, hlast, Prod.mk.injEq] at hest
    exact ⟨(happlied.trans (tget_tset_ne _ ha _)).trans hnone, hest⟩

theorem without_foldl_discarded (now : Nat) (ps : List Nat) (p : Nat) (x : Chan) (hp : p < 4) (h : p ∈ ps ∨ x.without p) :
    (ps.foldl (fun y a => y.discarded now a) x).without p := by
  induction ps generalizing x with
  | nil => exact h.resolve_left List.not_mem_nil
  | cons a r ih =>
    refine ih _ ?_
    rw [List.mem_cons] at h
    rcases h with (rfl | hr) | hw
    · exact .inr (without_discarded now _ _ x hp (.inl rfl))
    · exact .inl hr
    · exact .inr (without_discarded now a p x hp (.inr hw))

/-- R259. What the discarding of some estimates leaves: the enables, the pins, and the others' values in force. -/
theorem foldl_discarded_settings (now : Nat) (ps : List Nat) (x : Chan) :
    (ps.foldl (fun y a => y.discarded now a) x).cal.enable = x.cal.enable ∧ (ps.foldl (fun y a => y.discarded now a) x).cal.pins = x.cal.pins ∧
    ∀ p, p ∉ ps → tget (ps.foldl (fun y a => y.discarded now a) x).cal.applied p = tget x.cal.applied p := by
  induction ps generalizing x with
  | nil => exact ⟨rfl, rfl, fun _ _ => rfl⟩
  | cons a r ih =>
    obtain ⟨henable, hpins, happlied⟩ := ih (x.discarded now a)
    refine ⟨henable.trans (discarded_settings ..).1, hpins.trans (discarded_settings ..).2, fun p hp => ?_⟩
    rw [List.mem_cons, not_or] at hp
    rw [List.foldl_cons, happlied p hp.2, applied_discarded, tget_tset_ne _ (Ne.symm hp.1)]

/-! ### Calibration commands and the geometry -/

section
variable (f : Nat) (q : Request) (s : State)

/-- R261, R262. -/
theorem calEnable_takesEffect : changesChannels .calEnable (.calEnable f q) f q s (auditGuard s = true) fun _ x y =>
    y.cal.enable = BitVec.ofNat 4 (q.u 16 1) ∧ y.cal.pins = x.cal.pins ∧ y.cal.applied = x.cal.applied ∧ y.cfg = x.cfg := by
  have hrun : Op.calEnable.behaviour.run (ctxOf .calEnable f q s) (atMailbox f s) = calAudited 1 (ctxOf .calEnable f q s) (atMailbox f s) := rfl
  refine changesChannels_of_turns (admitsAs_of_waits rfl (fun h => ?_) ?_)
    (fun m t => restartEst m [0, 1, 2, 3] (modCal m (fun x => { x with enable := BitVec.ofNat 4 (q.u 16 1) }) t)) (fun _ => rfl) (.inr rfl)
    fun m hm u t _ => ?_
  · rw [hrun]
    exact waits_calAudited h 1 _ f
  · rw [hrun, steady_calAudited, steady_atMailbox]
  · rw [restartEst_eq, modCal_eq, modChan_modChan_fuse]
    exact ⟨rfl, fun _ hc => chan_modChan_ne _ hc.symm _, by rw [chan_modChan_same _ hm]; exact ⟨rfl, rfl, rfl, rfl⟩⟩

/-- R255, R257, R259. The audited run of a command that names no parameter and then leaves no record. -/
def maskedRun (code : Nat) (c : Ctx) (s : State) : Reply × State := if c.q.zero 16 1 then (.wait .tick, s) else calAudited code c s

theorem waits_maskedRun {s : State} (h : auditGuard s = true) (code : Nat) (c : Ctx) (f : Nat) :
    (maskedRun code c (atMailbox f s)).1 = .wait .tick := by
  unfold maskedRun
  split
  · rfl
  · exact waits_calAudited h code c f

theorem steady_maskedRun (code : Nat) (c : Ctx) (s : State) : steady (maskedRun code c s).2 = steady s := by
  unfold maskedRun
  split
  · rfl
  · exact steady_calAudited code c s

/-- R257. CAL_PIN then stops the estimates on their way. -/
theorem calPin_run (c : Ctx) (s : State) : (calPinB.run c s).1 = (maskedRun 2 c s).1 ∧ steady (calPinB.run c s).2 = steady s := by
  have haudit := steady_calAudited 2 c s
  unfold calPinB maskedRun
  simp only
  split
  · exact ⟨rfl, rfl⟩
  · split
    · next hrun =>
      rw [hrun] at haudit ⊢
      exact ⟨rfl, (steady_forEach _ (steady_pinNow _) _).trans haudit⟩
    · exact ⟨rfl, haudit⟩

/-- R255, R257. -/
theorem calPin_takesEffect : changesChannels .calPin (.calPin f q) f q s (auditGuard s = true) fun _ x y =>
    y.cal.pins = x.cal.pins ||| BitVec.ofNat 4 (q.u 16 1) ∧ y.cal.enable = x.cal.enable ∧ y.cal.est = x.cal.est ∧ y.cfg = x.cfg ∧
    ∀ i, i < 4 → tget y.cal.thr i = if q.bit 16 i then q.u 18 2 else tget x.cal.thr i := by
  obtain ⟨hreply, hsteady⟩ := calPin_run (ctxOf .calPin f q s) (atMailbox f s)
  refine changesChannels_of_modChan (admitsAs_of_waits rfl (fun h => hreply.trans (waits_maskedRun h 2 _ f)) hsteady) (fun x => { x with cal := { x.cal with
    pins := x.cal.pins ||| BitVec.ofNat 4 (q.u 16 1)
    thr := Vector.ofFn fun i => if q.bit 16 i.val then q.u 18 2 else tget x.cal.thr i.val } }) (fun _ => rfl) (.inr rfl)
    fun _ x => ⟨rfl, rfl, rfl, rfl, fun i hi => ?_⟩
  show tget (Vector.ofFn _) i = _
  rw [tget_of_lt _ hi, Vector.getElem_ofFn]

/-- R257. -/
theorem calUnpin_takesEffect : changesChannels .calUnpin (.calUnpin f q) f q s (auditGuard s = true) fun _ x y =>
    y = { x with cal := { x.cal with pins := x.cal.pins &&& ~~~(BitVec.ofNat 4 (q.u 16 1)) } } :=
  changesChannels_of_modChan (admitsAs_of_waits rfl (fun h => waits_maskedRun h 3 (ctxOf .calUnpin f q s) f)
    (steady_maskedRun 3 (ctxOf .calUnpin f q s) (atMailbox f s)))
    (fun x => { x with cal := { x.cal with pins := x.cal.pins &&& ~~~(BitVec.ofNat 4 (q.u 16 1)) } }) (fun _ => rfl) (.inr rfl) fun _ _ => rfl

/-- R259, R262. One channel of CAL_RESET. -/
theorem reset_turn (mask m : Nat) (t : State) : forEach (maskParams mask) (fun p => discardParam m p) (restartEst m (maskParams mask) t) =
    modChan m (fun x => (maskParams mask).foldl (fun y p => y.discarded t.time.dev p) (x.restarted t.time.dev (maskParams mask))) t := by
  rw [restartEst_eq, forEach_modChan m _ _ (k := Chan.discarded t.time.dev) fun p u hu => by rw [discardParam_eq, hu, time_modChan],
    modChan_modChan_fuse]

theorem mem_maskParams {mask p : Nat} (hp : p < 4) : p ∈ maskParams mask ↔ bitOf mask p = true := by
  have hall : p ∈ [0, 1, 2, 3] := by simp; omega
  rw [maskParams, List.mem_filter, and_iff_right hall]

/-- R259, R262. -/
theorem calReset_takesEffect : changesChannels .calReset (.calReset f q) f q s (auditGuard s = true) fun _ x y =>
    y.cal.enable = x.cal.enable ∧ y.cal.pins = x.cal.pins ∧ y.cfg.bind = x.cfg.bind ∧
    (∀ p, p < 4 → q.bit 16 p = true → tget y.cal.applied p = none ∧ (tget y.cal.est p).estimate = none ∧ (tget y.cal.est p).last = .none) ∧
    (∀ p, p < 4 → q.bit 16 p = false → tget y.cal.applied p = tget x.cal.applied p) := by
  refine changesChannels_of_turns (admitsAs_of_waits rfl (fun h => waits_maskedRun h 4 (ctxOf .calReset f q s) f)
    (steady_maskedRun 4 (ctxOf .calReset f q s) (atMailbox f s)))
    (fun m t => forEach (maskParams (q.u 16 1)) (fun p => discardParam m p) (restartEst m (maskParams (q.u 16 1)) t)) (fun _ => rfl) (.inr rfl)
    fun m hm u t _ => ?_
  rw [reset_turn]
  refine ⟨rfl, fun _ hc => chan_modChan_ne _ hc.symm _, ?_⟩
  rw [chan_modChan_same _ hm]
  obtain ⟨henable, hpins, happlied⟩ := foldl_discarded_settings t.time.dev (maskParams (q.u 16 1)) ((t.chan m).restarted t.time.dev (maskParams (q.u 16 1)))
  have hbind := congrArg (fun x => x.cfg.bind)
    (foldl_discarded_keeps t.time.dev (maskParams (q.u 16 1)) ((t.chan m).restarted t.time.dev (maskParams (q.u 16 1))))
  refine ⟨henable, hpins, hbind, fun p hp hnamed => ?_, fun p hp hother => happlied p fun hmem => ?_⟩
  · exact without_foldl_discarded _ _ p _ hp (.inl ((mem_maskParams hp).mpr hnamed))
  · exact Bool.false_ne_true (hother.symm.trans ((mem_maskParams hp).mp hmem))

/-- R304. -/
theorem encGeometrySet_takesEffect : changesChannels .encGeometrySet (.encGeometrySet f q) f q s (auditGuard s = true) fun _ x y =>
    y = { x with cal := { x.cal with geometry := if geometryClear q then none else some (geometryOf q) } } := by
  have hrun : Op.encGeometrySet.behaviour.run (ctxOf .encGeometrySet f q s) (atMailbox f s) = tickAudited 0x31
      (le 1 ((ctxOf .encGeometrySet f q s).members.headD 0) ++ zeros 3 ++ slice (hash (q.bytes 16 48)) 0 16) (ctxOf .encGeometrySet f q s) (atMailbox f s) := rfl
  refine changesChannels_of_modChan (admitsAs_of_waits rfl (fun h => ?_) ?_)
    (fun x => { x with cal := { x.cal with geometry := if geometryClear q then none else some (geometryOf q) } }) (fun _ => rfl) ?_ fun _ _ => rfl
  · rw [hrun]
    exact waits_tickAudited h _ _ _ f
  · rw [hrun, steady_tickAudited, steady_atMailbox]
  · decide
end

/-! ### Power domains and the period of the tick -/

theorem domain_modDomain_same {d : Nat} (hd : d < 7) (g : Domain → Domain) (s : State) : (modDomain d g s).domain d = g (s.domain d) :=
  tget_tmod_same _ hd g

theorem domain_modDomain_ne {d e : Nat} (h : d ≠ e) (g : Domain → Domain) (s : State) : (modDomain d g s).domain e = s.domain e :=
  tget_tmod_ne _ h g

/-- All of the state but the power unit and what leaves. -/
def unpowered (s : State) : State := { s with power := default, out := default }

/-- R513, R521. A voltage that is set leaves all of a domain but the voltage. -/
theorem setVoltage_spec (d : Nat) (s : State) : unpowered (setVoltage d s) = unpowered s ∧ (∀ e, e ≠ d → (setVoltage d s).domain e = s.domain e) ∧
    ((setVoltage d s).domain d).on = (s.domain d).on ∧ ((setVoltage d s).domain d).ramping = (s.domain d).ramping := by
  have hset : ∀ g : Domain → Domain, (∀ x, (g x).on = x.on ∧ (g x).ramping = x.ramping) → unpowered (modDomain d g s) = unpowered s ∧
      (∀ e, e ≠ d → (modDomain d g s).domain e = s.domain e) ∧ ((modDomain d g s).domain d).on = (s.domain d).on ∧
      ((modDomain d g s).domain d).ramping = (s.domain d).ramping := by
    intro g hg
    refine ⟨rfl, fun e he => domain_modDomain_ne he.symm g s, ?_⟩
    show (tget (tmod s.power.domains d g) d).on = _ ∧ (tget (tmod s.power.domains d g) d).ramping = _
    rw [tget_tmod]
    split
    · exact hg _
    · exact ⟨rfl, rfl⟩
  unfold setVoltage
  simp only
  generalize (if (s.domain d).on then voltage (s.domain d) else 0) = v
  split
  · exact ⟨rfl, fun _ _ => rfl, rfl, rfl⟩
  · split
    · exact hset (fun y => { y with vset := v }) fun _ => ⟨rfl, rfl⟩
    · exact hset (fun y => { y with vset := v }) fun _ => ⟨rfl, rfl⟩

theorem powerUp_spec {d : Nat} (hd : d < 7) (s : State) : unpowered (powerUp d s) = unpowered s ∧
    (∀ e, e ≠ d → (powerUp d s).domain e = s.domain e) ∧ ((powerUp d s).domain d).on = ((s.domain d).on || !(s.domain d).failed) := by
  unfold powerUp
  simp only
  split
  · next h =>
    refine ⟨rfl, fun _ _ => rfl, ?_⟩
    revert h
    cases (s.domain d).on <;> simp
  · next h =>
    obtain ⟨hview, hother, hon, -⟩ := setVoltage_spec d (modDomain d (fun y => { y with on := true, ramping := false, upAt := if y.ramping then s.time.dev else y.upAt }) s)
    refine ⟨hview, fun e he => (hother e he).trans (domain_modDomain_ne he.symm _ s), ?_⟩
    rw [Bool.or_eq_true, not_or] at h
    rw [hon, domain_modDomain_same hd, Bool.eq_false_iff.mpr h.2, Bool.not_false, Bool.or_true]

theorem gate_spec {d : Nat} (hd : d < 7) (s : State) : unpowered (gate d s) = unpowered s ∧ (∀ e, e ≠ d → (gate d s).domain e = s.domain e) ∧
    ((gate d s).domain d).on = false ∧ ((s.domain d).on = false → ((gate d s).domain d).ramping = false) := by
  unfold gate
  split
  · next h =>
    obtain ⟨hview, hother, hon, -⟩ := setVoltage_spec d (modDomain d (fun x => { x with on := false, failed := false }) s)
    refine ⟨hview, fun e he => (hother e he).trans (domain_modDomain_ne he.symm _ s), ?_, fun hoff => ?_⟩
    · rw [hon, domain_modDomain_same hd]
    · rw [hoff] at h
      exact absurd h Bool.false_ne_true
  · next h =>
    rw [domain_modDomain_same hd]
    exact ⟨rfl, fun e he => domain_modDomain_ne he.symm _ s, Bool.eq_false_iff.mpr h, fun _ => rfl⟩

/-- R521. The domains a mask names are 2, 3 and 4, each once. -/
theorem maskDomains_spec (mask : Nat) : (maskDomains mask).Nodup ∧ ∀ d ∈ maskDomains mask, d < 7 := by
  have hsub : (maskDomains mask).Sublist [2, 3, 4] := List.filter_sublist.map _
  exact ⟨hsub.nodup (by decide), fun d hd => by have := hsub.subset hd; simp at this; omega⟩

section
variable (f : Nat) (q : Request) (s : State)

/-- R521. No domain is both powered and gated. -/
theorem not_powersUp_of_gates {d : Nat} (h : d ∈ gates q) : d ∉ powersUp q := by
  rw [gates, List.mem_filter, Bool.not_eq_true'] at h
  rw [powersUp, List.mem_filter, h.2]
  exact fun hn => Bool.false_ne_true hn.2

/-- R521 to R523. -/
theorem pwrDomainSet_takesEffect : completes .pwrDomainSet (.pwrDomainSet f q) f q s True fun u v =>
    v = { u with power := v.power, out := v.out } ∧
    (∀ d, d ∈ gates q → (v.domain d).on = false ∧ ((u.domain d).on = false → (v.domain d).ramping = false)) ∧
    (∀ d, d ∈ powersUp q → (v.domain d).on = ((u.domain d).on || !(u.domain d).failed)) ∧
    (∀ d, d ∉ gates q → d ∉ powersUp q → v.domain d = u.domain d) := by
  refine completes_of_effect (admitsAs_of_waits rfl (fun _ => rfl) (steady_forEach _ steady_beginPower _)) fun _ u => ?_
  obtain ⟨hnodup, hlt⟩ := maskDomains_spec (q.u 16 1)
  obtain ⟨hview, hother, hown⟩ := forEach_owned unpowered State.domain (fun _ x y => y.on = (x.on || !x.failed)) (hnodup.filter _)
    (l := powersUp q) (g := powerUp) (u := u) rfl fun d hd t _ => powerUp_spec (hlt d (List.mem_of_mem_filter hd)) t
  obtain ⟨hview', hother', hown'⟩ := forEach_owned unpowered State.domain (fun _ x y => y.on = false ∧ (x.on = false → y.ramping = false))
    (hnodup.filter _) (l := gates q) (g := gate) (u := forEach (powersUp q) powerUp u) rfl fun d hd t _ =>
      gate_spec (hlt d (List.mem_of_mem_filter hd)) t
  generalize hv : forEach (gates q) gate (forEach (powersUp q) powerUp u) = v at hview' hother' hown'
  have heffect : Op.pwrDomainSet.behaviour.effect (ctxOf .pwrDomainSet f q s) u = v := hv
  rw [heffect]
  refine ⟨congrArg (fun w : State => { w with power := v.power, out := v.out }) (hview'.trans hview), fun d hd => ?_, fun d hd => ?_, fun d hg hp => ?_⟩
  · rw [← hother d (not_powersUp_of_gates q hd)]
    exact hown' d hd
  · rw [hother' d fun hg => not_powersUp_of_gates q hg hd]
    exact hown d hd
  · rw [hother' d hg, hother d hp]

/-- R57. -/
theorem timeTickSet_takesEffect : completes .timeTickSet (.timeTickSet f q) f q s True fun u v => v = { u with time := v.time } ∧
    v.time = { u.time with period := q.u 16 4, refT := v.time.refT, refK := u.time.passed - 1 } ∧
    (0 < u.time.passed → v.time.boundary (u.time.passed - 1) = u.time.boundary (u.time.passed - 1) ∧
      v.time.boundary u.time.passed = u.time.boundary (u.time.passed - 1) + q.u 16 4) := by
  refine completes_of_effect (admitsAs_of_run rfl rfl) fun _ u => ⟨rfl, rfl, fun hpos => ?_⟩
  show u.time.boundary (u.time.passed - 1) + (u.time.passed - 1 - (u.time.passed - 1)) * q.u 16 4 = u.time.boundary (u.time.passed - 1) ∧
    u.time.boundary (u.time.passed - 1) + (u.time.passed - (u.time.passed - 1)) * q.u 16 4 = u.time.boundary (u.time.passed - 1) + q.u 16 4
  rw [Nat.sub_self, Nat.zero_mul, show u.time.passed - (u.time.passed - 1) = 1 by omega, Nat.one_mul]
  exact ⟨rfl, rfl⟩
end

/-! ### The slots of the key tree -/

theorem node_modNode_same {n : Nat} (hn : n < 512) (g : Node → Node) (s : State) : (modNode n g s).node n = g (s.node n) := tget_tmod_same _ hn g

theorem node_modNode_ne {n k : Nat} (h : n ≠ k) (g : Node → Node) (s : State) : (modNode n g s).node k = s.node k := tget_tmod_ne _ h g

/-- Slot `k`, and whether EVID holds an imported key. -/
def slotOf (k : Nat) (s : State) : Node × Bool := (s.node k, s.tarn.evid)

@[simp] theorem slotOf_raise (k n bit : Nat) (s : State) : slotOf k (raise n bit s) = slotOf k s := by rw [raise_eq]; rfl

@[simp] theorem slotOf_renewPublic (k : Nat) (s : State) : slotOf k (renewPublic s) = slotOf k s := rfl

@[simp] theorem slotOf_headsNeedKey (k : Nat) (cs : List Nat) (s : State) : slotOf k (headsNeedKey cs s) = slotOf k s :=
  forEach_same (slotOf k) cs _ s fun _ _ _ => rfl

theorem node_raise (k n bit : Nat) (s : State) : (raise n bit s).node k = s.node k := congrArg Prod.fst (slotOf_raise k n bit s)

theorem slotOf_modNode_ne {n k : Nat} (h : n ≠ k) (g : Node → Node) (s : State) : slotOf k (modNode n g s) = slotOf k s :=
  Prod.ext (node_modNode_ne h g s) rfl

theorem slotOf_newGen_ne {n k : Nat} (h : n ≠ k) (s : State) : slotOf k (newGen n s) = slotOf k s := by
  unfold newGen
  simp only
  rw [slotOf_modNode_ne h]
  rfl

theorem slotOf_deriveNode_ne {n k : Nat} (h : n ≠ k) (s : State) : slotOf k (deriveNode n s) = slotOf k s := by
  rw [← slotOf_newGen_ne h s, deriveNode, computeKey]
  split <;> exact slotOf_modNode_ne h _ _

/-- R429, R435. A slot whose key is derived takes its next generation. -/
theorem deriveNode_spec {n : Nat} (hn : n < 512) (s : State) :
    ((deriveNode n s).node n).state = .valid ∧ ((deriveNode n s).node n).gen = nextGen n s := by
  have hgen : ((newGen n s).node n).state = .valid ∧ ((newGen n s).node n).gen = nextGen n s := by
    unfold newGen
    simp only
    rw [node_modNode_same hn]
    exact ⟨rfl, rfl⟩
  have hkey : ∀ k, ((setKey n k (newGen n s)).node n).state = .valid ∧ ((setKey n k (newGen n s)).node n).gen = nextGen n s := by
    intro k
    rw [setKey, node_modNode_same hn]
    exact hgen
  unfold deriveNode computeKey
  simp only
  split <;> exact hkey _

theorem slotOf_rederiveAll {k : Nat} {l : List Nat} (h : k ∉ l) (s : State) : slotOf k (rederiveAll l s) = slotOf k s :=
  forEach_same (slotOf k) _ _ s fun _ hn t =>
    slotOf_deriveNode_ne (fun e => h (e.subst (List.mem_of_mem_filter hn))) t

/-- R435. The slots below DEV do not hold DEV, EVID or a channel. -/
theorem mem_slots {k : Nat} (h : k ∈ chanSlots ++ headSlots) : 8 ≤ k := by
  simp only [chanSlots, headSlots, List.mem_append, List.mem_map, List.mem_range, chanSlot, headSlot] at h
  omega

/-- R435. A key of the device's own derivation takes its new generation. -/
theorem node_invalidate_derived {n : Nat} (h : n = 2 ∨ n = 6 ∨ 8 ≤ n ∧ n < 40) (s : State) :
    (invalidate n s).node n = (deriveNode n s).node n := by
  refine congrArg Prod.fst (?_ : slotOf n (invalidate n s) = slotOf n (deriveNode n s))
  unfold invalidate
  simp only
  rcases h with rfl | rfl | h
  · rw [if_pos rfl, slotOf_raise, slotOf_renewPublic]
  · rw [if_neg (by decide), if_neg (by decide), if_pos rfl, slotOf_raise, slotOf_headsNeedKey, slotOf_renewPublic,
      slotOf_rederiveAll fun hm => absurd (mem_slots hm) (by decide)]
  · have hbelow : n ∉ [headSlot (n - 8)] := by
      rw [List.mem_singleton, headSlot]
      omega
    rw [if_neg (by omega), if_neg (by omega), if_neg (by omega), if_pos (by simpa using h), slotOf_raise, slotOf_headsNeedKey,
      slotOf_renewPublic, slotOf_rederiveAll hbelow]

/-- R435. An invalidated EVID is ORPHANED, whatever key it had. -/
theorem node_invalidate_evid (s : State) : ((invalidate 5 s).node 5).state = .orphaned ∧ (invalidate 5 s).tarn.evid = false := by
  generalize hu : modNode 5 (fun x => { x with copy := [] }) (modTarn (fun t => { t with evid := false }) s) = u
  have hbelow : 5 ∉ [6] ++ chanSlots ++ headSlots := by
    rw [List.append_assoc, List.mem_append, not_or]
    exact ⟨by decide, fun h => absurd (mem_slots h) (by decide)⟩
  have hslot : slotOf 5 (invalidate 5 s) = slotOf 5 (modNode 5 (fun x => { x with state := .orphaned }) (deriveNode 5 u)) := by
    unfold invalidate
    simp only
    rw [if_neg (by decide), if_pos trivial, hu, slotOf_raise, rederiveDev, slotOf_headsNeedKey, slotOf_renewPublic, slotOf_rederiveAll hbelow]
  have hevid : (deriveNode 5 u).tarn.evid = u.tarn.evid := congrArg Prod.snd (slotOf_deriveNode_ne (n := 5) (k := 6) (by decide) u)
  rw [slotOf, slotOf, node_modNode_same (by decide), Prod.mk.injEq] at hslot
  obtain ⟨hnode, hflag⟩ := hslot
  rw [hnode]
  refine ⟨rfl, hflag.trans (hevid.trans ?_)⟩
  rw [← hu]
  rfl

/-! ### Unpairing (R196) -/

/-- All of the state but the channels, the key tree and the messages. -/
def outsideUnpairing (s : State) : State := { s with chans := default, tarn := default, irq := default, fns := default, out := default }

@[simp] theorem chan_raise (n bit c : Nat) (s : State) : (raise n bit s).chan c = s.chan c := by rw [raise_eq]; rfl

@[simp] theorem chans_raise (n bit : Nat) (s : State) : (raise n bit s).chans = s.chans := by rw [raise_eq]

@[simp] theorem flow_raise (n bit m : Nat) (s : State) : (raise n bit s).flow m = s.flow m := by rw [raise_eq]; rfl

theorem outsideUnpairing_raise (n bit : Nat) (s : State) : outsideUnpairing (raise n bit s) = outsideUnpairing s := by rw [raise_eq]; rfl

/-- R196, R429, R435. The slot of a head that is freed. -/
theorem freeHead_spec {c : Nat} (hc : c < 32) (s : State) : outsideUnpairing (freeHead c s) = outsideUnpairing s ∧
    (∀ k, (freeHead c s).chan k = s.chan k) ∧ (∀ k, k ≠ headSlot c → (freeHead c s).node k = s.node k) ∧
    ((freeHead c s).node (headSlot c)).state = .free := by
  have hslot : headSlot c < 512 := by rw [headSlot]; omega
  generalize hu : (if gctrRoom s 1 || s.tarn.reserved.any (fun p => p.1 == headSlot c) then newGen (headSlot c) s else s) = u
  have hnew : outsideUnpairing u = outsideUnpairing s ∧ (∀ k, u.chan k = s.chan k) ∧ ∀ k, k ≠ headSlot c → u.node k = s.node k := by
    rw [← hu]
    split
    · exact ⟨rfl, fun _ => rfl, fun k hk => congrArg Prod.fst (slotOf_newGen_ne hk.symm s)⟩
    · exact ⟨rfl, fun _ => rfl, fun _ _ => rfl⟩
  obtain ⟨hview, hchan, hnode⟩ := hnew
  unfold freeHead
  simp only
  rw [hu, outsideUnpairing_raise]
  refine ⟨hview, fun k => (chan_raise ..).trans (hchan k), fun k hk => ?_, ?_⟩
  · rw [node_raise, node_modNode_ne hk.symm, hnode k hk]
  · rw [node_raise, node_modNode_same hslot]

/-- R196. What an unpairing of channel `c` leaves of the channel and of its head's slot. -/
theorem unpairEffects_spec {c : Nat} (hc : c < 32) (s : State) : outsideUnpairing (unpairEffects c s) = outsideUnpairing s ∧
    (∀ k, k ≠ c → (unpairEffects c s).chan k = s.chan k ∧ (unpairEffects c s).node (headSlot k) = s.node (headSlot k)) ∧
    ((unpairEffects c s).node (headSlot c)).state = .free ∧
    ((unpairEffects c s).chan c).head.pairing = none ∧ ((unpairEffects c s).chan c).head.life = none ∧
    ((unpairEffects c s).chan c).enabled = (s.chan c).enabled ∧ ((unpairEffects c s).chan c).cfg.bind = (s.chan c).cfg.bind ∧
    ∀ st, st < 2 → (tget ((unpairEffects c s).chan c).runs st).short = [] ∧ (tget ((unpairEffects c s).chan c).runs st).long = [] ∧
      (tget ((unpairEffects c s).chan c).runs st).idrPending = true := by
  unfold unpairEffects
  simp only
  generalize hh : modHead c _ s = t
  have hown : (t.chan c).head.pairing = none ∧ (t.chan c).head.life = none ∧ (t.chan c).enabled = (s.chan c).enabled ∧
      (t.chan c).cfg.bind = (s.chan c).cfg.bind := by
    rw [← hh, modHead_eq, chan_modChan_same s hc]
    exact ⟨rfl, rfl, rfl, rfl⟩
  have ht : outsideUnpairing t = outsideUnpairing s ∧ (∀ k, k ≠ c → t.chan k = s.chan k) ∧ ∀ k, t.node k = s.node k := by
    rw [← hh, modHead_eq]
    exact ⟨rfl, fun k hk => chan_modChan_ne s hk.symm _, fun _ => rfl⟩
  obtain ⟨hview, hother, hnode⟩ := ht
  obtain ⟨hfview, hfchan, hfnode, hfstate⟩ := freeHead_spec hc t
  generalize freeHead c t = u at hfview hfchan hfnode hfstate
  rw [discardReferences, discardEstimates_eq, modChan_modChan_fuse]
  refine ⟨hfview.trans hview, fun k hk => ⟨?_, ?_⟩, hfstate, ?_⟩
  · rw [chan_modChan_ne _ hk.symm, hfchan, hother k hk]
  · exact (hfnode _ fun e => hk (Nat.add_left_cancel e)).trans (hnode _)
  · rw [chan_modChan_same u hc, discardedAll_keeps, hfchan]
    obtain ⟨hpairing, hlife, henabled, hbind⟩ := hown
    refine ⟨hpairing, hlife, henabled, hbind, fun st hst => ?_⟩
    simp only [tget_of_lt _ hst, Vector.getElem_map, true_and]

/-! ### The commands -/

section
variable (f : Nat) (q : Request) (s : State)

/-- R196, R435. -/
theorem headUnpair_takesEffect : completes .headUnpair (.headUnpair f q) f q s (auditGuard s = true) fun u v =>
    v = { u with chans := v.chans, tarn := v.tarn, irq := v.irq, fns := v.fns, out := v.out } ∧
    ∀ c, c ∈ (ctxOf .headUnpair f q s).members → (v.chan c).head.pairing = none ∧ (v.chan c).enabled = (u.chan c).enabled ∧
      (v.chan c).cfg.bind = (u.chan c).cfg.bind ∧
      ((u.chan c).head.pairing.isSome = true → (v.node (headSlot c)).state = .free ∧ (v.chan c).head.life = none ∧
        ∀ st, st < 2 → (tget (v.chan c).runs st).short = [] ∧ (tget (v.chan c).runs st).long = [] ∧ (tget (v.chan c).runs st).idrPending = true) := by
  have hrun : Op.headUnpair.behaviour.run (ctxOf .headUnpair f q s) (atMailbox f s) = tickAudited 0x21
      (unpairDetail (atMailbox f s) ((ctxOf .headUnpair f q s).members.headD 0) 0) (ctxOf .headUnpair f q s) (atMailbox f s) := rfl
  refine completes_of_effect (admitsAs_of_waits rfl (fun h => ?_) ?_) fun _ u => ?_
  · rw [hrun]
    exact waits_tickAudited h _ _ _ f
  · rw [hrun, steady_tickAudited, steady_atMailbox]
  generalize hv : Op.headUnpair.behaviour.effect (ctxOf .headUnpair f q s) u = v
  have hturns : v = forEach (ctxOf .headUnpair f q s).members
      (fun m t => if (t.chan m).head.pairing.isSome then unpairEffects m t else t) u := hv.symm
  obtain ⟨hview, -, hown⟩ := forEach_owned outsideUnpairing (fun t c => (t.chan c, t.node (headSlot c)))
    (fun _ x y => y.1.head.pairing = none ∧ y.1.enabled = x.1.enabled ∧ y.1.cfg.bind = x.1.cfg.bind ∧
      (x.1.head.pairing.isSome = true → y.2.state = .free ∧ y.1.head.life = none ∧
        ∀ st, st < 2 → (tget y.1.runs st).short = [] ∧ (tget y.1.runs st).long = [] ∧ (tget y.1.runs st).idrPending = true))
    (members_nodup .headUnpair f q s) hturns fun m hm t _ => by
      split
      · obtain ⟨hview, hother, hfree, hpairing, hlife, henabled, hbind, hruns⟩ := unpairEffects_spec (members_lt_of_chan (.inl rfl) hm) t
        exact ⟨hview, fun c hc => Prod.ext (hother c hc).1 (hother c hc).2, hpairing, henabled, hbind, fun _ => ⟨hfree, hlife, hruns⟩⟩
      · next hnone => exact ⟨rfl, fun _ _ => rfl, Option.not_isSome_iff_eq_none.mp hnone, rfl, rfl, fun h => absurd h hnone⟩
  exact ⟨congrArg (fun w : State => { w with chans := v.chans, tarn := v.tarn, irq := v.irq, fns := v.fns, out := v.out }) hview, hown⟩

/-- R435. A command that invalidates a VALID slot reserves its new generation as it is admitted. -/
theorem tarnNodeInvalidate_admits : AdmitsAs .tarnNodeInvalidate (.tarnNodeInvalidate f q) f q s (auditGuard s = true) := by
  refine admitsAs_of_waits rfl (fun h => ?_) ?_
  · show (tarnNodeInvalidateB.run _ _).1 = _
    unfold tarnNodeInvalidateB
    simp only
    split
    · rfl
    · rw [tickAudited, if_pos (show auditGuard (atMailbox f s) = true from h)]
  · show steady (tarnNodeInvalidateB.run _ _).2 = _
    unfold tarnNodeInvalidateB
    simp only
    split
    · rfl
    · split
      · next hrun => exact (steady_modTarn ..).trans ((congrArg (fun r => steady r.2) hrun).symm.trans (steady_tickAudited ..))
      · rw [steady_tickAudited, steady_atMailbox]

/-- R196, R435. -/
theorem node_invalidate_head {c : Nat} (hc : c < 32) (u : State) : ((invalidate (headSlot c) u).node (headSlot c)).state = .free := by
  have hinvalidate : invalidate (headSlot c) u = unpairEffects c (auditDevice 0x21 (unpairDetail u c 2) u) := by
    unfold invalidate headSlot
    simp only
    rw [if_neg (by omega), if_neg (by omega), if_neg (by omega), if_neg (by simp), if_pos (by simp; omega), Nat.add_sub_cancel_left]
  obtain ⟨-, -, hfree, -⟩ := unpairEffects_spec hc (auditDevice 0x21 (unpairDetail u c 2) u)
  rw [hinvalidate]
  exact hfree

/-- R435. An imported key that is invalidated. -/
theorem invalidate_client {n : Nat} (h72 : 72 ≤ n) (hn : n < 328) (u : State) : (invalidate n u).chans = u.chans ∧
    (∀ k, k ≠ n → (invalidate n u).node k = u.node k) ∧ ((invalidate n u).node n).state = .orphaned ∧
    ((u.flow (n - 72)).active = true → (u.fcfg (n - 72)).crypt ≠ 0 → ((invalidate n u).flow (n - 72)).orphaned = true) := by
  have hinvalidate : invalidate n u = raise 203 0 (orphanFlow (n - 72) (modNode n (fun x => { x with state := .orphaned }) (newGen n u))) := by
    unfold invalidate
    simp only
    rw [if_neg (by omega), if_neg (by omega), if_neg (by omega), if_neg (by simp; omega), if_neg (by simp; omega)]
  rw [hinvalidate]
  refine ⟨?_, fun k hk => ?_, ?_, fun hactive hcrypt => ?_⟩
  · rw [chans_raise, orphanFlow, chans_modFlow]
    rfl
  · rw [node_raise]
    exact (node_modNode_ne hk.symm _ _).trans (congrArg Prod.fst (slotOf_newGen_ne hk.symm u))
  · rw [node_raise]
    exact congrArg Node.state (node_modNode_same (by omega) _ (newGen n u))
  · have hkeep : ∀ k, (modNode n (fun x => { x with state := .orphaned }) (newGen n u)).flow k = u.flow k ∧
        (modNode n (fun x => { x with state := .orphaned }) (newGen n u)).fcfg k = u.fcfg k := fun _ => ⟨rfl, rfl⟩
    rw [flow_raise, orphanFlow, flow_modFlow_same _ (by omega), (hkeep _).1, (hkeep _).2, hactive, bne_iff_ne.mpr hcrypt]
    exact Bool.or_true _

/-- R435. -/
theorem tarnNodeInvalidate_takesEffect : completes .tarnNodeInvalidate (.tarnNodeInvalidate f q) f q s (auditGuard s = true) fun u v =>
    ∀ n, n = q.u 16 2 →
      ((u.node n).state = .valid → (∃ g, (n, g) ∈ u.tarn.reserved) →
        (n = 2 ∨ n = 6 ∨ 8 ≤ n ∧ n < 40 → (v.node n).state = .valid ∧ (v.node n).gen = nextGen n u) ∧
        (n = 5 → (v.node n).state = .orphaned ∧ v.tarn.evid = false) ∧ (40 ≤ n → n < 72 → (v.node n).state = .free)) ∧
      (72 ≤ n → n < 328 → v.chans = u.chans ∧ (∀ k, k ≠ n → v.node k = u.node k) ∧
      ((u.node n).state = .valid → (∃ g, (n, g) ∈ u.tarn.reserved) → (v.node n).state = .orphaned ∧
        ((u.flow (n - 72)).active = true → (u.fcfg (n - 72)).crypt ≠ 0 → (v.flow (n - 72)).orphaned = true))) := by
  refine completes_of_effect (tarnNodeInvalidate_admits f q s) fun _ u n hn => ?_
  generalize hv : Op.tarnNodeInvalidate.behaviour.effect (ctxOf .tarnNodeInvalidate f q s) u = v
  have heffect : v = if (u.tarn.reserved.any fun p => p.1 == n) && invalidLive u n then invalidate n u else u := by
    rw [← hv, hn]
    rfl
  have hlive : (u.node n).state = .valid → (∃ g, (n, g) ∈ u.tarn.reserved) → v = invalidate n u := by
    rintro hvalid ⟨g, hg⟩
    have hreserved : (u.tarn.reserved.any fun p => p.1 == n) = true := List.any_eq_true.mpr ⟨(n, g), hg, beq_self_eq_true n⟩
    rw [heffect, hreserved, invalidLive, hvalid]
    exact if_pos rfl
  refine ⟨fun hvalid hg => ?_, fun h72 hlt => ?_⟩
  · rw [hlive hvalid hg]
    refine ⟨fun h => ?_, fun h => ?_, fun h40 h72 => ?_⟩
    · rw [node_invalidate_derived h]
      exact deriveNode_spec (by omega) u
    · rw [h]
      exact node_invalidate_evid u
    · have hslot : n = headSlot (n - 40) := (Nat.add_sub_cancel' h40).symm
      rw [hslot]
      exact node_invalidate_head (by omega) u
  · obtain ⟨hchans, hother, hstate, hflow⟩ := invalidate_client h72 hlt u
    refine ⟨?_, fun k hk => ?_, fun hvalid hg => ?_⟩
    · rw [heffect]
      split
      · exact hchans
      · rfl
    · rw [heffect]
      split
      · exact hother k hk
      · rfl
    · rw [hlive hvalid hg]
      exact ⟨hstate, hflow⟩
end

/-- Settles O58, command by command: what is audited leaves its record as it is admitted, and each effect is a loop over what it names. -/
theorem auditedAndSystemSettingsTakeEffect : Obligations.AuditedAndSystemSettingsTakeEffect := by
  unfold Obligations.AuditedAndSystemSettingsTakeEffect
  exact fun f q s => ⟨calEnable_takesEffect f q s, calPin_takesEffect f q s, calUnpin_takesEffect f q s, calReset_takesEffect f q s,
    encGeometrySet_takesEffect f q s, headUnpair_takesEffect f q s, tarnNodeInvalidate_takesEffect f q s, pwrDomainSet_takesEffect f q s,
    timeTickSet_takesEffect f q s⟩

end Sys2Proof.Machine
end

section
/-!
PROOF. SYS_RESET on an enrolled device leaves an audit record, whose time firmware reads through the latch of the control cluster (O51 fails).
-/
namespace Sys2Proof.Machine
open Sys2Proof.Tests

/-- The state after a response has the timebase that the command left. -/
theorem time_replied (o : Op) (f : Nat) (q : Request) (st : Byte) (payload : List Byte) (t : State) : (replied o f q st payload t).time = t.time := by
  rw [replied, answer_eq]

namespace ResetRecord

/-- An enrolled device with a session of role 2, whose device time has passed 2 ^ 32 ns since the cluster last read it. -/
def late : State := timed (fun t => { t with dev := 4294967296 }) (ticking 2)

/-- SYS_RESET with its key. -/
def request : Request := ask .sysReset 0 0 [0x52, 0x53, 0x59, 0x53]

theorem late_is_served : served .sysReset 0 request late = true ∧ auditGuard late = true := by decide +kernel

/-- R42, R472. The record's time comes from TIME_LO, a read of which latches device time [63:32] for the cluster. -/
theorem latch_moves : late.time.clusterHi = 0 ∧ (after (.sysReset 0 request) late).time.clusterHi = 1 := by decide +kernel

end ResetRecord

/-- Refutes O51: SYS_RESET of an enrolled device takes the time of its audit record from TIME_LO (R42, R472), which moves the control
cluster's latch, a field of the timebase that the statement says is unchanged. -/
theorem not_immediateCommandsTakeEffect : ¬ Obligations.ImmediateCommandsTakeEffect := by
  unfold Obligations.ImmediateCommandsTakeEffect
  intro h
  obtain ⟨-, -, -, -, -, -, -, hreset, -⟩ := h 0 ResetRecord.request ResetRecord.late
  obtain ⟨hserved, hguard⟩ := ResetRecord.late_is_served
  obtain ⟨t, hexec, -, -, htime, -⟩ := hreset hserved hguard
  obtain ⟨hbefore, hafter⟩ := ResetRecord.latch_moves
  rw [after, hexec] at hafter
  have hlatch : t.time.clusterHi = 1 := (congrArg TimeBase.clusterHi (time_replied ..)).symm.trans hafter
  rw [htime, hbefore] at hlatch
  exact absurd hlatch (by decide)

end Sys2Proof.Machine
end

section
/-!
PROOF. An admitted next-tick command waits for its boundary with its books made (O53).
-/
namespace Sys2Proof.Machine

/-! ### Commands whose run only waits -/

/-- R105. All that the command does at once is wait for the boundary. -/
def OnlyWaits (p : Op × (Nat → Request → Instr)) : Prop :=
  ∀ f q s, exec (p.2 f q) s = .next (command p.1 f q s) ∧ p.1.behaviour.run (ctxOf p.1 f q s) (atMailbox f s) = (.wait .tick, atMailbox f s)

/-- R63, R64, R108, R109. -/
theorem pending_of_onlyWaits {p : Op × (Nat → Request → Instr)} (h : OnlyWaits p) (f : Nat) (q : Request) (s : State) (b : Books) :
    (passes p.1 f q s b → exec (p.2 f q) s = .next (pendingFrom p.1 f q b s)) ∧
    (served p.1 f q s = true → admission (atMailbox f s) (ctxOf p.1 f q s) = none →
      exec (p.2 f q) s = .next (replied p.1 f q St.admission [] (atMailbox f s))) := by
  obtain ⟨hexec, hrun⟩ := h f q s
  rw [hexec]
  exact ⟨fun hb => congrArg _ (command_admitted hb hrun rfl rfl), fun hs ha => congrArg _ (command_turned_away hs ha hrun)⟩

/-- R105. The next-tick commands without an audit record, PWR_DOMAIN_SET apart. -/
theorem onlyWaits_of_mem : ∀ p ∈ [(Op.chanPortSet, Instr.chanPortSet), (.chanBind, .chanBind), (.chanStart, .chanStart), (.chanStop, .chanStop),
      (.chanSensorSet, .chanSensorSet), (.chanPipeSet, .chanPipeSet), (.chanWindowSet, .chanWindowSet), (.chanWindowClear, .chanWindowClear),
      (.encStreamSet, .encStreamSet), (.encHrdSet, .encHrdSet), (.encRateSet, .encRateSet), (.encQpSet, .encQpSet),
      (.encRefreshSet, .encRefreshSet), (.encMotionSet, .encMotionSet), (.encLtrRecover, .encLtrRecover), (.encForceIdr, .encForceIdr),
      (.decOpen, .decOpen), (.decOutputSet, .decOutputSet), (.decClose, .decClose), (.flowRouteSet, .flowRouteSet),
      (.flowRateSet, .flowRateSet), (.flowWeightSet, .flowWeightSet), (.flowStart, .flowStart), (.flowStop, .flowStop),
      (.flowRingSet, .flowRingSet), (.flowCryptSet, .flowCryptSet), (.seqHookSet, .seqHookSet), (.headPolicySet, .headPolicySet),
      (.timeTickSet, .timeTickSet), (.timeChanRate, .timeChanRate)], OnlyWaits p := by
  refine List.forall_iff_forall_mem.mp ?_
  repeat' apply And.intro
  all_goals exact fun _ _ _ => ⟨rfl, rfl⟩

/-! ### Commands that leave their record as they are admitted (R471) -/

/-- R156, R158. What configures each channel, whether it is enabled, and which estimators are. -/
def settings (s : State) (c : Nat) : ChanCfg × Bool × BitVec 4 := ((s.chan c).cfg, (s.chan c).enabled, (s.chan c).cal.enable)

theorem settings_congr {s t : State} (h : t.chans = s.chans) : settings t = settings s := by
  unfold settings State.chan
  rw [h]

theorem chans_audit (event role slot func time : Nat) (detail : List Byte) (s : State) : (audit event role slot func time detail s).chans = s.chans := by
  unfold audit
  simp only
  split
  · rfl
  · split
    · split
      · exact chans_raise ..
      · rfl
    · rfl

theorem settings_tickAudited (event : Nat) (detail : List Byte) (c : Ctx) (s : State) : settings (tickAudited event detail c s).2 = settings s := by
  refine settings_congr ?_
  unfold tickAudited auditTick
  split
  · exact chans_audit ..
  · rfl

/-- An estimator's change leaves a channel's settings. -/
theorem settings_modChan {c : Nat} {g : Chan → Chan} (h : ∀ x, (g x).cfg = x.cfg ∧ (g x).enabled = x.enabled ∧ (g x).cal.enable = x.cal.enable) (s : State) :
    settings (modChan c g s) = settings s := by
  funext d
  obtain ⟨hcfg, henabled, henable⟩ := h (s.chan d)
  show ((tget (tmod s.chans c g) d).cfg, (tget (tmod s.chans c g) d).enabled, (tget (tmod s.chans c g) d).cal.enable) = _
  rw [tget_tmod]
  split
  · exact Prod.ext hcfg (Prod.ext henabled henable)
  · rfl

theorem settings_modEst (c p : Nat) (g : Estimator → Estimator) (s : State) : settings (modEst c p g s) = settings s := by
  rw [modEst_eq]
  exact settings_modChan (g := fun x => { x with cal := { x.cal with est := tmod x.cal.est p g } }) (fun _ => ⟨rfl, rfl, rfl⟩) s

theorem settings_hold (c p : Nat) (v : CalValue) (g : Nat × Nat × Nat) (s : State) : settings (hold c p v g s) = settings s := by
  unfold hold
  simp only
  split
  · exact (settings_congr (chans_raise ..)).trans (settings_modEst ..)
  · exact settings_modEst ..

theorem settings_pinNow (mask c : Nat) (s : State) : settings (pinNow mask c s) = settings s :=
  forEach_same settings _ _ s fun p _ t => by
    split
    · exact (settings_hold ..).trans (settings_modEst ..)
    · rfl

/-- R471. An audited command that step 12 admits: it waits, what it changes at once leaves the settings of every channel, and it writes the
records that its run writes. -/
theorem admitted_audited {o : Op} {i : Instr} {f : Nat} {q : Request} {s : State} {b : Books} (hi : exec i s = .next (command o f q s))
    (hb : passes o f q s b) (hw : (o.behaviour.run (ctxOf o f q s) (atMailbox f s)).1 = .wait .tick)
    (hs : steady (o.behaviour.run (ctxOf o f q s) (atMailbox f s)).2 = steady s)
    (hc : settings (o.behaviour.run (ctxOf o f q s) (atMailbox f s)).2 = settings s) {p : Prop}
    (hp : p → s.enrolled = true → s.roles.nextSeq < 2 ^ 32 →
      (o.behaviour.run (ctxOf o f q s) (atMailbox f s)).2.roles.nextSeq = s.roles.nextSeq + 1) :
    ∃ t, exec i s = .next (waiting o f q .tick s t) ∧ t.exec = s.exec ∧ t.bookings = b.1 ∧ t.buffers = b.2 ∧
      (∀ c, (t.chan c).cfg = (s.chan c).cfg ∧ (t.chan c).enabled = (s.chan c).enabled ∧ (t.chan c).cal.enable = (s.chan c).cal.enable) ∧
      (p → s.enrolled = true → s.roles.nextSeq < 2 ^ 32 → t.roles.nextSeq = s.roles.nextSeq + 1) := by
  generalize hr : o.behaviour.run (ctxOf o f q s) (atMailbox f s) = r at *
  obtain ⟨reply, t⟩ := r
  subst hw
  refine ⟨withBooks b t, hi.trans (congrArg _ (command_admitted hb hr (exec_of_steady hs) (elapsed_of_steady hs))), exec_of_steady hs, rfl, rfl,
    fun c => ?_, hp⟩
  have hset := congrFun hc c
  rw [settings, settings, Prod.mk.injEq, Prod.mk.injEq] at hset
  exact hset

/-- R470. A record that is written takes one number. -/
theorem nextSeq_audit {t : State} (he : t.enrolled = true) (hroom : auditRoom t = true) (event role slot func time : Nat) (detail : List Byte) :
    (audit event role slot func time detail t).roles.nextSeq = t.roles.nextSeq + 1 := by
  rw [audit, he, Bool.not_true, if_neg Bool.false_ne_true, if_pos hroom]
  simp only
  split
  · rw [raise_eq]
    rfl
  · rfl

theorem nextSeq_auditTick {s : State} (he : s.enrolled = true) (hroom : auditRoom s = true) (event : Nat) (detail : List Byte) (c : Ctx) :
    (auditTick c event detail s).roles.nextSeq = s.roles.nextSeq + 1 :=
  nextSeq_audit (t := { s with fresh := if s.time.tickRun then s.fresh else s.fresh + 1 }) he hroom ..

/-- R471. So does the record of a command. -/
theorem nextSeq_tickAudited {s : State} (hg : auditGuard s = true) (he : s.enrolled = true) (hn : s.roles.nextSeq < 2 ^ 32) (event : Nat)
    (detail : List Byte) (c : Ctx) (f : Nat) : (tickAudited event detail c (atMailbox f s)).2.roles.nextSeq = s.roles.nextSeq + 1 := by
  have hroom : auditRoom s = true := by
    rw [auditGuard, he, Bool.not_true, Bool.false_or] at hg
    rw [auditRoom, hg, Bool.true_and, decide_eq_true_eq]
    exact Nat.le_of_lt_succ hn
  rw [tickAudited, if_pos (show auditGuard (atMailbox f s) = true from hg)]
  exact nextSeq_auditTick (s := atMailbox f s) he hroom ..

theorem settings_calAudited (code : Nat) (c : Ctx) (s : State) : settings (calAudited code c s).2 = settings s := by
  rw [calAudited]
  exact settings_tickAudited ..

theorem settings_maskedRun (code : Nat) (c : Ctx) (s : State) : settings (maskedRun code c s).2 = settings s := by
  unfold maskedRun
  split
  · rfl
  · exact settings_calAudited ..

theorem settings_calPin_run (c : Ctx) (s : State) : settings (calPinB.run c s).2 = settings s := by
  have haudit := settings_calAudited 2 c s
  unfold calPinB
  simp only
  split
  · rfl
  · split
    · next hrun =>
      rw [hrun] at haudit
      exact (forEach_same settings _ _ _ fun m _ t => settings_pinNow _ m t).trans haudit
    · exact haudit

theorem tarnNodeInvalidate_run {s : State} (hg : auditGuard s = true) (c : Ctx) (f : Nat) :
    (tarnNodeInvalidateB.run c (atMailbox f s)).1 = .wait .tick ∧ steady (tarnNodeInvalidateB.run c (atMailbox f s)).2 = steady s ∧
    settings (tarnNodeInvalidateB.run c (atMailbox f s)).2 = settings s := by
  unfold tarnNodeInvalidateB
  simp only
  split
  · exact ⟨rfl, rfl, rfl⟩
  · generalize le 2 (invalidNode c.q) ++ zeros 2 ++ _ = detail
    have hwait := waits_tickAudited hg 0x40 detail c f
    have hsteady := steady_tickAudited 0x40 detail c (atMailbox f s)
    have hsettings := settings_tickAudited 0x40 detail c (atMailbox f s)
    split
    · next hrun =>
      rw [hrun] at hwait hsteady hsettings
      exact ⟨hwait, (steady_modTarn ..).trans hsteady, hsettings⟩
    · exact ⟨hwait, hsteady, hsettings⟩

section
variable (f : Nat) (q : Request) (s : State) (b : Books)

/-- R196, R255, R257, R259, R261, R262, R304, R435. -/
theorem audited_wait (hg : auditGuard s = true) : ∀ p ∈ [(Op.calEnable, Instr.calEnable), (.calPin, .calPin), (.calUnpin, .calUnpin),
      (.calReset, .calReset), (.encGeometrySet, .encGeometrySet), (.headUnpair, .headUnpair), (.tarnNodeInvalidate, .tarnNodeInvalidate)],
    passes p.1 f q s b →
      ∃ t, exec (p.2 f q) s = .next (waiting p.1 f q .tick s t) ∧ t.exec = s.exec ∧ t.bookings = b.1 ∧ t.buffers = b.2 ∧
        (∀ c, (t.chan c).cfg = (s.chan c).cfg ∧ (t.chan c).enabled = (s.chan c).enabled ∧ (t.chan c).cal.enable = (s.chan c).cal.enable) ∧
        (p.1 = .calEnable ∨ p.1 = .encGeometrySet ∨ p.1 = .headUnpair → s.enrolled = true → s.roles.nextSeq < 2 ^ 32 →
          t.roles.nextSeq = s.roles.nextSeq + 1) := by
  refine List.forall_iff_forall_mem.mp ⟨fun hb => ?_, fun hb => ?_, fun hb => ?_, fun hb => ?_, fun hb => ?_, fun hb => ?_, fun hb => ?_⟩
  · exact admitted_audited rfl hb (waits_calAudited hg 1 _ f) (steady_calAudited 1 _ (atMailbox f s)) (settings_tickAudited _ _ _ (atMailbox f s))
      fun _ he hn => nextSeq_tickAudited hg he hn _ _ _ f
  · obtain ⟨hreply, hsteady⟩ := calPin_run (ctxOf .calPin f q s) (atMailbox f s)
    exact admitted_audited rfl hb (hreply.trans (waits_maskedRun hg 2 _ f)) hsteady (settings_calPin_run _ (atMailbox f s)) fun h => absurd h (by decide)
  · exact admitted_audited rfl hb (waits_maskedRun hg 3 _ f) (steady_maskedRun 3 _ (atMailbox f s)) (settings_maskedRun 3 _ (atMailbox f s))
      fun h => absurd h (by decide)
  · exact admitted_audited rfl hb (waits_maskedRun hg 4 _ f) (steady_maskedRun 4 _ (atMailbox f s)) (settings_maskedRun 4 _ (atMailbox f s))
      fun h => absurd h (by decide)
  · exact admitted_audited rfl hb (waits_tickAudited hg _ _ _ f) (steady_tickAudited _ _ _ (atMailbox f s)) (settings_tickAudited _ _ _ (atMailbox f s))
      fun _ he hn => nextSeq_tickAudited hg he hn _ _ _ f
  · exact admitted_audited rfl hb (waits_tickAudited hg _ _ _ f) (steady_tickAudited _ _ _ (atMailbox f s)) (settings_tickAudited _ _ _ (atMailbox f s))
      fun _ he hn => nextSeq_tickAudited hg he hn _ _ _ f
  · obtain ⟨hwait, hsteady, hsettings⟩ := tarnNodeInvalidate_run hg (ctxOf .tarnNodeInvalidate f q s) f
    exact admitted_audited rfl hb hwait hsteady hsettings fun h => absurd h (by decide)

/-! ### PWR_DOMAIN_SET (R523) -/

/-- R523. Raising the rail of one domain. -/
theorem beginPower_spec {d : Nat} (hd : d < 7) (t : State) : (∀ e, e ≠ d → (beginPower d t).domain e = t.domain e) ∧
    ((t.domain d).on = false → ((beginPower d t).domain d).ramping = true) ∧ ((t.domain d).on = true → (beginPower d t).domain d = t.domain d) := by
  unfold beginPower
  split
  · next h => exact ⟨fun _ _ => rfl, fun hoff => by rwa [hoff, Bool.false_or] at h, fun _ => rfl⟩
  · next h =>
    have hset : ((modDomain d (fun x => { x with ramping := true, failed := false }) t).domain d).ramping = true := by rw [domain_modDomain_same hd]
    exact ⟨fun e he => domain_modDomain_ne he.symm _ t, fun _ => hset, fun hon => absurd (by rw [hon, Bool.true_or]) h⟩

theorem pwrDomainSet_waits (hb : passes .pwrDomainSet f q s b) : ∃ t, exec (.pwrDomainSet f q) s = .next (waiting .pwrDomainSet f q .tick s t) ∧
    t.exec = s.exec ∧ t.bookings = b.1 ∧ t.buffers = b.2 ∧
    (∀ d, d ∈ powersUp q → (s.domain d).on = false → (t.domain d).ramping = true) ∧
    (∀ d, d ∉ powersUp q ∨ (s.domain d).on = true → t.domain d = s.domain d) := by
  obtain ⟨hnodup, hlt⟩ := maskDomains_spec (q.u 16 1)
  have hsteady : steady (forEach (powersUp q) beginPower (atMailbox f s)) = steady s := steady_forEach _ steady_beginPower _
  obtain ⟨-, hother, hown⟩ := forEach_owned (fun _ => ()) State.domain
    (fun _ x y => (x.on = false → y.ramping = true) ∧ (x.on = true → y = x)) (hnodup.filter _) (l := powersUp q) (g := beginPower) (u := atMailbox f s) rfl
    fun d hd t _ => ⟨rfl, beginPower_spec (hlt d (List.mem_of_mem_filter hd)) t⟩
  generalize ht : forEach (powersUp q) beginPower (atMailbox f s) = t at hsteady hother hown
  have hrun : Op.pwrDomainSet.behaviour.run (ctxOf .pwrDomainSet f q s) (atMailbox f s) = (.wait .tick, t) := congrArg (Prod.mk _) ht
  refine ⟨withBooks b t, congrArg _ (command_admitted hb hrun (exec_of_steady hsteady) (elapsed_of_steady hsteady)), exec_of_steady hsteady, rfl, rfl,
    fun d hd hoff => (hown d hd).1 hoff, fun d hd => ?_⟩
  by_cases hmem : d ∈ powersUp q
  · exact (hown d hmem).2 (hd.resolve_left fun hn => hn hmem)
  · exact hother d hmem
end

/-- Settles O53: the commands that only wait, those that leave a record first, and PWR_DOMAIN_SET. -/
theorem admittedCommandsWait : Obligations.AdmittedCommandsWait := by
  unfold Obligations.AdmittedCommandsWait
  exact fun f q s b => ⟨fun p hp => pending_of_onlyWaits (onlyWaits_of_mem p hp) f q s b, fun p hp hb hg => audited_wait f q s b hg p hp hb,
    pwrDomainSet_waits f q s b⟩

end Sys2Proof.Machine
end

section
/-!
PROOF. The meter that ends a job, and what stops a sequencer (O35).
-/
namespace Sys2Proof.Machine

/-! ### The meter -/

/-- R65, R66. An overrun of the job `k` that is reported: nothing but its engine's count and the messages change. -/
theorem overrun_reported (k : JobKey) (n bit : Nat) (s : State) : raise n bit (meterOverrun k s) =
    { s with meters := (raise n bit (meterOverrun k s)).meters, irq := (raise n bit (meterOverrun k s)).irq,
             fns := (raise n bit (meterOverrun k s)).fns, out := (raise n bit (meterOverrun k s)).out } := by
  have hmeter : meterOverrun k s = { s with meters := (meterOverrun k s).meters } := by
    unfold meterOverrun
    split <;> rfl
  rw [raise_eq, hmeter]

/-- R65. The overrun is counted on the engine where the job is placed. -/
theorem overrun_counted (k : JobKey) (n bit : Nat) (s : State) {e : Nat} (he : engineOf s k = some e) (hlt : e < 14) :
    (tget (raise n bit (meterOverrun k s)).meters e).overruns = min 65535 ((tget s.meters e).overruns + 1) := by
  have hmeters : (raise n bit (meterOverrun k s)).meters = (meterOverrun k s).meters := by rw [raise_eq]
  rw [hmeters, meterOverrun, he]
  exact congrArg Meter.overruns (tget_tmod_same s.meters hlt _)

/-- R65, R66. What the meter does where a job of `s` runs over: the job is cut, in `t`, and the overrun is reported. -/
theorem expiry_spec {s t : State} {i : Instr} {k : JobKey} {n bit : Nat} (hexec : exec i s = .next (raise n bit (meterOverrun k t)))
    (hengine : engineOf t k = engineOf s k) (hmeters : t.meters = s.meters) : ∃ v, exec i s = .next v ∧
      v = { t with meters := v.meters, irq := v.irq, fns := v.fns, out := v.out } ∧
      ∀ e, engineOf s k = some e → e < 14 → (tget v.meters e).overruns = min 65535 ((tget s.meters e).overruns + 1) :=
  ⟨_, hexec, overrun_reported k n bit t, fun e he hlt => by rw [overrun_counted k n bit t (hengine.trans he) hlt, hmeters]⟩

section
variable {c st undone : Nat} {s : State}

theorem meterExpiry_pipe {f : Frame} {b : Bind} (hc : c < 32) (hjob : (s.chan c).pipeJob = some f) (hcut : (s.chan c).pipeCut = none)
    (hout : f.outcome ≠ .dropped) (hbind : f.cfg.bind = some b) : exec (.cycleMeterExpiry (.pipe c) undone) s =
      .next (raise (64 + c) 0 (meterOverrun (pipeKey c) (modChan c (fun x => { x with pipeCut := some (b.height - undone, false) }) s))) := by
  show execCycleMeterExpiry (.pipe c) undone s = _
  rw [execCycleMeterExpiry, meterJobUnit, if_neg (by omega), meterExpiry]
  simp only [hjob, hcut, hbind]
  rw [if_neg (by simpa using hout)]
  rfl

theorem meterExpiry_enc (hc : c < 32) (hst : st < 2) (hjob : (tget (s.chan c).runs st).job.isSome = true)
    (hcurrent : (tget (s.chan c).runs st).current = none) (hcut : (tget (s.chan c).runs st).cut = none) :
    exec (.cycleMeterExpiry (.enc c st) undone) s =
      .next (raise (128 + c) 0 (meterOverrun (encKey c st) (modRun c st (fun r => { r with cut := some (encUnits s c st - undone) }) s))) := by
  show execCycleMeterExpiry (.enc c st) undone s = _
  rw [execCycleMeterExpiry, meterJobUnit, if_neg (by omega), meterExpiry]
  simp only [hjob, hcurrent, hcut]
  rfl

theorem meterExpiry_itp (hc : c < 32) (hst : st < 2) (hfine : (s.chan c).cfg.fine = true)
    (hjob : (tget (s.chan c).runs st).job.any (fun f => f.outcome == .complete) = true) (hcut : (tget (s.chan c).runs st).itpCut = none)
    (hcurrent : (tget (s.chan c).runs st).current = none) : exec (.cycleMeterExpiry (.itp c st) undone) s =
      .next (raise (128 + c) 1 (meterOverrun (itpKey c st) (modRun c st (fun r => { r with itpCut := some undone }) s))) := by
  show execCycleMeterExpiry (.itp c st) undone s = _
  rw [execCycleMeterExpiry, meterJobUnit, if_neg (by omega), meterExpiry]
  simp only [hfine, hjob, hcurrent, hcut]
  rfl

theorem meterExpiry_dec (hc : c < 32) (hjob : (s.decS c).job.isSome = true) (hcut : (s.decS c).cut = none) :
    exec (.cycleMeterExpiry (.dec c) undone) s = .next (raise (160 + c) 2 (meterOverrun (decKey c) (modDec c (fun x => { x with
      cut := some (unitCount (s.decS c) - undone), overruns := min 0xFFFF (x.overruns + 1) }) s))) := by
  show execCycleMeterExpiry (.dec c) undone s = _
  rw [execCycleMeterExpiry, meterJobUnit, if_neg (by omega), meterExpiry]
  simp only [hjob, hcut]
  rfl
end

/-! ### What stops a sequencer -/

/-- R498. Completing a job by its completion unit leaves all but the job and the next open value. -/
theorem completeJob_eq (j : MeterJob) (s : State) : completeJob j s =
    { s with chans := (completeJob j s).chans, dec := (completeJob j s).dec, fresh := (completeJob j s).fresh } := by
  cases j <;> rfl

/-- R498, R499. The same where the job of a sequencer is completed if it runs. -/
def jobStopped (j : MeterJob) (s : State) : State := if jobRuns s j then completeJob j s else s

theorem jobStopped_eq (j : MeterJob) (s : State) : jobStopped j s =
    { s with chans := (jobStopped j s).chans, dec := (jobStopped j s).dec, fresh := (jobStopped j s).fresh } := by
  unfold jobStopped
  split
  · exact completeJob_eq j s
  · rfl

/-- R135, R137. A level source that is present takes the cause bit of an event. -/
theorem cause_raise {n : Nat} (hn : n < 512) (hlevel : sourceKind n = some true) {bit : Nat} (hbit : bit < 32) {s : State} (h : sourcePresent s n = true) :
    (tget (raise n bit s).irq.fwSrc n).cause.getLsbD bit = true := by
  have hcause : ∀ x : Source, (x.event true bit).cause.getLsbD bit = true := by
    intro x
    show (x.cause ||| BitVec.ofNat 32 (2 ^ bit)).getLsbD bit = true
    rw [BitVec.getLsbD_or, BitVec.getLsbD_ofNat, Nat.testBit_two_pow_self, decide_eq_true hbit, Bool.true_and, Bool.or_true]
  have hfw : (raise n bit s).irq.fwSrc = tmod s.irq.fwSrc n (Source.event true bit) := by
    unfold raise
    rw [if_pos h, hlevel]
    simp only
    split
    · rw [resignal_eq]
      rfl
    · rfl
  rw [hfw, tget_tmod_same _ hn]
  exact hcause _

section
variable {q pc : Nat} {j : MeterJob} {s : State}

/-- R499, R509. A sequencer as it stands once it has stopped at a word. -/
def Seq.stoppedAt (pc reason : Nat) (x : Seq) : Seq :=
  { x with lastPc := pc % 16384, lastReason := reason, halted := x.halted || decide (pc < 0x3800 ∨ 0x3FFF < pc) }

theorem modSeq_modSeq_fuse (q : Nat) (g k : Seq → Seq) (s : State) : modSeq q k (modSeq q g s) = modSeq q (fun x => k (g x)) s :=
  congrArg (fun v => { s with seqs := v }) (tmod_tmod s.seqs q g k)

theorem inOpen_iff (pc : Nat) : inOpen pc = true ↔ 0x3800 ≤ pc ∧ pc ≤ 0x3FFF := by
  rw [inOpen, Bool.and_eq_true, decide_eq_true_eq, decide_eq_true_eq]

theorem mem_assertFaultN (why : Nat) (s : State) : why ∈ (assertFaultN why s).power.faultN := by
  have hmem : why ∈ (if s.power.faultN.contains why then s.power.faultN else why :: s.power.faultN) := by
    split
    · next h => exact List.contains_iff_mem.mp h
    · exact List.mem_cons_self
  unfold assertFaultN
  simp only
  split <;> exact hmem

theorem assertFaultN_eq (why : Nat) (s : State) :
    assertFaultN why s = { s with power := (assertFaultN why s).power, out := (assertFaultN why s).out } := by
  unfold assertFaultN
  simp only
  split <;> rfl

/-- R498, R499. Sequencer `q` stops with the job `j` under way. -/
theorem seqStopped_spec (hq : q < 8) (hj : jobOn s q = some j) (reason : Nat) : ∃ t, seqStopped q pc reason s = t ∧
    t = { s with chans := t.chans, dec := t.dec, seqs := t.seqs, cls := t.cls, power := t.power, out := t.out, fresh := t.fresh } ∧
    t.seqs = tmod s.seqs q (Seq.stoppedAt pc reason) ∧ (pc < 0x3800 → 5 ∈ t.power.faultN ∧ t.cls = s.cls) ∧
    (0x3800 ≤ pc → pc ≤ 0x3FFF → t.power = s.power ∧ ∀ i, routineAtPc (tget s.cls (q / 4)) pc = some i →
      i ∈ (tget t.cls (q / 4)).failing) := by
  have hstop : seqStopped q pc reason s =
      if inOpen pc then
        (match routineAtPc (tget s.cls (q / 4)) pc with
         | some i => modCls (q / 4) (fun c => { c with failing := i :: c.failing })
            (modSeq q (fun x => { x with lastPc := pc % 16384, lastReason := reason }) (jobStopped j s))
         | none => modSeq q (fun x => { x with lastPc := pc % 16384, lastReason := reason }) (jobStopped j s))
      else assertFaultN 5 (modSeq q (fun x => { x with halted := true })
        (modSeq q (fun x => { x with lastPc := pc % 16384, lastReason := reason }) (jobStopped j s))) := by
    rw [seqStopped, hj]
    rfl
  have hjob := jobStopped_eq j s
  generalize jobStopped j s = u at hstop hjob
  rw [hstop]
  refine ⟨_, rfl, ?_⟩
  by_cases hin : inOpen pc = true
  · have hpc := (inOpen_iff pc).mp hin
    have hstopped : (fun x : Seq => { x with lastPc := pc % 16384, lastReason := reason }) = Seq.stoppedAt pc reason := by
      funext x
      rw [Seq.stoppedAt, decide_eq_false (by omega), Bool.or_false]
    rw [if_pos hin, hstopped]
    cases hr : routineAtPc (tget s.cls (q / 4)) pc with
    | none =>
      refine ⟨?_, ?_, fun h => by omega, fun _ _ => ⟨?_, fun _ hi => absurd hi.symm (Option.some_ne_none _)⟩⟩ <;> rw [hjob] <;> rfl
    | some i =>
      have hfailing : i ∈ (tget (modCls (q / 4) (fun c => { c with failing := i :: c.failing })
          (modSeq q (Seq.stoppedAt pc reason) u)).cls (q / 4)).failing := by
        show i ∈ (tget (tmod u.cls (q / 4) _) (q / 4)).failing
        rw [tget_tmod_same _ (by omega)]
        exact List.mem_cons_self
      refine ⟨?_, ?_, fun h => by omega, fun _ _ => ⟨?_, fun k hk => Option.some.inj hk ▸ hfailing⟩⟩ <;> rw [hjob] <;> rfl
  · have hpc : pc < 0x3800 ∨ 0x3FFF < pc := by
      rw [inOpen_iff] at hin
      omega
    have hstopped : modSeq q (fun x => { x with halted := true }) (modSeq q (fun x => { x with lastPc := pc % 16384, lastReason := reason }) u) =
        modSeq q (Seq.stoppedAt pc reason) u := by
      have hhalt : (fun x : Seq => ({ x with lastPc := pc % 16384, lastReason := reason, halted := true } : Seq)) = Seq.stoppedAt pc reason := by
        funext x
        rw [Seq.stoppedAt, decide_eq_true hpc, Bool.or_true]
      rw [modSeq_modSeq_fuse, ← hhalt]
    rw [if_neg hin, hstopped]
    refine ⟨?_, ?_, fun h => ⟨mem_assertFaultN .., ?_⟩, fun h h' => by omega⟩ <;> rw [assertFaultN_eq, hjob] <;> rfl

/-- R491, R498, R499. What the watchdog or a fault does, where a job is under way: the sequencer stops and counts it, in `count`, and its
source `n` is raised. -/
theorem stop_reported (hq : q < 8) (hj : jobOn s q = some j) (reason : Nat) {count : Seq → Seq} {n : Nat} (hn : n < 512)
    (hlevel : sourceKind n = some true) {t : State} (ht : t = raise n 0 (modSeq q count (seqStopped q pc reason s))) :
    t = { s with chans := t.chans, dec := t.dec, seqs := t.seqs, cls := t.cls, power := t.power, irq := t.irq, fns := t.fns, out := t.out,
                 fresh := t.fresh } ∧
    tget t.seqs q = count ((tget s.seqs q).stoppedAt pc reason) ∧ (∀ k, k ≠ q → tget t.seqs k = tget s.seqs k) ∧
    (pc < 0x3800 → 5 ∈ t.power.faultN ∧ t.cls = s.cls) ∧
    (0x3800 ≤ pc → pc ≤ 0x3FFF → t.power = s.power ∧ ∀ i, routineAtPc (tget s.cls (q / 4)) pc = some i →
      i ∈ (tget t.cls (q / 4)).failing) ∧
    (sourcePresent s n = true → (tget t.irq.fwSrc n).cause.getLsbD 0 = true) := by
  obtain ⟨u, hu, hframe, hseqs, hvendor, hopen⟩ := seqStopped_spec (pc := pc) hq hj reason
  rw [hu] at ht
  have hraise : t = { modSeq q count u with irq := t.irq, fns := t.fns, out := t.out } := by
    rw [ht]
    exact raise_eq ..
  have hcount : t.seqs = tmod s.seqs q (fun x => count (x.stoppedAt pc reason)) := by
    rw [hraise, ← tmod_tmod, ← hseqs]
    rfl
  have hpower : t.power = u.power := by rw [hraise]; rfl
  have hcls : t.cls = u.cls := by rw [hraise]; rfl
  refine ⟨?_, ?_, fun k hk => ?_, ?_, ?_, fun hpresent => ?_⟩
  · rw [hraise, hframe]
    rfl
  · rw [hcount, tget_tmod_same _ hq]
  · rw [hcount, tget_tmod_ne _ hk.symm]
  · rw [hpower, hcls]
    exact hvendor
  · rw [hpower, hcls]
    exact hopen
  · rw [ht]
    refine cause_raise hn hlevel (by decide) ?_
    rw [← hpresent, hframe]
    rfl
end

/-- R65 to R68, R288, R302, R344. -/
theorem meters_count (undone : Nat) (s : State) :
    let counted (k : JobKey) (t : State) : Prop := ∀ e, engineOf s k = some e → e < 14 →
      (tget t.meters e).overruns = min 65535 ((tget s.meters e).overruns + 1)
    (∀ c f b, c < 32 → (s.chan c).pipeJob = some f → (s.chan c).pipeCut = none → f.outcome ≠ .dropped → f.cfg.bind = some b →
      ∃ t, exec (.cycleMeterExpiry (.pipe c) undone) s = .next t ∧
        t = { s with chans := tset s.chans c { s.chan c with pipeCut := some (b.height - undone, false) }, meters := t.meters,
                     irq := t.irq, fns := t.fns, out := t.out } ∧ counted (pipeKey c) t) ∧
    (∀ c st, c < 32 → st < 2 → (tget (s.chan c).runs st).job.isSome = true → (tget (s.chan c).runs st).current = none →
      ((tget (s.chan c).runs st).cut = none → ∃ t, exec (.cycleMeterExpiry (.enc c st) undone) s = .next t ∧
        t = { modRun c st (fun r => { r with cut := some (encUnits s c st - undone) }) s with meters := t.meters, irq := t.irq, fns := t.fns, out := t.out } ∧
        counted (encKey c st) t) ∧
      ((tget (s.chan c).runs st).job.any (fun f => f.outcome == .complete) = true → (tget (s.chan c).runs st).itpCut = none →
        (s.chan c).cfg.fine = true → ∃ t, exec (.cycleMeterExpiry (.itp c st) undone) s = .next t ∧
        t = { modRun c st (fun r => { r with itpCut := some undone }) s with meters := t.meters, irq := t.irq, fns := t.fns, out := t.out } ∧
        counted (itpKey c st) t)) ∧
    (∀ h, h < 32 → (s.decS h).job.isSome = true → (s.decS h).cut = none →
      ∃ t, exec (.cycleMeterExpiry (.dec h) undone) s = .next t ∧
        t = { s with dec := tset s.dec h { s.decS h with
                       cut := some (unitCount (s.decS h) - undone), overruns := min 0xFFFF ((s.decS h).overruns + 1) },
                     meters := t.meters, irq := t.irq, fns := t.fns, out := t.out } ∧ counted (decKey h) t) := by
  refine ⟨fun c f b hc hjob hcut hout hbind => ?_, fun c st hc hst hjob hcurrent => ⟨fun hcut => ?_, fun hcomplete hcut hfine => ?_⟩,
    fun h hh hjob hcut => ?_⟩
  · exact expiry_spec (meterExpiry_pipe hc hjob hcut hout hbind) rfl rfl
  · exact expiry_spec (meterExpiry_enc hc hst hjob hcurrent hcut) rfl rfl
  · exact expiry_spec (meterExpiry_itp hc hst hfine hcomplete hcut hcurrent) rfl rfl
  · exact expiry_spec (meterExpiry_dec hh hjob hcut) rfl rfl

section
variable {q pc : Nat} {j : MeterJob} {s : State}

/-- R132, R133. The sources of a sequencer's watchdog and faults are level sources. -/
theorem sourceKind_seq : ∀ q, q < 8 → sourceKind (224 + q) = some true ∧ sourceKind (232 + q) = some true := by decide

theorem seqWatchdog_watchdog (hq : q < 8) (hj : jobOn s q = some j) : exec (.seqWatchdog q ⟨pc, .watchdog⟩) s =
    .next (raise (224 + q) 0 (modSeq q (fun x => { x with watchdogs := min 65535 (x.watchdogs + 1) }) (seqStopped q pc 6 s))) := by
  show execSeqWatchdog q ⟨pc, .watchdog⟩ s = _
  rw [execSeqWatchdog, if_neg (by omega), seqWatchdog, hj]
  rfl

theorem seqWatchdog_fault (hq : q < 8) (hj : jobOn s q = some j) (r : Nat) : exec (.seqWatchdog q ⟨pc, .fault r⟩) s =
    .next (raise (232 + q) 0 (modSeq q (fun x => { x with faults := min 65535 (x.faults + 1) }) (seqStopped q pc r s))) := by
  show execSeqWatchdog q ⟨pc, .fault r⟩ s = _
  rw [execSeqWatchdog, if_neg (by omega), seqWatchdog, hj]
  rfl

theorem seqWatchdog_corrected (hq : q < 8) : exec (.seqWatchdog q ⟨pc, .corrected⟩) s = .next { s with
    seqs := tset s.seqs q { tget s.seqs q with storeCe := min 4294967295 ((tget s.seqs q).storeCe + 1) } } := by
  show execSeqWatchdog q ⟨pc, .corrected⟩ s = _
  rw [execSeqWatchdog, if_neg (by omega)]
  rfl
end

/-- Settles O35: the meter cuts the job it names and counts, and a stop completes the job of its sequencer and counts. -/
theorem metersAndWatchdogs : Obligations.MetersAndWatchdogs := by
  unfold Obligations.MetersAndWatchdogs
  refine ⟨meters_count, fun q pc j s hq hj => ⟨seqWatchdog_corrected hq, fun r _ why hwhy => ?_⟩⟩
  obtain ⟨hdog, hfault⟩ := sourceKind_seq q hq
  rcases hwhy with rfl | rfl
  · exact ⟨_, seqWatchdog_watchdog hq hj, stop_reported hq hj 6 (by omega) hdog rfl⟩
  · exact ⟨_, seqWatchdog_fault hq hj r, stop_reported hq hj r (by omega) hfault rfl⟩

end Sys2Proof.Machine
end

section
/-!
PROOF. What every step keeps of the mailboxes and of the memory controllers (O9, and with it the canonical form of memory). The invariants
are taken together, for of nearly every operation the same is to be said: it changes nothing that they speak of. It is said once of each, in
the order of the model's files, by simp lemmas; an operation made of others is closed by theirs.
-/
namespace Sys2Proof.Machine

/-! ### The invariants -/

/-- R83, R90, R394, R401, R402. What a step keeps: memory in canonical form, queues and tag caches of at most 64 entries, debts of at most 8. -/
inductive Invariant where
  | memory | queues | debts

/-- What an invariant says of one controller. -/
def Invariant.OfDmc : Invariant → Dmc → Prop
  | .memory, d => Memory.wf d.memory = true
  | .queues, _ => True
  | .debts, d => ∀ c, (tget d.chans c).debt ≤ 8

/-- What it says of one mailbox. -/
def Invariant.OfFn : Invariant → Fn → Prop
  | .queues, x => x.reqQ.length ≤ 64 ∧ x.cache.length ≤ 64
  | _, _ => True

/-- What it says of the block. -/
def Invariant.Holds (I : Invariant) (s : State) : Prop := (∀ d, I.OfDmc (s.dmcN d)) ∧ ∀ f, I.OfFn (s.fn f)

theorem holds_memory (s : State) : Invariant.memory.Holds s ↔ memoryCanonical s := and_iff_left fun _ => trivial

theorem holds_queues (s : State) : Invariant.queues.Holds s ↔ queuesBounded s := and_iff_right fun _ => trivial

theorem holds_debts (s : State) : Invariant.debts.Holds s ↔ debtBounded s := and_iff_left fun _ => trivial

/-- Beyond its end a table reads as the default. -/
theorem tget_beyond {α : Type} {n : Nat} [Inhabited α] (v : Vector α n) {i : Nat} (h : n ≤ i) : tget v i = default := by
  simp [tget, Vector.getElem?_eq_none h]

section
variable {I : Invariant}

/-! ### One mailbox, and one controller -/

/-- An update of a mailbox that takes over its request queue and its tag cache. -/
@[simp] theorem ofFn_update (x : Fn) (staging rspQ rspData reqOvf rspIe timeHi ptmDev ptmRoot session challenge opening vecMask fnMask held
    readData) :
    I.OfFn ⟨staging, x.reqQ, rspQ, rspData, reqOvf, rspIe, x.cache, timeHi, ptmDev, ptmRoot, session, challenge, opening, vecMask, fnMask, held,
      readData⟩ ↔ I.OfFn x := by
  cases I <;> exact Iff.rfl

@[simp] theorem ofFn_ite (c : Prop) [Decidable c] (x y : Fn) : I.OfFn (if c then x else y) ↔ if c then I.OfFn x else I.OfFn y :=
  iff_of_eq (apply_ite I.OfFn c x y)

/-- R84. What waits changes, and no entry comes or goes. -/
@[simp] theorem ofFn_mapQueue (x : Fn) (g : QEntry → QEntry) : I.OfFn { x with reqQ := x.reqQ.map g } ↔ I.OfFn x := by
  cases I <;> simp [Invariant.OfFn]

/-- R82. An entry joins a queue that has room. -/
theorem ofFn_push {x : Fn} (h : I.OfFn x) (hroom : x.reqQ.length < 64) (q : QEntry) : I.OfFn { x with reqQ := x.reqQ ++ [q] } := by
  cases I
  case queues => exact ⟨by simpa using hroom, h.2⟩
  all_goals trivial

/-- R84. An entry that is read leaves its queue. -/
theorem ofFn_erase {x : Fn} (h : I.OfFn x) (q : QEntry) : I.OfFn { x with reqQ := x.reqQ.erase q } := by
  cases I
  case queues => exact ⟨Nat.le_trans List.length_erase_le h.1, h.2⟩
  all_goals trivial

/-- R90. What enters a tag cache leaves at most 64 entries in it. -/
theorem ofFn_cacheAdd (e : Entry) (r : Response) {x : Fn} (h : I.OfFn x) : I.OfFn { x with cache := cacheAdd e r x.cache } := by
  cases I
  case queues =>
    refine ⟨h.1, ?_⟩
    simp only [cacheAdd, List.length_take]
    omega
  all_goals trivial

/-- A mailbox with nothing in it. -/
theorem ofFn_empty {x : Fn} (hq : x.reqQ = []) (hc : x.cache = []) : I.OfFn x := by
  cases I
  case queues => simp [Invariant.OfFn, hq, hc]
  all_goals trivial

/-- An update of a controller that takes over its memory and its channels. -/
@[simp] theorem ofDmc_update (d : Dmc) (fitted trained ready order rowBits rate density size sealed_ poison tags wbuf selfRef entering leaving
    ce ue tagFail forced lastAddr lastKind lastMaster maxWait debtMax scrubbed pool) :
    I.OfDmc ⟨fitted, trained, ready, order, rowBits, rate, density, size, sealed_, d.memory, poison, tags, wbuf, d.chans, selfRef, entering,
      leaving, ce, ue, tagFail, forced, lastAddr, lastKind, lastMaster, maxWait, debtMax, scrubbed, pool⟩ ↔ I.OfDmc d := by
  cases I <;> exact Iff.rfl

@[simp] theorem ofDmc_ite (c : Prop) [Decidable c] (x y : Dmc) : I.OfDmc (if c then x else y) ↔ if c then I.OfDmc x else I.OfDmc y :=
  iff_of_eq (apply_ite I.OfDmc c x y)

/-- The channels of a controller change, and what they owe does not. -/
@[simp] theorem ofDmc_chans (d : Dmc) (c : Nat) {g : MemChan → MemChan} (h : ∀ m, (g m).debt = m.debt) :
    I.OfDmc { d with chans := tmod d.chans c g } ↔ I.OfDmc d := by
  cases I
  case debts =>
    refine forall_congr' fun j => ?_
    rw [tget_tmod]
    split <;> simp [h]
  all_goals exact Iff.rfl

/-- What a change of a controller keeps: where its memory stays canonical, and each debt within 8. -/
theorem Invariant.OfDmc.change {d e : Dmc} (h : I.OfDmc d) (hm : Memory.wf d.memory = true → Memory.wf e.memory = true)
    (hc : ∀ c, (tget d.chans c).debt ≤ 8 → (tget e.chans c).debt ≤ 8) : I.OfDmc e := by
  cases I
  case memory => exact hm h
  case queues => trivial
  case debts => exact fun c => hc c (h c)

/-- R413. Channels whose debts are paid owe nothing, and neither does what lies beyond the table. -/
theorem debt_paid (v : Vector MemChan 8) {g : MemChan → MemChan} (hg : ∀ m, (g m).debt = 0) (c : Nat) : (tget (v.map g) c).debt ≤ 8 := by
  by_cases hc : c < 8
  · rw [tget_map _ _ hc, hg]
    exact Nat.zero_le 8
  · rw [tget_beyond _ (Nat.le_of_not_lt hc)]
    exact Nat.zero_le 8

/-- A controller that holds nothing and owes nothing. -/
theorem ofDmc_empty {d : Dmc} (hm : d.memory = []) (hc : ∃ m : MemChan, d.chans = Vector.replicate 8 m ∧ m.debt = 0) : I.OfDmc d := by
  obtain ⟨m, hv, hd⟩ := hc
  cases I
  case memory =>
    show Memory.wf d.memory = true
    rw [hm]
    rfl
  case queues => trivial
  case debts =>
    intro c
    rw [hv]
    by_cases h : c < 8
    · rw [tget_replicate _ h, hd]
      exact Nat.zero_le 8
    · rw [tget_beyond _ (Nat.le_of_not_lt h)]
      exact Nat.zero_le 8

/-! ### The block -/

@[simp] theorem holds_ite (c : Prop) [Decidable c] (s t : State) :
    I.Holds (if c then s else t) ↔ if c then I.Holds s else I.Holds t := iff_of_eq (apply_ite I.Holds c s t)

@[simp] theorem holds_snd_ite {α : Type} (c : Prop) [Decidable c] (r r' : α × State) :
    I.Holds (if c then r else r').2 ↔ if c then I.Holds r.2 else I.Holds r'.2 := iff_of_eq (apply_ite (fun x => I.Holds x.2) c r r')

/-- An update of a state that takes over its controllers and its mailboxes. -/
@[simp] theorem holds_update (s : State) (pending fuses boot time numVfs vfEnable irq exec lastServed resetAt groups fgroups rx chans buses ego
    egoTaken dec flowCfg flows ports lanes gts10 mps tx macOther tarn roles cls seqs power bookings buffers meters out fresh) :
    I.Holds ⟨pending, fuses, boot, time, s.fns, numVfs, vfEnable, irq, exec, lastServed, resetAt, groups, fgroups, rx, chans, buses, ego,
      egoTaken, dec, flowCfg, flows, ports, lanes, gts10, mps, tx, macOther, s.dmc, tarn, roles, cls, seqs, power, bookings, buffers, meters,
      out, fresh⟩ ↔ I.Holds s := Iff.rfl

/-- What an update of one mailbox keeps. -/
theorem Invariant.Holds.modFn {s : State} (h : I.Holds s) {f : Nat} {g : Fn → Fn} (hg : I.OfFn (s.fn f) → I.OfFn (g (s.fn f))) :
    I.Holds (Machine.modFn f g s) := by
  refine ⟨h.1, fun j => ?_⟩
  rw [fn_modFn]
  split
  · next e => exact e.1 ▸ hg (h.2 f)
  · exact h.2 j

/-- What an update of one controller keeps. -/
theorem Invariant.Holds.modDmc {s : State} (h : I.Holds s) {d : Nat} {g : Dmc → Dmc} (hg : I.OfDmc (s.dmcN d) → I.OfDmc (g (s.dmcN d))) :
    I.Holds (Machine.modDmc d g s) := by
  refine ⟨fun j => ?_, h.2⟩
  rw [dmcN_modDmc]
  split
  · next e => exact e.1 ▸ hg (h.1 d)
  · exact h.1 j

/-- A change of every mailbox. -/
@[simp] theorem holds_mapFns {g : Fn → Fn} (h : ∀ x, I.OfFn (g x) ↔ I.OfFn x) (s : State) :
    I.Holds { s with fns := s.fns.map g } ↔ I.Holds s := by
  refine and_congr Iff.rfl (forall_congr' fun f => ?_)
  by_cases hf : f < 16
  · exact iff_of_eq (congrArg I.OfFn (tget_map s.fns g hf)) |>.trans (h _)
  · exact iff_of_eq (congrArg I.OfFn ((tget_beyond _ (Nat.le_of_not_lt hf)).trans (tget_beyond _ (Nat.le_of_not_lt hf)).symm))

/-- A change of every controller. -/
theorem Invariant.Holds.mapDmcs {s : State} (hs : I.Holds s) {g : Dmc → Dmc} (hg : ∀ x, I.OfDmc x → I.OfDmc (g x)) :
    I.Holds { s with dmc := s.dmc.map g } := by
  refine ⟨fun d => ?_, hs.2⟩
  by_cases hd : d < 2
  · rw [State.dmcN, tget_map _ _ hd]
    exact hg _ (hs.1 d)
  · rw [State.dmcN, tget_beyond _ (Nat.le_of_not_lt hd)]
    exact ofDmc_empty rfl ⟨default, rfl, rfl⟩

/-- A loop keeps what each of its turns keeps. -/
theorem Invariant.Holds.forEach {α : Type} {s : State} (hs : I.Holds s) (l : List α) {g : α → State → State}
    (h : ∀ a t, I.Holds t → I.Holds (g a t)) : I.Holds (Machine.forEach l g s) := forEach_keeps I.Holds l g s hs fun a _ t => h a t

@[simp] theorem holds_forEach {α : Type} (l : List α) {g : α → State → State} (h : ∀ a t, I.Holds (g a t) ↔ I.Holds t) (s : State) :
    I.Holds (forEach l g s) ↔ I.Holds s :=
  iff_of_eq (forEach_same I.Holds l g s fun a _ t => propext (h a t))

@[simp] theorem holds_when (b : Bool) {g : State → State} (h : ∀ t, I.Holds (g t) ↔ I.Holds t) (s : State) :
    I.Holds (when b g s) ↔ I.Holds s := by simp [when, h]

/-! ### Tables, units and outputs -/

@[simp] theorem holds_modFn (f : Nat) {g : Fn → Fn} (h : ∀ x, I.OfFn (g x) ↔ I.OfFn x) (s : State) :
    I.Holds (modFn f g s) ↔ I.Holds s := by
  refine and_congr Iff.rfl (forall_congr' fun j => ?_)
  rw [fn_modFn]
  split <;> simp [h]

@[simp] theorem holds_modDmc (d : Nat) {g : Dmc → Dmc} (h : ∀ x, I.OfDmc (g x) ↔ I.OfDmc x) (s : State) :
    I.Holds (modDmc d g s) ↔ I.Holds s := by
  refine and_congr (forall_congr' fun j => ?_) Iff.rfl
  rw [dmcN_modDmc]
  split <;> simp [h]

@[simp] theorem holds_modChan (c : Nat) (g : Chan → Chan) (s : State) : I.Holds (modChan c g s) ↔ I.Holds s := by simp [modChan]

@[simp] theorem holds_modCal (c : Nat) (g : Cal → Cal) (s : State) : I.Holds (modCal c g s) ↔ I.Holds s := by simp [modCal]

@[simp] theorem holds_modRx (p : Nat) (g : RxPort → RxPort) (s : State) : I.Holds (modRx p g s) ↔ I.Holds s := by simp [modRx]

@[simp] theorem holds_modFlow (m : Nat) (g : FlowRun → FlowRun) (s : State) : I.Holds (modFlow m g s) ↔ I.Holds s := by simp [modFlow]

@[simp] theorem holds_modFcfg (m : Nat) (g : FlowCfg → FlowCfg) (s : State) : I.Holds (modFcfg m g s) ↔ I.Holds s := by simp [modFcfg]

@[simp] theorem holds_modDec (h : Nat) (g : DecStream → DecStream) (s : State) : I.Holds (modDec h g s) ↔ I.Holds s := by simp [modDec]

@[simp] theorem holds_modPort (p : Nat) (g : Port → Port) (s : State) : I.Holds (modPort p g s) ↔ I.Holds s := by simp [modPort]

@[simp] theorem holds_modTx (p : Nat) (g : TxPort → TxPort) (s : State) : I.Holds (modTx p g s) ↔ I.Holds s := by simp [modTx]

@[simp] theorem holds_modSeq (q : Nat) (g : Seq → Seq) (s : State) : I.Holds (modSeq q g s) ↔ I.Holds s := by simp [modSeq]

@[simp] theorem holds_modCls (c : Nat) (g : SeqClass → SeqClass) (s : State) : I.Holds (modCls c g s) ↔ I.Holds s := by simp [modCls]

@[simp] theorem holds_modTime (g : TimeBase → TimeBase) (s : State) : I.Holds (modTime g s) ↔ I.Holds s := by simp [modTime]

@[simp] theorem holds_modBoot (g : Boot → Boot) (s : State) : I.Holds (modBoot g s) ↔ I.Holds s := by simp [modBoot]

@[simp] theorem holds_modTarn (g : Tarn → Tarn) (s : State) : I.Holds (modTarn g s) ↔ I.Holds s := by simp [modTarn]

@[simp] theorem holds_modRoles (g : Roles → Roles) (s : State) : I.Holds (modRoles g s) ↔ I.Holds s := by simp [modRoles]

@[simp] theorem holds_modPower (g : Power → Power) (s : State) : I.Holds (modPower g s) ↔ I.Holds s := by simp [modPower]

@[simp] theorem holds_emit (o : Output) (s : State) : I.Holds (emit o s) ↔ I.Holds s := by simp [emit]

@[simp] theorem holds_assertFaultN (why : Nat) (s : State) : I.Holds (assertFaultN why s) ↔ I.Holds s := by simp [assertFaultN]

@[simp] theorem holds_releaseFaultN (why : Nat) (s : State) : I.Holds (releaseFaultN why s) ↔ I.Holds s := by simp [releaseFaultN]

@[simp] theorem holds_advanceTo (at_ : Nat) (s : State) : I.Holds (advanceTo at_ s) ↔ I.Holds s := by simp [advanceTo]

@[simp] theorem holds_advanceElapsed (at_ : Nat) (s : State) : I.Holds (advanceElapsed at_ s) ↔ I.Holds s := by simp [advanceElapsed]

@[simp] theorem holds_startTick (s : State) : I.Holds (startTick s) ↔ I.Holds s := by simp [startTick]

/-! ### Interrupts -/

@[simp] theorem holds_modSrc (n : Nat) (g : Source → Source) (s : State) : I.Holds (modSrc n g s) ↔ I.Holds s := by simp [modSrc]

@[simp] theorem holds_modFwSrc (n : Nat) (g : Source → Source) (s : State) : I.Holds (modFwSrc n g s) ↔ I.Holds s := by simp [modFwSrc]

@[simp] theorem holds_modTgt (t : Nat) (g : Target → Target) (s : State) : I.Holds (modTgt t g s) ↔ I.Holds s := by simp [modTgt]

@[simp] theorem holds_sendMsix (f v : Nat) (s : State) : I.Holds (sendMsix f v s) ↔ I.Holds s := by simp [sendMsix]

@[simp] theorem holds_resignal (t : Nat) (s : State) : I.Holds (resignal t s) ↔ I.Holds s := by simp [resignal]

@[simp] theorem holds_raise (n bit : Nat) (s : State) : I.Holds (raise n bit s) ↔ I.Holds s := by simp [raise]

@[simp] theorem holds_reroute (n r : Nat) (s : State) : I.Holds (reroute n r s) ↔ I.Holds s := by simp [reroute]

@[simp] theorem holds_resetTarget (f : Nat) (s : State) : I.Holds (resetTarget f s) ↔ I.Holds s := by simp [resetTarget]

@[simp] theorem holds_raiseFrame (c : Nat) (s : State) : I.Holds (raiseFrame c s) ↔ I.Holds s := holds_raise _ _ s

@[simp] theorem holds_raiseIngress (c bit : Nat) (s : State) : I.Holds (raiseIngress c bit s) ↔ I.Holds s := holds_raise _ _ s

@[simp] theorem holds_raisePipe (c bit : Nat) (s : State) : I.Holds (raisePipe c bit s) ↔ I.Holds s := holds_raise _ _ s

@[simp] theorem holds_raiseEncDone (c : Nat) (s : State) : I.Holds (raiseEncDone c s) ↔ I.Holds s := holds_raise _ _ s

@[simp] theorem holds_raiseEnc (c bit : Nat) (s : State) : I.Holds (raiseEnc c bit s) ↔ I.Holds s := holds_raise _ _ s

@[simp] theorem holds_raiseDec (h bit : Nat) (s : State) : I.Holds (raiseDec h bit s) ↔ I.Holds s := holds_raise _ _ s

@[simp] theorem holds_raiseFlow (m : Nat) (s : State) : I.Holds (raiseFlow m s) ↔ I.Holds s := holds_raise _ _ s

/-! ### Responses and flash programs -/

@[simp] theorem holds_post (f : Nat) (r : Response) (s : State) : I.Holds (post f r s) ↔ I.Holds s := by simp [post]

@[simp] theorem holds_postFinal (f : Nat) (e : Entry) (r : Response) {s : State} (h : I.Holds s) : I.Holds (postFinal f e r s) :=
  ((holds_post f r s).mpr h).modFn (ofFn_cacheAdd e r)

@[simp] theorem holds_answer (f : Nat) (e : Entry) (st : Byte) (payload : List Byte) {s : State} (h : I.Holds s) :
    I.Holds (answer f e st payload s) := by simp [answer, h]

@[simp] theorem holds_finishAt (x : ExecEntry) (st : Byte) (tick : Long) (payload : List Byte) {s : State} (h : I.Holds s) :
    I.Holds (finishAt x st tick payload s) := by simp [finishAt, h]

@[simp] theorem holds_finish (x : ExecEntry) (st : Byte) (payload : List Byte) {s : State} (h : I.Holds s) :
    I.Holds (finish x st payload s) := by simp [finish, h]

@[simp] theorem holds_updExec (x y : ExecEntry) (s : State) : I.Holds (updExec x y s) ↔ I.Holds s := by simp [updExec]

@[simp] theorem holds_flashQueue (w : FlashWork) (waiter : Option (Nat × BitVec 16)) (s : State) :
    I.Holds (flashQueue w waiter s) ↔ I.Holds s := by simp [flashQueue]

/-! ### Audit records and keys -/

@[simp] theorem holds_setKey (n : Nat) (k : List Byte) (s : State) : I.Holds (setKey n k s) ↔ I.Holds s := by simp [setKey]

@[simp] theorem holds_computeKey (n : Nat) (s : State) : I.Holds (computeKey n s) ↔ I.Holds s := by simp [computeKey]

@[simp] theorem holds_newGen (n : Nat) (s : State) : I.Holds (newGen n s) ↔ I.Holds s := by simp [newGen]

@[simp] theorem holds_deriveNode (n : Nat) (s : State) : I.Holds (deriveNode n s) ↔ I.Holds s := by simp [deriveNode]

@[simp] theorem holds_renewPublic (s : State) : I.Holds (renewPublic s) ↔ I.Holds s := by simp [renewPublic]

@[simp] theorem holds_rederiveAll (l : List Nat) (s : State) : I.Holds (rederiveAll l s) ↔ I.Holds s := by simp [rederiveAll]

@[simp] theorem holds_headsNeedKey (cs : List Nat) (s : State) : I.Holds (headsNeedKey cs s) ↔ I.Holds s := by simp [headsNeedKey]

@[simp] theorem holds_rederiveDev (s : State) : I.Holds (rederiveDev s) ↔ I.Holds s := by simp [rederiveDev]

/-- What is drawn leaves the pool and nothing else changes. -/
theorem holds_takeEntropy {n : Nat} {s t : State} {d : List Byte} (h : takeEntropy n s = some (d, t)) : I.Holds t ↔ I.Holds s := by
  unfold takeEntropy at h
  split at h
  · cases h; rfl
  · cases h

@[simp] theorem holds_audit (event role slot func time : Nat) (detail : List Byte) (s : State) :
    I.Holds (audit event role slot func time detail s) ↔ I.Holds s := by simp [audit]

@[simp] theorem holds_clusterRead (s : State) : I.Holds (clusterRead s) ↔ I.Holds s := by simp [clusterRead]

@[simp] theorem holds_auditAt (event role slot func : Nat) (detail : List Byte) (s0 : State) :
    I.Holds (auditAt event role slot func detail s0) ↔ I.Holds s0 := by simp [auditAt]

@[simp] theorem holds_auditDevice (event : Nat) (detail : List Byte) (s : State) :
    I.Holds (auditDevice event detail s) ↔ I.Holds s := by simp [auditDevice]

@[simp] theorem holds_auditNow (c : Ctx) (event : Nat) (detail : List Byte) (s : State) :
    I.Holds (auditNow c event detail s) ↔ I.Holds s := by simp [auditNow]

@[simp] theorem holds_auditTick (c : Ctx) (event : Nat) (detail : List Byte) (s : State) :
    I.Holds (auditTick c event detail s) ↔ I.Holds s := by simp [auditTick]

@[simp] theorem holds_tickAudited (event : Nat) (detail : List Byte) (c : Ctx) (s : State) :
    I.Holds (tickAudited event detail c s).2 ↔ I.Holds s := by simp [tickAudited]

/-! ### Calibration records -/

@[simp] theorem holds_restartEst (c : Nat) (ps : List Nat) (s : State) : I.Holds (restartEst c ps s) ↔ I.Holds s := by simp [restartEst]

@[simp] theorem holds_bumpGen (c : Nat) (s : State) : I.Holds (bumpGen c s) ↔ I.Holds s := by simp [bumpGen]

@[simp] theorem holds_modPipe (c : Nat) (g : Pipe → Pipe) (s : State) : I.Holds (modPipe c g s) ↔ I.Holds s := by simp [modPipe]

@[simp] theorem holds_putEstimate (c : Nat) (v : CalValue) (s : State) : I.Holds (putEstimate c v s) ↔ I.Holds s := by
  unfold putEstimate
  split <;> simp

@[simp] theorem holds_discardParam (c p : Nat) (s : State) : I.Holds (discardParam c p s) ↔ I.Holds s := by simp [discardParam]

@[simp] theorem holds_saveEstimates (c : Nat) (s : State) : I.Holds (saveEstimates c s) ↔ I.Holds s := by
  unfold saveEstimates
  split <;> simp

@[simp] theorem holds_discardEstimates (c : Nat) (s : State) : I.Holds (discardEstimates c s) ↔ I.Holds s := by simp [discardEstimates]

@[simp] theorem holds_noteChanges (c : Nat) (old : ChanCfg) (s : State) :
    I.Holds (noteChanges c old s) ↔ I.Holds s := by simp [noteChanges]

/-! ### Camera ingress -/

@[simp] theorem holds_pulse (c b : Nat) (r : Rate) (s : State) : I.Holds (pulse c b r s) ↔ I.Holds s := by simp [pulse]

theorem holds_takeHeader {port : Nat} {ecc : HdrEcc} {s t : State} (h : takeHeader port ecc s = some t) : I.Holds t ↔ I.Holds s := by
  unfold takeHeader at h
  split at h
  · cases h
  · cases ecc <;> cases h <;> rfl

@[simp] theorem holds_countUncorr (port : Nat) (ecc : HdrEcc) (s : State) :
    I.Holds (countUncorr port ecc s) ↔ I.Holds s := by simp [countUncorr]

@[simp] theorem holds_ignore (c : Nat) (s : State) : I.Holds (ignore c s) ↔ I.Holds s := by simp [ignore]

@[simp] theorem holds_modFrame (c counter : Nat) (g : Frame → Frame) (s : State) :
    I.Holds (modFrame c counter g s) ↔ I.Holds s := by simp [modFrame]

@[simp] theorem holds_frameStart (c port vc : Nat) (s : State) : I.Holds (frameStart c port vc s) ↔ I.Holds s := by simp [frameStart]

@[simp] theorem holds_onFrame (c port vc : Nat) {g : Frame → Bind → State → State} (h : ∀ f b t, I.Holds (g f b t) ↔ I.Holds t)
    (s : State) :
    I.Holds (onFrame c port vc g s) ↔ I.Holds s := by
  unfold onFrame
  split
  · exact h _ _ s
  · exact holds_ignore c s
  · rfl

@[simp] theorem holds_throughFifo (c port dt wc : Nat) (stored : Bool) (s : State) :
    I.Holds (throughFifo c port dt wc stored s).2 ↔ I.Holds s := by simp [throughFifo]

@[simp] theorem holds_keepPacket (c port dt wc counter : Nat) (store cut : Frame → Frame) (s : State) :
    I.Holds (keepPacket c port dt wc counter store cut s) ↔ I.Holds s := by simp [keepPacket]

@[simp] theorem holds_dropPacket (c port dt wc : Nat) (s : State) :
    I.Holds (dropPacket c port dt wc s) ↔ I.Holds s := by simp [dropPacket]

@[simp] theorem holds_imageLine (c : Nat) (b : Bind) (wc : Nat) (crcOk : Bool) (data : List Byte) (f : Frame) (s : State) :
    I.Holds (imageLine c b wc crcOk data f s) ↔ I.Holds s := by simp [imageLine]

@[simp] theorem holds_longPacket (c port dt wc : Nat) (crcOk : Bool) (data : List Byte) (f : Frame) (b : Bind) (s0 : State) :
    I.Holds (longPacket c port dt wc crcOk data f b s0) ↔ I.Holds s0 := by simp [longPacket]

@[simp] theorem holds_frameEnd (c : Nat) (f : Frame) (b : Bind) (s : State) : I.Holds (frameEnd c f b s) ↔ I.Holds s := by simp [frameEnd]

@[simp] theorem holds_onPacket (port vc : Nat) (ecc : HdrEcc) {g : Nat → State → State} (h : ∀ c t, I.Holds (g c t) ↔ I.Holds t) (s : State) :
    I.Holds (onPacket port vc ecc g s) ↔ I.Holds s := by
  unfold onPacket
  split
  · exact holds_countUncorr port ecc s
  · next s1 hs =>
    rw [← holds_takeHeader hs]
    split
    · rfl
    · exact h _ s1

@[simp] theorem holds_takeLong (port vc dt wc : Nat) (crcOk : Bool) (data : List Byte) (s : State) :
    I.Holds (takeLong port vc dt wc crcOk data s) ↔ I.Holds s := by
  unfold takeLong
  split
  · simp
  · split <;> simp

@[simp] theorem holds_closeRecord (c : Nat) (f0 : Frame) (s : State) : I.Holds (closeRecord c f0 s) ↔ I.Holds s := by simp [closeRecord]

@[simp] theorem holds_stopChan (c : Nat) (s : State) : I.Holds (stopChan c s) ↔ I.Holds s := by simp [stopChan]

@[simp] theorem holds_busPush (c : Nat) (x : BusXfer) (s : State) : I.Holds (busPush c x s) ↔ I.Holds s := by
  unfold busPush
  split <;> simp

@[simp] theorem holds_sensorEffect (c : Ctx) (m : Nat) (s : State) : I.Holds (sensorEffect c m s) ↔ I.Holds s := by simp [sensorEffect]

/-! ### The image pipeline -/

@[simp] theorem holds_pipeSet (q : Request) (c : Nat) (s : State) : I.Holds (pipeSet q c s) ↔ I.Holds s := by simp [pipeSet]

@[simp] theorem holds_lutPut (kind : Nat) (bs : List Byte) (c : Nat) (s : State) :
    I.Holds (lutPut kind bs c s) ↔ I.Holds s := by simp [lutPut]

@[simp] theorem holds_lutRead (c : Ctx) (s : State) : I.Holds (lutRead c s).2 ↔ I.Holds s := by
  simp [lutRead]

@[simp] theorem holds_lutResume (c : Ctx) (n : Nat) (s : State) : I.Holds (lutResume c n s).2 ↔ I.Holds s := by
  simp [lutResume]

/-! ### Self-calibration -/

@[simp] theorem holds_calAccept (c : Nat) (f : Frame) (s : State) : I.Holds (calAccept c f s) ↔ I.Holds s := by
  unfold calAccept
  split
  · rfl
  · refine (holds_modCal _ _ _).trans (holds_forEach _ (fun p t => ?_) s)
    split
    · split <;> simp
    · rfl

@[simp] theorem holds_hold (c p : Nat) (v : CalValue) (g : Nat × Nat × Nat) (s : State) :
    I.Holds (hold c p v g s) ↔ I.Holds s := by simp [hold]

@[simp] theorem holds_insufficient (c p : Nat) (s : State) : I.Holds (insufficient c p s) ↔ I.Holds s := by simp [insufficient]

@[simp] theorem holds_completeEstimate (c p at_ : Nat) (s : State) :
    I.Holds (completeEstimate c p at_ s) ↔ I.Holds s := by simp [completeEstimate]

@[simp] theorem holds_runEstimates (c : Nat) (s : State) : I.Holds (runEstimates c s) ↔ I.Holds s :=
  holds_forEach _ (fun p t => by split <;> simp) s

@[simp] theorem holds_applyEstimates (c k : Nat) (s : State) : I.Holds (applyEstimates c k s) ↔ I.Holds s := by
  refine holds_forEach _ (fun p t => ?_) s
  split
  · split
    · simp only
      split <;> simp
    · rfl
  · rfl

@[simp] theorem holds_restoreEstimates (c : Nat) (s : State) : I.Holds (restoreEstimates c s) ↔ I.Holds s := by
  unfold restoreEstimates
  simp only
  split
  · split
    · exact holds_forEach _ (fun p t => by split <;> simp) s
    · rfl
  · rfl

@[simp] theorem holds_calAudited (code : Nat) (c : Ctx) (s : State) : I.Holds (calAudited code c s).2 ↔ I.Holds s := by simp [calAudited]

@[simp] theorem holds_pinNow (mask c : Nat) (s : State) : I.Holds (pinNow mask c s) ↔ I.Holds s :=
  holds_forEach _ (fun p t => by split <;> simp) s

/-! ### Frame jobs -/

@[simp] theorem holds_meterJob (k : JobKey) (cut : Bool) (s : State) : I.Holds (meterJob k cut s) ↔ I.Holds s := by
  unfold meterJob
  split <;> simp

@[simp] theorem holds_meterOverrun (k : JobKey) (s : State) : I.Holds (meterOverrun k s) ↔ I.Holds s := by
  unfold meterOverrun
  split <;> simp

@[simp] theorem holds_reportRoutine (k : JobKey) (routine : Nat) (e : RunEnd) {overrun : State → State}
    (h : ∀ t, I.Holds (overrun t) ↔ I.Holds t) (s : State) : I.Holds (reportRoutine k routine e overrun s) ↔ I.Holds s := by
  unfold reportRoutine
  cases e <;> simp [h]

@[simp] theorem holds_countHook (k : JobKey) (h : Hooked) (s : State) : I.Holds (countHook k h s) ↔ I.Holds s := by
  unfold countHook
  split <;> simp

@[simp] theorem holds_rewriteRecord (c : Nat) (old new : Frame) (s : State) :
    I.Holds (rewriteRecord c old new s) ↔ I.Holds s := by simp [rewriteRecord]

@[simp] theorem holds_keepTone (c : Nat) (f : Frame) (lin : List Plane) (s : State) :
    I.Holds (keepTone c f lin s) ↔ I.Holds s := by simp [keepTone]

@[simp] theorem holds_pipeJobEnd (c : Nat) (s : State) : I.Holds (pipeJobEnd c s) ↔ I.Holds s := by
  unfold pipeJobEnd
  simp only
  split
  · rfl
  · split
    · simp
    · split
      · simp
      · simp only [holds_modChan, holds_keepTone, holds_rewriteRecord]
        split <;> simp

/-! ### Motion search -/

@[simp] theorem holds_takeEgo (k : Nat) (s : State) : I.Holds (takeEgo k s) ↔ I.Holds s := by simp [takeEgo]

/-! ### The decoder -/

@[simp] theorem holds_repeatPicture (h : Nat) (error : Bool) (s : State) :
    I.Holds (repeatPicture h error s) ↔ I.Holds s := by simp [repeatPicture]

@[simp] theorem holds_decodeTick (h : Nat) (s : State) : I.Holds (decodeTick h s) ↔ I.Holds s := by
  unfold decodeTick
  simp only
  split
  · rfl
  · split <;> simp

@[simp] theorem holds_streamErrors (h n : Nat) (s : State) : I.Holds (streamErrors h n s) ↔ I.Holds s := by simp [streamErrors]

@[simp] theorem holds_decJobEnd (h : Nat) (r : DecResult) (s : State) : I.Holds (decJobEnd h r s) ↔ I.Holds s := by
  unfold decJobEnd
  simp only
  split
  · rfl
  · simp

@[simp] theorem holds_decJobLate (h : Nat) (s : State) : I.Holds (decJobLate h s) ↔ I.Holds s := by
  unfold decJobLate
  split <;> simp

@[simp] theorem holds_feed (h : Nat) (bytes : List Byte) (last : Bool) (s : State) :
    I.Holds (feed h bytes last s) ↔ I.Holds s := by simp [feed]

/-! ### The encoder -/

@[simp] theorem holds_putStream (c st : Nat) (n : StreamCfg) (s : State) : I.Holds (putStream c st n s) ↔ I.Holds s := by simp [putStream]

@[simp] theorem holds_putRate (c st r : Nat) (s : State) : I.Holds (putRate c st r s) ↔ I.Holds s := by simp [putRate]

@[simp] theorem holds_fixSeal (c st : Nat) (s : State) : I.Holds (fixSeal c st s) ↔ I.Holds s := by simp [fixSeal]

@[simp] theorem holds_startEncode (c : Nat) (s : State) : I.Holds (startEncode c s) ↔ I.Holds s := by
  unfold startEncode
  simp only
  split
  · rfl
  · simp

@[simp] theorem holds_encJobEnd (c st : Nat) (s : State) : I.Holds (encJobEnd c st s) ↔ I.Holds s := by
  unfold encJobEnd
  split
  · rfl
  · split
    · rfl
    · split
      · simp
      · simp
        split <;> simp

@[simp] theorem holds_itpJobEnd (c st : Nat) (s : State) : I.Holds (itpJobEnd c st s) ↔ I.Holds s := by simp [itpJobEnd]

@[simp] theorem holds_sealJobEnd (c st : Nat) (s : State) : I.Holds (sealJobEnd c st s) ↔ I.Holds s := by simp [sealJobEnd]

@[simp] theorem holds_releaseCounts (c st : Nat) (a : AccessUnit) (s : State) :
    I.Holds (releaseCounts c st a s) ↔ I.Holds s := by simp [releaseCounts]

/-! ### Egress -/

@[simp] theorem holds_exception (m bit : Nat) (s : State) : I.Holds (exception m bit s) ↔ I.Holds s := by simp [exception]

@[simp] theorem holds_backlog (m : Nat) (s : State) : I.Holds (backlog m s) ↔ I.Holds s := by simp [backlog]

@[simp] theorem holds_offer (m : Nat) (it : Item) (s : State) : I.Holds (offer m it s) ↔ I.Holds s := by simp [offer]

@[simp] theorem holds_freeBuffer (ms : List Nat) (s : State) : I.Holds (freeBuffer ms s) ↔ I.Holds s := by
  unfold freeBuffer
  split
  · rfl
  · split <;> simp

@[simp] theorem holds_offerAll (src : FlowSrc) (it : Nat → Item) (s : State) :
    I.Holds (offerAll src it s) ↔ I.Holds s := by simp [offerAll]

@[simp] theorem holds_offerAu (a : AccessUnit) (rate : Nat) (s : State) : I.Holds (offerAu a rate s) ↔ I.Holds s := by simp [offerAu]

@[simp] theorem holds_offerWindow (c i : Nat) (f : Frame) (g : Formed) (s : State) :
    I.Holds (offerWindow c i f g s) ↔ I.Holds s := by simp [offerWindow]

@[simp] theorem holds_offerDecoded (h : Nat) (s : State) : I.Holds (offerDecoded h s) ↔ I.Holds s := by
  unfold offerDecoded
  simp only
  split
  · rfl
  · simp

@[simp] theorem holds_offerRaw (c : Nat) (f : Frame) (s : State) : I.Holds (offerRaw c f s) ↔ I.Holds s := by
  unfold offerRaw
  split <;> simp

@[simp] theorem holds_settleFlow (m : Nat) (s : State) : I.Holds (settleFlow m s) ↔ I.Holds s := by simp [settleFlow]

@[simp] theorem holds_stopFlow (m : Nat) (s : State) : I.Holds (stopFlow m s) ↔ I.Holds s := by simp [stopFlow]

@[simp] theorem holds_abandon (m counter : Nat) (s : State) : I.Holds (abandon m counter s) ↔ I.Holds s := by simp [abandon]

@[simp] theorem holds_stopHost (f : Nat) (s : State) : I.Holds (stopHost f s) ↔ I.Holds s := by simp [stopHost]

@[simp] theorem holds_dequeue (p m : Nat) (it : Item) (pk : Packet) (l : Nat) (s : State) :
    I.Holds (dequeue p m it pk l s).1 ↔ I.Holds s := by simp [dequeue]

@[simp] theorem holds_packetDequeue (p : Nat) (s : State) : I.Holds (packetDequeue p s) ↔ I.Holds s := by
  unfold packetDequeue
  split
  · rfl
  · split
    · rfl
    · split <;> simp

@[simp] theorem holds_countPacket (m n : Nat) (pkt au : Bool) (s : State) :
    I.Holds (countPacket m n pkt au s) ↔ I.Holds s := by simp [countPacket]

@[simp] theorem holds_itemGone (m counter : Nat) (s : State) : I.Holds (itemGone m counter s) ↔ I.Holds s := by simp [itemGone]

@[simp] theorem holds_macDone (p : Nat) (g : Staged) (s : State) : I.Holds (macDone p g s) ↔ I.Holds s := by simp [macDone]

@[simp] theorem holds_hostDone (g : Staged) (ok : Bool) (s : State) : I.Holds (hostDone g ok s) ↔ I.Holds s := by
  unfold hostDone
  simp only
  split
  · rfl
  · simp

@[simp] theorem holds_packetTxComplete (p : Nat) (ok : Bool) (s0 : State) : I.Holds (packetTxComplete p ok s0) ↔ I.Holds s0 := by
  unfold packetTxComplete
  split <;> simp

@[simp] theorem holds_calendarSlot (p : Nat) (s0 : State) : I.Holds (calendarSlot p s0) ↔ I.Holds s0 := by simp [calendarSlot]

@[simp] theorem holds_ringPoll (m : Nat) (ok : Bool) (addr blen : Nat) (ctrl : Word) (s : State) :
    I.Holds (ringPoll m ok addr blen ctrl s) ↔ I.Holds s := by
  have polled : I.Holds (match (s.flow m).pollAt with | some t => advanceElapsed t s | none => s) ↔ I.Holds s := by split <;> simp
  unfold ringPoll
  simp only
  split
  · rfl
  · split
    · rfl
    · split
      · exact (holds_exception ..).trans polled
      · split
        · exact (holds_when _ (holds_exception m 0) _).trans polled
        · exact polled

@[simp] theorem holds_startTx (p : Nat) (s : State) : I.Holds (startTx p s) ↔ I.Holds s := by
  unfold startTx
  simp only
  split
  · split <;> simp
  · rfl

@[simp] theorem holds_txFrameDue (m : Nat) (s0 : State) : I.Holds (txFrameDue m s0) ↔ I.Holds s0 := by
  unfold txFrameDue
  split <;> simp

@[simp] theorem holds_txFrameSent (p : Nat) (s : State) : I.Holds (txFrameSent p s) ↔ I.Holds s := by
  unfold txFrameSent
  split
  · rfl
  · simp only
    split <;> simp

@[simp] theorem holds_flowSample (i : Nat) (s0 : State) : I.Holds (flowSample i s0) ↔ I.Holds s0 := by simp [flowSample]

/-! ### Flows -/

@[simp] theorem holds_putRoute (m : Nat) (n : FlowCfg) (s : State) : I.Holds (putRoute m n s) ↔ I.Holds s := by
  unfold putRoute
  split <;> simp

@[simp] theorem holds_stepStart (m : Nat) (s : State) : I.Holds (stepStart m s) ↔ I.Holds s := by simp [stepStart]

@[simp] theorem holds_newContext (m mode : Nat) (s : State) : I.Holds (newContext m mode s) ↔ I.Holds s := by simp [newContext]

@[simp] theorem holds_startFlow (m : Nat) (s : State) : I.Holds (startFlow m s) ↔ I.Holds s := by simp [startFlow]

@[simp] theorem holds_putOutput (h : Nat) (n : DecStream) (s : State) : I.Holds (putOutput h n s) ↔ I.Holds s := by simp [putOutput]

/-! ### Camera heads -/

@[simp] theorem holds_busRun (b : Nat) (s : State) : I.Holds (busRun b s) ↔ I.Holds s := by
  unfold busRun
  split
  · rfl
  · split
    · rfl
    · split <;> rfl

@[simp] theorem holds_busSend (c : Nat) (x : BusXfer) (s : State) : I.Holds (busSend c x s) ↔ I.Holds s := by
  unfold busSend
  split <;> simp

@[simp] theorem holds_dropXfers (drop : BusXfer → Bool) (s : State) : I.Holds (dropXfers drop s) ↔ I.Holds s := by simp [dropXfers]

@[simp] theorem holds_modCheck (c : Nat) (g : Check → Check) (s : State) : I.Holds (modCheck c g s) ↔ I.Holds s := by simp [modCheck]

@[simp] theorem holds_addCheck (c : Nat) (why : CheckWhy) (s : State) : I.Holds (addCheck c why s) ↔ I.Holds s := by simp [addCheck]

@[simp] theorem holds_addAuto (c : Nat) (s : State) : I.Holds (addAuto c s) ↔ I.Holds s := by simp [addAuto]

@[simp] theorem holds_sendChallenge (c : Nat) (s : State) : I.Holds (sendChallenge c s) ↔ I.Holds s := by
  unfold sendChallenge
  split
  · simp
  · split
    · next hn => simp [holds_takeEntropy hn]
    · simp

@[simp] theorem holds_endCheck (c : Nat) (s : State) : I.Holds (endCheck c s) ↔ I.Holds s := by simp [endCheck]

@[simp] theorem holds_answerCheck (w : CheckWhy) (st : Byte) {s : State} (hs : I.Holds s) : I.Holds (answerCheck w st s) := by
  cases w with
  | idGet f tag | pair f tag =>
    simp only [answerCheck]
    split <;> simp [hs]
  | push | auto => exact hs

@[simp] theorem holds_readSlot (c k : Nat) (s : State) : I.Holds (readSlot c k s) ↔ I.Holds s := by simp [readSlot]

@[simp] theorem holds_writeKey (c : Nat) (s : State) : I.Holds (writeKey c s) ↔ I.Holds s := by simp [writeKey]

@[simp] theorem holds_writeLife (c : Nat) (s : State) : I.Holds (writeLife c s) ↔ I.Holds s := by
  unfold writeLife
  split
  · next hn => simp [holds_takeEntropy hn]
  · simp

@[simp] theorem holds_pairCommit (c f : Nat) (tag : BitVec 16) (k : Check) {s : State} (hs : I.Holds s) :
    I.Holds (pairCommit c f tag k s) := by
  unfold pairCommit
  split <;> simp [hs]

@[simp] theorem holds_pushFailed (c : Nat) (s : State) : I.Holds (pushFailed c s) ↔ I.Holds s := by simp [pushFailed]

@[simp] theorem holds_afterKey (c : Nat) (k : Check) (s : State) : I.Holds (afterKey c k s) ↔ I.Holds s := by simp [afterKey]

@[simp] theorem holds_afterLife (c : Nat) (k : Check) (s : State) : I.Holds (afterLife c k s) ↔ I.Holds s := by
  unfold afterLife
  split <;> simp

@[simp] theorem holds_raiseWear (c : Nat) (s : State) : I.Holds (raiseWear c s) ↔ I.Holds s := by
  unfold raiseWear
  split <;> simp

@[simp] theorem holds_afterSlots (c : Nat) (k : Check) (s : State) : I.Holds (afterSlots c k s) ↔ I.Holds s := by
  unfold afterSlots
  split <;> simp

@[simp] theorem holds_headAdvance (c : Nat) (ok : Bool) (got : List Byte) {s : State} (hs : I.Holds s) : I.Holds (headAdvance c ok got s) := by
  unfold headAdvance
  split
  · exact hs
  · next k _ =>
    cases k.step with
    | keyWrite | waitKey => cases k.why <;> simp [hs]
    | _ => simp [hs]

theorem holds_checkWindow {s t : State} (h : checkWindow s = some t) : I.Holds t ↔ I.Holds s := by
  unfold checkWindow at h
  split at h
  · cases h; rfl
  · simp only at h
    split at h
    · cases h; simp
    · cases h

@[simp] theorem holds_pollDone (c : Nat) (k : Check) (ok : Bool) (got : List Byte) {s : State} (hs : I.Holds s) :
    I.Holds (pollDone c k ok got s) := by simp [pollDone, hs]

@[simp] theorem holds_countFailure (c : Nat) (s : State) : I.Holds (countFailure c s) ↔ I.Holds s := by simp [countFailure]

@[simp] theorem holds_countMinute (c : Nat) (temp : Option Int) (s : State) :
    I.Holds (countMinute c temp s) ↔ I.Holds s := by simp [countMinute]

@[simp] theorem holds_xferDone (x : BusXfer) (ok : Bool) {s : State} (hs : I.Holds s) : I.Holds (xferDone x ok s) := by
  unfold xferDone
  split
  · split <;> simp [hs]
  · split <;> simp [hs]
  · simp [hs]
  · exact hs

@[simp] theorem holds_busShift (b : Nat) (y : BusXfer) (s : State) : I.Holds (busShift b y s) ↔ I.Holds s := by simp [busShift]

@[simp] theorem holds_transactionEnds (b : Nat) (x : BusXfer) (r : BusResult) {s : State} (hs : I.Holds s) :
    I.Holds (transactionEnds b x r s) := by
  unfold transactionEnds
  split <;> simp [hs]

@[simp] theorem holds_markBind (c : Nat) (s : State) : I.Holds (markBind c s) ↔ I.Holds s := by simp [markBind]

@[simp] theorem holds_discardReferences (c : Nat) (s : State) : I.Holds (discardReferences c s) ↔ I.Holds s := by simp [discardReferences]

@[simp] theorem holds_freeHead (c : Nat) (s : State) : I.Holds (freeHead c s) ↔ I.Holds s := by simp [freeHead]

@[simp] theorem holds_unpairEffects (c : Nat) (s : State) : I.Holds (unpairEffects c s) ↔ I.Holds s := by simp [unpairEffects]

@[simp] theorem holds_headChange (c : Nat) (s : State) : I.Holds (headChange c s) ↔ I.Holds s := by
  unfold headChange
  split <;> simp

@[simp] theorem holds_swapEffects (c : Nat) (s : State) : I.Holds (swapEffects c s) ↔ I.Holds s := by simp [swapEffects]

@[simp] theorem holds_judge (c : Nat) (k : Check) (s0 : State) : I.Holds (judge c k s0) ↔ I.Holds s0 := by simp [judge]

@[simp] theorem holds_afterJudge (c : Nat) (k : Check) (timedOut first : Bool) {s : State} (hs : I.Holds s) :
    I.Holds (afterJudge c k timedOut first s) := by
  unfold afterJudge
  simp only
  split
  · simp only [holds_ite, holds_readSlot, holds_afterLife, holds_modCheck, holds_endCheck, ite_self]
    split <;> simp [hs]
  all_goals simp [hs]

@[simp] theorem holds_checkOnStart (c : Nat) (s : State) : I.Holds (checkOnStart c s) ↔ I.Holds s := by simp [checkOnStart]

@[simp] theorem holds_readTemp (c : Nat) (minute : Bool) (s : State) : I.Holds (readTemp c minute s) ↔ I.Holds s := by simp [readTemp]

@[simp] theorem holds_applyPairing (c : Nat) (s : State) : I.Holds (applyPairing c s) ↔ I.Holds s := by
  unfold applyPairing
  split <;> simp

@[simp] theorem holds_reattach (c : Nat) (a : Attach) (s : State) : I.Holds (reattach c a s) ↔ I.Holds s := by simp [reattach]

@[simp] theorem holds_cancelHead (c f : Nat) (tag : BitVec 16) (s : State) :
    I.Holds (cancelHead c f tag s) ↔ I.Holds s := by simp [cancelHead]

/-! ### Start of a channel -/

@[simp] theorem holds_startChan (c : Nat) (s : State) : I.Holds (startChan c s) ↔ I.Holds s := by simp [startChan]

/-! ### Mailboxes and registers -/

@[simp] theorem holds_completeRead (f : Nat) (v : Word) (s : State) : I.Holds (completeRead f v s) ↔ I.Holds s := by simp [completeRead]

@[simp] theorem holds_readTimeLo (f : Nat) (s : State) : I.Holds (readTimeLo f s) ↔ I.Holds s := by simp [readTimeLo]

@[simp] theorem holds_readPtmSeq (f : Nat) (s : State) : I.Holds (readPtmSeq f s) ↔ I.Holds s := by simp [readPtmSeq]

@[simp] theorem holds_pushRequest (f : Nat) (e : Entry) {s : State} (hs : I.Holds s) : I.Holds (pushRequest f e s) := by
  refine hs.modFn fun h => ?_
  split
  · next hroom => exact ofFn_push h hroom _
  · exact (ofFn_update ..).mpr h

@[simp] theorem holds_popResponse (f : Nat) (s : State) : I.Holds (popResponse f s) ↔ I.Holds s := by simp [popResponse]

@[simp] theorem holds_writeMbxCtrl (f : Nat) (value : Word) (s : State) :
    I.Holds (writeMbxCtrl f value s) ↔ I.Holds s := by simp [writeMbxCtrl]

@[simp] theorem holds_acknowledge (f : Nat) (s : State) : I.Holds (acknowledge f s) ↔ I.Holds s := by
  unfold acknowledge
  split <;> simp

@[simp] theorem holds_endOfInterrupt (f : Nat) (s : State) : I.Holds (endOfInterrupt f s) ↔ I.Holds s := by
  unfold endOfInterrupt
  split <;> simp

@[simp] theorem holds_writeSrcCfg (f : Nat) (value : Word) (s : State) :
    I.Holds (writeSrcCfg f value s) ↔ I.Holds s := by simp [writeSrcCfg]

@[simp] theorem holds_writeSrcCause (f : Nat) (value : Word) (s : State) :
    I.Holds (writeSrcCause f value s) ↔ I.Holds s := by simp [writeSrcCause]

@[simp] theorem holds_writeIrqCtrl (f : Nat) (value : Word) (s : State) :
    I.Holds (writeIrqCtrl f value s) ↔ I.Holds s := by simp [writeIrqCtrl]

@[simp] theorem holds_writeOther (f off : Nat) (value : Word) (s : State) :
    I.Holds (writeOther f off value s) ↔ I.Holds s := by simp [writeOther]

@[simp] theorem holds_unmask (f v : Nat) (s : State) : I.Holds (unmask f v s) ↔ I.Holds s := by simp [unmask]

@[simp] theorem holds_promoteDue (s : State) : I.Holds (promoteDue s) ↔ I.Holds s := by simp [promoteDue]

@[simp] theorem holds_foldAges (s : State) : I.Holds (foldAges s) ↔ I.Holds s := by simp [foldAges]

/-! ### Memory -/

@[simp] theorem holds_lastError (i : Nat) (m : Master) (a kind : Nat) (s : State) :
    I.Holds (lastError i m a kind s) ↔ I.Holds s := by simp [lastError]

@[simp] theorem holds_eccFound (i : Nat) (m : Master) (sector : Nat) (e : EccFinding) (s : State) :
    I.Holds (eccFound i m sector e s) ↔ I.Holds s := by
  unfold eccFound
  split <;> simp

@[simp] theorem holds_tagFailed (i : Nat) (m : Master) (line : Nat) (s : State) :
    I.Holds (tagFailed i m line s) ↔ I.Holds s := by simp [tagFailed]

@[simp] theorem holds_degrade (s : State) : I.Holds (degrade s) ↔ I.Holds s := by simp [degrade]

@[simp] theorem holds_completeJob (j : MeterJob) (s : State) : I.Holds (completeJob j s) ↔ I.Holds s := by
  unfold completeJob
  split <;> simp

@[simp] theorem holds_raiseOverrun (j : MeterJob) (s : State) : I.Holds (raiseOverrun j s) ↔ I.Holds s := by
  unfold raiseOverrun
  split <;> simp

@[simp] theorem holds_engineFault (j : MeterJob) (s : State) : I.Holds (engineFault j s) ↔ I.Holds s := by simp [engineFault]

@[simp] theorem holds_poisonRead (i : Nat) (c : Chunk) (sectors : List Nat) (s : State) :
    I.Holds (poisonRead i c sectors s) ↔ I.Holds s := by
  unfold poisonRead
  split <;> simp

@[simp] theorem holds_errorCompletion (i : Nat) (c : Chunk) (sectors : List Nat) (s : State) :
    I.Holds (errorCompletion i c sectors s) ↔ I.Holds s := by
  unfold errorCompletion
  split <;> simp

@[simp] theorem holds_openRow (i a : Nat) (s : State) : I.Holds (openRow i a s) ↔ I.Holds s := by simp [openRow]

@[simp] theorem holds_checkSectors (i : Nat) (c : Chunk) (secs : List Nat) (s : State) :
    I.Holds (checkSectors i c secs s) ↔ I.Holds s := by simp [checkSectors]

@[simp] theorem holds_readRange (i : Nat) (c : Chunk) (a len : Nat) (s : State) :
    I.Holds (readRange i c a len s) ↔ I.Holds s := by simp [readRange]

@[simp] theorem holds_bufferWrite (i a : Nat) (bs : List Byte) (s : State) :
    I.Holds (bufferWrite i a bs s) ↔ I.Holds s := by simp [bufferWrite]

@[simp] theorem holds_setTag (i line : Nat) (tag : List Byte) (s : State) : I.Holds (setTag i line tag s) ↔ I.Holds s := by simp [setTag]

@[simp] theorem holds_unpoison (i : Nat) (secs : List Nat) (s : State) : I.Holds (unpoison i secs s) ↔ I.Holds s := by simp [unpoison]

@[simp] theorem holds_ordinaryWrite (i : Nat) (c : Chunk) (a : Nat) (bs : List Byte) (s : State) :
    I.Holds (ordinaryWrite i c a bs s) ↔ I.Holds s := by
  unfold ordinaryWrite
  simp only
  split <;> simp

@[simp] theorem holds_sealedWrite (i : Nat) (c : Chunk) (a : Nat) (bs : List Byte) (s : State) :
    I.Holds (sealedWrite i c a bs s) ↔ I.Holds s := by simp [sealedWrite]

@[simp] theorem holds_realTime (i : Nat) (c : Chunk) (s : State) : I.Holds (realTime i c s) ↔ I.Holds s := by
  have waited : I.Holds (modDmc i (fun d => { d with maxWait := max d.maxWait (min 65535 c.waited) }) s) ↔ I.Holds s := by simp
  unfold realTime
  simp only
  split
  · exact (holds_modRx ..).trans ((holds_update ..).trans waited)
  · exact waited

@[simp] theorem holds_drainEntry (i : Nat) {s : State} (hs : I.Holds s) : I.Holds (drainEntry i s) := by
  unfold drainEntry
  split
  · exact hs
  · exact ((holds_openRow ..).mpr hs).modDmc fun h => h.change memWrite_wf fun _ => id

@[simp] theorem holds_makeRoom (i n : Nat) {s : State} (hs : I.Holds s) : I.Holds (makeRoom i n s) :=
  hs.forEach _ fun _ _ h => holds_drainEntry i h

@[simp] theorem holds_chunkDone (i : Nat) (c : Chunk) {s : State} (hs : I.Holds s) : I.Holds (chunkDone i c s) := by
  unfold chunkDone
  simp only
  split
  · simp [hs]
  · next data _ =>
    split
    · have opened := (holds_openRow i c.addr s).mpr hs
      have written := opened.modDmc (d := i) (g := fun d => { d with memory := memWrite c.addr data d.memory }) fun h =>
        h.change memWrite_wf fun _ => id
      simpa using written
    · simp [hs]
  · exact holds_drainEntry i hs

@[simp] theorem holds_modMem (i ch : Nat) {g : MemChan → MemChan} (h : ∀ m, (g m).debt = m.debt) (s : State) :
    I.Holds (modMem i ch g s) ↔ I.Holds s := by simp [modMem, h]

/-- R401. A refresh less is owed. -/
@[simp] theorem holds_refreshOnce (i ch : Nat) {s : State} (hs : I.Holds s) : I.Holds (refreshOnce i ch s) :=
  hs.modDmc fun h => h.change id fun c hc => by
    rw [tget_tmod]
    split
    · exact Nat.le_trans (Nat.sub_le _ 1) hc
    · exact hc

@[simp] theorem holds_tamperBuffers {s : State} (hs : I.Holds s) : I.Holds (tamperBuffers s) :=
  hs.forEach _ fun _ _ ht => ht.modDmc fun h => h.change (drain_wf _) fun _ => id

/-! ### The ledger and the pools -/

@[simp] theorem holds_withBooks (b : Books) (s : State) : I.Holds (withBooks b s) ↔ I.Holds s := by simp [withBooks]

@[simp] theorem holds_ledgerTick (k : Nat) (s : State) : I.Holds (ledgerTick k s) ↔ I.Holds s := by simp [ledgerTick]

@[simp] theorem holds_metersTick (s : State) : I.Holds (metersTick s) ↔ I.Holds s := by simp [metersTick]

/-! ### Sequencers -/

@[simp] theorem holds_loadImage (cls : Nat) (vendor : Bool) (im : Image) (s : State) :
    I.Holds (loadImage cls vendor im s) ↔ I.Holds s := by simp [loadImage]

@[simp] theorem holds_applyPatch (cls : Nat) (vendor : Bool) (p : Patch) (s : State) :
    I.Holds (applyPatch cls vendor p s) ↔ I.Holds s := by simp [applyPatch]

@[simp] theorem holds_finishLoad (c : Ctx) (s : State) : I.Holds (finishLoad c s).2 ↔ I.Holds s := by simp [finishLoad]

@[simp] theorem holds_meterExpiry (j : MeterJob) (undone : Nat) (s : State) : I.Holds (meterExpiry j undone s) ↔ I.Holds s := by
  cases j with
  | pipe c =>
    simp only [meterExpiry]
    split <;> simp
  | enc c st => simp [meterExpiry]
  | itp c st => simp [meterExpiry]
  | dec h => simp [meterExpiry]

@[simp] theorem holds_seqStopped (q pc reason : Nat) (s : State) : I.Holds (seqStopped q pc reason s) ↔ I.Holds s := by
  have job : I.Holds (match jobOn s q with
      | some j => if jobRuns s j then completeJob j s else s
      | none => s) ↔ I.Holds s := by split <;> simp
  unfold seqStopped
  simp only
  split
  · split
    · exact (holds_modCls ..).trans ((holds_modSeq ..).trans job)
    · exact (holds_modSeq ..).trans job
  · exact (holds_assertFaultN ..).trans ((holds_modSeq ..).trans ((holds_modSeq ..).trans job))

@[simp] theorem holds_seqWatchdog (q pc : Nat) (why : SeqWhy) (s : State) : I.Holds (seqWatchdog q pc why s) ↔ I.Holds s := by
  unfold seqWatchdog
  split <;> simp

@[simp] theorem holds_disableFailing (s : State) : I.Holds (disableFailing s) ↔ I.Holds s := by simp [disableFailing]

/-! ### Power -/

@[simp] theorem holds_setRail (r mv : Nat) (s : State) : I.Holds (setRail r mv s) ↔ I.Holds s := by simp [setRail]

@[simp] theorem holds_setVoltage (d : Nat) (s : State) : I.Holds (setVoltage d s) ↔ I.Holds s := by
  unfold setVoltage
  split <;> simp

@[simp] theorem holds_setSat (d : Nat) (sat : Bool) (s : State) : I.Holds (setSat d sat s) ↔ I.Holds s := by simp [setSat]

@[simp] theorem holds_avsUpdate (d computed : Nat) (s : State) : I.Holds (avsUpdate d computed s) ↔ I.Holds s := by simp [avsUpdate]

@[simp] theorem holds_loseRail (r : Nat) (s : State) : I.Holds (loseRail r s) ↔ I.Holds s := by simp [loseRail]

@[simp] theorem holds_railPoll (r : Nat) (ack : Bool) (status iout : Nat) (s : State) :
    I.Holds (railPoll r ack status iout s) ↔ I.Holds s := by simp [railPoll]

@[simp] theorem holds_thermalTrip (s : State) : I.Holds (thermalTrip s) ↔ I.Holds s := by simp [thermalTrip]

@[simp] theorem holds_thermal (tj : Int) (s : State) : I.Holds (thermal tj s) ↔ I.Holds s := by simp [thermal]

@[simp] theorem holds_thermalInReset (tj : Int) (s : State) : I.Holds (thermalInReset tj s) ↔ I.Holds s := by simp [thermalInReset]

@[simp] theorem holds_dvfsSet (d level vreq : Nat) (s : State) : I.Holds (dvfsSet d level vreq s).2 ↔ I.Holds s := by
  unfold dvfsSet
  split <;> simp

@[simp] theorem holds_levelTick (s : State) : I.Holds (levelTick s) ↔ I.Holds s := by simp [levelTick]

@[simp] theorem holds_beginPower (d : Nat) (s : State) : I.Holds (beginPower d s) ↔ I.Holds s := by simp [beginPower]

@[simp] theorem holds_rampFailed (d : Nat) (s : State) : I.Holds (rampFailed d s) ↔ I.Holds s := by simp [rampFailed]

@[simp] theorem holds_powerUp (d : Nat) (s : State) : I.Holds (powerUp d s) ↔ I.Holds s := by simp [powerUp]

@[simp] theorem holds_gate (d : Nat) (s : State) : I.Holds (gate d s) ↔ I.Holds s := by simp [gate]

@[simp] theorem holds_srFinish {s : State} (hs : I.Holds s) : I.Holds (srFinish s) :=
  hs.forEach _ fun x t h => by split <;> simp [h]

@[simp] theorem holds_enterSelfRefresh (i : Nat) {s : State} (hs : I.Holds s) : I.Holds (enterSelfRefresh i s) :=
  (holds_raise ..).mpr (hs.modDmc fun h => h.change (drain_wf _) fun c _ => debt_paid _ (fun _ => rfl) c)

/-! ### Time -/

@[simp] theorem holds_loadBase (b : Nat) (ptp : Bool) (s0 : State) : I.Holds (loadBase b ptp s0) ↔ I.Holds s0 := by simp [loadBase]

@[simp] theorem holds_baseNow (c : Ctx) (s : State) : I.Holds (baseNow c s).2 ↔ I.Holds s := by
  simp [baseNow]

@[simp] theorem holds_steer (s : State) : I.Holds (steer s) ↔ I.Holds s := by simp [steer]

@[simp] theorem holds_missPulse (s : State) : I.Holds (missPulse s) ↔ I.Holds s := by simp [missPulse]

@[simp] theorem holds_goodPulse (s : State) : I.Holds (goodPulse s) ↔ I.Holds s := by
  unfold goodPulse
  simp only
  split <;> simp

@[simp] theorem holds_missAll (n : Nat) (s : State) : I.Holds (missAll n s) ↔ I.Holds s := by
  induction n generalizing s with
  | zero => rfl
  | succ n ih => rw [missAll, ih, holds_missPulse]

@[simp] theorem holds_loadAtPulse {s : State} (hs : I.Holds s) : I.Holds (loadAtPulse s) := by
  refine hs.forEach _ fun x t ht => ?_
  have h := (holds_baseNow (x.ctx .timeSetBase) t).mpr ht
  split
  · next e => rw [e] at h; exact holds_finish _ _ _ h
  · next e => rw [e] at h; exact h

@[simp] theorem holds_sendGptp (port kind seq : Nat) (fields : List Int) (s : State) :
    I.Holds (sendGptp port kind seq fields s) ↔ I.Holds s := by simp [sendGptp]

@[simp] theorem holds_modPdelay (p : Nat) (g : PeerDelay → PeerDelay) (s : State) :
    I.Holds (modPdelay p g s) ↔ I.Holds s := by simp [modPdelay]

@[simp] theorem holds_modGptp (p : Nat) (g : Nat × Nat × Nat → Nat × Nat × Nat) (s : State) :
    I.Holds (modGptp p g s) ↔ I.Holds s := by simp [modGptp]

@[simp] theorem holds_toDialogue (s : State) : I.Holds (toDialogue s) ↔ I.Holds s := by
  unfold toDialogue
  split <;> simp

/-! ### Roles and updates -/

@[simp] theorem holds_setCredential (r slot : Nat) (k : Option (List Byte)) (s : State) :
    I.Holds (setCredential r slot k s) ↔ I.Holds s := by simp [setCredential]

@[simp] theorem holds_closeSessions (p : Session → Bool) (s : State) : I.Holds (closeSessions p s) ↔ I.Holds s := by simp [closeSessions]

@[simp] theorem holds_issueChallenge (c : Ctx) (nonce : List Byte) (s : State) :
    I.Holds (issueChallenge c nonce s) ↔ I.Holds s := by simp [issueChallenge]

@[simp] theorem holds_openSession (c : Ctx) (ch : Option Challenge) (s : State) : I.Holds (openSession c ch s).2 ↔ I.Holds s := by
  simp [openSession]

@[simp] theorem holds_storeCounter (v : Nat) (s : State) : I.Holds (storeCounter v s) ↔ I.Holds s := by
  unfold storeCounter
  split <;> rfl

@[simp] theorem holds_enrolCommit (u : Update) (s : State) : I.Holds (enrolCommit u s) ↔ I.Holds s := by simp [enrolCommit]

@[simp] theorem holds_orphanFlow (m : Nat) (s : State) : I.Holds (orphanFlow m s) ↔ I.Holds s := by simp [orphanFlow]

@[simp] theorem holds_installKey (u : Update) (k : List Byte) (s : State) : I.Holds (installKey u k s) ↔ I.Holds s := by simp [installKey]

@[simp] theorem holds_applyUpdate (u : Update) (s : State) : I.Holds (applyUpdate u s) ↔ I.Holds s := by simp [applyUpdate]

@[simp] theorem holds_commitUpdate (c : Ctx) (u : Update) (s : State) : I.Holds (commitUpdate c u s) ↔ I.Holds s := by simp [commitUpdate]

@[simp] theorem holds_updateRead (c : Ctx) (s : State) : I.Holds (updateRead c s).2 ↔ I.Holds s := by
  unfold updateRead
  simp only
  split
  · rfl
  · split <;> simp

@[simp] theorem holds_signDraw (s : State) : I.Holds (signDraw s).2 ↔ I.Holds s := by simp [signDraw]

@[simp] theorem holds_signNow (c : Ctx) (nonce : List Byte) (s : State) : I.Holds (signNow c nonce s).2 ↔ I.Holds s := by
  simp [signNow]

/-! ### The key vault -/

@[simp] theorem holds_invalidate (n : Nat) (s : State) : I.Holds (invalidate n s) ↔ I.Holds s := by simp [invalidate]

@[simp] theorem holds_eraseImported (s : State) : I.Holds (eraseImported s) ↔ I.Holds s := by simp [eraseImported]

@[simp] theorem holds_discardEncrypted (m : Nat) (s : State) : I.Holds (discardEncrypted m s) ↔ I.Holds s := by simp [discardEncrypted]

@[simp] theorem holds_tamper {s : State} (hs : I.Holds s) : I.Holds (tamper s) := by simp [tamper, hs]

@[simp] theorem holds_failEntropy {s : State} (hs : I.Holds s) : I.Holds (failEntropy s) :=
  (holds_forEach _ (fun c t => by split <;> simp) _).mpr (hs.forEach _ fun x _ ht => holds_finish x _ _ ht)

@[simp] theorem holds_healthFail {s : State} (hs : I.Holds s) : I.Holds (healthFail s) := by simp [healthFail, hs]

/-! ### The block as a whole -/

@[simp] theorem holds_abandonDeferred (x : ExecEntry) (s : State) : I.Holds (abandonDeferred x s) ↔ I.Holds s := by
  unfold abandonDeferred
  split
  · simp only
    split <;> simp
  · rfl

@[simp] theorem holds_updateChanWindow (c : Nat) (s : State) : I.Holds (updateChanWindow c s) ↔ I.Holds s := by simp [updateChanWindow]

@[simp] theorem holds_snapFlows (s : State) : I.Holds (snapFlows s) ↔ I.Holds s := by simp [snapFlows]

@[simp] theorem holds_reassert (s : State) : I.Holds (reassert s) ↔ I.Holds s := by simp [reassert]

@[simp] theorem holds_reassertStopped (s : State) : I.Holds (reassertStopped s) ↔ I.Holds s := by simp [reassertStopped]

@[simp] theorem holds_resetFunction (f : Nat) {s : State} (hs : I.Holds s) : I.Holds (resetFunction f s) := by
  refine (holds_resetTarget ..).mpr (Invariant.Holds.modFn ((holds_update ..).mpr hs) fun _ => ?_)
  exact ofFn_empty rfl rfl

@[simp] theorem holds_leaveFunction (f : Nat) {s : State} (hs : I.Holds s) : I.Holds (leaveFunction f s) := by simp [leaveFunction, hs]

@[simp] theorem holds_functionReset (f : Nat) {s : State} (hs : I.Holds s) : I.Holds (functionReset f s) := by
  unfold functionReset
  split
  · exact (holds_update ..).mpr ((holds_resetFunction 0 hs).forEach _ fun _ _ h => holds_leaveFunction _ h)
  · exact holds_resetFunction f hs

@[simp] theorem holds_vfChange (n : Nat) (en : Bool) {s : State} (hs : I.Holds s) : I.Holds (vfChange n en s) :=
  (holds_update ..).mpr (hs.forEach _ fun _ _ h => holds_leaveFunction _ h)

/-! ### Reset and bring-up -/

theorem ofDmc_reset (d : Nat) : I.OfDmc (State.reset.dmcN d) := by
  by_cases hd : d < 2
  · rw [show State.reset.dmcN d = _ from tget_replicate _ hd]
    exact ofDmc_empty rfl ⟨_, rfl, rfl⟩
  · rw [show State.reset.dmcN d = default from tget_beyond _ (Nat.le_of_not_lt hd)]
    exact ofDmc_empty rfl ⟨default, rfl, rfl⟩

theorem ofFn_reset (f : Nat) : I.OfFn (State.reset.fn f) := by
  by_cases hf : f < 16
  · rw [show State.reset.fn f = Fn.reset from tget_replicate _ hf]
    exact ofFn_empty rfl rfl
  · rw [show State.reset.fn f = default from tget_beyond _ (Nat.le_of_not_lt hf)]
    exact ofFn_empty rfl rfl

/-- R83, R90, R394, R402. The machine right after reset meets every invariant. -/
theorem holds_reset : I.Holds State.reset := ⟨ofDmc_reset, ofFn_reset⟩

/-- R529, R552. A full reset leaves the controllers and the mailboxes of a reset. -/
@[simp] theorem holds_resetState (t : ResetTrigger) (s : State) : I.Holds (resetState t s) := by
  unfold resetState
  generalize forEach _ applyPairing s = p
  exact ⟨ofDmc_reset, ofFn_reset⟩

@[simp] theorem holds_beginReset (t : ResetTrigger) (s : State) : I.Holds (beginReset t s) := by simp [beginReset]

@[simp] theorem holds_failBoot (code : Nat) (s : State) : I.Holds (failBoot code s) ↔ I.Holds s := by simp [failBoot]

@[simp] theorem holds_bootNode (first : Bool) (n : Nat) (s : State) : I.Holds (bootNode first n s) ↔ I.Holds s := by simp [bootNode]

@[simp] theorem holds_bootTarn (root noise : List Byte) (s : State) : I.Holds (bootTarn root noise s) ↔ I.Holds s := by simp [bootTarn]

@[simp] theorem holds_releaseTrip (s : State) : I.Holds (releaseTrip s) ↔ I.Holds s := by simp [releaseTrip]

/-- R469, R582. Fitted by the board record, a controller holds what it holds after reset. -/
theorem ofDmc_bootDmc (s : State) (b : BoardRecord) (i : Nat) : I.OfDmc (bootDmc s b i) := by
  unfold bootDmc
  simp only [ofDmc_ite, ofDmc_update]
  split <;> exact ofDmc_reset i

/-- R537. The controllers of the board record take the place of those of reset. -/
@[simp] theorem holds_bootStart (puf : PufRead) {s : State} (hs : I.Holds s) : I.Holds (bootStart puf s) := by
  have fitted (t : State) (ht : ∀ f, I.OfFn (t.fn f)) (b : BoardRecord) :
      I.Holds { t with dmc := Vector.ofFn fun i => bootDmc s b i.val } := by
    refine ⟨fun d => ?_, ht⟩
    by_cases hd : d < 2
    · rw [State.dmcN, tget_ofFn _ hd]
      exact ofDmc_bootDmc s b d
    · rw [State.dmcN, tget_beyond _ (Nat.le_of_not_lt hd)]
      exact ofDmc_empty rfl ⟨default, rfl, rfl⟩
  unfold bootStart
  simp only
  split
  · exact (holds_bootTarn ..).mpr (fitted _ hs.2 _)
  · exact (holds_modTarn ..).mpr (fitted _ hs.2 _)

@[simp] theorem holds_release (straps : Straps) (puf : PufRead) {s : State} (hs : I.Holds s) : I.Holds (release straps puf s) := by
  unfold release
  simp only
  split <;> simp [hs]

@[simp] theorem holds_raiseRail (r : Nat) (ok : Bool) (s0 : State) : I.Holds (raiseRail r ok s0) ↔ I.Holds s0 := by simp [raiseRail]

@[simp] theorem holds_bootPool (i : Nat) (s : State) : I.Holds (bootPool i s) ↔ I.Holds s := by simp [bootPool]

@[simp] theorem holds_loadPatches (cls : Nat) (vendor : Bool) (ver n l : Nat) (s : State) :
    I.Holds (loadPatches cls vendor ver n l s) ↔ I.Holds s := by
  induction n generalizing l s with
  | zero => rfl
  | succ n ih =>
    unfold loadPatches
    split
    · simp [ih]
    · rfl

@[simp] theorem holds_loadPersisted (cls : Nat) (vendor : Bool) (s : State) : I.Holds (loadPersisted cls vendor s) ↔ I.Holds s := by
  unfold loadPersisted
  split <;> simp

@[simp] theorem holds_tamperRecord (s : State) : I.Holds (tamperRecord s) ↔ I.Holds s := by simp [tamperRecord]

@[simp] theorem holds_assignAddress (c : Nat) (s : State) : I.Holds (assignAddress c s) ↔ I.Holds s := by
  unfold assignAddress
  split <;> simp

@[simp] theorem holds_restore (k : SavedConfig) (s : State) : I.Holds (restore k s) ↔ I.Holds s := by simp [restore]

@[simp] theorem holds_autoRun (chs fls : List Nat) (s : State) : I.Holds (autoRun chs fls s) ↔ I.Holds s := by simp [autoRun]

@[simp] theorem holds_applyConfig (k : SavedConfig) (s : State) : I.Holds (applyConfig k s) ↔ I.Holds s := by
  unfold applyConfig
  simp only
  split
  · simp
  · split <;> simp

@[simp] theorem holds_defaultPeriod (s : State) : I.Holds (defaultPeriod s) ↔ I.Holds s := by simp [defaultPeriod]

@[simp] theorem holds_goReady (s : State) : I.Holds (goReady s) ↔ I.Holds s := by
  unfold goReady
  split <;> simp

@[simp] theorem holds_autoStart (s : State) : I.Holds (autoStart s) ↔ I.Holds s := by simp [autoStart]

@[simp] theorem holds_autoHeld (k : Nat) (s : State) : I.Holds (autoHeld k s) ↔ I.Holds s := by
  refine holds_forEach _ (fun c t => ?_) s
  simp only
  split
  · simp
  · split
    · split <;> simp
    · rfl

/-! ### Commands of the host -/

/-- R105 step 13. The meaning of a command, as its execution begins. -/
theorem holds_run (o : Op) (c : Ctx) (s : State) : I.Holds (o.behaviour.run c s).2 ↔ I.Holds s := by
  cases o
  case calEnable => simp [Op.behaviour, calEnableB]
  case calPin =>
    have h := holds_calAudited (I := I) 2 c s
    simp only [Op.behaviour, calPinB]
    split
    · rfl
    · split
      · next e => rw [e] at h; simpa using h
      · exact h
  case calUnpin => simp [Op.behaviour, calUnpinB]
  case calReset => simp [Op.behaviour, calResetB]
  case encGeometrySet => simp [Op.behaviour, encGeometrySetB]
  case decFeed => simp [Op.behaviour, decFeedB]
  case decQuery => simp [Op.behaviour, decQueryB]
  case flowAttach => simp [Op.behaviour, flowAttachB]
  case headPair => simp [Op.behaviour, headPairB]
  case headUnpair => simp [Op.behaviour, headUnpairB]
  case headIdGet => simp [Op.behaviour, headIdGetB]
  case headI3cXfer => simp [Op.behaviour, headI3cXferB]
  case memMapQuery => simp [Op.behaviour, memMapQueryB]
  case memPoolQuery => simp [Op.behaviour, memPoolQueryB]
  case memErrQuery => simp [Op.behaviour, memErrQueryB]
  case pwrDvfsSet => simp [Op.behaviour, pwrDvfsSetB]
  case pwrDomainSet => simp [Op.behaviour, pwrDomainSetB]
  case pwrSelfRefresh => simp [Op.behaviour, pwrSelfRefreshB]
  case timeSetBase => simp [Op.behaviour, timeSetBaseB]
  case roleChallenge =>
    simp only [Op.behaviour, roleChallengeB]
    split
    · next e => simp [holds_takeEntropy e]
    · rfl
  case roleOpen =>
    simp only [Op.behaviour, roleOpenB]
    split <;> simp
  case roleClose => simp [Op.behaviour, roleCloseB]
  case roleAuditRead => simp [Op.behaviour, roleAuditReadB]
  case tarnRandom =>
    simp only [Op.behaviour, tarnRandomB]
    split
    · next e => exact holds_takeEntropy e
    · rfl
  case tarnSign => simp [Op.behaviour, tarnSignB]
  case tarnPubkeyGet => simp [Op.behaviour, tarnPubkeyGetB]
  case tarnNodeInvalidate =>
    have h := holds_tickAudited (I := I) 0x40 (le 2 (invalidNode c.q) ++ zeros 2 ++ le 4 (s.tarn.gctr + 1)) c s
    simp only [Op.behaviour, tarnNodeInvalidateB]
    split
    · rfl
    · split
      · next e => rw [e] at h; simpa using h
      · exact h
  case sysReset => simp [Op.behaviour, sysResetB]
  case sysConfigSave => simp [Op.behaviour, sysConfigSaveB]
  all_goals rfl

/-- R118, R414, R444. Its meaning as a wait ends. -/
theorem holds_resume (o : Op) (c : Ctx) (w : Wait) (s : State) : I.Holds (o.behaviour.resume c w s).2 ↔ I.Holds s := by
  cases o
  case chanLutLoad =>
    simp only [Op.behaviour, chanLutLoadB]
    split <;> simp
  case decFeed => simp [Op.behaviour, decFeedB]
  case flowTemplateSet => simp [Op.behaviour, flowTemplateSetB]
  case headPair => simp [Op.behaviour, headPairB]
  case seqImageLoad =>
    simp only [Op.behaviour, seqImageLoadB]
    split
    · split
      · rfl
      · split
        · rfl
        · split <;> simp
    · simp
  case seqPatchApply =>
    simp only [Op.behaviour, seqPatchApplyB]
    split
    · split
      · rfl
      · split
        · rfl
        · split <;> simp
    · simp
  case timeSetBase => simp [Op.behaviour, timeSetBaseB]
  case roleChallenge =>
    simp only [Op.behaviour, roleChallengeB]
    split <;> simp
  case roleOpen => simp [Op.behaviour, roleOpenB]
  case roleUpdate =>
    simp only [Op.behaviour, roleUpdateB]
    split <;> simp
  case tarnRandom =>
    simp only [Op.behaviour, tarnRandomB]
    split <;> rfl
  case tarnSign =>
    simp only [Op.behaviour, tarnSignB]
    split <;> simp
  case sysConfigSave => simp [Op.behaviour, sysConfigSaveB]
  all_goals rfl

/-- R108. Its effect at a boundary. -/
theorem holds_effect (o : Op) (c : Ctx) (s : State) : I.Holds (o.behaviour.effect c s) ↔ I.Holds s := by
  cases o
  case chanPortSet => simp [Op.behaviour, chanPortSetB]
  case chanBind => simp [Op.behaviour, chanBindB]
  case chanStop => simp [Op.behaviour, chanStopB]
  case chanSensorSet => simp [Op.behaviour, chanSensorSetB]
  case chanPipeSet => simp [Op.behaviour, chanPipeSetB]
  case chanLutLoad => simp [Op.behaviour, chanLutLoadB]
  case chanWindowSet => simp [Op.behaviour, chanWindowSetB]
  case chanWindowClear => simp [Op.behaviour, chanWindowClearB]
  case calEnable => simp [Op.behaviour, calEnableB]
  case calPin => simp [Op.behaviour, calPinB]
  case calUnpin => simp [Op.behaviour, calUnpinB]
  case calReset => simp [Op.behaviour, calResetB]
  case encMotionSet => simp [Op.behaviour, encMotionSetB]
  case encGeometrySet => simp [Op.behaviour, encGeometrySetB]
  case decOpen => simp [Op.behaviour, decOpenB]
  case decClose => simp [Op.behaviour, decCloseB]
  case encStreamSet => simp [Op.behaviour, encStreamSetB]
  case encHrdSet => simp [Op.behaviour, encHrdSetB]
  case encRateSet => simp [Op.behaviour, encRateSetB]
  case encQpSet => simp [Op.behaviour, encQpSetB]
  case encRefreshSet => simp [Op.behaviour, encRefreshSetB]
  case encLtrRecover => simp [Op.behaviour, encLtrRecoverB]
  case encForceIdr => simp [Op.behaviour, encForceIdrB]
  case flowRouteSet => simp [Op.behaviour, flowRouteSetB]
  case flowTemplateSet => simp [Op.behaviour, flowTemplateSetB]
  case flowRingSet => simp [Op.behaviour, flowRingSetB]
  case flowRateSet => simp [Op.behaviour, flowRateSetB]
  case flowWeightSet => simp [Op.behaviour, flowWeightSetB]
  case flowCryptSet => simp [Op.behaviour, flowCryptSetB]
  case flowStart => simp [Op.behaviour, flowStartB]
  case flowStop => simp [Op.behaviour, flowStopB]
  case decOutputSet => simp [Op.behaviour, decOutputSetB]
  case headUnpair => simp [Op.behaviour, headUnpairB]
  case headPolicySet => simp [Op.behaviour, headPolicySetB]
  case chanStart => simp [Op.behaviour, chanStartB]
  case seqPatchApply => simp [Op.behaviour, seqPatchApplyB]
  case seqHookSet => simp [Op.behaviour, seqHookSetB]
  case pwrDomainSet => simp [Op.behaviour, pwrDomainSetB]
  case timeTickSet => simp [Op.behaviour, timeTickSetB]
  case timeChanRate => simp [Op.behaviour, timeChanRateB]
  case tarnNodeInvalidate => simp [Op.behaviour, tarnNodeInvalidateB]
  all_goals rfl

/-! ### Serving a request -/

/-- Step 12 makes books for a command, or lets it do nothing. -/
theorem holds_stepTwelve {c : Ctx} {s : State} {r : Reply × State} (hs : I.Holds s) (hr : I.Holds r.2) : I.Holds (stepTwelve c s r).2 := by
  unfold stepTwelve
  split
  · split
    · exact hr
    · exact hs
  · exact hr
  · split
    · exact hs
    · exact hr

/-- The check of what a buffer holds changes the reply only. -/
theorem holds_dataCheck (c : Ctx) (r : Reply × State) : I.Holds (dataCheck c r).2 ↔ I.Holds r.2 := by
  unfold dataCheck
  split
  · simp only
    split <;> rfl
  · rfl

@[simp] theorem holds_resumeOf (x : ExecEntry) (w : Wait) {s : State} (hs : I.Holds s) : I.Holds (resumeOf x w s).2 := by
  unfold resumeOf
  split
  · next o _ => exact holds_stepTwelve hs ((holds_dataCheck ..).mpr ((holds_resume o ..).mpr hs))
  · exact hs

/-- A request that waits for entropy which is there is resumed; one that ends is answered. -/
@[simp] theorem holds_settle (n : Nat) (x : ExecEntry) {r : Reply × State} (hr : I.Holds r.2) : I.Holds (settle n x r) := by
  induction n generalizing x r with
  | zero =>
    obtain ⟨_ | _, s⟩ := r
    · exact holds_finish _ _ _ hr
    · exact (holds_updExec ..).mpr hr
  | succ n ih =>
    obtain ⟨_ | w, s⟩ := r
    · exact holds_finish _ _ _ hr
    · have waits (y : ExecEntry) : I.Holds (updExec x y s) := (holds_updExec ..).mpr hr
      unfold settle
      simp only
      split
      · split
        · next e => exact ih _ (holds_resumeOf _ _ ((holds_takeEntropy e).mpr (waits _)))
        · exact waits _
      · exact waits _

@[simp] theorem holds_execute (c : Ctx) (e : Entry) {s : State} (hs : I.Holds s) : I.Holds (execute c e s) := by
  refine holds_settle _ _ ((holds_update ..).mpr (holds_stepTwelve hs ?_))
  split
  · exact hs
  · exact (holds_run c.op c s).mpr hs

@[simp] theorem holds_serve (f : Nat) (e : Entry) {s : State} (hs : I.Holds s) : I.Holds (serve f e s) := by
  unfold serve
  split
  · simp [hs]
  · split
    · simp [hs]
    · split <;> simp [hs]

@[simp] theorem holds_readRequest {s : State} (hs : I.Holds s) : I.Holds (readRequest s) := by
  unfold readRequest
  split
  · exact hs
  · exact holds_serve _ _ (Invariant.Holds.modFn ((holds_update ..).mpr hs) fun h => ofFn_erase h _)

@[simp] theorem holds_command (o : Op) (f : Nat) (q : Request) {s : State} (hs : I.Holds s) : I.Holds (command o f q s) := by
  simp [command, hs]

@[simp] theorem holds_dropOpening (x : ExecEntry) (s : State) : I.Holds (dropOpening x s) ↔ I.Holds s := by simp [dropOpening]

@[simp] theorem holds_dmaFailed (x : ExecEntry) {s : State} (hs : I.Holds s) : I.Holds (dmaFailed x s) := by simp [dmaFailed, hs]

@[simp] theorem holds_dmaDone (x : ExecEntry) (data : List Byte) {s : State} (hs : I.Holds s) : I.Holds (dmaDone x data s) := by
  unfold dmaDone
  split <;> simp [hs]

@[simp] theorem holds_dropPairing (x : ExecEntry) (s : State) : I.Holds (dropPairing x s) ↔ I.Holds s := by simp [dropPairing]

@[simp] theorem holds_abandonWait (x : ExecEntry) (s : State) : I.Holds (abandonWait x s) ↔ I.Holds s := by
  unfold abandonWait
  split <;> simp

@[simp] theorem holds_applyFlash (w : FlashWork) (s : State) : I.Holds (applyFlash w s) ↔ I.Holds s := by
  unfold applyFlash
  split <;> simp

@[simp] theorem holds_flashDone (j : FlashJob) (ok : Bool) {s : State} (hs : I.Holds s) : I.Holds (flashDone j ok s) := by
  unfold flashDone
  split <;> simp [hs]

@[simp] theorem holds_drawWaiting {s : State} (hs : I.Holds s) : I.Holds (drawWaiting s) := by
  refine (holds_forEach _ holds_sendChallenge _).mpr (hs.forEach _ fun x t ht => ?_)
  split
  · split
    · next e => exact holds_settle _ _ (holds_resumeOf _ _ ((holds_takeEntropy e).mpr ht))
    · exact ht
  · exact ht

/-! ### The master tick boundary -/

@[simp] theorem holds_headRecord (c : Nat) (f : Frame) (s : State) : I.Holds (headRecord c f s) ↔ I.Holds s := by simp [headRecord]

@[simp] theorem holds_deadline (c : Nat) (s : State) : I.Holds (deadline c s) ↔ I.Holds s := by
  unfold deadline
  split
  · rfl
  · simp only
    split <;> simp

@[simp] theorem holds_latePulse (c : Nat) (s : State) : I.Holds (latePulse c s) ↔ I.Holds s := by
  unfold latePulse
  split <;> simp

@[simp] theorem holds_endEncode (c st : Nat) (s : State) : I.Holds (endEncode c st s) ↔ I.Holds s := by simp [endEncode]

@[simp] theorem holds_endTick (s : State) : I.Holds (endTick s) ↔ I.Holds s := by simp [endTick]

@[simp] theorem holds_ageQueues (s0 : State) : I.Holds (ageQueues s0) ↔ I.Holds s0 := by simp [ageQueues]

@[simp] theorem holds_passBoundary (s : State) : I.Holds (passBoundary s) ↔ I.Holds s := by simp [passBoundary]

/-- The commands whose boundary it is make their effects, and are answered. -/
@[simp] theorem holds_takeEffects (due : List ExecEntry) {s : State} (hs : I.Holds s) : I.Holds (takeEffects due s) := by
  refine hs.forEach _ fun x t ht => ?_
  split
  · next o _ => exact holds_finishAt _ _ _ _ ((holds_effect o _ t).mpr ht)
  · exact holds_finishAt _ _ _ _ ht

@[simp] theorem holds_channelTick (k c : Nat) (s : State) : I.Holds (channelTick k c s) ↔ I.Holds s := by
  unfold channelTick
  split <;> simp

@[simp] theorem holds_releaseItems (s : State) : I.Holds (releaseItems s) ↔ I.Holds s := by
  have units (c st : Nat) (t : State) : I.Holds (match (tget (t.chan c).runs st).current with
      | some a => releaseCounts c st a (offerAu a (tget (t.chan c).runs st).ledgerRate t)
      | none => t) ↔ I.Holds t := by split <;> simp
  unfold releaseItems
  simp only
  refine (holds_forEach _ holds_offerDecoded _).trans (holds_forEach _ (fun c t => ?_) s)
  split
  · refine (holds_forEach _ (fun p t => holds_offerWindow ..) _).trans ?_
    exact (units c 1 _).trans (units c 0 t)
  · exact (units c 1 _).trans (units c 0 t)

@[simp] theorem holds_beginJobs (k : Nat) (s : State) : I.Holds (beginJobs k s) ↔ I.Holds s := by simp [beginJobs]

@[simp] theorem holds_atTickEnd (s : State) : I.Holds (atTickEnd s) ↔ I.Holds s := by simp [atTickEnd]

@[simp] theorem holds_beforeCommands (s : State) : I.Holds (beforeCommands s) ↔ I.Holds s := by simp [beforeCommands]

@[simp] theorem holds_afterCommands (s u : State) : I.Holds (afterCommands s u) ↔ I.Holds u := by simp [afterCommands]

@[simp] theorem holds_unlaunched (s : State) : I.Holds (unlaunched s) ↔ I.Holds s := by simp [unlaunched]

@[simp] theorem holds_nextBoundary {s : State} (hs : I.Holds s) : I.Holds (nextBoundary s) := by simp [nextBoundary, hs]

/-! ### Every event and every command -/

/-- An invariant holds of the state that a step ends in, if it ends in one. -/
def Invariant.Kept (I : Invariant) : Host.Outcome State Fault Refusal → Prop
  | .next t => I.Holds t
  | _ => True

@[simp] theorem kept_next (t : State) : I.Kept (.next t) ↔ I.Holds t := Iff.rfl

@[simp] theorem kept_refused (r : Refusal) : I.Kept (.refused r) := trivial

@[simp] theorem kept_fault (e : Fault) : I.Kept (.fault e) := trivial

@[simp] theorem kept_ite (p : Prop) [Decidable p] (o o' : Host.Outcome State Fault Refusal) :
    I.Kept (if p then o else o') ↔ if p then I.Kept o else I.Kept o' := iff_of_eq (apply_ite I.Kept p o o')

/-- A guard that ends a command early. -/
theorem kept_guard {p : Prop} [Decidable p] {o o' : Host.Outcome State Fault Refusal} (ho : I.Kept o) (ho' : I.Kept o') :
    I.Kept (if p then o else o') := (kept_ite ..).mpr (by simp [ho, ho'])

section
variable {s : State} (hs : I.Holds s)
include hs

theorem kept_fsyncPulse (ch : Nat) : I.Kept (execFsyncPulse ch s) := by
  unfold execFsyncPulse
  split <;> simp [hs]

theorem kept_fsyncPulseEnd (ch : Nat) : I.Kept (execFsyncPulseEnd ch s) := by
  unfold execFsyncPulseEnd
  split <;> simp [hs]

theorem kept_csi2LongPacket (port vc dt wc : Nat) (crcOk : Bool) (ecc : HdrEcc) (data : List Byte) :
    I.Kept (execCsi2LongPacket port vc dt wc crcOk ecc data s) := by
  refine kept_guard trivial ?_
  split
  · simp [hs]
  · next h => simp [(holds_takeHeader h).mpr hs]

theorem kept_calEstimate (ch param : Nat) : I.Kept (execCalEstimate ch param s) := by
  refine kept_guard trivial ?_
  split <;> simp [hs]

theorem kept_calRecordWrite (ch : Nat) : I.Kept (execCalRecordWrite ch s) := by
  refine kept_guard trivial ?_
  simp only
  split <;> simp [hs]

theorem kept_headCheckStart (ch : Nat) : I.Kept (execHeadCheckStart ch s) := by
  unfold execHeadCheckStart
  split
  · refine kept_guard ?_ hs
    split
    · next h => simp [(holds_checkWindow h).mpr hs]
    · exact hs
  · exact hs

theorem kept_seStatusPoll (ch : Nat) (u : Unit) : I.Kept (execSeStatusPoll ch u s) := by
  unfold execSeStatusPoll
  split <;> simp [hs]

theorem kept_i3cTransactionDone (bus : Nat) (r : BusResult) : I.Kept (execI3cTransactionDone bus r s) := by
  refine kept_guard trivial ?_
  split <;> simp [hs]

theorem kept_headCheckDone (ch : Nat) : I.Kept (execHeadCheckDone ch s) := by
  unfold execHeadCheckDone
  split <;> simp [hs]

theorem kept_lifeMinute (ch : Nat) (u : Unit) : I.Kept (execLifeMinute ch u s) := by
  unfold execLifeMinute
  split <;> simp [hs]

theorem kept_lifePush (ch : Nat) : I.Kept (execLifePush ch s) := by
  unfold execLifePush
  split <;> simp [hs]

/-- R400, R401. What stops a refresh changes nothing. -/
theorem kept_refreshing {d ch : Nat} {o : Host.Outcome State Fault Refusal} (h : refreshing s d ch = some o) : I.Kept o := by
  unfold refreshing at h
  split at h
  · cases h; trivial
  · split at h
    · cases h; trivial
    · split at h
      · cases h; exact hs
      · cases h

theorem kept_refreshDue (dmc mch : Nat) : I.Kept (execRefreshDue dmc mch s) := by
  unfold execRefreshDue
  split
  · next h => exact kept_refreshing hs h
  · have owed := hs.modDmc (d := dmc) (g := fun d => { d with chans := tmod d.chans mch fun c =>
        { c with debt := min 8 ((tget (s.dmcN dmc).chans mch).debt + 1) } }) fun h => h.change id fun c hc => by
      rw [tget_tmod]
      split
      · exact Nat.min_le_left 8 _
      · exact hc
    exact (holds_modDmc dmc (fun _ => ofDmc_update ..) _).mpr owed

theorem kept_refreshIssue (dmc mch : Nat) : I.Kept (execRefreshIssue dmc mch s) := by
  unfold execRefreshIssue
  split
  · next h => exact kept_refreshing hs h
  · simp [hs]

theorem kept_refreshForced (dmc mch : Nat) : I.Kept (execRefreshForced dmc mch s) := by
  unfold execRefreshForced
  split
  · next h => exact kept_refreshing hs h
  · simp [hs]

theorem kept_mr4Read (dmc mch mult : Nat) : I.Kept (execMr4Read dmc mch mult s) := by
  unfold execMr4Read
  split
  · next h => exact kept_refreshing hs h
  · simp [hs]

theorem kept_cycleMeterExpiry (j : MeterJob) (undone : Nat) : I.Kept (execCycleMeterExpiry j undone s) := by
  unfold execCycleMeterExpiry
  split <;> simp [hs]

theorem kept_selfRefreshExitDone (dmc : Nat) : I.Kept (execSelfRefreshExitDone dmc s) := by
  refine kept_guard trivial ((holds_ite ..).mpr ?_)
  split
  · refine holds_srFinish ((holds_raise ..).mpr (hs.modDmc fun h => ?_))
    exact h.change id fun c _ => debt_paid _ (fun _ => rfl) c
  · exact hs

theorem kept_ppsInMissing : I.Kept (execPpsInMissing s) := by
  unfold execPpsInMissing
  split <;> simp [hs]

theorem kept_gptpFrameReceived (port : Nat) (m : GptpMsg) : I.Kept (execGptpFrameReceived port m s) := by
  refine kept_guard trivial (kept_guard hs ?_)
  cases m <;> simp [hs]

theorem kept_challengeExpiry (f : Nat) : I.Kept (execChallengeExpiry f s) := by
  refine kept_guard trivial ?_
  split <;> simp [hs]

theorem kept_dmcTrainingDone (ok : Bool) : I.Kept (execDmcTrainingDone ok s) := by
  have trained := hs.mapDmcs (g := fun d => { d with trained := d.fitted }) fun _ h => (ofDmc_update ..).mpr h
  simp [execDmcTrainingDone, hs, trained]

theorem kept_memoryInitDone : I.Kept (execMemoryInitDone s) := by
  have cleared := hs.mapDmcs (g := fun d => { d with ready := d.fitted, memory := [], poison := [], tags := [] }) fun _ h =>
    h.change (fun _ => rfl) fun _ => id
  simp [execMemoryInitDone, hs, cleared]

theorem kept_dmaTransferDone (f tag : Nat) (ok : Bool) (data : List Byte) : I.Kept (execDmaTransferDone f tag ok data s) := by
  unfold execDmaTransferDone
  split <;> simp [hs]

theorem kept_dmaTimeout (f tag : Nat) : I.Kept (execDmaTimeout f tag s) := by
  unfold execDmaTimeout
  split <;> simp [hs]

theorem kept_deferredTimeout (f tag : Nat) : I.Kept (execDeferredTimeout f tag s) := by
  unfold execDeferredTimeout
  split
  · split <;> simp [hs]
  · exact hs

theorem kept_flashProgramDone (ok : Bool) : I.Kept (execFlashProgramDone ok s) := by
  unfold execFlashProgramDone
  simp only
  split <;> simp [hs]

theorem kept_headChange (ch : Nat) : I.Kept (execHeadChange ch s) := by
  simp [execHeadChange, execMasterTickBoundary, hs]

/-- A command of the host is served; an event that loops or branches no further than its guards is closed by what it is made of. -/
theorem exec_kept (i : Instr) : I.Kept (exec i s) := by
  cases i
  case fsyncPulse ch => exact kept_fsyncPulse hs ch
  case fsyncPulseEnd ch => exact kept_fsyncPulseEnd hs ch
  case csi2LineStart port vc line ecc => exact (by simp [execCsi2LineStart, hs] : I.Kept (execCsi2LineStart port vc line ecc s))
  case csi2LongPacket port vc dt wc crcOk ecc data => exact kept_csi2LongPacket hs port vc dt wc crcOk ecc data
  case csi2FrameEnd port vc ecc => exact (by simp [execCsi2FrameEnd, hs] : I.Kept (execCsi2FrameEnd port vc ecc s))
  case csi2PhyError port => exact (by simp [execCsi2PhyError, hs] : I.Kept (execCsi2PhyError port s))
  case calEstimate ch param => exact kept_calEstimate hs ch param
  case calTimeLimit ch param => exact (by simp [execCalTimeLimit, hs] : I.Kept (execCalTimeLimit ch param s))
  case calRecordWrite ch => exact kept_calRecordWrite hs ch
  case pipeJobEnd ch => exact (by simp [execPipeJobEnd, hs] : I.Kept (execPipeJobEnd ch s))
  case decJobEnd h r => exact (by simp [execDecJobEnd, hs] : I.Kept (execDecJobEnd h r s))
  case encJobEnd ch st => exact (by simp [execEncJobEnd, hs] : I.Kept (execEncJobEnd ch st s))
  case itpJobEnd ch st => exact (by simp [execItpJobEnd, hs] : I.Kept (execItpJobEnd ch st s))
  case sealJobEnd ch st => exact (by simp [execSealJobEnd, hs] : I.Kept (execSealJobEnd ch st s))
  case packetDequeue port => exact (by simp [execPacketDequeue, hs] : I.Kept (execPacketDequeue port s))
  case packetTxComplete port ok => exact (by simp [execPacketTxComplete, hs] : I.Kept (execPacketTxComplete port ok s))
  case calendarSlot port => exact (by simp [execCalendarSlot, hs] : I.Kept (execCalendarSlot port s))
  case ringSlotPoll flow ok addr blen ctrl => exact (by simp [execRingSlotPoll, hs] : I.Kept (execRingSlotPoll flow ok addr blen ctrl s))
  case txFrameDue flow => exact (by simp [execTxFrameDue, hs] : I.Kept (execTxFrameDue flow s))
  case txFrameSent port => exact (by simp [execTxFrameSent, hs] : I.Kept (execTxFrameSent port s))
  case flowSample i => exact (by simp [execFlowSample, hs] : I.Kept (execFlowSample i s))
  case macLinkDown mac => exact (by simp [execMacLinkDown, hs] : I.Kept (execMacLinkDown mac s))
  case macLinkUp mac => exact (by simp [execMacLinkUp, hs] : I.Kept (execMacLinkUp mac s))
  case macFrameReceived mac => exact (by simp [execMacFrameReceived, hs] : I.Kept (execMacFrameReceived mac s))
  case pcieLinkRetrain lanes l => exact (by simp [execPcieLinkRetrain, hs] : I.Kept (execPcieLinkRetrain lanes l s))
  case headCheckStart ch => exact kept_headCheckStart hs ch
  case seStatusPoll ch u => exact kept_seStatusPoll hs ch u
  case i3cTransactionDone bus r => exact kept_i3cTransactionDone hs bus r
  case headCheckDone ch => exact kept_headCheckDone hs ch
  case csi2FrameStart port vc ecc => exact (by simp [execCsi2FrameStart, hs] : I.Kept (execCsi2FrameStart port vc ecc s))
  case lifeMinute ch u => exact kept_lifeMinute hs ch u
  case lifePush ch => exact kept_lifePush hs ch
  case headTempRead ch u => exact (by simp [execHeadTempRead, hs] : I.Kept (execHeadTempRead ch u s))
  case timeLoRead f size => exact (by simp [execTimeLoRead, hs] : I.Kept (execTimeLoRead f size s))
  case timePtmSeqRead f size => exact (by simp [execTimePtmSeqRead, hs] : I.Kept (execTimePtmSeqRead f size s))
  case mbxReqPush f size value => exact (by simp [execMbxReqPush, hs] : I.Kept (execMbxReqPush f size value s))
  case mbxRspPop f size => exact (by simp [execMbxRspPop, hs] : I.Kept (execMbxRspPop f size s))
  case mbxCtrlWrite f size value => exact (by simp [execMbxCtrlWrite, hs] : I.Kept (execMbxCtrlWrite f size value s))
  case irqAck f size => exact (by simp [execIrqAck, hs] : I.Kept (execIrqAck f size s))
  case irqEoi f size value => exact (by simp [execIrqEoi, hs] : I.Kept (execIrqEoi f size value s))
  case irqSrcCfgWrite f size value => exact (by simp [execIrqSrcCfgWrite, hs] : I.Kept (execIrqSrcCfgWrite f size value s))
  case irqSrcCauseWrite f size value => exact (by simp [execIrqSrcCauseWrite, hs] : I.Kept (execIrqSrcCauseWrite f size value s))
  case irqCtrlWrite f size value => exact (by simp [execIrqCtrlWrite, hs] : I.Kept (execIrqCtrlWrite f size value s))
  case registerWrite f offset size value => exact (by simp [execRegisterWrite, hs] : I.Kept (execRegisterWrite f offset size value s))
  case msixUnmask f vector => exact (by simp [execMsixUnmask, hs] : I.Kept (execMsixUnmask f vector s))
  case requestPromotion => exact (by simp [execRequestPromotion, hs] : I.Kept (execRequestPromotion s))
  case chunkServiceDone dmc c => exact (by simp [execChunkServiceDone, hs] : I.Kept (execChunkServiceDone dmc c s))
  case refreshDue dmc mch => exact kept_refreshDue hs dmc mch
  case refreshIssue dmc mch => exact kept_refreshIssue hs dmc mch
  case refreshForced dmc mch => exact kept_refreshForced hs dmc mch
  case mr4Read dmc mch mult => exact kept_mr4Read hs dmc mch mult
  case patrolScrub dmc sector e => exact (by simp [execPatrolScrub, hs] : I.Kept (execPatrolScrub dmc sector e s))
  case cycleMeterExpiry j undone => exact kept_cycleMeterExpiry hs j undone
  case seqWatchdog q x => exact (by simp [execSeqWatchdog, hs] : I.Kept (execSeqWatchdog q x s))
  case avsFloorUpdate dom floor => exact (by simp [execAvsFloorUpdate, hs] : I.Kept (execAvsFloorUpdate dom floor s))
  case pmbusStatusPoll rail ack status iout => exact (by simp [execPmbusStatusPoll, hs] : I.Kept (execPmbusStatusPoll rail ack status iout s))
  case thermalSample tj => exact (by simp [execThermalSample, hs] : I.Kept (execThermalSample tj s))
  case domainPowerUpDone dom ok => exact (by simp [execDomainPowerUpDone, hs] : I.Kept (execDomainPowerUpDone dom ok s))
  case selfRefreshEntryDone dmc => exact (by simp [execSelfRefreshEntryDone, hs] : I.Kept (execSelfRefreshEntryDone dmc s))
  case selfRefreshExitDone dmc => exact kept_selfRefreshExitDone hs dmc
  case ppsInPulse at_ => exact (by simp [execPpsInPulse, hs] : I.Kept (execPpsInPulse at_ s))
  case ppsInMissing => exact kept_ppsInMissing hs
  case ppsOutPulse => exact (by simp [execPpsOutPulse, hs] : I.Kept (execPpsOutPulse s))
  case gptpSyncTx port => exact (by simp [execGptpSyncTx, hs] : I.Kept (execGptpSyncTx port s))
  case gptpAnnounceTx port => exact (by simp [execGptpAnnounceTx, hs] : I.Kept (execGptpAnnounceTx port s))
  case gptpPdelayReqTx port => exact (by simp [execGptpPdelayReqTx, hs] : I.Kept (execGptpPdelayReqTx port s))
  case gptpFrameReceived port m => exact kept_gptpFrameReceived hs port m
  case ptmDialogue => exact (by simp [execPtmDialogue, hs] : I.Kept (execPtmDialogue s))
  case ptmDialogueDone ok root => exact (by simp [execPtmDialogueDone, hs] : I.Kept (execPtmDialogueDone ok root s))
  case tamperAssert => exact (by simp [execTamperAssert, hs] : I.Kept (execTamperAssert s))
  case trngHealthFail => exact (by simp [execTrngHealthFail, hs] : I.Kept (execTrngHealthFail s))
  case trngRestartDone => exact (by simp [execTrngRestartDone, hs] : I.Kept (execTrngRestartDone s))
  case chanStatusUpdate ch => exact (by simp [execChanStatusUpdate, hs] : I.Kept (execChanStatusUpdate ch s))
  case flowStatusUpdate => exact (by simp [execFlowStatusUpdate, hs] : I.Kept (execFlowStatusUpdate s))
  case conditionReassert => exact (by simp [execConditionReassert, hs] : I.Kept (execConditionReassert s))
  case challengeExpiry f => exact kept_challengeExpiry hs f
  case functionLevelReset f => exact (by simp [execFunctionLevelReset, hs] : I.Kept (execFunctionLevelReset f s))
  case vfEnableChange numVfs enable => exact (by simp [execVfEnableChange, hs] : I.Kept (execVfEnableChange numVfs enable s))
  case fullReset t => exact (by simp [execFullReset, hs] : I.Kept (execFullReset t s))
  case resetRelease straps puf => exact (by simp [execResetRelease, hs] : I.Kept (execResetRelease straps puf s))
  case railPowerUp rail ok => exact (by simp [execRailPowerUp, hs] : I.Kept (execRailPowerUp rail ok s))
  case dmcTrainingDone ok => exact kept_dmcTrainingDone hs ok
  case memoryInitDone => exact kept_memoryInitDone hs
  case bringUpReady => exact (by simp [execBringUpReady, hs] : I.Kept (execBringUpReady s))
  case controlWatchdog => exact (by simp [execControlWatchdog, hs] : I.Kept (execControlWatchdog s))
  case refclkInFailure => exact (by simp [execRefclkInFailure, hs] : I.Kept (execRefclkInFailure s))
  case requestRead => exact (by simp [execRequestRead, hs] : I.Kept (execRequestRead s))
  case dmaTransferDone f tag ok data => exact kept_dmaTransferDone hs f tag ok data
  case dmaTimeout f tag => exact kept_dmaTimeout hs f tag
  case deferredTimeout f tag => exact kept_deferredTimeout hs f tag
  case flashProgramDone ok => exact kept_flashProgramDone hs ok
  case trngBlockReady block => exact (by simp [execTrngBlockReady, hs] : I.Kept (execTrngBlockReady block s))
  case ingressDeadline ch => exact (by simp [execIngressDeadline, hs] : I.Kept (execIngressDeadline ch s))
  case masterTickBoundary => exact (by simp [execMasterTickBoundary, hs] : I.Kept (execMasterTickBoundary s))
  case headChange ch => exact kept_headChange hs ch
  all_goals exact holds_command _ _ _ hs
end

/-- An idle step lets time pass. -/
theorem idle_kept {s : State} (hs : I.Holds s) : I.Kept (idle s) := by
  unfold idle
  split <;> simp [hs]

/-- Every step keeps every invariant. -/
theorem step_kept {s t : State} (hs : I.Holds s) (h : step s = .next t) : I.Holds t := by
  have kept : I.Kept (step s) := by
    unfold step
    split
    · exact idle_kept hs
    · exact exec_kept ((holds_update ..).mpr hs) _
  rw [h] at kept
  exact kept

end

/-- Settles O9: each bound is an invariant that every step keeps. -/
theorem everyStepKeepsBounds : Obligations.EveryStepKeepsBounds := by
  unfold Obligations.EveryStepKeepsBounds
  refine ⟨fun s t hs h => ?_, fun s t hs h => ?_⟩
  · exact (holds_queues t).mp (step_kept ((holds_queues s).mpr hs) h)
  · exact (holds_debts t).mp (step_kept ((holds_debts s).mpr hs) h)

end Sys2Proof.Machine
end

section
/-!
PROOF. The step, reset, and the host's mailbox: pushes, requests that wait or are refused, and what the enables and masks send (O1, O6, O12,
O13, O15, O18).
-/
namespace Sys2Proof.Machine

/-! ### The step, and reset -/

/-- Settles O1: the step takes the command that stands at the front. -/
theorem stepRunsTheFrontCommand : Obligations.StepRunsTheFrontCommand := by
  unfold Obligations.StepRunsTheFrontCommand
  exact fun _ _ _ => rfl

/-- In a table of one entry repeated, every entry read is that one or the default. -/
theorem tget_replicate_forall {α : Type} {n : Nat} [Inhabited α] {P : α → Prop} {a : α} (ha : P a) (hd : P default) (i : Nat) :
    P (tget (Vector.replicate n a) i) := by
  by_cases h : i < n
  · rwa [tget_replicate a h]
  · rwa [tget_beyond _ (Nat.le_of_not_lt h)]

/-- Settles O6: memory, queues and debts by the invariants a step keeps, and every source is at its reset value. -/
theorem resetMeetsTheInvariants : Obligations.ResetMeetsTheInvariants := by
  unfold Obligations.ResetMeetsTheInvariants
  have hsource : ∀ n, (tget (Vector.replicate 512 Source.reset) n).inRange :=
    tget_replicate_forall ⟨by decide, by decide, by decide⟩ ⟨by decide, by decide, by decide⟩
  exact ⟨(holds_memory _).mp holds_reset, fun n => ⟨hsource n, hsource n⟩, (holds_queues _).mp holds_reset, (holds_debts _).mp holds_reset⟩

/-! ### Pushes (R82, R83) -/

/-- R71. A function that is present is one of the 16. -/
theorem lt_of_fnPresent {s : State} {f : Nat} (h : s.fnPresent f = true) : f < 16 := by
  simp only [State.fnPresent, Bool.or_eq_true, beq_iff_eq, Bool.and_eq_true, decide_eq_true_eq] at h
  omega

/-- R80. REQ_COUNT. -/
theorem mbxStatus_low (s : State) (f : Nat) : (mbxStatus s f).toNat % 256 = (s.fn f).reqQ.length % 256 := by
  simp only [mbxStatus, wOf, BitVec.toNat_ofNat]
  omega

/-- R82. An entry that comes into the queue now. -/
def QEntry.arriving (e : Entry) (s : State) : QEntry := ⟨e, 0, s.time.elapsed, false⟩

/-- R82. A queue that has room takes the entry at its tail. -/
theorem pushRequest_of_room {f : Nat} {s : State} (hroom : (s.fn f).reqQ.length < 64) (e : Entry) :
    pushRequest f e s = modFn f (fun x => { x with reqQ := x.reqQ ++ [.arriving e s] }) s :=
  modFn_congr (if_pos hroom)

/-- R83. A full queue does not change. -/
theorem pushRequest_of_full {f : Nat} {s : State} (hfull : 64 ≤ (s.fn f).reqQ.length) (e : Entry) :
    pushRequest f e s = modFn f (fun x => { x with reqOvf := true }) s :=
  modFn_congr (if_neg (Nat.not_lt.mpr hfull))

section
variable {f : Nat} {v : Word} {s : State} (hpresent : s.fnPresent f = true) (hv : v.getLsbD 0 = true)
include hpresent hv

/-- R82. A push of a present function pushes the staged bytes. -/
theorem exec_mbxReqPush : exec (.mbxReqPush f 4 v) s = .next (pushRequest f (entryOf (stagedBytes (s.fn f))) s) := by
  have hgood : goodAccess s f 0x240 4 = true := goodAccess_of_present hpresent rfl
  exact congrArg Host.Outcome.next (if_pos (by rw [hgood, hv]; rfl))

/-- R82. A push into a queue that has room. -/
theorem exec_mbxReqPush_of_room (hroom : (s.fn f).reqQ.length < 64) : exec (.mbxReqPush f 4 v) s =
    .next (modFn f (fun x => { x with reqQ := x.reqQ ++ [.arriving (entryOf (stagedBytes (s.fn f))) s] }) s) := by
  rw [exec_mbxReqPush hpresent hv, pushRequest_of_room hroom]
end

/-- Settles O12: the entry joins the tail of a queue below 64, whose length is the low byte of MBX_STATUS. -/
theorem pushQueuesTheStagedEntry : Obligations.PushQueuesTheStagedEntry := by
  unfold Obligations.PushQueuesTheStagedEntry
  intro f v s hpresent hv hroom
  have hf := lt_of_fnPresent hpresent
  refine ⟨_, exec_mbxReqPush_of_room hpresent hv hroom, rfl, fun g hg => fn_modFn_ne s hg.symm _, fn_modFn_same s hf _, ?_⟩
  rw [mbxStatus_low, mbxStatus_low, fn_modFn_same s hf, List.length_append]
  simp only [List.length_cons, List.length_nil]
  omega

/-- R84. Before it is READY firmware reads nothing. -/
theorem requestRead_of_not_ready {s : State} (h : s.boot.fw ≠ .ready) : exec .requestRead s = .next s := by
  have hreads : s.reads = false := by simp [State.reads, State.ready, h]
  exact congrArg Host.Outcome.next (if_neg (by simp [hreads]))

/-- Settles O13: a push looks at the queue alone, and firmware that is not READY reads nothing. -/
theorem pushToAFullQueueOverflows : Obligations.PushToAFullQueueOverflows := by
  unfold Obligations.PushToAFullQueueOverflows
  intro f v s hpresent hv
  refine ⟨fun hfull => ?_, fun w hroom => ⟨_, exec_mbxReqPush_of_room (s := { s with boot := { s.boot with fw := w } }) hpresent hv hroom, ?_,
    fun hw => requestRead_of_not_ready hw⟩⟩
  · rw [exec_mbxReqPush hpresent hv, pushRequest_of_full hfull]
  · rw [fn_modFn_same _ (lt_of_fnPresent hpresent)]
    exact List.length_append

/-! ### Requests that wait, and requests that are refused -/

section
variable {o : Op} {f : Nat} {q : Request} {s : State}

/-- R71. A request of a function that is not present reaches nobody. -/
theorem command_of_absent (h : s.fnPresent f = false) : command o f q s = s := by
  simp only [command, h, Bool.not_false, if_true]

/-- R84, R87. A request that firmware does not read joins its queue. -/
theorem command_unread (hpresent : s.fnPresent f = true) (h : s.reads = false ∨ slotFree s f = false) :
    command o f q s = pushRequest f (o.entry q) s := by
  have hread : (s.reads && slotFree s f) = false := by rcases h with h | h <;> simp [h]
  simp only [command, hpresent, hread, Bool.not_true, Bool.false_eq_true, if_false]
  rfl

/-- R105. A request that is read and fails a check of steps 4 to 11 is answered. -/
theorem command_refused {st : Byte} {pay : List Byte} (hpresent : s.fnPresent f = true) (hreads : s.reads = true) (hslot : slotFree s f = true)
    (htag : tagAnswer (atMailbox f s) f (o.entry q) = none) (h : refusal (atMailbox f s) (ctxOf o f q s) = some (st, pay)) :
    command o f q s = replied o f q st pay (atMailbox f s) := by
  have hserve : command o f q s = serve f (o.entry q) (atMailbox f s) := by
    simp only [command, hpresent, hreads, hslot, Bool.not_true, Bool.false_eq_true, if_false, Bool.and_self, if_true]
    rfl
  have hrefusal : refusal (atMailbox f s) (contextOf (atMailbox f s) f o (o.entry q).req) = some (st, pay) := h
  rw [hserve]
  simp only [serve, htag, ofCode_entry, hrefusal]
  rfl
end

/-- Settles O15: a request that is not read joins its queue where there is room, and one that is refused is answered alone. -/
theorem unreadAndRefusedRequests : Obligations.UnreadAndRefusedRequests := by
  unfold Obligations.UnreadAndRefusedRequests
  refine ⟨fun o f q s => ⟨command_of_absent, fun hpresent hunread hroom => ?_⟩, fun o f q s st pay => command_refused⟩
  rw [command_unread hpresent hunread]
  exact pushRequest_of_room hroom _

/-! ### Messages: the enables and the masks (R89, R149) -/

section
variable {f : Nat} {s : State}

/-- R149. What is sent of function `f` by vector `i` once nothing masks it. -/
def sendHeld (f i : Nat) (s : State) : State :=
  if tget (s.fn f).held i && !(s.fn f).fnMask && !tget (s.fn f).vecMask i then
    emit (.msix f i) (modFn f (fun x => { x with held := tset x.held i false }) s)
  else s

theorem sendHeld_of_not_held {i : Nat} (h : tget (s.fn f).held i = false) : sendHeld f i s = s := by
  simp [sendHeld, h]

theorem sendHeld_of_held {i : Nat} (hheld : tget (s.fn f).held i = true) (hfn : (s.fn f).fnMask = false)
    (hvec : tget (s.fn f).vecMask i = false) :
    sendHeld f i s = emit (.msix f i) (modFn f (fun x => { x with held := tset x.held i false }) s) := by
  simp [sendHeld, hheld, hfn, hvec]

/-- R149. An unmasking opens the mask and sends what vector 0 and then vector 1 held. -/
theorem exec_msixUnmask (hpresent : s.fnPresent f = true) (v : Nat) : exec (.msixUnmask f v) s = .next (sendHeld f 1 (sendHeld f 0 (modFn f
    (fun x => if v = 2 then { x with fnMask := false } else { x with vecMask := tset x.vecMask v false }) s))) :=
  congrArg Host.Outcome.next (if_pos hpresent)

/-- R149. The unmasking of the one vector that holds a message sends it. -/
theorem exec_msixUnmask_vector (hpresent : s.fnPresent f = true) {i : Nat} (hi : i < 2) (hfn : (s.fn f).fnMask = false)
    (hothers : ∀ j, j < 2 → j ≠ i → tget (s.fn f).held j = false) (hheld : tget (s.fn f).held i = true) :
    exec (.msixUnmask f i) s = .next (emit (.msix f i)
      (modFn f (fun x => { x with held := tset x.held i false, vecMask := tset x.vecMask i false }) s)) := by
  have hf := lt_of_fnPresent hpresent
  have hopen : exec (.msixUnmask f i) s =
      .next (sendHeld f 1 (sendHeld f 0 (modFn f (fun x => { x with vecMask := tset x.vecMask i false }) s))) := by
    rw [exec_msixUnmask hpresent]
    simp only [show i ≠ 2 by omega, if_false]
  have hsent := sendHeld_of_held (f := f) (i := i) (s := modFn f (fun x => { x with vecMask := tset x.vecMask i false }) s)
    (by rwa [fn_modFn_same s hf]) (by rwa [fn_modFn_same s hf]) (by rw [fn_modFn_same s hf, tget_tset_same _ hi])
  rw [modFn_modFn_fuse] at hsent
  rw [hopen]
  obtain rfl | rfl : i = 0 ∨ i = 1 := by omega
  · rw [hsent, sendHeld_of_not_held]
    rw [fn_emit, fn_modFn_same s hf, tget_tset_ne _ (by omega)]
    exact hothers 1 (by omega) (by omega)
  · rw [sendHeld_of_not_held (i := 0), hsent]
    rw [fn_modFn_same s hf]
    exact hothers 0 (by omega) (by omega)

/-- R149. The unmasking of a function that holds nothing. -/
theorem exec_msixUnmask_function (hpresent : s.fnPresent f = true) (hheld : (s.fn f).held = Vector.replicate 2 false) :
    exec (.msixUnmask f 2) s = .next (modFn f (fun x => { x with fnMask := false }) s) := by
  have hf := lt_of_fnPresent hpresent
  have hnone {i : Nat} (hi : i < 2) : sendHeld f i (modFn f (fun x => { x with fnMask := false }) s) =
      modFn f (fun x => { x with fnMask := false }) s :=
    sendHeld_of_not_held (by rw [fn_modFn_same s hf, hheld, tget_replicate _ hi])
  rw [exec_msixUnmask hpresent]
  simp only [if_true, hnone Nat.zero_lt_two, hnone Nat.one_lt_two]
end

/-- Settles O18: the writes send as they are defined to, and an unmasking sends the one message held. -/
theorem enablesAndMasks : Obligations.EnablesAndMasks := by
  unfold Obligations.EnablesAndMasks
  intro f v s hpresent
  have hf := lt_of_fnPresent hpresent
  refine ⟨congrArg Host.Outcome.next (if_pos (goodAccess_of_present hpresent rfl)),
    congrArg Host.Outcome.next (if_pos (goodAccess_of_present hpresent rfl)), fun i hi hfn hothers hheld => ?_,
    exec_msixUnmask_function hpresent⟩
  refine ⟨_, exec_msixUnmask_vector hpresent hi hfn hothers hheld, rfl, ?_, ?_, fun g hg => ?_⟩
  · rw [fn_emit, fn_modFn_same s hf, tget_tset_same _ hi]
  · rw [fn_emit, fn_modFn_same s hf, tget_tset_same _ hi]
  · rw [fn_emit, fn_modFn_ne s hg.symm]

end Sys2Proof.Machine
end

section
/-!
PROOF. The reset of a virtual function, and functions that leave the hierarchy (O23).
-/
namespace Sys2Proof.Machine

/-! ### The interrupt target of a function that is reset (R151) -/

/-- A loop that changes each of its distinct sources in the same way. -/
theorem src_forEach_modSrc (g : Source → Source) {l : List Nat} (hl : l.Nodup) (s : State) {n : Nat} (hn : n < 512) :
    tget (forEach l (fun m => modSrc m g) s).irq.src n = if n ∈ l then g (tget s.irq.src n) else tget s.irq.src n := by
  induction l generalizing s with
  | nil => simp
  | cons a r ih =>
    obtain ⟨ha, hr⟩ := List.nodup_cons.mp hl
    rw [forEach_cons, ih hr]
    by_cases hna : a = n
    · subst hna
      rw [if_neg ha, if_pos List.mem_cons_self]
      exact tget_tmod_same _ hn _
    · have hsrc : tget (modSrc a g s).irq.src n = tget s.irq.src n := tget_tmod_ne _ hna _
      simp only [hsrc, List.mem_cons, Ne.symm hna, false_or]

theorem mem_idx {n m : Nat} {p : Nat → Bool} : m ∈ idx n p ↔ m < n ∧ p m = true := by
  rw [idx, List.mem_filter, List.mem_range]

theorem idx_nodup (n : Nat) (p : Nat → Bool) : (idx n p).Nodup := List.nodup_range.filter _

/-- R151. The sources routed to the target of function `f`. -/
def routedTo (f : Nat) (s : State) : List Nat := idx 512 fun n => (tget s.irq.src n).route == f + 1

/-- R151. The function's sources are cleared, and its target after them. -/
theorem resetTarget_unfold (f : Nat) (s : State) :
    resetTarget f s = modTgt (f + 1) (fun _ => default) (forEach (routedTo f s) (fun n => modSrc n Source.cleared) s) := rfl

/-- A loop that changes sources changes nothing else. -/
theorem forEach_modSrc (l : List Nat) (g : Source → Source) (s : State) : ∃ irq, forEach l (fun n => modSrc n g) s = { s with irq := irq } :=
  forEach_keeps (fun t => ∃ irq, t = { s with irq := irq }) l _ s ⟨_, rfl⟩ fun _ _ _ ⟨_, ht⟩ => ht ▸ ⟨_, rfl⟩

theorem resetTarget_eq (f : Nat) (s : State) : ∃ irq, resetTarget f s = { s with irq := irq } := by
  obtain ⟨irq, hloop⟩ := forEach_modSrc (routedTo f s) Source.cleared s
  rw [resetTarget_unfold, hloop]
  exact ⟨_, rfl⟩

@[simp] theorem target_modTgt_same {f : Nat} (hf : f < 16) (g : Target → Target) (s : State) :
    (modTgt (f + 1) g s).target (f + 1) = g (s.target (f + 1)) := tget_tmod_same _ hf g

@[simp] theorem src_modTgt (t : Nat) (g : Target → Target) (s : State) : (modTgt t g s).irq.src = s.irq.src := rfl

theorem target_resetTarget {f : Nat} (hf : f < 16) (s : State) : (resetTarget f s).target (f + 1) = default := by
  rw [resetTarget_unfold, target_modTgt_same hf]

/-- R151. The raised state of the sources routed to the function's target is cleared. -/
theorem src_resetTarget (f : Nat) (s : State) {n : Nat} (hn : n < 512) : tget (resetTarget f s).irq.src n =
    if (tget s.irq.src n).route = f + 1 then (tget s.irq.src n).cleared else tget s.irq.src n := by
  rw [resetTarget_unfold, src_modTgt, src_forEach_modSrc Source.cleared (show (routedTo f s).Nodup from idx_nodup ..) s hn]
  simp only [routedTo, mem_idx, hn, true_and, beq_iff_eq]

@[simp] theorem fn_resetTarget (f g : Nat) (s : State) : (resetTarget f s).fn g = s.fn g := by
  obtain ⟨irq, h⟩ := resetTarget_eq f s
  rw [h]
  rfl

/-! ### The reset of one function (R99) -/

theorem fn_resetFunction (f g : Nat) (s : State) :
    (resetFunction f s).fn g = if f = g ∧ f < 16 then (s.fn g).cleared else s.fn g := by
  rw [resetFunction, fn_resetTarget]
  exact fn_modFn _ f g _

/-- R99. Requests in execution go on, and their responses are dropped. -/
def orphan (f : Nat) (s : State) : State := { s with exec := s.exec.map fun x => if x.func = f then { x with dead := true } else x }

theorem resetFunction_eq (f : Nat) (s : State) :
    ∃ irq, resetFunction f s = { s with fns := (modFn f Fn.cleared s).fns, irq := irq, exec := (orphan f s).exec } := by
  obtain ⟨irq, h⟩ := resetTarget_eq f (modFn f Fn.cleared (orphan f s))
  exact ⟨irq, h⟩

theorem target_resetFunction {f : Nat} (hf : f < 16) (s : State) : (resetFunction f s).target (f + 1) = default :=
  target_resetTarget hf _

theorem src_resetFunction (f : Nat) (s : State) {n : Nat} (hn : n < 512) : tget (resetFunction f s).irq.src n =
    if (tget s.irq.src n).route = f + 1 then (tget s.irq.src n).cleared else tget s.irq.src n := by
  rw [resetFunction, src_resetTarget _ _ hn]
  rfl

theorem exec_functionLevelReset {f : Nat} {s : State} (hpos : 0 < f) (hpresent : s.fnPresent f = true) :
    exec (.functionLevelReset f) s = .next (resetFunction f s) := by
  show execFunctionLevelReset f s = _
  rw [execFunctionLevelReset, if_neg (Nat.not_le.mpr (lt_of_fnPresent hpresent)), if_pos hpresent, functionReset, if_neg hpos.ne']

/-! ### Functions that leave (R71, R361) -/

@[simp] theorem fn_settleFlow (m g : Nat) (s : State) : (settleFlow m s).fn g = s.fn g := by
  unfold settleFlow
  simp only
  split <;> rfl

/-- R361. The flows of a function that leaves stop, and no mailbox changes. -/
@[simp] theorem fn_stopHost (f g : Nat) (s : State) : (stopHost f s).fn g = s.fn g :=
  forEach_same (State.fn · g) _ _ s fun _ _ _ => by simp

theorem fn_leaveFunction (f g : Nat) (s : State) :
    (leaveFunction f s).fn g = if f = g ∧ f < 16 then (s.fn g).cleared else s.fn g := by
  rw [leaveFunction, fn_stopHost, fn_resetFunction]

/-- R99. Nothing is left in a mailbox, and no session is open. -/
def Fn.Empty (x : Fn) : Prop := x.reqQ = [] ∧ x.rspQ = [] ∧ x.session = none

theorem Fn.empty_cleared (x : Fn) : x.cleared.Empty := ⟨rfl, rfl, rfl⟩

/-- A function that does not leave keeps its mailbox. -/
theorem fn_leave_of_notMem {l : List Nat} {g : Nat} (hg : g ∉ l) (s : State) : (forEach l leaveFunction s).fn g = s.fn g :=
  forEach_same (State.fn · g) l leaveFunction s fun f hf t => by
    have hne : f ≠ g := fun h => hg (h ▸ hf)
    simp [fn_leaveFunction, hne]

/-- A function that leaves has an empty mailbox, which those that leave after it do not fill. -/
theorem fn_leave_of_mem {l : List Nat} {g : Nat} (hg : g ∈ l) (hlt : g < 16) (s : State) : ((forEach l leaveFunction s).fn g).Empty := by
  induction l generalizing s with
  | nil => cases hg
  | cons f r ih =>
    rw [forEach_cons]
    by_cases hr : g ∈ r
    · exact ih hr _
    · obtain rfl : g = f := (List.mem_cons.mp hg).resolve_right hr
      rw [fn_leave_of_notMem hr, fn_leaveFunction, if_pos ⟨rfl, hlt⟩]
      exact Fn.empty_cleared _

/-- R71. The virtual functions that a change of NumVFs and VF Enable takes away. -/
theorem mem_leaving {s : State} {n g : Nat} {en : Bool} :
    g ∈ (presentVfs s).filter (fun f => !en || n < f) ↔ g < 16 ∧ s.fnPresent g = true ∧ g ≠ 0 ∧ (en = false ∨ n < g) := by
  simp [presentVfs, mem_idx, and_assoc, and_comm (a := en = false ∨ n < g)]

theorem fnPresent_vfChange (n : Nat) (en : Bool) (s : State) (g : Nat) :
    (vfChange n en s).fnPresent g = (g == 0 || (g < 16 && en && g ≤ n)) := rfl

theorem exec_vfEnableChange {n : Nat} (hn : n < 16) (en : Bool) (s : State) : exec (.vfEnableChange n en) s = .next (vfChange n en s) :=
  if_neg (Nat.not_le.mpr hn)

/-- R71, R361. A function that is present after the change keeps its mailbox. -/
theorem fn_vfChange_of_present {n g : Nat} {en : Bool} {s : State} (h : (vfChange n en s).fnPresent g = true) :
    (vfChange n en s).fn g = s.fn g := by
  refine fn_leave_of_notMem (fun hmem => ?_) s
  obtain ⟨-, -, hne, hleft⟩ := mem_leaving.mp hmem
  rw [fnPresent_vfChange] at h
  rcases hleft with rfl | hleft
  · simp [hne] at h
  · simp [hne, Nat.not_le.mpr hleft] at h

/-- R71, R361. A function that was present and is no more has an empty mailbox. -/
theorem fn_vfChange_of_absent {n g : Nat} {en : Bool} {s : State} (hpos : 0 < g) (hpresent : s.fnPresent g = true)
    (h : (vfChange n en s).fnPresent g = false) : ((vfChange n en s).fn g).Empty := by
  have hlt := lt_of_fnPresent hpresent
  refine fn_leave_of_mem (mem_leaving.mpr ⟨hlt, hpresent, hpos.ne', ?_⟩) hlt s
  rw [fnPresent_vfChange] at h
  cases en with
  | false => exact .inl rfl
  | true => simpa [hpos.ne', hlt] using h

/-- Settles O23: the reset clears the function's mailbox, target and routed sources; a function that leaves is reset. -/
theorem functionsResetAndLeave : Obligations.FunctionsResetAndLeave := by
  unfold Obligations.FunctionsResetAndLeave
  refine ⟨fun f s hpos hpresent => ?_, fun n en s hn => ?_⟩
  · have hf := lt_of_fnPresent hpresent
    obtain ⟨irq, h⟩ := resetFunction_eq f s
    have hfn : (resetFunction f s).fn f = (s.fn f).cleared := by rw [fn_resetFunction, if_pos ⟨rfl, hf⟩]
    have hothers (g : Nat) (hg : g ≠ f) : (resetFunction f s).fn g = s.fn g := by
      rw [fn_resetFunction, if_neg fun h => hg h.1.symm]
    refine ⟨_, exec_functionLevelReset hpos hpresent, ?_, ?_, ?_⟩
    · rw [h]
    · rw [h]
      rfl
    · rw [hfn, target_resetFunction hf]
      exact ⟨rfl, rfl, rfl, rfl, rfl, rfl, rfl, rfl, rfl, rfl, rfl, rfl, hothers, rfl, rfl, rfl, rfl, fun _ => src_resetFunction f s⟩
  · exact ⟨_, exec_vfEnableChange hn en s, rfl, rfl, fn_vfChange_of_present rfl,
      fun g hpos hpresent => fn_vfChange_of_absent hpos hpresent, fun g _ => fn_vfChange_of_present⟩

end Sys2Proof.Machine
end

section
/-!
PROOF. Events of elapsed time at the mailboxes: promotion, conditions set again while the tick is stopped, and the expiry of a challenge (O24).
-/
namespace Sys2Proof.Machine

/-! ### Promotion (R84, R85) -/

/-- R84. While the tick runs an entry is promoted by the boundaries it has waited alone. -/
theorem promotedNow_of_tickRun {s : State} (h : s.time.tickRun = true) (q : QEntry) :
    promotedNow s q = (q.promoted || decide (8 ≤ q.waited)) := by
  rw [promotedNow, stoppedAge, if_pos h, Nat.add_zero]

theorem exec_requestPromotion {s : State} (h : s.time.tickRun = true) : exec .requestPromotion s = .next (promoteDue s) := by
  show execRequestPromotion s = _
  rw [execRequestPromotion, if_pos h]

theorem reqQ_promoteDue {s : State} {f : Nat} (hf : f < 16) :
    ((promoteDue s).fn f).reqQ = (s.fn f).reqQ.map fun q => { q with promoted := promotedNow s q } :=
  congrArg Fn.reqQ (tget_map s.fns _ hf)

/-! ### Conditions that hold (R133, R135, R136) -/

/-- R132, R133. A level source within the table, and a bit of its cause word. -/
def LevelCause (p : Nat × Nat) : Prop := p.1 < 512 ∧ sourceKind p.1 = some true ∧ p.2 < 32

/-- R132. The tables of level sources, of one for each channel or decode stream. -/
theorem sourceKind_channel : ∀ base ∈ [32, 64, 128, 160], ∀ c < 32, base + c < 512 ∧ sourceKind (base + c) = some true := by decide

theorem levelCause_channel {base c bit : Nat} (hbase : base ∈ [32, 64, 128, 160]) (hc : c < 32) (hbit : bit < 32) :
    LevelCause (base + c, bit) := by
  obtain ⟨hlt, hlevel⟩ := sourceKind_channel base hbase c hc
  exact ⟨hlt, hlevel, hbit⟩

theorem mem_of_mem_ite {α : Type} {c : Prop} [Decidable c] {a b : α} (h : b ∈ if c then [a] else []) : b = a := by
  split at h
  · exact List.mem_singleton.mp h
  · cases h

/-- R136. Each condition of a channel is a cause of one of its level sources. -/
theorem levelCause_of_chanConditions {s : State} {c : Nat} (hc : c < 32) {p : Nat × Nat} (h : p ∈ chanConditions s c) : LevelCause p := by
  simp only [chanConditions, List.mem_append] at h
  rcases h with (((h | h) | h) | h) | h <;> exact mem_of_mem_ite h ▸ levelCause_channel (by decide) hc (by decide)

/-- R133, R136. Every condition is a cause of a level source. -/
theorem levelCause_of_conditions {s : State} {p : Nat × Nat} (h : p ∈ conditions s) : LevelCause p := by
  simp only [conditions, List.mem_append] at h
  obtain ((((h | h) | h) | h) | h) | h := h
  · obtain ⟨c, hc, hp⟩ := List.mem_flatMap.mp h
    exact levelCause_of_chanConditions (Nat.lt_of_lt_of_le (List.mem_range.mp hc) (nChan_le s)) hp
  · obtain ⟨d, hd, rfl⟩ := List.mem_map.mp h
    exact levelCause_channel (by decide) (mem_idx_lt hd) (by decide)
  all_goals exact mem_of_mem_ite h ▸ ⟨by decide, by decide, by decide⟩

/-! ### Setting them again (R135) -/

@[simp] theorem sourcePresent_raise (m bit n : Nat) (s : State) : sourcePresent (raise m bit s) n = sourcePresent s n := by
  rw [raise_eq]
  rfl

/-- R135. Firmware's side takes every event of a present source. -/
theorem fwSrc_raise (m bit : Nat) (s : State) : (raise m bit s).irq.fwSrc =
    if sourcePresent s m then tmod s.irq.fwSrc m (Source.event ((sourceKind m).getD false) bit) else s.irq.fwSrc := by
  unfold raise
  split
  · simp only
    split
    · rw [resignal_eq]
      rfl
    · rfl
  · rfl

/-- R135. An event clears no cause bit. -/
theorem cause_event {lvl : Bool} {bit b : Nat} {x : Source} (h : x.cause.getLsbD b = true) : (x.event lvl bit).cause.getLsbD b = true := by
  unfold Source.event
  split
  · rw [BitVec.getLsbD_or, h, Bool.true_or]
  · split <;> exact h

theorem cause_raise_of_set {m bit n b : Nat} {s : State} (h : (tget s.irq.fwSrc n).cause.getLsbD b = true) :
    (tget (raise m bit s).irq.fwSrc n).cause.getLsbD b = true := by
  rw [fwSrc_raise]
  split
  · rw [tget_tmod]
    split
    · exact cause_event h
    · exact h
  · exact h

/-- R135. Of the events of a list every one at a present level source has set its cause. -/
theorem cause_forEach_raise {l : List (Nat × Nat)} (hl : ∀ p ∈ l, LevelCause p) {p : Nat × Nat} (hp : p ∈ l) {s : State}
    (h : sourcePresent s p.1 = true) : (tget (forEach l (fun p => raise p.1 p.2) s).irq.fwSrc p.1).cause.getLsbD p.2 = true := by
  induction l generalizing s with
  | nil => cases hp
  | cons a r ih =>
    rw [forEach_cons]
    rcases List.mem_cons.mp hp with rfl | hr
    · obtain ⟨hn, hlevel, hbit⟩ := hl p List.mem_cons_self
      exact forEach_keeps (fun t => (tget t.irq.fwSrc p.1).cause.getLsbD p.2 = true) r _ _ (cause_raise hn hlevel hbit h)
        fun _ _ _ => cause_raise_of_set
    · exact ih (fun q hq => hl q (List.mem_cons_of_mem _ hq)) hr (by rwa [sourcePresent_raise])

@[simp] theorem time_reassert (s : State) : (reassert s).time = s.time := forEach_same State.time _ _ s fun _ _ _ => time_raise ..

/-- R135. The next instant of 33,333,333 ns since the tick stopped. -/
def nextInstant (s : State) : Nat := s.time.stoppedAt + 33333333 * (s.time.stoppedInstants + 1)

/-- R135. Time at that instant, which is counted. -/
def atInstant (s : State) : State :=
  modTime (fun t => { t with stoppedInstants := t.stoppedInstants + 1 }) (advanceElapsed (nextInstant s) s)

theorem exec_conditionReassert {s : State} (hruns : s.clockRuns = true) (htick : s.time.tickRun = false) :
    exec .conditionReassert s = .next (reassert (atInstant s)) := by
  show execConditionReassert s = _
  rw [execConditionReassert, hruns, htick]
  rfl

theorem stoppedInstants_atInstant (s : State) : (atInstant s).time.stoppedInstants = s.time.stoppedInstants + 1 := by
  simp only [atInstant, advanceElapsed, modTime_fuse, time_modTime, TimeBase.advance]
  split <;> rfl

theorem nextInstant_le {s : State} (h : s.time.refclk = true) : nextInstant s ≤ (atInstant s).time.elapsed :=
  (Nat.le_max_right ..).trans_eq (elapsed_advanceElapsed h _).symm

/-- R135. Time is none of the conditions. -/
theorem conditions_atInstant (s : State) : conditions (atInstant s) = conditions s := rfl

/-! ### The expiry of a challenge (R458) -/

theorem exec_challengeExpiry {f : Nat} (hf : f < 16) {s : State} {c : Challenge} (h : (s.fn f).challenge = some c) :
    exec (.challengeExpiry f) s = .next (modFn f (fun x => { x with challenge := none }) (advanceElapsed (c.issued + 5000000000) s)) := by
  show execChallengeExpiry f s = _
  rw [execChallengeExpiry, if_neg (Nat.not_le.mpr hf), h]

/-- Settles O24: each event carries time to its instant, and then does its one change. -/
theorem timedMailboxEvents : Obligations.TimedMailboxEvents := by
  unfold Obligations.TimedMailboxEvents
  refine fun s => ⟨fun htick => ⟨_, exec_requestPromotion htick, rfl, fun f hf => ?_⟩, fun hruns htick => ?_, fun f c hf hrefclk hc => ?_⟩
  · simp only [reqQ_promoteDue hf, promotedNow_of_tickRun htick]
  · refine ⟨_, exec_conditionReassert hruns htick, ?_, ?_, fun p hp hpresent => ?_⟩
    · rw [time_reassert, stoppedInstants_atInstant]
    · rw [time_reassert]
      exact nextInstant_le (refclk_of_clockRuns hruns)
    · exact cause_forEach_raise (fun _ => levelCause_of_conditions) ((conditions_atInstant s).symm ▸ hp) hpresent
  · refine ⟨_, exec_challengeExpiry hf hc, ?_, ?_, rfl⟩
    · rw [fn_modFn_same _ hf]
    · exact (Nat.le_max_right ..).trans_eq (elapsed_advanceElapsed hrefclk _).symm

end Sys2Proof.Machine
end

section
/-!
PROOF. The status windows of channels and flows (O37).
-/
namespace Sys2Proof.Machine

/-! ### The windows as BAR0 shows them (R94, R96, R97) -/

/-- R75. The registers of 0x2000 to 0x27FC are those of the channels' windows. -/
theorem bar0_window (s : State) (f : Nat) {off : Nat} (halign : off % 4 = 0) (hlow : 0x2000 ≤ off) (hhigh : off < 0x2800) :
    bar0 s f off =
      if (off - 0x2000) / 64 < s.nChan then windowWord (s.chan ((off - 0x2000) / 64)).window (off / 4 % 16) else 0 := by
  have hne : ∀ k, k < 0x2000 → off ≠ k := fun k hk => by omega
  have hnle : ∀ k, k < 0x2000 → ¬off ≤ k := fun k hk => by omega
  simp (disch := norm_num) only [bar0, halign, hne, hnle, hlow, hhigh, ne_eq, not_true, decide_true, decide_false, Bool.and_true,
    Bool.and_false, Bool.false_eq_true, if_true, if_false]

/-- R94. Word `i` of channel `c`'s window. -/
theorem bar0_channel {s : State} {c i off : Nat} (hc : c < s.nChan) (hi : i < 16) (hoff : off = 0x2000 + 64 * c + 4 * i) (f : Nat) :
    bar0 s f off = windowWord (s.chan c).window i := by
  have hlt := nChan_le s
  have hword : off / 4 % 16 = i := by omega
  have hchan : (off - 0x2000) / 64 = c := by omega
  rw [bar0_window s f (by omega) (by omega) (by omega), hword, hchan, if_pos hc]

/-! ### The update of a channel's window (R95, R96) -/

section
variable {c : Nat} {s : State} (hready : s.ready = true) (hc : c < s.nChan)

/-- R95. The sequence word of the next update. -/
def nextSeqWord (w : Vector Word 16) : Nat := (tget w 0).toNat + 2

theorem wOf_nextSeqWord (w : Vector Word 16) : wOf (nextSeqWord w) = tget w 0 + 2 := by
  simp [wOf, nextSeqWord, BitVec.ofNat_add]

include hready hc in
theorem exec_chanStatusUpdate : exec (.chanStatusUpdate c) s =
    .next (modChan c (fun x => { x with window := chanWindow s c (nextSeqWord x.window) }) s) := by
  show execChanStatusUpdate c s = _
  rw [execChanStatusUpdate, if_neg (Nat.not_le.mpr (Nat.lt_of_lt_of_le hc (nChan_le s))), hready, decide_eq_true hc]
  rfl

/-- R96. PRESENT, which a read adds, and ENABLED are the two lowest bits of the state word. -/
theorem chanStateWord_low (x : Chan) : chanStateWord x % 4 = 2 * b2n x.enabled := by
  have hbit : b2n x.enabled ≤ 1 := by cases x.enabled <;> decide
  unfold chanStateWord
  split <;> split <;> omega

theorem getLsbD_chanStateWord (x : Chan) : (wOf (chanStateWord x) ||| 1#32).getLsbD 0 = true ∧
    (wOf (chanStateWord x) ||| 1#32).getLsbD 1 = x.enabled := by
  have hlow := chanStateWord_low x
  have hbit : (chanStateWord x).testBit 1 = x.enabled := by
    rw [Nat.testBit_eq_decide_div_mod_eq, Nat.pow_one]
    cases he : x.enabled <;> simp [he, b2n] at hlow ⊢ <;> omega
  refine ⟨?_, ?_⟩
  · rw [BitVec.getLsbD_or]
    exact Bool.or_true _
  · rw [BitVec.getLsbD_or, wOf, BitVec.getLsbD_ofNat, hbit]
    exact Bool.or_false _

include hc in
/-- R96. What BAR0 shows once the window has been written. -/
theorem bar0_updated {i off : Nat} (hi : i < 16) (hoff : off = 0x2000 + 64 * c + 4 * i) (f : Nat) :
    bar0 (modChan c (fun x => { x with window := chanWindow s c (nextSeqWord x.window) }) s) f off =
      windowWord (chanWindow s c (nextSeqWord (s.chan c).window)) i := by
  rw [bar0_channel (s := modChan c _ s) hc hi hoff, chan_modChan_same s (Nat.lt_of_lt_of_le hc (nChan_le s))]
end

/-- R96. The words of a channel's window, one by one. -/
theorem windowWord_chanWindow (s : State) (c q : Nat) :
    windowWord (chanWindow s c q) 0 = wOf q ∧
    windowWord (chanWindow s c q) 1 = (wOf (chanStateWord (s.chan c)) ||| 1#32) ∧
    windowWord (chanWindow s c q) 2 = wOf (chanRecordWord (s.chan c)) ∧
    windowWord (chanWindow s c q) 4 = wOf (s.chan c).closed.1 ∧
    windowWord (chanWindow s c q) 5 = wOf ((s.chan c).closed.1 / 2 ^ 32) ∧
    windowWord (chanWindow s c q) 6 = wOf (s.chan c).closed.2 ∧
    windowWord (chanWindow s c q) 7 = wOf ((s.chan c).closed.2 / 2 ^ 32) ∧
    windowWord (chanWindow s c q) 8 = wOf ((s.chan c).trunc + 2 ^ 16 * (s.chan c).drop) ∧
    windowWord (chanWindow s c q) 9 = wOf ((s.chan c).ovrPipe + 2 ^ 16 * (s.chan c).ovrEnc) :=
  by simp [windowWord, chanWindow]

/-- R96. The record word of a channel that has closed none since enable. -/
theorem chanRecordWord_of_none {x : Chan} (h : x.lastRec = none) : chanRecordWord x = 0xFFFF0003 := by rw [chanRecordWord, h]

/-! ### The flow windows (R95, R97) -/

theorem nFlow_le (s : State) : s.nFlow ≤ 256 := by
  unfold State.nFlow
  split <;> omega

/-- A loop that changes each of its distinct flows. -/
theorem flow_forEach_modFlow (g : Nat → FlowRun → FlowRun) {l : List Nat} (hl : l.Nodup) (s : State) {m : Nat} (hm : m < 256) :
    (forEach l (fun k => modFlow k (g k)) s).flow m = if m ∈ l then g m (s.flow m) else s.flow m := by
  induction l generalizing s with
  | nil => simp
  | cons a r ih =>
    obtain ⟨ha, hr⟩ := List.nodup_cons.mp hl
    rw [forEach_cons, ih hr]
    by_cases ham : a = m
    · subst ham
      rw [if_neg ha, if_pos List.mem_cons_self, flow_modFlow_same s hm]
    · rw [flow_modFlow_ne s ham]
      simp only [List.mem_cons, Ne.symm ham, false_or]

/-- R95. The window of a flow after an update: the values taken, with the next sequence word. -/
def FlowRun.updated (x : FlowRun) : FlowRun := { x with window := tset x.snap 0 (wOf (nextSeqWord x.window)) }

/-- R95, R97. Every flow window the part has is written. -/
def updateFlowWindows (s : State) : State := forEach (List.range s.nFlow) (fun m => modFlow m FlowRun.updated) s

theorem flow_updateFlowWindows (s : State) (m : Nat) :
    (updateFlowWindows s).flow m = if m < s.nFlow then (s.flow m).updated else s.flow m := by
  by_cases hm : m < 256
  · rw [updateFlowWindows, flow_forEach_modFlow _ List.nodup_range s hm]
    simp only [List.mem_range]
  · have hbeyond (t : State) : t.flow m = default := tget_beyond _ (Nat.le_of_not_lt hm)
    rw [hbeyond, hbeyond, if_neg (by have := nFlow_le s; omega)]

theorem exec_flowStatusUpdate {s : State} (hready : s.ready = true) (htick : s.time.tickRun = true) (hpassed : 0 < s.time.passed) :
    exec .flowStatusUpdate s = .next (updateFlowWindows s) := by
  show execFlowStatusUpdate s = _
  rw [execFlowStatusUpdate, hready, htick, decide_eq_true hpassed]
  rfl

/-- Settles O37: BAR0 reads the words that the update of a window has written. -/
theorem statusWindows : Obligations.StatusWindows := by
  unfold Obligations.StatusWindows
  refine fun s hready => ⟨fun c f hc => ?_, fun htick hpassed => ?_⟩
  · have hlt : c < 32 := Nat.lt_of_lt_of_le hc (nChan_le s)
    obtain ⟨hseq, hstate, hrecord, hframe, hframeHi, hcapture, hcaptureHi, hdrops, hoverruns⟩ :=
      windowWord_chanWindow s c (nextSeqWord (s.chan c).window)
    obtain ⟨hpresent, henabled⟩ := getLsbD_chanStateWord (s.chan c)
    refine ⟨_, exec_chanStatusUpdate hready hc, rfl, fun d hd => chan_modChan_ne s hd.symm _, ?_, ?_, ?_, ?_, fun hnone => ?_,
      fun n k hclosed => ⟨?_, ?_, ?_, ?_⟩, ?_, ?_⟩
    · rw [chan_modChan_same s hlt]
    · rw [bar0_updated hc (i := 0) (by omega) (by omega), hseq, wOf_nextSeqWord, bar0_channel hc (i := 0) (by omega) (by omega)]
      rfl
    · rwa [bar0_updated hc (i := 1) (by omega) (by omega), hstate]
    · rwa [bar0_updated hc (i := 1) (by omega) (by omega), hstate]
    · rw [bar0_updated hc (i := 2) (by omega) (by omega), hrecord, chanRecordWord_of_none hnone]
      rfl
    · rw [bar0_updated hc (i := 4) (by omega) (by omega), hframe, hclosed]
      rfl
    · rw [bar0_updated hc (i := 5) (by omega) (by omega), hframeHi, hclosed]
      rfl
    · rw [bar0_updated hc (i := 6) (by omega) (by omega), hcapture, hclosed]
      rfl
    · rw [bar0_updated hc (i := 7) (by omega) (by omega), hcaptureHi, hclosed]
      rfl
    · rw [bar0_updated hc (i := 8) (by omega) (by omega), hdrops]
      rfl
    · rw [bar0_updated hc (i := 9) (by omega) (by omega), hoverruns]
      rfl
  · obtain ⟨flows, hflows⟩ := forEach_modFlow (List.range s.nFlow) (fun _ => FlowRun.updated) s
    refine ⟨_, exec_flowStatusUpdate hready htick hpassed, ?_, flow_updateFlowWindows s⟩
    rw [updateFlowWindows, hflows]

end Sys2Proof.Machine
end

section
/-!
PROOF. How a request in execution ends (O48): its response, what its wait leaves behind, and what completes it. The lemmas about responses,
waits and the request in execution serve O59 and O60 too.
-/
namespace Sys2Proof.Machine

/-! ### What two states that agree on what stays answer alike (R87, R103) -/

section
variable {s t : State} (h : steady t = steady s)
include h

theorem unheld_fn_of_steady (f : Nat) : (t.fn f).unheld = (s.fn f).unheld := by
  have hfns : t.fns.map Fn.unheld = s.fns.map Fn.unheld := congrArg (fun p => p.2.2.1) h
  by_cases hf : f < 16
  · have hget := congrArg (fun v => tget v f) hfns
    simp only [tget_map _ _ hf] at hget
    exact hget
  · rw [State.fn, State.fn, tget_beyond _ (Nat.le_of_not_lt hf), tget_beyond _ (Nat.le_of_not_lt hf)]

theorem rspQ_of_steady (f : Nat) : (t.fn f).rspQ = (s.fn f).rspQ :=
  (congrArg Fn.rspQ (unheld_fn_of_steady h f) :)
theorem session_of_steady (f : Nat) : (t.fn f).session = (s.fn f).session :=
  (congrArg Fn.session (unheld_fn_of_steady h f) :)
theorem challenge_of_steady (f : Nat) : (t.fn f).challenge = (s.fn f).challenge :=
  (congrArg Fn.challenge (unheld_fn_of_steady h f) :)

theorem tickField_of_steady : t.tickField = s.tickField := by
  rw [State.tickField, State.tickField, tickRun_of_steady h, passed_of_steady h]
end

/-! ### The end of a request in execution (R87, R99, R103) -/

/-- R89. A response adds to what has left the block and takes nothing back. -/
theorem out_sendMsix_suffix (f v : Nat) (s : State) : s.out <:+ (sendMsix f v s).out := by
  unfold sendMsix
  split
  · exact List.suffix_rfl
  · exact List.suffix_cons ..

theorem out_postFinal_suffix (f : Nat) (e : Entry) (r : Response) (s : State) : s.out <:+ (postFinal f e r s).out := by
  unfold postFinal post
  simp only [out_modFn]
  split
  · exact out_sendMsix_suffix f 1 (modFn f _ s)
  · exact List.suffix_rfl

theorem out_finish_suffix (x : ExecEntry) (st : Byte) (pay : List Byte) (s : State) : s.out <:+ (finish x st pay s).out := by
  unfold finish finishAt
  simp only
  split
  · exact List.suffix_rfl
  · exact out_postFinal_suffix _ _ _ { s with exec := s.exec.erase x }

theorem finish_eq (x : ExecEntry) (st : Byte) (pay : List Byte) (s : State) : finish x st pay s =
    { s with exec := s.exec.erase x, fns := (finish x st pay s).fns, out := (finish x st pay s).out } := finishAt_eq ..

theorem exec_finish (x : ExecEntry) (st : Byte) (pay : List Byte) (s : State) : (finish x st pay s).exec = s.exec.erase x := exec_finishAt ..

section
variable {x : ExecEntry} (hlive : x.dead = false) (hf : x.func < 16) (st : Byte) (pay : List Byte) (s : State)
include hlive

theorem finish_live : finish x st pay s = postFinal x.func x.entry (response x.entry st s.tickField pay) { s with exec := s.exec.erase x } := by
  simp only [finish, finishAt, hlive, Bool.false_eq_true, if_false]

theorem fn_finish_ne {g : Nat} (hg : g ≠ x.func) : (finish x st pay s).fn g = s.fn g := by
  rw [finish_live hlive]
  exact postFinal_other hg ..

include hf

theorem rspQ_finish : ((finish x st pay s).fn x.func).rspQ = (s.fn x.func).rspQ ++ [response x.entry st s.tickField pay] := by
  rw [finish_live hlive]
  exact (postFinal_fn hf ..).1

theorem session_finish : ((finish x st pay s).fn x.func).session = (s.fn x.func).session := by
  rw [finish_live hlive]
  exact (postFinal_fn hf ..).2.2.2

/-- The same of a state that has done something first, of which what stays of `s` shows nothing. -/
theorem rspQ_finish_of_steady {t : State} (h : steady t = steady s) :
    ((finish x st pay t).fn x.func).rspQ = (s.fn x.func).rspQ ++ [response x.entry st s.tickField pay] := by
  rw [rspQ_finish hlive hf, rspQ_of_steady h, tickField_of_steady h]
end

/-! ### What a wait's end brings to its command (R108, R118, R414) -/

theorem settle_done (n : Nat) (x : ExecEntry) (st : Byte) (pay : List Byte) (s : State) : settle n x (.done st pay, s) = finish x st pay s := by
  cases n <;> rfl

/-- A command that has ended has passed step 12, but where its firmware fails on a next-tick command. -/
theorem resumeOf_done {x : ExecEntry} {o : Op} {w : Wait} {s t : State} {st : Byte} {pay : List Byte}
    (ho : Op.ofCode x.entry.opcode.toNat = some o) (hr : o.behaviour.resume (x.ctx o) w s = (.done st pay, t))
    (hn : st ≠ St.internal ∨ o.info.timing ≠ .nextTick) : resumeOf x w s = (.done st pay, t) := by
  have hpass : (decide (st = St.internal) && (o.info.timing == .nextTick)) = false := by
    rcases hn with hn | hn <;> simp [hn]
  simp only [resumeOf, ho, hr, dataCheck, stepTwelve]
  rw [show (x.ctx o).op = o from rfl, hpass, Bool.false_and, if_neg Bool.false_ne_true]

/-- R118. Of the commands that write a buffer only an ENROL_PREPARE message does something once it is written: it keeps its candidate. -/
theorem resumeOf_dmaOut {x : ExecEntry}
    (h : ∃ o ∈ [Op.headIdGet, .roleAuditRead, .tarnPubkeyGet, .tarnSign, .roleUpdate], Op.ofCode x.entry.opcode.toNat = some o)
    (a : Nat) (d pay : List Byte) (s : State) : ∃ g, (resumeOf x (.dmaOut a d pay) s).2 = modRoles g s := by
  obtain ⟨o, hmem, ho⟩ := h
  fin_cases hmem
  · exact ⟨id, congrArg Prod.snd (resumeOf_done (st := St.ok) ho rfl (.inr (by decide)))⟩
  · exact ⟨id, congrArg Prod.snd (resumeOf_done (st := St.ok) ho rfl (.inr (by decide)))⟩
  · exact ⟨id, congrArg Prod.snd (resumeOf_done (st := St.ok) ho rfl (.inr (by decide)))⟩
  · exact ⟨id, congrArg Prod.snd (resumeOf_done (st := St.internal) ho rfl (.inr (by decide)))⟩
  · exact ⟨fun r => { r with candidate := some d }, congrArg Prod.snd (resumeOf_done (st := St.ok) (pay := pay) ho rfl (.inr (by decide)))⟩

/-! ### Waits that end without their event (R108, R118, R414) -/

theorem advanceElapsed_eq (at_ : Nat) (s : State) : advanceElapsed at_ s = { s with time := (advanceElapsed at_ s).time } := rfl

/-- Time that is carried forward changes no answer. -/
theorem tickField_advanceElapsed (at_ : Nat) (s : State) : (advanceElapsed at_ s).tickField = s.tickField := by
  simp only [advanceElapsed, modTime, TimeBase.advance]
  split <;> rfl

/-- R107, R108. What a head command that missed its deadline leaves behind is on its channel and on the buses. -/
theorem unattached_cancelHead (c f : Nat) (tag : BitVec 16) (s : State) : unattached (cancelHead c f tag s) = unattached s := by
  unfold cancelHead
  simp only
  exact (unattached_of_unbussed (unbussed_dropXfers _ _)).trans rfl

theorem unattached_dropPairing (x : ExecEntry) (s : State) : unattached (dropPairing x s) = unattached s := by
  unfold dropPairing
  split
  · exact forEach_same unattached _ _ _ fun _ _ _ => rfl
  · rfl

/-- What an abandoned wait can change: the flash's queue, the channels, and the buses with what leaves on them. -/
theorem abandonWait_eq (x : ExecEntry) (s : State) : ∃ queue chans buses out, abandonWait x s =
    { s with boot := { s.boot with queue := queue }, chans := chans, buses := buses, out := out } := by
  have hview {t u : State} (h : unattached t = unattached u) : t = { u with chans := t.chans, buses := t.buses, out := t.out } :=
    congrArg (fun v : State => { v with chans := t.chans, buses := t.buses, out := t.out }) h
  unfold abandonWait
  split
  · exact ⟨s.boot.queue, _, _, _, hview (unattached_cancelHead ..)⟩
  · exact ⟨s.boot.queue, _, _, _, hview (unattached_cancelHead ..)⟩
  · exact ⟨s.boot.queue.filter fun j => j.waiter != some (x.func, x.entry.req.tag), _, _, _,
      hview (u := modBoot (fun b => { b with queue := b.queue.filter fun j => j.waiter != some (x.func, x.entry.req.tag) }) s)
        (unattached_dropPairing x _)⟩
  · exact ⟨s.boot.queue, s.chans, s.buses, s.out, rfl⟩

/-- R108, R118. A request in execution is answered TIMEOUT: it leaves the list, and no other function notices. -/
def TimedOut (x : ExecEntry) (s t : State) : Prop :=
  t.exec = s.exec.erase x ∧ (t.fn x.func).rspQ = (s.fn x.func).rspQ ++ [response x.entry St.timeout s.tickField []] ∧
    ∀ g, g ≠ x.func → t.fn g = s.fn g

/-- R471. A record is added beside what boot and the flash hold. -/
theorem boot_auditNow (c : Ctx) (event : Nat) (detail : List Byte) (t : State) : (auditNow c event detail t).boot = t.boot := by
  have hview : outsidePairing (auditNow c event detail t) = outsidePairing t := by simp [auditNow, auditAt, clusterRead]
  exact congrArg (fun p => p.2.2) hview

section
variable {f tag : Nat} {x : ExecEntry} {s : State}

/-- R118. A transfer that fails changes nothing but the requests in execution and the mailboxes. -/
theorem dmaFailed_eq (t : State) : dmaFailed x t =
    { t with exec := (dmaFailed x t).exec, fns := (dmaFailed x t).fns, out := (dmaFailed x t).out } := by
  rw [dmaFailed, finish_eq]
  rfl

/-- R118. A transfer that fails. -/
theorem exec_dmaTransferFailed (h : findExec s f (BitVec.ofNat 16 tag) Wait.isDma = some x) (data : List Byte) :
    exec (.dmaTransferDone f tag false data) s = .next (dmaFailed x s) := by
  show execDmaTransferDone f tag false data s = _
  simp only [execDmaTransferDone, h]
  rfl

theorem exec_dmaTimeout (h : findExec s f (BitVec.ofNat 16 tag) Wait.isDma = some x) :
    exec (.dmaTimeout f tag) s = .next (dmaFailed x (advanceElapsed (x.since + 10000000) s)) := by
  show execDmaTimeout f tag s = _
  simp only [execDmaTimeout, h]

variable (hlive : x.dead = false) (hf : x.func < 16)
include hlive hf

theorem timedOut_finish {t : State} (hexec : t.exec = s.exec) (hrsp : (t.fn x.func).rspQ = (s.fn x.func).rspQ)
    (hfn : ∀ g, g ≠ x.func → t.fn g = s.fn g) (htick : t.tickField = s.tickField) : TimedOut x s (finish x St.timeout [] t) :=
  ⟨by rw [exec_finish, hexec], by rw [rspQ_finish hlive hf, hrsp, htick], fun g hg => (fn_finish_ne hlive _ _ _ hg).trans (hfn g hg)⟩

/-- R118, R458. A transfer that fails drops the challenge that a ROLE_OPEN had consumed. -/
theorem timedOut_dmaFailed {t : State} (hexec : t.exec = s.exec) (hfns : t.fns = s.fns) (htick : t.tickField = s.tickField) :
    TimedOut x s (dmaFailed x t) := by
  have hfn (g : Nat) : t.fn g = s.fn g := congrArg (fun v => tget v g) hfns
  refine timedOut_finish hlive hf hexec ?_ (fun g hg => (fn_modFn_ne t (Ne.symm hg) _).trans (hfn g)) htick
  rw [dropOpening, fn_modFn_same t hf]
  exact (congrArg Fn.rspQ (hfn x.func) :)

/-- R118. A DMA write that completes has reached the host, and is answered. -/
theorem dmaWrite_done (h : findExec s f (BitVec.ofNat 16 tag) Wait.isDma = some x) {a : Nat} {d pay : List Byte} (hwait : x.wait = .dmaOut a d pay)
    (ho : ∃ o ∈ [Op.headIdGet, .roleAuditRead, .tarnPubkeyGet, .tarnSign, .roleUpdate], Op.ofCode x.entry.opcode.toNat = some o)
    (data : List Byte) : ∃ t, exec (.dmaTransferDone f tag true data) s = .next t ∧ Output.dmaWrite x.func a d ∈ t.out ∧
      t.exec = s.exec.erase x ∧ (t.fn x.func).rspQ = (s.fn x.func).rspQ ++ [response x.entry St.ok s.tickField pay] := by
  obtain ⟨g, hg⟩ := resumeOf_dmaOut ho a d pay (emit (.dmaWrite x.func a d) s)
  have hexec : exec (.dmaTransferDone f tag true data) s = .next (finish x St.ok pay (modRoles g (emit (.dmaWrite x.func a d) s))) := by
    show execDmaTransferDone f tag true data s = _
    simp only [execDmaTransferDone, h, dmaDone, hwait, hg]
    rfl
  exact ⟨_, hexec, (out_finish_suffix ..).subset List.mem_cons_self, exec_finish .., rspQ_finish hlive hf ..⟩

/-- R108. A deferred command that times out leaves what its wait was for. -/
theorem timedOut_deferred {n : Nat} (h : findExec s f (BitVec.ofNat 16 tag) (fun w => !w.isDma && w != .tick) = some x)
    (hn : entryDeadline x = some n) : ∃ t, exec (.deferredTimeout f tag) s = .next t ∧ TimedOut x s t ∧
      t.time = (advanceElapsed (x.since + n) s).time := by
  obtain ⟨queue, chans, buses, out, habandon⟩ := abandonWait_eq x (advanceElapsed (x.since + n) s)
  have hexec : exec (.deferredTimeout f tag) s = .next (finish x St.timeout [] (abandonWait x (advanceElapsed (x.since + n) s))) := by
    show execDeferredTimeout f tag s = _
    simp only [execDeferredTimeout, h, hn]
  refine ⟨_, hexec, ?_, ?_⟩
  · rw [habandon]
    exact timedOut_finish hlive hf rfl rfl (fun _ _ => rfl) (tickField_advanceElapsed ..)
  · rw [habandon, finish_eq]

/-! ### Programs of the boot flash (R124, R414) -/

/-- R414. A request whose wait is abandoned is answered; what the flash keeps stays. -/
theorem abandoned (st : Byte) (u : State) : (finish x st [] (abandonWait x u)).exec = u.exec.erase x ∧
    (finish x st [] (abandonWait x u)).boot.flashBad = u.boot.flashBad ∧ (finish x st [] (abandonWait x u)).boot.saved = u.boot.saved ∧
    ((finish x st [] (abandonWait x u)).fn x.func).rspQ = (u.fn x.func).rspQ ++ [response x.entry st u.tickField []] := by
  obtain ⟨queue, chans, buses, out, habandon⟩ := abandonWait_eq x u
  rw [rspQ_finish hlive hf, exec_finish, finish_eq, habandon]
  exact ⟨rfl, rfl, rfl, rfl⟩

section
variable {j : FlashJob} {rest : List FlashJob} (hq : s.boot.queue = j :: rest) (hx : flashWaiter j s = some x)
include hq hx

/-- R414. A program that fails. -/
theorem flashProgram_fails : ∃ t, exec (.flashProgramDone false) s = .next t ∧ t.boot.flashBad = true ∧ t.exec = s.exec.erase x ∧
    t.boot.saved = s.boot.saved ∧ (t.fn x.func).rspQ = (s.fn x.func).rspQ ++ [response x.entry St.internal s.tickField []] := by
  obtain ⟨u, hu⟩ : ∃ u, u = modBoot (fun b => { b with queue := b.queue.tail, flashBad := true }) s := ⟨_, rfl⟩
  have hexec : exec (.flashProgramDone false) s = .next (finish x St.internal [] (abandonWait x u)) := by
    show execFlashProgramDone false s = _
    have hx' : flashWaiter j (modBoot (fun b => { b with queue := b.queue.tail, flashBad := true }) s) = some x := hx
    simp only [execFlashProgramDone, hq, flashDone, Bool.not_false, hx', hu]
    rfl
  obtain ⟨hleft, hbad, hsaved, hrsp⟩ := abandoned hlive hf St.internal u
  exact ⟨_, hexec, hbad.trans (by rw [hu]; rfl), hleft.trans (by rw [hu]; rfl), hsaved.trans (by rw [hu]; rfl), hrsp.trans (by rw [hu]; rfl)⟩

omit hlive hf in
/-- R414. A program that completes resumes its request, once the flash holds what it wrote. -/
theorem exec_flashProgramDone : exec (.flashProgramDone true) s = .next (settle 2 x (resumeOf x .flash
    (applyFlash j.work { s with boot := { s.boot with queue := rest, flashBad := false } }))) := by
  show execFlashProgramDone true s = _
  have hx' : flashWaiter j { s with boot := { s.boot with queue := rest, flashBad := false } } = some x := hx
  simp only [execFlashProgramDone, modBoot, hq, List.tail_cons, flashDone, Bool.not_true, hx']
  rfl

/-- R124. A generation of the configuration is kept, newest first, of two, and its number and size are answered. -/
theorem configSaved {k : SavedConfig} (hj : j.work = .config k) (ho : Op.ofCode x.entry.opcode.toNat = some .sysConfigSave) :
    ∃ t n, exec (.flashProgramDone true) s = .next t ∧ t.boot.queue = rest ∧ t.boot.flashBad = false ∧
      t.boot.saved = (k :: s.boot.saved).take 2 ∧ t.exec = s.exec.erase x ∧
      (t.fn x.func).rspQ = (s.fn x.func).rspQ ++ [response x.entry St.ok s.tickField (le 4 n ++ le 4 k.gen)] := by
  obtain ⟨u, hu⟩ : ∃ u, u = applyFlash (.config k) { s with boot := { s.boot with queue := rest, flashBad := false } } := ⟨_, rfl⟩
  obtain ⟨n, hn⟩ : ∃ n, n = Config.freeNat u.fresh % 4294967296 := ⟨_, rfl⟩
  obtain ⟨t, ht⟩ : ∃ t, t = auditNow (x.ctx .sysConfigSave) 0x62 (le 4 k.gen ++ le 4 n) { u with fresh := u.fresh + 1 } := ⟨_, rfl⟩
  have hsteady : steady t = steady u := by rw [ht]; simp
  have hboot : t.boot = u.boot := by rw [ht]; exact boot_auditNow ..
  have hresume : resumeOf x .flash u = (.done St.ok (le 4 n ++ le 4 k.gen), t) :=
    resumeOf_done ho (by rw [ht, hn, hu]; rfl) (.inr (by decide))
  have hexec : exec (.flashProgramDone true) s = .next (finish x St.ok (le 4 n ++ le 4 k.gen) t) := by
    rw [exec_flashProgramDone hq hx, hj, ← hu, hresume, settle_done]
  refine ⟨_, n, hexec, ?_, ?_, ?_, ?_, (rspQ_finish_of_steady hlive hf _ _ u hsteady).trans (by rw [hu]; rfl)⟩
  · rw [finish_eq]
    exact (congrArg Boot.queue hboot).trans (by rw [hu]; rfl)
  · rw [finish_eq]
    exact (congrArg Boot.flashBad hboot).trans (by rw [hu]; rfl)
  · rw [finish_eq]
    exact (congrArg Boot.saved hboot).trans (by rw [hu]; rfl)
  · rw [exec_finish, show t.exec = u.exec from (congrArg (fun p => p.2.2.2.1) hsteady :), hu]
    rfl
end
end

/-- Settles O48: a wait that ends without its event is answered TIMEOUT, and one that ends with it goes on as its command says. -/
theorem waitsEnd : Obligations.WaitsEnd := by
  unfold Obligations.WaitsEnd
  intro f tag x s hlive hf
  refine ⟨fun h => ⟨fun data => ?_, ?_, fun a d pay data hwait ho => ?_⟩, fun n h hn => ?_, fun j rest hq hx => ⟨?_, fun k hj ho => ?_⟩⟩
  · exact ⟨_, exec_dmaTransferFailed h data, timedOut_dmaFailed hlive hf rfl rfl rfl, dmaFailed_eq s⟩
  · refine ⟨_, exec_dmaTimeout h, timedOut_dmaFailed hlive hf rfl rfl (tickField_advanceElapsed ..), ?_, fun hclk => ?_⟩
    · rw [dmaFailed_eq]
      rfl
    · rw [dmaFailed_eq]
      exact (elapsed_advanceElapsed hclk _).ge.trans' (le_max_right ..)
  · obtain ⟨t, hexec, hout, hleft, hrsp⟩ := dmaWrite_done hlive hf h hwait ho data
    exact ⟨t, hexec, hout, hleft, _, hrsp⟩
  · obtain ⟨t, hexec, htimed, htime⟩ := timedOut_deferred hlive hf h hn
    refine ⟨t, hexec, htimed, fun hclk => ?_⟩
    rw [htime, elapsed_advanceElapsed hclk]
    exact le_max_right ..
  · exact flashProgram_fails hlive hf hq hx
  · exact configSaved hlive hf hq hx hj ho

end Sys2Proof.Machine
end

section
/-!
PROOF. What a command with a buffer and a deferred command do as they are executed (O59).
-/
namespace Sys2Proof.Machine

/-! ### What the checks of a served request have found (R105) -/

theorem eq_true_of_need {b : Bool} {e : Byte} (h : need b e = none) : b = true := by
  cases b
  · exact absurd h (Option.some_ne_none e)
  · rfl

/-- A list of checks none of which fails. -/
theorem none_of_firstOf {l : List (Option Byte)} (h : firstOf l = none) : ∀ a ∈ l, a = none := by
  induction l with
  | nil => exact fun _ ha => absurd ha List.not_mem_nil
  | cons a r ih =>
    cases a with
    | some e => exact absurd h (Option.some_ne_none e)
    | none => exact List.forall_mem_cons.mpr ⟨rfl, ih h⟩

theorem none_of_sooner {a b : Option Byte} (h : sooner a b = none) : a = none := by
  cases a with
  | none => rfl
  | some a => cases b <;> exact absurd h (Option.some_ne_none _)

theorem nil_of_memberAnswer {k : Sel} {q : Request} {bad : List (Nat × Byte)} (h : memberAnswer k q bad = none) : bad = [] := by
  cases bad with
  | nil => rfl
  | cons a r =>
    simp only [memberAnswer] at h
    split at h <;> exact absurd h (Option.some_ne_none _)

section
variable {o : Op} {f : Nat} {q : Request} {s : State} (h : served o f q s = true)
include h

theorem refusal_of_served : refusal (atMailbox f s) (ctxOf o f q s) = none := by
  simp only [served, Bool.and_eq_true, Option.isNone_iff_eq_none] at h
  exact h.1.2

theorem lt_of_served : f < 16 := by
  simp only [served, Bool.and_eq_true] at h
  exact lt_of_fnPresent h.1.1.1.1.1

/-- R105 step 6. Every member that a served request names is there. -/
theorem present_of_served : selPresent (atMailbox f s) o.info.sel (ctxOf o f q s).members = true := by
  have hr := refusal_of_served h
  simp only [refusal] at hr
  split at hr
  · exact absurd hr (Option.some_ne_none _)
  · next hsteps =>
    have hstep := none_of_firstOf hsteps _ (List.mem_cons_of_mem _ (List.mem_cons_of_mem _ (List.mem_cons_of_mem _ (List.mem_cons_of_mem _ List.mem_cons_self))))
    exact (Bool.and_eq_true_iff.mp (eq_true_of_need hstep)).1

/-- R105 step 10. The fields of a served request are in range. -/
theorem fields_of_served : o.behaviour.fields (atMailbox f s) (ctxOf o f q s) = none := by
  have hr := refusal_of_served h
  simp only [refusal] at hr
  split at hr
  · exact absurd hr (Option.some_ne_none _)
  · next hsteps => exact none_of_firstOf hsteps _ (by simp [ctxOf, contextOf])

/-- R105 step 11. No member of a served request is in a state that forbids it. -/
theorem member_of_served {m : Nat} (hm : m ∈ if o.info.sel == .none then [0] else (ctxOf o f q s).members) :
    o.behaviour.member (atMailbox f s) (ctxOf o f q s) m = none := by
  have hr := refusal_of_served h
  simp only [refusal] at hr
  split at hr
  · exact absurd hr (Option.some_ne_none _)
  · have hbad := List.filterMap_eq_nil_iff.mp (nil_of_memberAnswer hr) m hm
    exact none_of_sooner (Option.map_eq_none_iff.mp hbad)
end

/-! ### The buffer of a request (R117, R118) -/

section
variable {f : Nat} {q : Request} {s : State}

/-- A command that begins by reading its buffer. -/
theorem command_reads {o : Op} {a n : Nat} (h : served o f q s = true)
    (hr : o.behaviour.run (ctxOf o f q s) (atMailbox f s) = (.wait (.dma a n), atMailbox f s)) :
    command o f q s = waiting o f q (.dma a n) s (atMailbox f s) :=
  command_wait h hr (by simp) (by simp) rfl rfl

/-- A command with nothing to read or to write answers at once. -/
theorem command_nothing {o : Op} {t : State} (h : served o f q s = true) (hr : o.behaviour.run (ctxOf o f q s) (atMailbox f s) = (.done St.ok [], t))
    (he : t.exec = s.exec) : command o f q s = replied o f q St.ok [] t :=
  command_done h (.inl (by decide)) hr he

theorem exec_decFeed (h : served .decFeed f q s = true) :
    ((q.dma 20).2 = 0 → exec (.decFeed f q) s = .next (replied .decFeed f q St.ok [] (feed (q.u 16 1) [] (q.bit 17 0) (atMailbox f s)))) ∧
    ((q.dma 20).2 ≠ 0 → exec (.decFeed f q) s = .next (waiting .decFeed f q (.dma (q.dma 20).1 (q.dma 20).2) s (atMailbox f s))) := by
  exact ⟨fun hlen => congrArg _ (command_nothing h (if_pos hlen) rfl), fun hlen => congrArg _ (command_reads h (if_neg hlen))⟩

/-- R458. The challenge that a ROLE_OPEN consumes, under its tag, where it is live and for the role and slot named. -/
def consumed (c : Ctx) (s : State) : List (BitVec 16 × Challenge) :=
  ((s.fn c.f).challenge.filter (challengeMatches s c)).toList.map (Prod.mk c.q.tag)

theorem run_roleOpenB (c : Ctx) (s : State) : roleOpenB.run c s =
    (.wait (.dma (c.q.dma 20).1 64), modFn c.f (fun x => { x with challenge := none, opening := consumed c s ++ x.opening }) s) := by
  simp only [roleOpenB, consumed]
  cases (s.fn c.f).challenge.filter (challengeMatches s c) with
  | none => rfl
  | some x => exact congrArg (Prod.mk _) (modFn_modFn_fuse ..)

theorem exec_roleOpen (h : served .roleOpen f q s = true) :
    exec (.roleOpen f q) s = .next (waiting .roleOpen f q (.dma (q.dma 20).1 64) s
      (modFn f (fun x => { x with challenge := none, opening := consumed (ctxOf .roleOpen f q s) (atMailbox f s) ++ x.opening }) (atMailbox f s))) :=
  congrArg _ (command_wait h (run_roleOpenB ..) (by simp) (by simp) rfl rfl)

theorem consumed_of_matches {c : Challenge} (hc : (s.fn f).challenge = some c) (hlive : s.time.elapsed < c.issued + 5000000000)
    (hrole : c.role = q.u 16 1) (hslot : c.slot = q.u 17 1) : consumed (ctxOf .roleOpen f q s) (atMailbox f s) = [(q.tag, c)] := by
  have hmatch : challengeMatches (atMailbox f s) (ctxOf .roleOpen f q s) c = true := by
    simp only [challengeMatches, Bool.and_eq_true, decide_eq_true_eq, beq_iff_eq]
    exact ⟨⟨hlive, hrole⟩, hslot⟩
  have hch : ((atMailbox f s).fn (ctxOf .roleOpen f q s).f).challenge = some c := hc
  simp only [consumed, hch, Option.filter_some, hmatch, if_true]
  rfl

theorem exec_tarnSign (h : served .tarnSign f q s = true) :
    ((q.dma 32).2 = 0 → exec (.tarnSign f q) s = .next (replied .tarnSign f q St.ok [] (atMailbox f s))) ∧
    ((q.dma 32).2 ≠ 0 → (q.dma 20).2 ≠ 0 →
      exec (.tarnSign f q) s = .next (waiting .tarnSign f q (.dma (q.dma 20).1 (q.dma 20).2) s (atMailbox f s))) ∧
    ((q.dma 32).2 ≠ 0 → (q.dma 20).2 = 0 → s.tarn.pool.length < 32 →
      exec (.tarnSign f q) s = .next (waiting .tarnSign f q (.entropy 32 []) s (atMailbox f s))) := by
  refine ⟨fun hout => congrArg _ (command_nothing h (if_pos hout) rfl),
    fun hout hin => congrArg _ (command_reads h ((if_neg hout).trans (if_neg hin))), fun hout hin hpool => congrArg _ (command_entropy (t := atMailbox f s) h ?_ rfl ?_)⟩
  · exact (if_neg hout).trans ((if_pos hin).trans rfl)
  · exact if_neg (Nat.not_le.mpr hpool)

/-- R476. The records that a ROLE_AUDIT_READ gives. -/
def recordsFrom (q : Request) (s : State) : List (List Byte) :=
  (s.roles.audit.drop (max (q.u 16 4) (oldestSeq s) - oldestSeq s)).take ((q.dma 20).2 / 64)

/-- R476. Its payload. -/
def auditAnswer (q : Request) (s : State) : List Byte :=
  le 4 s.roles.nextSeq ++ le 2 (recordsFrom q s).length ++ le 1 (b2n (q.u 16 4 < oldestSeq s) + 2 * b2n s.roles.auditLost) ++ [0#8]

theorem exec_roleAuditRead (h : served .roleAuditRead f q s = true) : exec (.roleAuditRead f q) s = .next
    (if (recordsFrom q s).isEmpty then replied .roleAuditRead f q St.ok (auditAnswer q s) (atMailbox f s)
      else waiting .roleAuditRead f q (.dmaOut (q.dma 20).1 (recordsFrom q s).flatten (auditAnswer q s)) s (atMailbox f s)) := by
  split
  · next hnone => exact congrArg _ (command_done h (.inl (by decide)) (if_pos hnone) rfl)
  · next hsome => exact congrArg _ (command_wait h (if_neg hsome) (by simp) (by simp) rfl rfl)

theorem exec_tarnPubkeyGet (h : served .tarnPubkeyGet f q s = true) : exec (.tarnPubkeyGet f q) s = .next (
    if (q.dma 16).2 = 0 then replied .tarnPubkeyGet f q St.ok [] (atMailbox f s)
    else waiting .tarnPubkeyGet f q (.dmaOut (q.dma 16).1 (pubkeyBytes s) []) s (atMailbox f s)) := by
  split
  · next hnone => exact congrArg _ (command_nothing h (if_pos hnone) rfl)
  · next hsome => exact congrArg _ (command_wait h (if_neg hsome) (by simp) (by simp) rfl rfl)

/-! ### The flash, heads, buses and controllers (R124, R185, R191, R193, R526) -/

/-- R124. The generation that a save writes. -/
def nextGeneration (s : State) : Nat := match s.boot.saved with
  | x :: _ => (x.gen + 1) % 4294967296
  | [] => Config.freeNat s.fresh % 4294967296

theorem exec_sysConfigSave (h : served .sysConfigSave f q s = true) : exec (.sysConfigSave f q) s = .next (waiting .sysConfigSave f q .flash s
    (flashQueue (.config (configNow (nextGeneration s) s)) (some (f, q.tag)) { atMailbox f s with fresh := s.fresh + 1 })) :=
  congrArg _ (command_wait h rfl (by simp) (by simp) rfl rfl)

/-- R186. A check that is due on an attached channel. -/
theorem addCheck_of_attached {c : Nat} {why : CheckWhy} (hc : c < 32) (ha : (s.chan c).cfg.attach.isSome = true) :
    addCheck c why s = { s with chans := (addCheck c why s).chans } ∧
      ∃ k, ((addCheck c why s).chan c).head.checks = (s.chan c).head.checks ++ [k] ∧ k.why = why ∧ k.step = .due := by
  rw [addCheck, if_pos ha]
  refine ⟨rfl, { (default : Check) with why := why, step := .due, dueAt := s.time.elapsed }, ?_, rfl, rfl⟩
  rw [modHead, chan_modChan_same s hc]

/-- R191, R193. HEAD_PAIR and HEAD_ID_GET begin a check of the head. -/
theorem command_checks {o : Op} {m : Nat} {why : CheckWhy} (h : served o f q s = true) (ho : o.info.sel = .chan) (hm : (ctxOf o f q s).members = [m])
    (ha : (s.chan m).cfg.attach.isSome = true)
    (hr : o.behaviour.run (ctxOf o f q s) (atMailbox f s) = (.wait (.check ((ctxOf o f q s).members.headD 0)),
      addCheck ((ctxOf o f q s).members.headD 0) why (atMailbox f s))) :
    ∃ t, command o f q s = waiting o f q (.check m) s t ∧ t = { atMailbox f s with chans := t.chans } ∧
      ∃ k, (t.chan m).head.checks = (s.chan m).head.checks ++ [k] ∧ k.why = why ∧ k.step = .due := by
  have hlt : m < 32 := members_lt_of_chan (.inl ho) (hm ▸ List.mem_singleton.mpr rfl)
  rw [hm] at hr
  obtain ⟨hview, hcheck⟩ := addCheck_of_attached (s := atMailbox f s) (why := why) hlt ha
  exact ⟨_, command_wait h hr (by simp) (by simp) (congrArg State.exec hview :) (congrArg (fun t => t.time.elapsed) hview :), hview, hcheck⟩

theorem attached_of_headPair {m : Nat} (h : served .headPair f q s = true) (hm : (ctxOf .headPair f q s).members = [m]) :
    (s.chan m).cfg.attach.isSome = true := by
  have hmember := member_of_served h (m := m) (by rw [hm]; exact List.mem_singleton.mpr rfl)
  have hneed := eq_true_of_need (none_of_firstOf hmember _ (List.mem_cons_of_mem _ (List.mem_cons_of_mem _ (List.mem_cons_of_mem _ List.mem_cons_self))))
  exact (Bool.and_eq_true_iff.mp hneed).1

theorem attached_of_headIdGet {m : Nat} (h : served .headIdGet f q s = true) (hm : (ctxOf .headIdGet f q s).members = [m]) :
    (s.chan m).cfg.attach.isSome = true := by
  have hmember := member_of_served h (m := m) (by rw [hm]; exact List.mem_singleton.mpr rfl)
  exact eq_true_of_need (none_of_firstOf hmember _ (List.mem_cons_of_mem _ List.mem_cons_self))

/-- R186. A transfer that joins its bus is there, after the bus has begun what it can. -/
theorem mem_busSend {c : Nat} {a : Attach} (x : BusXfer) (ha : (s.chan c).cfg.attach = some a) (hbus : a.bus < 8) (hx : x.ch = c) (htodo : x.todo ≠ []) :
    ∃ y ∈ tget (busSend c x s).buses a.bus, y.use_ = x.use_ ∧ y.ch = c := by
  have hpush : x ∈ tget (busPush c x s).buses a.bus := by
    simp only [busPush, ha, tget_tmod_same _ hbus]
    simp
  have hattach : ((busPush c x s).chan c).cfg.attach = some a := by rw [busPush_eq]; exact ha
  simp only [busSend, ha, busRun]
  split
  · next hnil => rw [hnil] at hpush; exact absurd hpush List.not_mem_nil
  · next z rest hlist =>
    rw [hlist, List.mem_cons] at hpush
    split
    · exact ⟨x, hlist ▸ List.mem_cons.mpr hpush, rfl, hx⟩
    · split
      · simp only [emit, tget_tset_same _ hbus]
        rcases hpush with rfl | hrest
        · exact ⟨_, List.mem_cons_self, rfl, hx⟩
        · exact ⟨x, List.mem_cons_of_mem _ hrest, rfl, hx⟩
      · next hno =>
        simp only [tget_tset_same _ hbus]
        rcases hpush with rfl | hrest
        · obtain ⟨t, l, htl⟩ := List.exists_cons_of_ne_nil htodo
          exact absurd htl (hno a t l (hx ▸ hattach))
        · exact ⟨x, hrest, rfl, hx⟩

/-- R186. The other buses do not notice. -/
theorem bus_busSend_ne {c b : Nat} {a : Attach} (x : BusXfer) (ha : (s.chan c).cfg.attach = some a) (hb : b ≠ a.bus) :
    tget (busSend c x s).buses b = tget s.buses b := by
  have hpush : tget (busPush c x s).buses b = tget s.buses b := by
    simp only [busPush, ha, tget_tmod_ne _ hb.symm]
  simp only [busSend, ha, busRun]
  split
  · exact hpush
  · split
    · exact hpush
    · split <;> exact (tget_tset_ne _ hb.symm _).trans hpush

theorem busSend_eq (c : Nat) (x : BusXfer) : busSend c x s = { s with buses := (busSend c x s).buses, out := (busSend c x s).out } := by
  unfold busSend
  split
  · rfl
  · rw [busRun_eq, busPush_eq]

/-- R185. The transfer that HEAD_I3C_XFER puts on its bus. -/
def hostXfer (f : Nat) (q : Request) (m : Nat) : BusXfer := newXfer m .host (.hostXfer f q.tag) [⟨q.bytes 20 (q.u 17 1), q.u 18 1, q.bit 19 0⟩]

theorem exec_headI3cXfer {m : Nat} (hm : (ctxOf .headI3cXfer f q s).members = [m]) (h : served .headI3cXfer f q s = true) :
    exec (.headI3cXfer f q) s = .next (waiting .headI3cXfer f q (.bus m) s (busSend m (hostXfer f q m) (atMailbox f s))) := by
  have hview := busSend_eq (s := atMailbox f s) m (hostXfer f q m)
  refine congrArg _ (command_wait h ?_ (by simp) (by simp) (congrArg State.exec hview :) (congrArg (fun t => t.time.elapsed) hview :))
  show (Reply.wait (.bus ((ctxOf .headI3cXfer f q s).members.headD 0)), busSend ((ctxOf .headI3cXfer f q s).members.headD 0) _ _) = _
  rw [hm]
  rfl

/-- R526. The controllers that a PWR_SELF_REFRESH takes towards the state it names. -/
def srTaken (q : Request) (s : State) : List Nat := (srMask q).filter fun d => (s.dmcN d).selfRef != (q.u 17 1 == 0)

theorem srTaken_nodup (q : Request) (s : State) : (srTaken q s).Nodup := ((by decide : [0, 1].Nodup).filter _).filter _

theorem lt_of_srTaken {d : Nat} (h : d ∈ srTaken q s) : d < 2 := by
  have hmem : d ∈ [0, 1] := List.mem_of_mem_filter (List.mem_of_mem_filter h)
  fin_cases hmem <;> decide

/-- R527, R528. A controller on its way into or out of self-refresh. -/
def srSent (q : Request) (x : Dmc) : Dmc := if q.u 17 1 = 0 then { x with entering := true } else { x with leaving := true }

/-- All of the state but the memory controllers. -/
def uncontrolled (s : State) : State := { s with dmc := default }

theorem forEach_modDmc {l : List Nat} (hl : l.Nodup) (hlt : ∀ d ∈ l, d < 2) (g : Dmc → Dmc) (s : State) :
    forEach l (fun d => modDmc d g) s = { s with dmc := (forEach l (fun d => modDmc d g) s).dmc } ∧
      (∀ d, d ∉ l → (forEach l (fun d => modDmc d g) s).dmcN d = s.dmcN d) ∧
      ∀ d, d ∈ l → (forEach l (fun d => modDmc d g) s).dmcN d = g (s.dmcN d) := by
  obtain ⟨hview, hother, hown⟩ := forEach_owned uncontrolled State.dmcN (fun _ x y => y = g x) hl (g := fun d => modDmc d g) (u := s) rfl
    fun d hd t _ => ⟨rfl, fun _ hc => dmcN_modDmc_ne t hc.symm g, dmcN_modDmc_same t (hlt d hd) g⟩
  exact ⟨congrArg (fun v : State => { v with dmc := (forEach l (fun d => modDmc d g) s).dmc }) hview, hother, hown⟩

theorem exec_pwrSelfRefresh (h : served .pwrSelfRefresh f q s = true) :
    (srTaken q s = [] → exec (.pwrSelfRefresh f q) s = .next (replied .pwrSelfRefresh f q St.ok [] (atMailbox f s))) ∧
    (srTaken q s ≠ [] → exec (.pwrSelfRefresh f q) s = .next (waiting .pwrSelfRefresh f q (.selfRefresh (sumOf (srTaken q s) fun d => 2 ^ d)) s
      (forEach (srTaken q s) (fun d => modDmc d (srSent q)) (atMailbox f s)))) := by
  refine ⟨fun hnone => congrArg _ (command_nothing h (if_pos (List.isEmpty_iff.mpr hnone)) rfl), fun hsome => ?_⟩
  have hview := (forEach_modDmc (srTaken_nodup q s) (fun _ => lt_of_srTaken) (srSent q) (atMailbox f s)).1
  refine congrArg _ (command_wait h ((if_neg (mt List.isEmpty_iff.mp hsome)).trans ?_) (by simp) (by simp)
    (congrArg State.exec hview :) (congrArg (fun t => t.time.elapsed) hview :))
  simp only [beq_iff_eq]
  rfl

end

/-- Settles O59: each of these commands is executed as its own part says, and answers at once where nothing is left to wait for. -/
theorem deferredCommandsBegin : Obligations.DeferredCommandsBegin := by
  unfold Obligations.DeferredCommandsBegin
  intro f q s
  refine ⟨?_, fun h => congrArg _ (command_reads h rfl), exec_decFeed, fun h => ?_, exec_tarnSign, fun h => ?_, exec_tarnPubkeyGet, fun h => ?_,
    fun m hm h => ?_, fun m hm h => ⟨fun hlen => congrArg _ (command_nothing h (if_pos hlen) rfl), fun hlen => ?_⟩, fun m a hm ha hbus h => ?_, fun h => ?_⟩
  · simp only [List.forall_mem_cons, List.not_mem_nil, false_imp_iff, implies_true, and_true]
    exact ⟨fun h => congrArg _ (command_reads h rfl), fun h => congrArg _ (command_reads h rfl), fun h => congrArg _ (command_reads h rfl),
      fun h => congrArg _ (command_reads h rfl), fun h => congrArg _ (command_reads h rfl)⟩
  · refine ⟨_, exec_roleOpen h, ?_, ?_, fun g hg => fn_modFn_ne _ hg.symm _, fun c hc hlive hrole hslot => ?_⟩
    · rw [fn_modFn_same _ (lt_of_served h)]
    · rw [fn_modFn_same _ (lt_of_served h)]
      rfl
    · rw [fn_modFn_same _ (lt_of_served h), consumed_of_matches hc hlive hrole hslot]
      rfl
  · refine ⟨auditAnswer q s, recordsFrom q s, ?_, ?_, List.length_take_le .., exec_roleAuditRead h⟩
    · simp [auditAnswer, le_length]
    · rw [recordsFrom, show max (q.u 16 4) (oldestSeq s) - oldestSeq s = q.u 16 4 - oldestSeq s by omega]
      exact List.take_prefix ..
  · refine ⟨_, _, exec_sysConfigSave h, rfl, rfl, rfl, rfl, rfl, fun x l hsaved => ?_⟩
    simp only [configNow, nextGeneration, hsaved]
    rfl
  · exact (command_checks h rfl hm (attached_of_headPair h hm) rfl).imp fun t ⟨hexec, ht⟩ => ⟨congrArg _ hexec, ht⟩
  · exact (command_checks h rfl hm (attached_of_headIdGet h hm) (if_neg hlen)).imp fun t ⟨hexec, ht⟩ => ⟨congrArg _ hexec, ht⟩
  · exact ⟨_, exec_headI3cXfer hm h, busSend_eq .., mem_busSend _ ha hbus rfl (by simp [hostXfer, newXfer]), fun b hb => bus_busSend_ne _ ha hb⟩
  · obtain ⟨hnone, hsome⟩ := exec_pwrSelfRefresh h
    refine ⟨hnone, fun hne => ?_⟩
    obtain ⟨hview, hother, hown⟩ := forEach_modDmc (srTaken_nodup q s) (fun _ => lt_of_srTaken) (srSent q) (atMailbox f s)
    exact ⟨_, hsome hne, hview, hother, hown⟩

end Sys2Proof.Machine
end

section
/-!
PROOF. How commands with a buffer go on (O60): a request in execution whose buffer has been read, whose program of the boot flash is done, or
whose boundary has come.
-/
namespace Sys2Proof.Machine

/-! ### A request with its buffer (R118) -/

/-- R118. The request with the data that a transfer of `n` bytes has brought it. -/
def ExecEntry.loaded (x : ExecEntry) (n : Nat) (data : List Byte) : ExecEntry := { x with data := fit n data }

/-- R118. The request as it waits on for its boundary, from the instant of `t`. -/
def ExecEntry.ticked (x : ExecEntry) (t : State) : ExecEntry := { x with wait := .tick, since := t.time.elapsed }

theorem ofCode_of_entry {x : ExecEntry} {o : Op} {q : Request} (h : x.entry = o.entry q) : Op.ofCode x.entry.opcode.toNat = some o := by
  rw [h]
  exact ofCode_entry o q

/-- R63, R108. With its buffer read, a command that step 12 admits waits for its boundary with its books made. -/
theorem resumeOf_admitted {x : ExecEntry} {o : Op} {w : Wait} {s t : State} {b : Books} (ho : Op.ofCode x.entry.opcode.toNat = some o)
    (hr : o.behaviour.resume (x.ctx o) w s = (.wait .tick, t)) (hd : dataCheck (x.ctx o) (.wait .tick, t) = (.wait .tick, t))
    (ha : admission s (x.ctx o) = some b) : resumeOf x w s = (.wait .tick, withBooks b t) := by
  simp only [resumeOf, ho, hr, hd, stepTwelve, ha]

theorem settle_tick (n : Nat) (x : ExecEntry) (s : State) : settle n x (.wait .tick, s) = updExec x (x.ticked s) s := by
  cases n <;> rfl

/-- R55, R108. At its boundary a pending command makes its effect, with the data it has. -/
theorem takesEffect_of_entry {x : ExecEntry} {o : Op} (ho : Op.ofCode x.entry.opcode.toNat = some o) (u : State) :
    takesEffect x u (o.behaviour.effect (x.ctx o) u) := by
  unfold takesEffect atBoundary takeEffects
  rw [forEach_cons, forEach_nil]
  simp only [ho]

/-- R103, R118. The request ends: it leaves the list, and its status is posted. -/
def Answered (x : ExecEntry) (st : Byte) (u t : State) : Prop :=
  t.exec.length + 1 = u.exec.length ∧ (t.fn x.func).rspQ = (u.fn x.func).rspQ ++ [response x.entry st u.tickField []]

section
variable {f tag : Nat} {x : ExecEntry} {u t : State} {a n : Nat} (h : dmaWaits u f tag = some x) (hwait : x.wait = .dma a n)

section
include h

theorem mem_of_dmaWaits : x ∈ u.exec := List.mem_of_find?_eq_some h

include hwait

/-- R118. A read that completes resumes its request with the data. -/
theorem exec_dmaRead (data : List Byte) : exec (.dmaTransferDone f tag true data) u =
    .next (settle 2 (x.loaded n data) (resumeOf (x.loaded n data) (.dma a n) (updExec x (x.loaded n data) u))) := by
  have hfind : findExec u f (BitVec.ofNat 16 tag) Wait.isDma = some x := h
  have hdone : dmaDone x data u = settle 2 (x.loaded n data) (resumeOf (x.loaded n data) (.dma a n) (updExec x (x.loaded n data) u)) := by
    unfold dmaDone
    split
    · next hw =>
      cases hwait.symm.trans hw
      rfl
    · next hw => cases hwait.symm.trans hw
    · next hno _ => exact absurd hwait (hno a n)
  show execDmaTransferDone f tag true data u = _
  simp only [execDmaTransferDone, hfind, if_true, hdone]

theorem exec_dmaRead_done {st : Byte} {pay data : List Byte}
    (hr : resumeOf (x.loaded n data) (.dma a n) (updExec x (x.loaded n data) u) = (.done st pay, t)) :
    exec (.dmaTransferDone f tag true data) u = .next (finish (x.loaded n data) st pay t) := by
  rw [exec_dmaRead h hwait, hr, settle_done]

theorem exec_dmaRead_admitted {b : Books} {data : List Byte} {s : State}
    (hr : resumeOf (x.loaded n data) (.dma a n) (updExec x (x.loaded n data) u) = (.wait .tick, withBooks b s)) :
    exec (.dmaTransferDone f tag true data) u = .next (updExec (x.loaded n data) ((x.loaded n data).ticked s) (withBooks b s)) := by
  rw [exec_dmaRead h hwait, hr, settle_tick]
  rfl
end

variable (hlive : x.dead = false) (hf : x.func < 16)
include h hlive hf

theorem answered_finish {st : Byte} {data : List Byte} (hexec : t.exec = (updExec x (x.loaded n data) u).exec)
    (hrsp : (t.fn x.func).rspQ = (u.fn x.func).rspQ) (htick : t.tickField = u.tickField) :
    Answered x st u (finish (x.loaded n data) st [] t) := by
  have hmem : x.loaded n data ∈ (updExec x (x.loaded n data) u).exec := List.mem_map.mpr ⟨x, mem_of_dmaWaits h, if_pos rfl⟩
  refine ⟨?_, ?_⟩
  · rw [exec_finish, hexec, List.length_erase_of_mem hmem, Nat.sub_add_cancel (List.length_pos_of_mem hmem)]
    exact List.length_map _
  · rw [← hrsp, ← htick]
    exact rspQ_finish (x := x.loaded n data) hlive hf st [] t

theorem answered_finish_of_steady {st : Byte} {data : List Byte} (ht : steady t = steady (updExec x (x.loaded n data) u)) :
    Answered x st u (finish (x.loaded n data) st [] t) :=
  answered_finish h hlive hf (exec_of_steady ht) (rspQ_of_steady ht x.func) ((tickField_of_steady ht).trans rfl)

/-- The message of a request that only answers. -/
theorem answered_of_resume {o : Op} {q : Request} (ho : x.entry = o.entry q) (hwait : x.wait = .dma a n) {st : Byte} {data : List Byte}
    (hn : st ≠ St.internal ∨ o.info.timing ≠ .nextTick)
    (hr : o.behaviour.resume ((x.loaded n data).ctx o) (.dma a n) (updExec x (x.loaded n data) u) = (.done st [], t))
    (ht : steady t = steady (updExec x (x.loaded n data) u)) :
    ∃ v, exec (.dmaTransferDone f tag true data) u = .next v ∧ Answered x st u v ∧ v = finish (x.loaded n data) st [] t :=
  ⟨_, exec_dmaRead_done h hwait (resumeOf_done (ofCode_of_entry ho) hr hn), answered_finish_of_steady h hlive hf ht, rfl⟩
end

/-! ### What an audit record leaves as it is (R471, R472) -/

/-- All of the state but the audit log, its sources and messages, the cluster's latch, and the choices taken. -/
def unrecorded (s : State) : State :=
  { s with roles := { s.roles with audit := [], nextSeq := 0, auditLost := false }, time := { s.time with clusterHi := 0 }, irq := default, fns := default,
           out := default, fresh := 0 }

theorem unrecorded_raise (n bit : Nat) (s : State) : unrecorded (raise n bit s) = unrecorded s := by
  rw [raise_eq]
  rfl

theorem unrecorded_audit (event role slot func time : Nat) (detail : List Byte) (s : State) :
    unrecorded (audit event role slot func time detail s) = unrecorded s := by
  unfold audit
  simp only
  split
  · rfl
  · split
    · split
      · exact unrecorded_raise 204 0 _
      · rfl
    · rfl

theorem unrecorded_auditNow (c : Ctx) (event : Nat) (detail : List Byte) (s : State) : unrecorded (auditNow c event detail s) = unrecorded s := by
  refine (unrecorded_audit ..).trans ?_
  unfold clusterRead
  split <;> rfl

section
variable {s t : State} (h : unrecorded t = unrecorded s)
include h

theorem cls_of_unrecorded : t.cls = s.cls := (congrArg State.cls h :)
theorem tarn_of_unrecorded : t.tarn = s.tarn := (congrArg State.tarn h :)
theorem boot_of_unrecorded : t.boot = s.boot := (congrArg State.boot h :)
theorem counterLow_of_unrecorded : t.roles.counterLow = s.roles.counterLow := (congrArg (fun v => v.roles.counterLow) h :)

theorem credential_of_unrecorded (r slot : Nat) : credential t r slot = credential s r slot := by
  have hop : t.roles.operator = s.roles.operator := (congrArg (fun v => v.roles.operator) h :)
  have hin : t.roles.installer = s.roles.installer := (congrArg (fun v => v.roles.installer) h :)
  have hmk : t.roles.maker = s.roles.maker := (congrArg (fun v => v.roles.maker) h :)
  rw [credential, credential, hop, hin, hmk]
end

/-! ### DEC_FEED (R339) -/

theorem fit_ne_nil {n : Nat} (hn : 0 < n) (data : List Byte) : (fit n data).isEmpty = false := by
  rw [List.isEmpty_eq_false_iff, ← List.length_pos_iff, fit_length]
  exact hn

/-- R339. Bytes join the unit that is under way; with LAST the unit is complete. -/
theorem decS_feed {k : Nat} (hk : k < 32) {bytes : List Byte} (hb : bytes.isEmpty = false) (last : Bool) (s : State) :
    (∀ j, j ≠ k → (feed k bytes last s).decS j = s.decS j) ∧
    (last = false → ((feed k bytes last s).decS k).units = (s.decS k).units) ∧
    (last = true → ((feed k bytes last s).decS k).partial_ = none ∧
      ∃ v, ((feed k bytes last s).decS k).units = (s.decS k).units ++ [v] ∧ bytes <:+ v.bytes) := by
  refine ⟨fun j hj => tget_tmod_ne _ hj.symm _, fun hl => ?_, fun hl => ?_⟩
  · rw [feed, decS_modDec_same s hk]
    simp only [hb, hl, Bool.false_and, Bool.false_eq_true, if_false]
  · rw [feed, decS_modDec_same s hk]
    simp only [hb, hl, Bool.false_and, Bool.false_eq_true, if_false, if_true]
    exact ⟨trivial, _, rfl, List.suffix_append ..⟩

/-! ### ROLE_OPEN (R458, R459) -/

/-- R459. The signature of a ROLE_OPEN is good: `ch` is the challenge it consumed. -/
def openGood (c : Ctx) (ch : Option Challenge) (s : State) : Bool :=
  match ch with
  | some x => !s.tarn.tampered && x.role == c.q.u 16 1 && x.slot == c.q.u 17 1 && (credential s (c.q.u 16 1) (c.q.u 17 1)).isSome &&
      verify ((credential s (c.q.u 16 1) (c.q.u 17 1)).getD (zeros 64)) (hash (openMessage s x.nonce (c.q.u 16 1) (c.q.u 17 1) c.f)) (fit 64 c.data)
  | none => false

/-- R459. The state in which the session is open, or its refusal recorded. -/
def opened (c : Ctx) (good : Bool) (s : State) : State :=
  if good then modFn c.f (fun x => { x with session := some ⟨c.q.u 16 1, c.q.u 17 1⟩ })
    (auditNow c 0x01 (le 1 (((s.fn c.f).session.map Session.role).getD 0)) s)
  else auditNow c 0x02 (le 1 (c.q.u 16 1) ++ le 1 (c.q.u 17 1)) s

theorem openSession_eq {c : Ctx} {ch : Option Challenge} {s : State} (h : auditGuard s = true) :
    openSession c ch s = (.done (if openGood c ch s then St.ok else St.authFail) [], opened c (openGood c ch s) s) := by
  have hsession : openSession c ch s = if !auditGuard s then (.done St.internal [], s)
      else if openGood c ch s then (.done St.ok [], opened c true s) else (.done St.authFail [], opened c false s) := rfl
  rw [hsession, h]
  cases openGood c ch s <;> rfl

theorem openGood_of_tampered {c : Ctx} {ch : Option Challenge} {s : State} (h : s.tarn.tampered = true) : openGood c ch s = false := by
  cases ch with
  | none => rfl
  | some x => simp [openGood, h]

/-- What the end of a ROLE_OPEN changes of the mailboxes, and what it leaves. -/
theorem opened_spec {c : Ctx} (hc : c.f < 16) (good : Bool) (s : State) : (opened c good s).exec = s.exec ∧
    (opened c good s).tickField = s.tickField ∧ ((opened c good s).fn c.f).rspQ = (s.fn c.f).rspQ ∧
    ((opened c good s).fn c.f).challenge = (s.fn c.f).challenge ∧
    ((opened c good s).fn c.f).session = if good then some ⟨c.q.u 16 1, c.q.u 17 1⟩ else (s.fn c.f).session := by
  have haudit (event : Nat) (detail : List Byte) : steady (auditNow c event detail s) = steady s := steady_auditNow ..
  cases good with
  | false =>
    exact ⟨exec_of_steady (haudit ..), tickField_of_steady (haudit ..), rspQ_of_steady (haudit ..) _, challenge_of_steady (haudit ..) _,
      session_of_steady (haudit ..) _⟩
  | true =>
    have haudit := haudit 0x01 (le 1 (((s.fn c.f).session.map Session.role).getD 0))
    rw [opened, if_pos rfl]
    generalize auditNow c 0x01 _ s = t at haudit
    rw [fn_modFn_same t hc]
    exact ⟨exec_of_steady (t := t) haudit, tickField_of_steady (t := t) haudit, rspQ_of_steady haudit _, challenge_of_steady haudit _, rfl⟩

/-- R459. The challenge that the ROLE_OPEN of a context has consumed. -/
def openingOf (c : Ctx) (s : State) : Option Challenge := ((s.fn c.f).opening.find? fun p => p.1 == c.q.tag).map Prod.snd

/-- R459. The state without it. -/
def withoutOpening (c : Ctx) (s : State) : State := modFn c.f (fun y => { y with opening := y.opening.filter fun p => p.1 != c.q.tag }) s

theorem resume_roleOpenB {c : Ctx} {w : Wait} {s : State} (h : auditGuard s = true) : roleOpenB.resume c w s =
    (.done (if openGood c (openingOf c s) (withoutOpening c s) then St.ok else St.authFail) [],
      opened c (openGood c (openingOf c s) (withoutOpening c s)) (withoutOpening c s)) := openSession_eq (s := withoutOpening c s) h

theorem openingOf_eq_none {c : Ctx} {s : State} (h : ∀ ch, (c.q.tag, ch) ∉ (s.fn c.f).opening) : openingOf c s = none := by
  rw [openingOf, List.find?_eq_none.mpr, Option.map_none]
  rintro ⟨tag, ch⟩ hmem heq
  rw [show tag = c.q.tag from eq_of_beq heq] at hmem
  exact h ch hmem

theorem withoutOpening_spec {c : Ctx} (hc : c.f < 16) (s : State) : ((withoutOpening c s).fn c.f).rspQ = (s.fn c.f).rspQ ∧
    ((withoutOpening c s).fn c.f).session = (s.fn c.f).session ∧ ((withoutOpening c s).fn c.f).challenge = (s.fn c.f).challenge := by
  rw [withoutOpening, fn_modFn_same s hc]
  exact ⟨rfl, rfl, rfl⟩

/-! ### Loads of microcode (R502, R505) -/

/-- R502. An image that is good and signed is loaded at once; one that is not signed is refused. -/
theorem resume_seqImageLoadB {c : Ctx} {a n : Nat} {s : State} (hlen : (c.q.dma 16).2 = imageLen c.data) (hgood : imageGood c.data = true)
    (hstate : loadState c s = none) (hguard : auditGuard s = true) (hnow : c.q.bit 28 0 = false) :
    seqImageLoadB.resume c (.dma a n) s = if signedGood s c.data then finishLoad c s else (.done St.authFail [], s) := by
  show (if (c.q.dma 16).2 ≠ imageLen c.data then _ else _) = _
  rw [if_neg (not_not.mpr hlen), hgood, hstate, hguard, hnow]
  cases signedGood s c.data <;> rfl

/-- R502. A class as an image leaves it. -/
theorem cls_loadImage {k : Nat} (hk : k < 2) (vendor : Bool) (im : Image) (s : State) :
    (∀ j, j ≠ k → tget (loadImage k vendor im s).cls j = tget s.cls j) ∧
    if vendor then (tget (loadImage k vendor im s).cls k).vendorIn = true ∧ (tget (loadImage k vendor im s).cls k).vendorPatch = 0 ∧
      (tget (loadImage k vendor im s).cls k).vendorVer = im.version
    else (tget (loadImage k vendor im s).cls k).openIn = true ∧ (tget (loadImage k vendor im s).cls k).openPatch = 0 ∧
      (tget (loadImage k vendor im s).cls k).openVer = im.version := by
  refine ⟨fun j hj => tget_tmod_ne _ hj.symm _, ?_⟩
  simp only [loadImage, modCls, tget_tmod_same _ hk]
  cases vendor <;> exact ⟨rfl, rfl, rfl⟩

/-- R502. Class and state after a load. -/
theorem finishLoad_spec {c : Ctx} (hk : field c.data 5 1 < 2) (s : State) : ∃ t, finishLoad c s = (.done St.ok [], t) ∧ steady t = steady s ∧
    (∀ j, j ≠ field c.data 5 1 → tget t.cls j = tget s.cls j) ∧
    if field c.data 6 1 = 0 then (tget t.cls (field c.data 5 1)).vendorIn = true ∧ (tget t.cls (field c.data 5 1)).vendorPatch = 0 ∧
      (tget t.cls (field c.data 5 1)).vendorVer = field c.data 8 4
    else (tget t.cls (field c.data 5 1)).openIn = true ∧ (tget t.cls (field c.data 5 1)).openPatch = 0 ∧
      (tget t.cls (field c.data 5 1)).openVer = field c.data 8 4 := by
  refine ⟨_, rfl, ?_, ?_⟩
  · simp [loadImage]
  · rw [cls_of_unrecorded ((unrecorded_auditNow ..).trans (unrecorded_raise ..))]
    obtain ⟨hother, hown⟩ := cls_loadImage hk (field c.data 6 1 == 0) (imageOf s c.data) s
    refine ⟨hother, ?_⟩
    by_cases hr : field c.data 6 1 = 0
    · simpa [hr, imageOf] using hown
    · simpa [hr, imageOf] using hown

/-- R505. The level of a patch, in force in its class. -/
theorem cls_applyPatch {k : Nat} (hk : k < 2) (vendor : Bool) (p : Patch) (s : State) :
    (∀ j, j ≠ k → tget (raise 240 0 (applyPatch k vendor p s)).cls j = tget s.cls j) ∧
    if vendor then (tget (raise 240 0 (applyPatch k vendor p s)).cls k).vendorPatch = p.level
    else (tget (raise 240 0 (applyPatch k vendor p s)).cls k).openPatch = p.level := by
  rw [cls_of_unrecorded (unrecorded_raise ..)]
  refine ⟨fun j hj => tget_tmod_ne _ hj.symm _, ?_⟩
  simp only [applyPatch, modCls, tget_tmod_same _ hk]
  cases vendor with
  | true => rfl
  | false =>
    simp only [Bool.false_eq_true, if_false]
    split <;> rfl

end Sys2Proof.Machine
end

section
/-!
PROOF. What a table, a template, a pairing and a credential leave as they come into force (O60).
-/
namespace Sys2Proof.Machine

/-- R114. A loop that may turn to a member more than once, where turns of one member add up to what a single one does. -/
theorem forEach_repeated {β γ : Type} (view : State → β) (own : State → Nat → γ) (N : Nat) {R : γ → γ → Prop}
    (hR : ∀ x y z, R x y → R y z → R x z) {l : List Nat} {g : Nat → State → State} (h : ∀ m t,
      view (g m t) = view t ∧ (∀ c, c ≠ m → own (g m t) c = own t c) ∧ (m < N → R (own t m) (own (g m t) m))) (u : State) :
    view (forEach l g u) = view u ∧ (∀ c, c ∉ l → own (forEach l g u) c = own u c) ∧
      ∀ c, c ∈ l → c < N → R (own u c) (own (forEach l g u) c) := by
  induction l generalizing u with
  | nil => exact ⟨rfl, fun _ _ => rfl, fun _ hc => absurd hc List.not_mem_nil⟩
  | cons a r ih =>
    obtain ⟨hview, hother, hown⟩ := h a u
    obtain ⟨ihview, ihother, ihown⟩ := ih (g a u)
    rw [forEach_cons]
    refine ⟨ihview.trans hview, fun c hc => ?_, fun c hc hlt => ?_⟩
    · rw [List.mem_cons, not_or] at hc
      rw [ihother c hc.2, hother c hc.1]
    · by_cases ha : c = a
      · subst ha
        by_cases hr : c ∈ r
        · exact hR _ _ _ (hown hlt) (ihown c hr hlt)
        · rw [ihother c hr]
          exact hown hlt
      · rw [← hother c ha]
        exact ihown c ((List.mem_cons.mp hc).resolve_left ha) hlt

/-! ### CHAN_LUT_LOAD (R217) -/

/-- R217. Channel `y` has the table of kind `k`, its binding and its ENABLED those of `x`. -/
def LutInForce (k : Nat) (bs : List Byte) (x y : Chan) : Prop :=
  y.cfg.bind = x.cfg.bind ∧ y.enabled = x.enabled ∧
    (k = 0 → y.cfg.pipe.decompand = (List.range 33).map fun i => (field bs (8 * i) 4, field bs (8 * i + 4) 4)) ∧
    (k = 1 → y.cfg.pipe.shading = halves bs 0 1156) ∧
    (k = 2 → y.cfg.pipe.defectStatic = defectPixels bs ∧ y.cfg.pipe.defectEst = []) ∧
    (k = 3 → y.cfg.pipe.matrix = (List.range 9).map fun i => sfield bs (2 * i) 2) ∧
    (k = 4 → y.cfg.pipe.tone = halves bs 0 65) ∧
    (k = 5 → y.cfg.pipe.gamma = halves bs 0 257)

theorem LutInForce.trans {k : Nat} {bs : List Byte} {x y z : Chan} (hxy : LutInForce k bs x y) (hyz : LutInForce k bs y z) : LutInForce k bs x z := by
  obtain ⟨hbind, henabled, -⟩ := hxy
  obtain ⟨hbind', henabled', htable⟩ := hyz
  exact ⟨hbind'.trans hbind, henabled'.trans henabled, htable⟩

/-- R217. A table is put in force by a change of its channel alone. -/
theorem lutPut_eq (k : Nat) (bs : List Byte) (c : Nat) (s : State) :
    ∃ g, lutPut k bs c s = modChan c g s ∧ ∀ x, LutInForce k bs x (g x) := by
  unfold lutPut
  simp only [bumpGen, modPipe, modCal_eq, modCfg_eq, restartEst_eq, modChan_modChan_fuse, time_modChan]
  by_cases hk : k < 5
  · interval_cases k
    all_goals
      refine ⟨_, rfl, fun x => ?_⟩
      simp [LutInForce, Chan.restarted]
  · have hne (j : Nat) (hj : j < 5) : k ≠ j := fun e => hk (e ▸ hj)
    simp only [hne 0 (by decide), hne 1 (by decide), hne 2 (by decide), hne 3 (by decide), hne 4 (by decide), if_false]
    refine ⟨_, rfl, fun x => ?_⟩
    simp [LutInForce, hne 0, hne 1, hne 2, hne 3, hne 4]

/-- R217. The tables of a CHAN_LUT_LOAD's members. -/
theorem effect_chanLutLoadB (c : Ctx) (u : State) :
    unchanneled (chanLutLoadB.effect c u) = unchanneled u ∧ (∀ j, j ∉ c.members → (chanLutLoadB.effect c u).chan j = u.chan j) ∧
      ∀ j, j ∈ c.members → j < 32 → LutInForce (c.q.u 16 1) c.data (u.chan j) ((chanLutLoadB.effect c u).chan j) :=
  forEach_repeated unchanneled State.chan 32 (R := LutInForce (c.q.u 16 1) c.data) (fun _ _ _ => LutInForce.trans) (l := c.members)
    (g := lutPut (c.q.u 16 1) c.data) (fun m t => by
      obtain ⟨g, hg, hin⟩ := lutPut_eq (c.q.u 16 1) c.data m t
      rw [hg]
      exact ⟨rfl, fun j hj => chan_modChan_ne t hj.symm g, fun hm => by rw [chan_modChan_same t hm]; exact hin _⟩) u

/-! ### FLOW_TEMPLATE_SET (R370) -/

/-- All of the state but the configuration of flows. -/
def unrouted (s : State) : State := { s with flowCfg := default }

theorem effect_flowTemplateSetB (c : Ctx) (u : State) :
    unrouted (flowTemplateSetB.effect c u) = unrouted u ∧ (∀ m, m ∉ c.members → (flowTemplateSetB.effect c u).fcfg m = u.fcfg m) ∧
      ∀ m, m ∈ c.members → m < 256 → (flowTemplateSetB.effect c u).fcfg m = { u.fcfg m with template := some (fit 128 c.data) } :=
  forEach_repeated unrouted State.fcfg 256 (R := fun x y => y = { x with template := some (fit 128 c.data) })
    (fun x y z hxy hyz => by rw [hyz, hxy]) (l := c.members) (g := fun m => modFcfg m fun x => { x with template := some (fit 128 c.data) })
    (fun m t => ⟨rfl, fun j hj => tget_tmod_ne _ hj.symm _, fun hm => tget_tmod_same _ hm _⟩) u

theorem eq_of_unrouted {s t : State} (h : unrouted t = unrouted s) : t = { s with flowCfg := t.flowCfg } :=
  congrArg (fun v : State => { v with flowCfg := t.flowCfg }) h

/-! ### ROLE_UPDATE (R460, R465, R467) -/

/-- What a message of ROLE_UPDATE leaves to the response that follows: the requests in execution, the tick's count and the responses. -/
def answering (s : State) : List ExecEntry × Long × Vector (List Response) 16 := (s.exec, s.tickField, s.fns.map Fn.rspQ)

theorem answering_of_steady {s t : State} (h : steady t = steady s) : answering t = answering s := by
  have hfns : t.fns.map Fn.unheld = s.fns.map Fn.unheld := congrArg (fun p => p.2.2.1) h
  have hq := congrArg (Vector.map Fn.rspQ) hfns
  rw [Vector.map_map, Vector.map_map] at hq
  rw [answering, answering, exec_of_steady h, tickField_of_steady h]
  exact congrArg (fun v => (s.exec, s.tickField, v)) hq

theorem rspQ_of_answering {s t : State} (h : answering t = answering s) (f : Nat) : (t.fn f).rspQ = (s.fn f).rspQ := by
  have hfns : t.fns.map Fn.rspQ = s.fns.map Fn.rspQ := congrArg (fun p => p.2.2) h
  by_cases hf : f < 16
  · have hget := congrArg (fun v => tget v f) hfns
    simp only [tget_map _ _ hf] at hget
    exact hget
  · rw [State.fn, State.fn, tget_beyond _ (Nat.le_of_not_lt hf), tget_beyond _ (Nat.le_of_not_lt hf)]

theorem answering_closeSessions (p : Session → Bool) (s : State) : answering (closeSessions p s) = answering s := by
  have hfns : (s.fns.map fun x => if x.session.any p then { x with session := none } else x).map Fn.rspQ = s.fns.map Fn.rspQ := by
    rw [Vector.map_map]
    refine congrArg (Vector.map · s.fns) (funext fun x => ?_)
    show Fn.rspQ (if _ then _ else _) = _
    split <;> rfl
  exact congrArg (fun v => (s.exec, s.tickField, v)) hfns

theorem steady_storeCounter (v : Nat) (s : State) : steady (storeCounter v s) = steady s := by
  unfold storeCounter
  simp only
  split <;> rfl

theorem counterLow_storeCounter (v : Nat) (s : State) : (storeCounter v s).roles.counterLow = v % 2 ^ 40 := rfl

/-- All of the state but the key tree, the channels and the flows. -/
def unkeyed (s : State) : State := { s with tarn := default, chans := default, flows := default }

theorem unkeyed_computeKey (n : Nat) (s : State) : unkeyed (computeKey n s) = unkeyed s := by
  unfold computeKey
  simp only
  split
  · rfl
  · rfl

theorem unkeyed_newGen (n : Nat) (s : State) : unkeyed (newGen n s) = unkeyed s := rfl

theorem unkeyed_deriveNode (n : Nat) (s : State) : unkeyed (deriveNode n s) = unkeyed s := (unkeyed_computeKey ..).trans (unkeyed_newGen ..)

theorem unkeyed_renewPublic (s : State) : unkeyed (renewPublic s) = unkeyed s := rfl

theorem unkeyed_rederiveAll (l : List Nat) (s : State) : unkeyed (rederiveAll l s) = unkeyed s :=
  forEach_same unkeyed _ _ _ fun n _ t => unkeyed_deriveNode n t

theorem unkeyed_headsNeedKey (l : List Nat) (s : State) : unkeyed (headsNeedKey l s) = unkeyed s := forEach_same unkeyed _ _ _ fun _ _ _ => rfl

theorem unkeyed_rederiveDev (s : State) : unkeyed (rederiveDev s) = unkeyed s :=
  (unkeyed_headsNeedKey ..).trans ((unkeyed_renewPublic _).trans (unkeyed_rederiveAll ..))

theorem unkeyed_orphanFlow (m : Nat) (s : State) : unkeyed (orphanFlow m s) = unkeyed s := rfl

theorem unkeyed_installKey (u : Update) (k : List Byte) (s : State) : unkeyed (installKey u k s) = unkeyed s := by
  unfold installKey
  simp only
  split
  · exact (unkeyed_rederiveDev _).trans (unkeyed_deriveNode ..)
  · exact (unkeyed_orphanFlow ..).trans (unkeyed_deriveNode ..)

/-- R465. A credential message. -/
def credentialSet (r : Nat) (u : Update) (s : State) : State :=
  closeSessions (fun x => x.role == r && x.slot == u.target) (setCredential r u.target (if isZeros u.body then none else some u.body) s)

theorem answering_credentialSet (r : Nat) (u : Update) (s : State) : answering (credentialSet r u s) = answering s :=
  answering_closeSessions ..

/-- R460, R465. An operator's credential, and the sessions of its slot. -/
theorem credentialSet_operator {u : Update} (ht : u.target < 16) (s : State) :
    credential (credentialSet 1 u s) 1 u.target = (if isZeros u.body then none else some u.body) ∧
    ∀ g, ((credentialSet 1 u s).fn g).session.any (fun k => k.role == 1 && k.slot == u.target) = false := by
  refine ⟨tget_tset_same _ ht _, fun g => ?_⟩
  by_cases hg : g < 16
  · have hfn : (credentialSet 1 u s).fn g = if (s.fn g).session.any (fun k => k.role == 1 && k.slot == u.target) then { s.fn g with session := none }
        else s.fn g := tget_map _ _ hg
    rw [hfn]
    split
    · rfl
    · next hno => exact Bool.eq_false_iff.mpr hno
  · rw [State.fn, tget_beyond _ (Nat.le_of_not_lt hg)]
    rfl

theorem applyUpdate_of_operator {u : Update} (hk : u.kind = 0x12) (s : State) : applyUpdate u s = credentialSet 1 u s := by
  unfold applyUpdate
  rw [hk]
  rfl

theorem answering_of_unkeyed {s t : State} (h : unkeyed t = unkeyed s) : answering t = answering s :=
  (congrArg (fun v : State => (v.exec, v.tickField, v.fns.map Fn.rspQ)) h :)

theorem answering_resetAt (r : Option Nat) (s : State) : answering { s with resetAt := r } = answering s := rfl

theorem answering_enrolCommit (u : Update) (s : State) : answering (enrolCommit u s) = answering s := by
  unfold enrolCommit
  extract_lets s1 s2 r s3 s4
  have hloop : answering s4 = answering s3 := forEach_same answering _ _ _ fun _ _ _ => rfl
  exact (answering_resetAt _ s4).trans hloop

/-- R465. Of a message's effect the response that follows shows nothing. -/
theorem answering_applyUpdate (u : Update) (s : State) : answering (applyUpdate u s) = answering s := by
  unfold applyUpdate
  simp only
  split
  · exact answering_enrolCommit ..
  · split
    · exact answering_credentialSet ..
    · split
      · exact answering_credentialSet ..
      · split
        · exact answering_credentialSet ..
        · split
          · rfl
          · split
            · exact answering_of_unkeyed (unkeyed_installKey ..)
            · split <;> rfl

/-- R467. The stored counter is the message's, but where the flash is enrolled anew. -/
theorem counterLow_applyUpdate {u : Update} (hk : u.kind ≠ 0x02) (s : State) : (applyUpdate u s).roles.counterLow = s.roles.counterLow := by
  unfold applyUpdate
  rw [if_neg hk]
  simp only
  split
  · rfl
  · split
    · rfl
    · split
      · rfl
      · split
        · rfl
        · split
          · exact (congrArg (fun v => v.roles.counterLow) (unkeyed_installKey u ((unwrap s u).getD (zeros 32)) s) :)
          · split <;> rfl

theorem answering_commitUpdate (c : Ctx) (u : Update) (s : State) : answering (commitUpdate c u s) = answering s := by
  refine (answering_of_steady (steady_auditNow ..)).trans ((answering_applyUpdate ..).trans ?_)
  split
  · rfl
  · exact answering_of_steady (steady_storeCounter ..)

end Sys2Proof.Machine
end

section
/-!
PROOF. How a request in execution goes on, of every command with a buffer, a program of the flash or a boundary to wait for (O60).
-/
namespace Sys2Proof.Machine

/-- R457. No response ends a session. -/
theorem session_finish_all {x : ExecEntry} (hlive : x.dead = false) (hf : x.func < 16) (st : Byte) (pay : List Byte) (s : State) (g : Nat) :
    ((finish x st pay s).fn g).session = (s.fn g).session := by
  by_cases hg : g = x.func
  · rw [hg, session_finish hlive hf]
  · rw [fn_finish_ne hlive _ _ _ hg]

/-! ### With the buffer read (R118) -/

section
variable {f tag : Nat} {x : ExecEntry} {u : State} {a n : Nat} (h : dmaWaits u f tag = some x) (hwait : x.wait = .dma a n) (hlive : x.dead = false)
  (hf : x.func < 16) (data : List Byte)
include h hwait hlive hf

/-- R453. -/
theorem tarnVerify_read (ho : x.entry = Op.tarnVerify.entry x.entry.req) : ∃ t, exec (.dmaTransferDone f tag true data) u = .next t ∧
    Answered x (if verify (slice (fit n data) 0 64) (slice (fit n data) 64 32) (slice (fit n data) 96 64) then St.ok else St.authFail) u t := by
  obtain ⟨t, hexec, hans, -⟩ := answered_of_resume h hlive hf ho hwait (data := data) (.inr (by decide)) rfl rfl
  exact ⟨t, hexec, hans⟩

/-- R339. -/
theorem decFeed_read (ho : x.entry = Op.decFeed.entry x.entry.req) (hopen : (u.decS (x.entry.req.u 16 1)).isOpen = true) (hn : 0 < n)
    (hk : x.entry.req.u 16 1 < 32) : ∃ t, exec (.dmaTransferDone f tag true data) u = .next t ∧ Answered x St.ok u t ∧
      (∀ j, j ≠ x.entry.req.u 16 1 → t.decS j = u.decS j) ∧
      (x.entry.req.bit 17 0 = false → (t.decS (x.entry.req.u 16 1)).units = (u.decS (x.entry.req.u 16 1)).units) ∧
      (x.entry.req.bit 17 0 = true → (t.decS (x.entry.req.u 16 1)).partial_ = none ∧
        ∃ k, (t.decS (x.entry.req.u 16 1)).units = (u.decS (x.entry.req.u 16 1)).units ++ [k] ∧ fit n data <:+ k.bytes) := by
  have hresume : decFeedB.resume ((x.loaded n data).ctx .decFeed) (.dma a n) (updExec x (x.loaded n data) u) =
      (.done St.ok [], feed (x.entry.req.u 16 1) (fit n data) (x.entry.req.bit 17 0) (updExec x (x.loaded n data) u)) :=
    congrArg (Prod.mk _) (if_pos hopen)
  obtain ⟨t, hexec, hans, ht⟩ := answered_of_resume h hlive hf ho hwait (.inr (by decide)) hresume rfl
  rw [finish_eq] at ht
  exact ⟨t, hexec, hans, ht ▸ decS_feed hk (fit_ne_nil hn data) (x.entry.req.bit 17 0) (updExec x (x.loaded n data) u)⟩

/-- R459. -/
theorem roleOpen_read (ho : x.entry = Op.roleOpen.entry x.entry.req) (hguard : auditGuard u = true) :
    ∃ t st, exec (.dmaTransferDone f tag true data) u = .next t ∧ Answered x st u t ∧
      (st = St.ok ∧ (t.fn x.func).session = some ⟨x.entry.req.u 16 1, x.entry.req.u 17 1⟩ ∨
        st = St.authFail ∧ (t.fn x.func).session = (u.fn x.func).session) ∧
      (u.tarn.tampered = true ∨ (∀ c, (x.entry.req.tag, c) ∉ (u.fn x.func).opening) → st = St.authFail) := by
  obtain ⟨c, hc⟩ : ∃ c, c = (x.loaded n data).ctx .roleOpen := ⟨_, rfl⟩
  obtain ⟨s, hs⟩ : ∃ s, s = withoutOpening c (updExec x (x.loaded n data) u) := ⟨_, rfl⟩
  obtain ⟨good, hgood⟩ : ∃ good, good = openGood c (openingOf c (updExec x (x.loaded n data) u)) s := ⟨_, rfl⟩
  have hcf : c.f = x.func := by rw [hc]; rfl
  have hcq : c.q = x.entry.req := by rw [hc]; rfl
  have hresume : resumeOf (x.loaded n data) (.dma a n) (updExec x (x.loaded n data) u) =
      (.done (if good then St.ok else St.authFail) [], opened c good s) := by
    refine resumeOf_done (ofCode_of_entry (x := x.loaded n data) ho) ?_ (.inr (by decide))
    rw [hgood, hs, hc]
    exact resume_roleOpenB hguard
  obtain ⟨hexec, htick, hrsp, -, hsession⟩ := opened_spec (hcf ▸ hf) good s
  obtain ⟨hrsp', hsession', -⟩ := withoutOpening_spec (hcf ▸ hf) (updExec x (x.loaded n data) u)
  rw [← hs, hcf] at hrsp' hsession'
  rw [hcf] at hrsp hsession
  refine ⟨_, _, exec_dmaRead_done h hwait hresume, answered_finish h hlive hf
    (hexec.trans (by rw [hs]; rfl)) (hrsp.trans hrsp') (htick.trans (by rw [hs]; rfl)), ?_, fun hbad => ?_⟩
  · rw [session_finish_all (x := x.loaded n data) hlive hf, hsession, hsession', hcq]
    cases good with
    | true => exact .inl ⟨rfl, rfl⟩
    | false => exact .inr ⟨rfl, rfl⟩
  · have hno : good = false := by
      rw [hgood]
      rcases hbad with htamper | hnone
      · exact openGood_of_tampered (by rw [hs]; exact htamper)
      · rw [openingOf_eq_none fun ch => by rw [hcf, hcq]; exact hnone ch]
        rfl
    rw [hno]
    rfl

/-- R502. -/
theorem seqImageLoad_read (ho : x.entry = Op.seqImageLoad.entry x.entry.req) (hlen : (x.entry.req.dma 16).2 = imageLen (fit n data))
    (hgood : imageGood (fit n data) = true)
    (hstate : loadState ((x.loaded n data).ctx .seqImageLoad) (updExec x (x.loaded n data) u) = none) (hguard : auditGuard u = true)
    (hnow : x.entry.req.bit 28 0 = false) (hk : field (fit n data) 5 1 < 2) :
    ∃ t, exec (.dmaTransferDone f tag true data) u = .next t ∧ Answered x (if signedGood u (fit n data) then St.ok else St.authFail) u t ∧
      (∀ k, k ≠ field (fit n data) 5 1 → tget t.cls k = tget u.cls k) ∧ (signedGood u (fit n data) = false → t.cls = u.cls) ∧
      (signedGood u (fit n data) = true →
        if field (fit n data) 6 1 = 0 then (tget t.cls (field (fit n data) 5 1)).vendorIn = true ∧ (tget t.cls (field (fit n data) 5 1)).vendorPatch = 0
        else (tget t.cls (field (fit n data) 5 1)).openIn = true ∧ (tget t.cls (field (fit n data) 5 1)).openPatch = 0) := by
  have hresume := resume_seqImageLoadB (c := (x.loaded n data).ctx .seqImageLoad) (a := a) (n := n) (s := updExec x (x.loaded n data) u)
    hlen hgood hstate hguard hnow
  have hsigned : signedGood (updExec x (x.loaded n data) u) ((x.loaded n data).ctx .seqImageLoad).data = signedGood u (fit n data) := rfl
  rw [hsigned] at hresume
  cases hs : signedGood u (fit n data) with
  | false =>
    rw [hs] at hresume
    obtain ⟨t, hexec, hans, ht⟩ := answered_of_resume h hlive hf ho hwait (data := data) (.inr (by decide)) hresume rfl
    rw [finish_eq] at ht
    have hcls : t.cls = u.cls := by rw [ht]; rfl
    exact ⟨t, hexec, hans, fun k _ => by rw [hcls], fun _ => hcls, fun hyes => absurd hyes Bool.false_ne_true⟩
  | true =>
    rw [hs] at hresume
    obtain ⟨v, hload, hsteady, hother, hown⟩ := finishLoad_spec (c := (x.loaded n data).ctx .seqImageLoad) hk (updExec x (x.loaded n data) u)
    obtain ⟨t, hexec, hans, ht⟩ := answered_of_resume h hlive hf ho hwait (data := data) (.inr (by decide)) (hresume.trans hload) hsteady
    rw [finish_eq] at ht
    have hcls : t.cls = v.cls := by rw [ht]
    refine ⟨t, hexec, hans, fun k hk => by rw [hcls]; exact hother k hk, fun hno => absurd hno.symm Bool.false_ne_true, fun _ => ?_⟩
    rw [hcls]
    revert hown
    show (if field (fit n data) 6 1 = 0 then _ else _) → _
    split
    · exact fun ⟨hin, hpatch, _⟩ => ⟨hin, hpatch⟩
    · exact fun ⟨hin, hpatch, _⟩ => ⟨hin, hpatch⟩

omit hlive hf in
/-- R63, R108, R118. A next-tick command whose data is good waits, admitted, for its boundary. -/
theorem admitted_read {o : Op} {b : Books} (ho : x.entry = o.entry x.entry.req)
    (hr : o.behaviour.resume ((x.loaded n data).ctx o) (.dma a n) (updExec x (x.loaded n data) u) = (.wait .tick, updExec x (x.loaded n data) u))
    (hd : dataCheck ((x.loaded n data).ctx o) (.wait .tick, updExec x (x.loaded n data) u) = (.wait .tick, updExec x (x.loaded n data) u))
    (ha : admission (updExec x (x.loaded n data) u) ((x.loaded n data).ctx o) = some b) :
    ∃ t, exec (.dmaTransferDone f tag true data) u = .next t ∧ t = { withBooks b u with exec := t.exec } ∧ (x.loaded n data).ticked u ∈ t.exec := by
  refine ⟨_, exec_dmaRead_admitted h hwait (resumeOf_admitted (ofCode_of_entry ho) hr hd ha), rfl, ?_⟩
  exact List.mem_map.mpr ⟨x.loaded n data, List.mem_map.mpr ⟨x, mem_of_dmaWaits h, if_pos rfl⟩, if_pos rfl⟩
end

/-- R370. A template that is good is accepted where no flow named runs. -/
theorem resume_flowTemplateSetB {c : Ctx} {w : Wait} {s : State} (hgood : tmplGood (fit 128 c.data) = true) (hoff : ∀ m ∈ c.members, flowOn s m = false) :
    flowTemplateSetB.resume c w s = (.wait .tick, s) := by
  have hany : (c.members.any fun m => flowOn s m && !tmplSame (fit 128 c.data) (tmplOf s m)) = false :=
    List.any_eq_false.mpr fun m hm => by rw [hoff m hm]; exact Bool.false_ne_true
  simp only [flowTemplateSetB, hgood, hany, Bool.not_true, Bool.false_eq_true, if_false]

/-- R466. Once its program is done a message is committed; only a key that was erased at tamper is not. -/
theorem resume_roleUpdateB_flash {c : Ctx} {s : State}
    (h : s.tarn.tampered = false ∨ ((Update.ofBytes c.data).kind == 0x30 || (Update.ofBytes c.data).kind == 0x31) = false) :
    roleUpdateB.resume c .flash s = (.done St.ok (le 8 (Update.ofBytes c.data).counter), commitUpdate c (Update.ofBytes c.data) s) := by
  have hno : (s.tarn.tampered && ((Update.ofBytes c.data).kind == 0x30 || (Update.ofBytes c.data).kind == 0x31)) = false := by
    rcases h with h | h <;> simp [h]
  show (if _ then _ else _) = _
  rw [hno, if_neg Bool.false_ne_true]

/-- R460, R465, R467. What a message for an operator's slot leaves once it is committed. -/
theorem commitUpdate_operator (c : Ctx) {m : Update} (hk : m.kind = 0x12) (ht : m.target < 16) (s : State) :
    (commitUpdate c m s).boot = s.boot ∧ (commitUpdate c m s).roles.counterLow = m.counter % 2 ^ 40 ∧
    credential (commitUpdate c m s) 1 m.target = (if isZeros m.body then none else some m.body) ∧
    ∀ g, ((commitUpdate c m s).fn g).session.any (fun k => k.role == 1 && k.slot == m.target) = false := by
  have henrol : m.isEnrol = false := by simp [Update.isEnrol, hk]
  obtain ⟨t, htd⟩ : ∃ t, t = storeCounter m.counter s := ⟨_, rfl⟩
  have hcommit : commitUpdate c m s = auditNow c 0x10 (updateDetail m 0) (credentialSet 1 m t) := by
    rw [commitUpdate, henrol, if_neg Bool.false_ne_true, applyUpdate_of_operator hk, htd]
  have hview : unrecorded (commitUpdate c m s) = unrecorded (credentialSet 1 m t) := by rw [hcommit]; exact unrecorded_auditNow ..
  have hsteady : steady (commitUpdate c m s) = steady (credentialSet 1 m t) := by rw [hcommit]; exact steady_auditNow ..
  obtain ⟨hcred, hsessions⟩ := credentialSet_operator ht t
  refine ⟨?_, ?_, (credential_of_unrecorded hview ..).trans hcred, fun g => ?_⟩
  · refine (boot_of_unrecorded hview).trans ?_
    show t.boot = s.boot
    rw [htd, storeCounter]
    simp only
    split <;> rfl
  · refine (counterLow_of_unrecorded hview).trans ?_
    rw [← counterLow_storeCounter m.counter s, ← htd]
    rfl
  · rw [session_of_steady hsteady]
    exact hsessions g

/-! ### With the flash programmed (R193, R414, R466) -/

section
variable {x : ExecEntry} {u : State} {j : FlashJob} {rest : List FlashJob} (hlive : x.dead = false) (hf : x.func < 16)
  (hq : u.boot.queue = j :: rest) (hx : flashWaiter j u = some x)
include hlive hf hq hx

/-- R193. A pairing whose record is programmed is ready for its boundary. -/
theorem headPair_programmed {c : Nat} {p : PairPending} (ho : x.entry = Op.headPair.entry x.entry.req) (hm : x.members = [c]) (hc : c < 32)
    (hj : j.work = .pairing c) (hp : (u.chan c).head.pairPending = some p) :
    ∃ t, exec (.flashProgramDone true) u = .next t ∧ t.boot.queue = rest ∧ t.exec = u.exec.erase x ∧
      (t.chan c).head.pairPending = some { p with ready := true } ∧
      (t.fn x.func).rspQ = (u.fn x.func).rspQ ++ [response x.entry St.ok u.tickField []] := by
  obtain ⟨s, hs⟩ : ∃ s : State, s = { u with boot := { u.boot with queue := rest, flashBad := false } } := ⟨_, rfl⟩
  obtain ⟨t, ht⟩ : ∃ t, t = modHead c (fun h => { h with pairPending := h.pairPending.map fun p => { p with ready := true } }) s := ⟨_, rfl⟩
  have hresume : resumeOf x .flash s = (.done St.ok [], t) := by
    refine resumeOf_done (ofCode_of_entry ho) ?_ (.inr (by decide))
    show (_, modHead (x.members.headD 0) _ s) = _
    rw [hm, ht]
    rfl
  have hexec : exec (.flashProgramDone true) u = .next (finish x St.ok [] t) := by
    rw [exec_flashProgramDone hq hx, hj, show applyFlash (.pairing c) _ = s from hs.symm, hresume, settle_done]
  have hhead : (t.chan c).head.pairPending = some { p with ready := true } := by
    rw [ht, modHead_eq, chan_modChan_same s hc, hs]
    exact congrArg (Option.map _) hp
  refine ⟨_, hexec, ?_, ?_, ?_, (rspQ_finish hlive hf ..).trans ?_⟩
  · rw [finish_eq, ht, hs]
    rfl
  · rw [exec_finish, ht, hs]
    rfl
  · rw [finish_eq]
    exact hhead
  · rw [ht, hs]
    rfl

/-- R460, R465, R467. An operator's credential is stored with its counter, and its sessions end. -/
theorem roleUpdate_programmed (ho : x.entry = Op.roleUpdate.entry x.entry.req) (hj : j.work = .credential)
    (hkind : (Update.ofBytes x.data).kind = 0x12) (htarget : (Update.ofBytes x.data).target < 16) :
    ∃ t, exec (.flashProgramDone true) u = .next t ∧ t.boot.queue = rest ∧ t.exec = u.exec.erase x ∧
      t.roles.counterLow = (Update.ofBytes x.data).counter % 2 ^ 40 ∧
      credential t 1 (Update.ofBytes x.data).target = (if isZeros (Update.ofBytes x.data).body then none else some (Update.ofBytes x.data).body) ∧
      (∀ g, (t.fn g).session.any (fun k => k.role == 1 && k.slot == (Update.ofBytes x.data).target) = false) ∧
      (t.fn x.func).rspQ = (u.fn x.func).rspQ ++ [response x.entry St.ok u.tickField (le 8 (Update.ofBytes x.data).counter)] := by
  obtain ⟨m, hm⟩ : ∃ m, m = Update.ofBytes x.data := ⟨_, rfl⟩
  obtain ⟨s, hs⟩ : ∃ s : State, s = { u with boot := { u.boot with queue := rest, flashBad := false } } := ⟨_, rfl⟩
  obtain ⟨t, ht⟩ : ∃ t, t = commitUpdate (x.ctx .roleUpdate) m s := ⟨_, rfl⟩
  rw [← hm] at hkind htarget ⊢
  have hplain : ((Update.ofBytes (x.ctx .roleUpdate).data).kind == 0x30 || (Update.ofBytes (x.ctx .roleUpdate).data).kind == 0x31) = false := by
    rw [show Update.ofBytes (x.ctx .roleUpdate).data = m from hm.symm, hkind]
    rfl
  have hresume : resumeOf x .flash s = (.done St.ok (le 8 m.counter), t) :=
    resumeOf_done (ofCode_of_entry ho) (by rw [ht, hm]; exact resume_roleUpdateB_flash (.inr hplain)) (.inr (by decide))
  have hexec : exec (.flashProgramDone true) u = .next (finish x St.ok (le 8 m.counter) t) := by
    rw [exec_flashProgramDone hq hx, hj, show applyFlash .credential _ = s from hs.symm, hresume, settle_done]
  obtain ⟨hboot, hlow, hcred, hsessions⟩ := commitUpdate_operator (x.ctx .roleUpdate) hkind htarget s
  have hanswer : answering t = answering s := by rw [ht]; exact answering_commitUpdate ..
  rw [← ht] at hboot hlow hcred hsessions
  refine ⟨_, hexec, ?_, ?_, ?_, ?_, fun g => ?_, (rspQ_finish hlive hf ..).trans ?_⟩
  · rw [finish_eq, hboot, hs]
  · rw [exec_finish, show t.exec = s.exec from congrArg Prod.fst hanswer, hs]
  · rw [finish_eq]
    exact hlow
  · rw [finish_eq]
    exact hcred
  · rw [session_finish_all hlive hf]
    exact hsessions g
  · rw [rspQ_of_answering hanswer, show t.tickField = s.tickField from congrArg (fun p => p.2.1) hanswer, hs]
    rfl
end

/-! ### At its boundary (R108) -/

section
variable {x : ExecEntry} (u : State)

/-- R217. -/
theorem chanLutLoad_takesEffect (ho : x.entry = Op.chanLutLoad.entry x.entry.req) :
    ∃ v, takesEffect x u v ∧ v = { u with chans := v.chans } ∧ (∀ c, c ∉ x.members → v.chan c = u.chan c) ∧
      ∀ c, c ∈ x.members → c < 32 → LutInForce (x.entry.req.u 16 1) x.data (u.chan c) (v.chan c) := by
  obtain ⟨hview, hother, hown⟩ := effect_chanLutLoadB (x.ctx .chanLutLoad) u
  exact ⟨_, takesEffect_of_entry (ofCode_of_entry ho) u, eq_of_unchanneled hview, hother, hown⟩

/-- R370. -/
theorem flowTemplateSet_takesEffect (ho : x.entry = Op.flowTemplateSet.entry x.entry.req) :
    ∃ v, takesEffect x u v ∧ v = { u with flowCfg := v.flowCfg } ∧ (∀ m, m ∉ x.members → v.fcfg m = u.fcfg m) ∧
      ∀ m, m ∈ x.members → m < 256 → v.fcfg m = { u.fcfg m with template := some (fit 128 x.data) } := by
  obtain ⟨hview, hother, hown⟩ := effect_flowTemplateSetB (x.ctx .flowTemplateSet) u
  exact ⟨_, takesEffect_of_entry (ofCode_of_entry ho) u, eq_of_unrouted hview, hother, hown⟩

/-- R505. The level in force of a patch's class after it. -/
def PatchInForce (bs : List Byte) (u v : State) : Prop :=
  (∀ k, k ≠ field bs 5 1 → tget v.cls k = tget u.cls k) ∧
    if field bs 6 1 = 0 then (tget v.cls (field bs 5 1)).vendorPatch = field bs 12 1 else (tget v.cls (field bs 5 1)).openPatch = field bs 12 1

theorem effect_seqPatchApplyB {c : Ctx} (hk : field c.data 5 1 < 2) (u : State) : PatchInForce c.data u (seqPatchApplyB.effect c u) := by
  obtain ⟨hother, hown⟩ := cls_applyPatch hk (field c.data 6 1 == 0) (patchOf u c.data) u
  refine ⟨hother, ?_⟩
  by_cases hr : field c.data 6 1 = 0
  · rw [if_pos hr]
    rw [if_pos (beq_iff_eq.mpr hr)] at hown
    exact hown
  · rw [if_neg hr]
    rw [if_neg (mt beq_iff_eq.mp hr)] at hown
    exact hown

theorem seqPatchApply_takesEffect (ho : x.entry = Op.seqPatchApply.entry x.entry.req) (hk : field x.data 5 1 < 2) :
    ∃ v, takesEffect x u v ∧ PatchInForce x.data u v :=
  ⟨_, takesEffect_of_entry (ofCode_of_entry ho) u, effect_seqPatchApplyB (c := x.ctx .seqPatchApply) hk u⟩
end

end Sys2Proof.Machine
end

section
/-!
PROOF. From a command to the end of its transfer (O60): the request that has just been read, the data it has brought, and its answer.
-/
namespace Sys2Proof.Machine

/-! ### The request last in the list (R86, R91) -/

/-- R103. The request is answered: those in execution are as before it was read, and its response is posted. -/
def AnsweredWith (o : Op) (f : Nat) (q : Request) (s : State) (st : Byte) (pay : List Byte) (v : State) : Prop :=
  v.exec = s.exec ∧ (v.fn f).rspQ = (s.fn f).rspQ ++ [response (o.entry q) st s.tickField pay]

/-- A request in execution is that of command `o` with `q` of function `f`. -/
structure IsOf (o : Op) (f : Nat) (q : Request) (x : ExecEntry) : Prop where
  func : x.func = f
  entry : x.entry = o.entry q
  live : x.dead = false

theorem isOf_inExecution (o : Op) (f : Nat) (q : Request) (w : Wait) (s : State) : IsOf o f q (inExecution o f q w s) := ⟨rfl, rfl, rfl⟩

section
variable {o : Op} {f : Nat} {q : Request} {s : State} {x : ExecEntry} (hx : IsOf o f q x) (hfree : tagFree f q s)
include hx

theorem IsOf.ofCode : Op.ofCode x.entry.opcode.toNat = some o := ofCode_of_entry hx.entry

include hfree

theorem IsOf.not_mem : x ∉ s.exec := fun hmem => hfree x hmem ⟨hx.func, by rw [hx.entry]; rfl⟩

/-- R91, R118. The tag of a request that has just been read names it. -/
theorem IsOf.find {p : Wait → Bool} (hp : p x.wait = true) {t : State} (ht : t.exec = s.exec ++ [x]) :
    findExec t f (BitVec.ofNat 16 q.tag.toNat) p = some x := by
  have htag : BitVec.ofNat 16 q.tag.toNat = q.tag := by simp
  have hnone : (s.exec.find? fun y => y.func == f && y.entry.req.tag == q.tag && p y.wait) = none :=
    List.find?_eq_none.mpr fun y hy hyes => by
      simp only [Bool.and_eq_true, beq_iff_eq] at hyes
      exact hfree y hy hyes.1
  have hthis : (x.func == f && x.entry.req.tag == q.tag && p x.wait) = true := by
    rw [hx.func, hx.entry, hp]
    simp [Op.entry]
  rw [findExec, htag, ht, List.find?_append, hnone, Option.none_or, List.find?_singleton, if_pos hthis]

theorem IsOf.erase_last : (s.exec ++ [x]).erase x = s.exec := by
  rw [List.erase_append_right _ (hx.not_mem hfree), List.erase_cons_head, List.append_nil]

/-- R103. Its end is the answer to its request. -/
theorem IsOf.finish_last (st : Byte) (pay : List Byte) (t : State) :
    finish x st pay { t with exec := s.exec ++ [x] } = replied o f q st pay { t with exec := s.exec } := by
  rw [finish_live hx.live, hx.func, hx.entry, hx.erase_last hfree]
  rfl

theorem IsOf.ends (hf : f < 16) {st : Byte} {pay : List Byte} {t : State} (hexec : t.exec = s.exec ++ [x]) (hrsp : (t.fn f).rspQ = (s.fn f).rspQ)
    (htick : t.tickField = s.tickField) : AnsweredWith o f q s st pay (finish x st pay t) := by
  have hanswer := rspQ_finish hx.live (hx.func ▸ hf) st pay t
  rw [hx.func, hx.entry, hrsp, htick] at hanswer
  exact ⟨by rw [exec_finish, hexec, hx.erase_last hfree], hanswer⟩

theorem IsOf.ends_of_answering (hf : f < 16) {st : Byte} {pay : List Byte} {t : State}
    (ht : answering t = answering { s with exec := s.exec ++ [x] }) : AnsweredWith o f q s st pay (finish x st pay t) :=
  hx.ends hfree hf (congrArg Prod.fst ht) (rspQ_of_answering ht f) (congrArg (fun p => p.2.1) ht)

theorem IsOf.ends_of_steady (hf : f < 16) {st : Byte} {pay : List Byte} {t : State} (ht : steady t = steady { s with exec := s.exec ++ [x] }) :
    AnsweredWith o f q s st pay (finish x st pay t) := hx.ends_of_answering hfree hf (answering_of_steady ht)

theorem IsOf.updExec_last (y : ExecEntry) (t : State) :
    updExec x y { t with exec := s.exec ++ [x] } = { t with exec := s.exec ++ [y] } :=
  Machine.updExec_last (t := { t with exec := s.exec }) (hx.not_mem hfree)
end

/-! ### The transfer of its buffer (R118) -/

theorem isOf_readEntry (o : Op) (f : Nat) (q : Request) (a n : Nat) (data : List Byte) (s : State) : IsOf o f q (readEntry o f q a n data s) :=
  ⟨rfl, rfl, rfl⟩


section
variable {o : Op} {i : Instr} {f : Nat} {q : Request} {s t : State} {a n : Nat} (hfree : tagFree f q s)
include hfree

/-- R118. A command that begins by reading its buffer resumes with it. -/
theorem withBuffer_of_read (hi : exec i s = .next (waiting o f q (.dma a n) s t)) (ht : t.exec = s.exec) (data : List Byte) :
    withBuffer i f q data s (settle 2 (readEntry o f q a n data s) (resumeOf (readEntry o f q a n data s) (.dma a n)
      { t with exec := s.exec ++ [readEntry o f q a n data s] })) := by
  have hx := isOf_inExecution o f q (.dma a n) s
  have hwait : waiting o f q (.dma a n) s t = { t with exec := s.exec ++ [inExecution o f q (.dma a n) s] } := by rw [waiting, ht]
  have hfind : dmaWaits (waiting o f q (.dma a n) s t) f q.tag.toNat = some (inExecution o f q (.dma a n) s) :=
    hx.find hfree (p := Wait.isDma) rfl (by rw [hwait])
  have hread := exec_dmaRead hfind rfl data
  rw [hwait, hx.updExec_last hfree, ← hwait] at hread
  exact ⟨_, hi, hread⟩

theorem withBuffer_done (hi : exec i s = .next (waiting o f q (.dma a n) s t)) (ht : t.exec = s.exec) {data pay : List Byte} {st : Byte} {u : State}
    (hr : resumeOf (readEntry o f q a n data s) (.dma a n) { t with exec := s.exec ++ [readEntry o f q a n data s] } = (.done st pay, u)) :
    withBuffer i f q data s (finish (readEntry o f q a n data s) st pay u) := by
  have hbuffer := withBuffer_of_read hfree hi ht data
  rwa [hr, settle_done] at hbuffer

/-- R103, R118. One that needs no more than its data is answered. -/
theorem withBuffer_replied (hi : exec i s = .next (waiting o f q (.dma a n) s t)) (ht : t.exec = s.exec) {data pay : List Byte} {st : Byte} {u : State}
    (hr : resumeOf (readEntry o f q a n data s) (.dma a n) { t with exec := s.exec ++ [readEntry o f q a n data s] } =
      (.done st pay, { u with exec := s.exec ++ [readEntry o f q a n data s] })) (hu : u.exec = s.exec) :
    withBuffer i f q data s (replied o f q st pay u) := by
  have hbuffer := withBuffer_done hfree hi ht hr
  rw [(isOf_readEntry o f q a n data s).finish_last hfree, ← hu] at hbuffer
  exact hbuffer

/-- R74, R118. A write that completes has reached the host, and its request is answered. -/
theorem IsOf.exec_written {x : ExecEntry} (hx : IsOf o f q x) {d pay : List Byte} (hwait : x.wait = .dmaOut a d pay)
    (hr : ∀ u, (resumeOf x (.dmaOut a d pay) u).2 = u) (ht : t.exec = s.exec ++ [x]) (data : List Byte) :
    exec (.dmaTransferDone f q.tag.toNat true data) t = .next (finish x St.ok pay (emit (.dmaWrite f a d) t)) := by
  have hfind : findExec t f (BitVec.ofNat 16 q.tag.toNat) Wait.isDma = some x := hx.find hfree (by rw [hwait]; rfl) ht
  show execDmaTransferDone f q.tag.toNat true data t = _
  simp only [execDmaTransferDone, hfind, if_true, dmaDone, hwait, hr, hx.func]

/-- R118. A command that has only its buffer to write is answered once that has reached the host. -/
theorem withBuffer_written {d pay : List Byte} (hi : exec i s = .next (waiting o f q (.dmaOut a d pay) s (atMailbox f s)))
    (hr : ∀ x u, IsOf o f q x → (resumeOf x (.dmaOut a d pay) u).2 = u) (data : List Byte) :
    withBuffer i f q data s (replied o f q St.ok pay (emit (.dmaWrite f a d) (atMailbox f s))) := by
  have hx := isOf_inExecution o f q (.dmaOut a d pay) s
  refine ⟨_, hi, (hx.exec_written hfree rfl (fun u => hr _ u hx) rfl data).trans ?_⟩
  exact congrArg _ (hx.finish_last hfree St.ok pay (emit (.dmaWrite f a d) (atMailbox f s)))

end
end Sys2Proof.Machine
end

section
/-!
PROOF. Commands that end with their buffer, or with a program of the flash (O60).
-/
namespace Sys2Proof.Machine

/-- R339. A stream that is fed is open. -/
theorem isOpen_of_decFeed {f : Nat} {q : Request} {s : State} (h : served .decFeed f q s = true) : (s.decS (q.u 16 1)).isOpen = true := by
  have hmember := member_of_served h (m := 0) (List.mem_singleton.mpr rfl)
  exact eq_true_of_need (none_of_firstOf hmember _ (List.mem_cons_of_mem _ List.mem_cons_self))

section
variable {f : Nat} {q : Request} {data : List Byte} {s : State} (hfree : tagFree f q s)
include hfree

/-- R453. -/
theorem tarnVerify_completes (h : served .tarnVerify f q s = true) :
    withBuffer (.tarnVerify f q) f q data s (replied .tarnVerify f q
      (if verify (slice (fit 160 data) 0 64) (slice (fit 160 data) 64 32) (slice (fit 160 data) 96 64) then St.ok else St.authFail) [] (atMailbox f s)) :=
  withBuffer_replied (t := atMailbox f s) (a := (q.dma 16).1) (n := 160) hfree (congrArg _ (command_reads h rfl)) rfl
    (resumeOf_done (isOf_readEntry ..).ofCode rfl (.inr (by decide))) rfl

/-- R339. -/
theorem decFeed_completes (h : served .decFeed f q s = true) (hlen : (q.dma 20).2 ≠ 0) :
    withBuffer (.decFeed f q) f q data s
      (replied .decFeed f q St.ok [] (feed (q.u 16 1) (fit (q.dma 20).2 data) (q.bit 17 0) (atMailbox f s))) :=
  withBuffer_replied hfree ((exec_decFeed h).2 hlen) rfl
    (resumeOf_done (isOf_readEntry ..).ofCode (congrArg (Prod.mk _) (if_pos (isOpen_of_decFeed h))) (.inr (by decide))) rfl

/-- R453. -/
theorem tarnPubkeyGet_completes (h : served .tarnPubkeyGet f q s = true) (hlen : (q.dma 16).2 ≠ 0) :
    withBuffer (.tarnPubkeyGet f q) f q data s
      (replied .tarnPubkeyGet f q St.ok [] (emit (.dmaWrite f (q.dma 16).1 (pubkeyBytes s)) (atMailbox f s))) :=
  withBuffer_written hfree ((exec_tarnPubkeyGet h).trans (congrArg _ (if_neg hlen)))
    (fun _ _ hx => congrArg Prod.snd (resumeOf_done hx.ofCode rfl (.inr (by decide)))) data

/-- R476. -/
theorem roleAuditRead_completes (h : served .roleAuditRead f q s = true) (hsome : recordsFrom q s ≠ []) :
    withBuffer (.roleAuditRead f q) f q data s
      (replied .roleAuditRead f q St.ok (auditAnswer q s) (emit (.dmaWrite f (q.dma 20).1 (recordsFrom q s).flatten) (atMailbox f s))) :=
  withBuffer_written hfree ((exec_roleAuditRead h).trans (congrArg _ (if_neg (mt List.isEmpty_iff.mp hsome))))
    (fun _ _ hx => congrArg Prod.snd (resumeOf_done hx.ofCode rfl (.inr (by decide)))) data
end

/-! ### ROLE_OPEN (R458, R459) -/

theorem challenge_finish {x : ExecEntry} (hlive : x.dead = false) (hf : x.func < 16) (st : Byte) (pay : List Byte) (s : State) :
    ((finish x st pay s).fn x.func).challenge = (s.fn x.func).challenge := by
  rw [finish_live hlive, postFinal, fn_modFn_same _ hf, post]
  simp only
  split
  · refine (challenge_of_steady (steady_sendMsix ..) _).trans ?_
    rw [fn_modFn_same _ hf]
    rfl
  · rw [fn_modFn_same _ hf]
    rfl

/-- R458. The state in which a ROLE_OPEN waits for its signature. -/
def challengeTaken (f : Nat) (q : Request) (c : Challenge) (s : State) : State :=
  modFn f (fun x => { x with challenge := none, opening := (q.tag, c) :: x.opening }) (atMailbox f s)

/-- R459. With its challenge a ROLE_OPEN is good where the credential's key verifies its signature. -/
theorem openGood_iff {c : Ctx} {ch : Challenge} {key : List Byte} {s : State} (htamper : s.tarn.tampered = false) (hrole : ch.role = c.q.u 16 1)
    (hslot : ch.slot = c.q.u 17 1) (hkey : credential s ch.role ch.slot = some key) :
    openGood c (some ch) s = verify key (hash (openMessage s ch.nonce ch.role ch.slot c.f)) (fit 64 c.data) := by
  simp only [openGood, htamper, ← hrole, ← hslot, hkey, beq_self_eq_true, Bool.not_false, Bool.and_self, Option.isSome_some, Bool.true_and,
    Option.getD_some]

section
variable {f : Nat} {q : Request} {data : List Byte} {s : State} (hfree : tagFree f q s)
include hfree

/-- R458, R459. -/
theorem roleOpen_completes {c : Challenge} {key : List Byte} (h : served .roleOpen f q s = true) (hguard : auditGuard s = true)
    (htamper : s.tarn.tampered = false) (hc : (s.fn f).challenge = some c) (hrole : c.role = q.u 16 1) (hslot : c.slot = q.u 17 1)
    (hlive : s.time.elapsed < c.issued + 5000000000) (hkey : credential s c.role c.slot = some key) :
    ∃ v, withBuffer (.roleOpen f q) f q data s v ∧ (v.fn f).challenge = none ∧
      if verify key (hash (openMessage s c.nonce c.role c.slot f)) (fit 64 data) then
        AnsweredWith .roleOpen f q s St.ok [] v ∧ (v.fn f).session = some ⟨c.role, c.slot⟩
      else AnsweredWith .roleOpen f q s St.authFail [] v ∧ (v.fn f).session = (s.fn f).session := by
  have hf := lt_of_served h
  obtain ⟨x, hxd⟩ : ∃ x, x = readEntry .roleOpen f q (q.dma 20).1 64 data s := ⟨_, rfl⟩
  obtain ⟨t, ht⟩ : ∃ t : State, t = { challengeTaken f q c s with exec := s.exec ++ [x] } := ⟨_, rfl⟩
  obtain ⟨k, hk⟩ : ∃ k, k = x.ctx .roleOpen := ⟨_, rfl⟩
  obtain ⟨u, hu⟩ : ∃ u, u = withoutOpening k t := ⟨_, rfl⟩
  have hx : IsOf .roleOpen f q x := hxd ▸ isOf_readEntry ..
  have hkf : k.f = f := by rw [hk, hxd]; rfl
  have hkq : k.q = q := by rw [hk, hxd]; rfl
  have hkd : fit 64 k.data = fit 64 data := by
    rw [hk, hxd]
    exact fit_self _ _ (fit_length ..)
  have htfn : t.fn f = { s.fn f with challenge := none, opening := (q.tag, c) :: (s.fn f).opening } := by
    rw [ht]
    exact fn_modFn_same (atMailbox f s) hf _
  have hopening : openingOf k t = some c := by
    have hfirst : (((q.tag, c) :: (s.fn f).opening).find? fun p => p.1 == q.tag) = some (q.tag, c) := List.find?_cons_of_pos (beq_self_eq_true q.tag)
    rw [openingOf, hkf, hkq, htfn]
    exact congrArg (Option.map Prod.snd) hfirst
  have hgood : openGood k (openingOf k t) u = verify key (hash (openMessage s c.nonce c.role c.slot f)) (fit 64 data) := by
    rw [hopening, openGood_iff (key := key) (by rw [hu, ht]; exact htamper) (hkq ▸ hrole) (hkq ▸ hslot) (by rw [hu, ht]; exact hkey), hkd, hkf, hu, ht]
    rfl
  have hresume : resumeOf x (.dma (q.dma 20).1 64) t = (.done (if openGood k (openingOf k t) u then St.ok else St.authFail) [],
      opened k (openGood k (openingOf k t) u) u) := by
    refine resumeOf_done hx.ofCode ?_ (.inr (by decide))
    rw [← hk, hu]
    exact resume_roleOpenB (by rw [ht]; exact hguard)
  have hbegin := exec_roleOpen h
  rw [consumed_of_matches hc hlive hrole hslot] at hbegin
  have hbuffer := withBuffer_done (data := data) hfree hbegin rfl (by rw [← hxd]; exact (congrArg _ ht.symm).trans hresume)
  rw [← hxd, hgood] at hbuffer
  obtain ⟨hrsp', hsession', hchallenge'⟩ := withoutOpening_spec (hkf.symm ▸ hf) t
  rw [← hu, hkf, htfn] at hrsp' hsession' hchallenge'
  generalize verify key (hash (openMessage s c.nonce c.role c.slot f)) (fit 64 data) = good at hbuffer ⊢
  obtain ⟨hexec, htick, hrsp, hchallenge, hsession⟩ := opened_spec (hkf.symm ▸ hf) good u
  rw [hkf] at hrsp hchallenge hsession
  have hans (st : Byte) : AnsweredWith .roleOpen f q s st [] (finish x st [] (opened k good u)) :=
    hx.ends hfree hf (hexec.trans (by rw [hu, ht]; rfl)) (hrsp.trans hrsp') (htick.trans (by rw [hu, ht]; rfl))
  have hfinish (st : Byte) : ((finish x st [] (opened k good u)).fn f).challenge = none := by
    rw [← hx.func, challenge_finish hx.live (hx.func ▸ hf), hx.func, hchallenge, hchallenge']
  refine ⟨_, hbuffer, hfinish _, ?_⟩
  cases good with
  | true =>
    refine ⟨hans St.ok, ?_⟩
    show ((finish x St.ok [] (opened k true u)).fn f).session = _
    rw [session_finish_all hx.live (hx.func ▸ hf), hsession, if_pos rfl, hkq, hrole, hslot]
  | false =>
    refine ⟨hans St.authFail, ?_⟩
    show ((finish x St.authFail [] (opened k false u)).fn f).session = _
    rw [session_finish_all hx.live (hx.func ▸ hf), hsession, if_neg Bool.false_ne_true, hsession']
end

end Sys2Proof.Machine
end

section
/-!
PROOF. Commands whose buffer is an image or a message, and signatures (O60).
-/
namespace Sys2Proof.Machine

/-! ### Waits after a buffer (R118, R414, R444) -/

theorem settle_wait {w : Wait} (hw : ∀ k d, w ≠ .entropy k d) (n : Nat) (x : ExecEntry) (s : State) : settle (n + 1) x (.wait w, s) =
    updExec x { x with wait := w, since := if w.restarts then s.time.elapsed else x.since } s := by
  cases w with
  | entropy k d => exact absurd rfl (hw k d)
  | _ => rfl

theorem IsOf.waits {o : Op} {f : Nat} {q : Request} {x : ExecEntry} (hx : IsOf o f q x) (w : Wait) (n : Nat) : IsOf o f q { x with wait := w, since := n } :=
  ⟨hx.func, hx.entry, hx.live⟩

/-- R118. With its buffer read a command may wait for something more. -/
theorem withBuffer_waits {o : Op} {i : Instr} {f : Nat} {q : Request} {s t u : State} {a n : Nat} (hfree : tagFree f q s)
    (hi : exec i s = .next (waiting o f q (.dma a n) s t)) (ht : t.exec = s.exec) {data : List Byte} {w : Wait} (hw : ∀ k d, w ≠ .entropy k d)
    (hr : resumeOf (readEntry o f q a n data s) (.dma a n) { t with exec := s.exec ++ [readEntry o f q a n data s] } =
      (.wait w, { u with exec := s.exec ++ [readEntry o f q a n data s] })) :
    withBuffer i f q data s { u with exec := s.exec ++
      [{ readEntry o f q a n data s with wait := w, since := if w.restarts then u.time.elapsed else s.time.elapsed }] } := by
  have hbuffer := withBuffer_of_read hfree hi ht data
  rw [hr, settle_wait hw, (isOf_readEntry o f q a n data s).updExec_last hfree] at hbuffer
  exact hbuffer

/-- R105 step 13. A served command whose run waits, for anything but a boundary. -/
theorem command_run {o : Op} {f : Nat} {q : Request} {s t : State} {w : Wait} (h : served o f q s = true)
    (hr : o.behaviour.run (ctxOf o f q s) (atMailbox f s) = (.wait w, t)) (hw : w ≠ .tick) :
    command o f q s = settle 2 (inExecution o f q .tick s) (.wait w, { t with exec := t.exec ++ [inExecution o f q .tick s] }) := by
  have hstep : stepTwelve (ctxOf o f q s) (atMailbox f s) (.wait w, t) = (.wait w, t) := by
    cases w with
    | tick => exact absurd rfl hw
    | _ => rfl
  rw [command_served h]
  simp only [execute, show (ctxOf o f q s).op = o from rfl, show (atMailbox f s).boot = s.boot from rfl, not_degraded h, Bool.false_eq_true, if_false,
    hr, hstep]
  rfl

/-- A command that is no next-tick command and waits once more. -/
theorem resumeOf_wait {x : ExecEntry} {o : Op} {w v : Wait} {s t : State} (ho : Op.ofCode x.entry.opcode.toNat = some o)
    (hr : o.behaviour.resume (x.ctx o) w s = (.wait v, t)) (hv : v ≠ .tick) : resumeOf x w s = (.wait v, t) := by
  simp only [resumeOf, ho, hr]
  cases v with
  | tick => exact absurd rfl hv
  | _ => rfl

section
variable {f : Nat} {q : Request} {data : List Byte} {s : State} (hfree : tagFree f q s)
include hfree

/-! ### SEQ_IMAGE_LOAD (R502) -/

omit hfree in
theorem class_of_imageGood {bs : List Byte} (h : imageGood bs = true) : field bs 5 1 < 2 := by
  simp only [imageGood, Bool.and_eq_true, decide_eq_true_eq] at h
  omega

/-- R502. -/
theorem seqImageLoad_completes (h : served .seqImageLoad f q s = true) (hguard : auditGuard s = true) (hnow : q.bit 28 0 = false)
    (hlen : (q.dma 16).2 = imageLen (fit (q.dma 16).2 data)) (hgood : imageGood (fit (q.dma 16).2 data) = true)
    (hstate : loadState ((readEntry .seqImageLoad f q (q.dma 16).1 (q.dma 16).2 data s).ctx .seqImageLoad)
      (readState .seqImageLoad f q (q.dma 16).1 (q.dma 16).2 data s) = none) :
    ∃ v, withBuffer (.seqImageLoad f q) f q data s v ∧
      (∀ k, k ≠ field (fit (q.dma 16).2 data) 5 1 → tget v.cls k = tget s.cls k) ∧
      if signedGood s (fit (q.dma 16).2 data) = false then AnsweredWith .seqImageLoad f q s St.authFail [] v ∧ v.cls = s.cls
      else AnsweredWith .seqImageLoad f q s St.ok [] v ∧
        if field (fit (q.dma 16).2 data) 6 1 = 0 then
          (tget v.cls (field (fit (q.dma 16).2 data) 5 1)).vendorIn = true ∧
            (tget v.cls (field (fit (q.dma 16).2 data) 5 1)).vendorVer = field (fit (q.dma 16).2 data) 8 4
        else (tget v.cls (field (fit (q.dma 16).2 data) 5 1)).openIn = true ∧
          (tget v.cls (field (fit (q.dma 16).2 data) 5 1)).openVer = field (fit (q.dma 16).2 data) 8 4 := by
  have hx := isOf_readEntry .seqImageLoad f q (q.dma 16).1 (q.dma 16).2 data s
  have hbegin : exec (.seqImageLoad f q) s = .next (waiting .seqImageLoad f q (.dma (q.dma 16).1 (q.dma 16).2) s (atMailbox f s)) :=
    congrArg _ (command_reads h rfl)
  have hresume := resume_seqImageLoadB (c := (readEntry .seqImageLoad f q (q.dma 16).1 (q.dma 16).2 data s).ctx .seqImageLoad) (a := (q.dma 16).1)
    (n := (q.dma 16).2) (s := readState .seqImageLoad f q (q.dma 16).1 (q.dma 16).2 data s) hlen hgood hstate hguard hnow
  rw [show signedGood (readState .seqImageLoad f q (q.dma 16).1 (q.dma 16).2 data s)
    ((readEntry .seqImageLoad f q (q.dma 16).1 (q.dma 16).2 data s).ctx .seqImageLoad).data = signedGood s (fit (q.dma 16).2 data) from rfl] at hresume
  cases hs : signedGood s (fit (q.dma 16).2 data) with
  | false =>
    rw [hs] at hresume
    have hbuffer := withBuffer_done hfree hbegin rfl (data := data) (resumeOf_done hx.ofCode hresume (.inr (by decide)))
    refine ⟨_, hbuffer, fun k _ => by rw [finish_eq]; rfl, ?_⟩
    rw [if_pos rfl]
    exact ⟨hx.ends_of_steady hfree (lt_of_served h) rfl, by rw [finish_eq]; rfl⟩
  | true =>
    rw [hs] at hresume
    obtain ⟨u, hload, hsteady, hother, hown⟩ := finishLoad_spec (class_of_imageGood hgood)
      (c := (readEntry .seqImageLoad f q (q.dma 16).1 (q.dma 16).2 data s).ctx .seqImageLoad)
      (readState .seqImageLoad f q (q.dma 16).1 (q.dma 16).2 data s)
    have hbuffer := withBuffer_done hfree hbegin rfl (data := data) (resumeOf_done hx.ofCode (hresume.trans hload) (.inr (by decide)))
    have hans := hx.ends_of_steady hfree (lt_of_served h) (st := St.ok) (pay := []) hsteady
    generalize hv : finish (readEntry .seqImageLoad f q (q.dma 16).1 (q.dma 16).2 data s) St.ok [] u = v at hbuffer hans
    have hcls : v.cls = u.cls := by rw [← hv, finish_eq]
    refine ⟨v, hbuffer, fun k hk => by rw [hcls]; exact hother k hk, ?_⟩
    rw [if_neg (by simp), hcls]
    refine ⟨hans, ?_⟩
    revert hown
    show (if field (fit (q.dma 16).2 data) 6 1 = 0 then _ else _) → _
    split
    · exact fun ⟨hin, _, hver⟩ => ⟨hin, hver⟩
    · exact fun ⟨hin, _, hver⟩ => ⟨hin, hver⟩

/-! ### SYS_CONFIG_SAVE (R124) -/

/-- R124. -/
theorem sysConfigSave_completes (h : served .sysConfigSave f q s = true) (hempty : s.boot.queue = []) :
    ∃ t v c n, exec (.sysConfigSave f q) s = .next t ∧ exec (.flashProgramDone true) t = .next v ∧
      AnsweredWith .sysConfigSave f q s St.ok (le 4 n ++ le 4 c.gen) v ∧ v.boot.saved = (c :: s.boot.saved).take 2 ∧
      c.channels = s.chans.toList.map Chan.cfg ∧ c.flows = s.flowCfg.toList := by
  have hx := isOf_inExecution .sysConfigSave f q .flash s
  have hbegin := exec_sysConfigSave h
  generalize ht : waiting .sysConfigSave f q .flash s
    (flashQueue (.config (configNow (nextGeneration s) s)) (some (f, q.tag)) { atMailbox f s with fresh := s.fresh + 1 }) = t at hbegin
  have hqueue : t.boot.queue = [⟨.config (configNow (nextGeneration s) s), some (f, q.tag)⟩] := by
    rw [← ht]
    show s.boot.queue ++ _ = _
    rw [hempty]
    rfl
  have hexec : t.exec = s.exec ++ [inExecution .sysConfigSave f q .flash s] := by rw [← ht]; rfl
  have hwaiter : flashWaiter ⟨.config (configNow (nextGeneration s) s), some (f, q.tag)⟩ t = some (inExecution .sysConfigSave f q .flash s) := by
    have hfind := hx.find hfree (p := fun w => w == .flash) rfl hexec
    rwa [show BitVec.ofNat 16 q.tag.toNat = q.tag by simp] at hfind
  obtain ⟨v, n, hdone, -, -, hsaved, hleft, hrsp⟩ := configSaved hx.live (lt_of_served h) hqueue hwaiter rfl hx.ofCode
  refine ⟨t, v, configNow (nextGeneration s) s, n, hbegin, hdone, ⟨hleft.trans (by rw [hexec, hx.erase_last hfree]), ?_⟩, ?_, rfl, rfl⟩
  · refine hrsp.trans ?_
    rw [← ht]
    rfl
  · rw [hsaved, ← ht]
    rfl

/-! ### ROLE_UPDATE (R465 to R467) -/

omit hfree in
/-- R466. What the checks of a message have found. -/
theorem of_checkUpdate {m : Update} (h : checkUpdate s m = none) : kindTarget m.kind m.target = true ∧ (m.kind ≠ 0x01 → s.tarn.tampered = false) := by
  have hchecks := none_of_firstOf h
  have hfields := eq_true_of_need (hchecks _ List.mem_cons_self)
  have htamper := eq_true_of_need (hchecks _ (List.mem_cons_of_mem _ (List.mem_cons_of_mem _ List.mem_cons_self)))
  simp only [Bool.and_eq_true] at hfields
  exact ⟨hfields.1.1.2, fun hk => by simpa [hk] using htamper⟩

omit hfree in
/-- R467. The counter of a message that is committed. -/
theorem counterLow_commitUpdate (c : Ctx) {m : Update} (h1 : m.kind ≠ 0x01) (h2 : m.kind ≠ 0x02) (s : State) :
    (commitUpdate c m s).roles.counterLow = m.counter % 2 ^ 40 := by
  have henrol : m.isEnrol = false := by simp [Update.isEnrol, h1, h2]
  rw [commitUpdate, henrol, if_neg Bool.false_ne_true, counterLow_of_unrecorded (unrecorded_auditNow ..), counterLow_applyUpdate h2,
    counterLow_storeCounter]

omit hfree in
/-- R466. A message that fails a check is refused, with a record where it is not genuine. -/
theorem updateRead_refused {c : Ctx} {st : Byte} (hlen : (c.q.dma 16).2 = 128 + (Update.ofBytes c.data).bodyLen) (hguard : auditGuard s = true)
    (hcheck : checkUpdate s (Update.ofBytes c.data) = some st) :
    ∃ t, updateRead c s = (.done st [], t) ∧ steady t = steady s ∧ unrecorded t = unrecorded s := by
  simp only [updateRead, hlen, hcheck, hguard, ne_eq, not_true_eq_false, if_false, if_true]
  split
  · exact ⟨_, rfl, steady_auditNow .., unrecorded_auditNow ..⟩
  · exact ⟨_, rfl, rfl, rfl⟩

omit hfree in
/-- R466. One that passes them waits for the program of what it installs. -/
theorem updateRead_programs {c : Ctx} (hlen : (c.q.dma 16).2 = 128 + (Update.ofBytes c.data).bodyLen)
    (hcheck : checkUpdate s (Update.ofBytes c.data) = none) (hk : (Update.ofBytes c.data).kind ≠ 0x01) :
    updateRead c s = (.wait .flash, flashQueue .credential (some (c.f, c.q.tag)) s) := by
  simp only [updateRead, hlen, hcheck, hk, ne_eq, not_true_eq_false, if_false]

section
variable (h : served .roleUpdate f q s = true) (hlen : (q.dma 16).2 = 128 + (Update.ofBytes (fit (q.dma 16).2 data)).bodyLen)
include h

omit hfree in
theorem exec_roleUpdate : exec (.roleUpdate f q) s = .next (waiting .roleUpdate f q (.dma (q.dma 16).1 (q.dma 16).2) s (atMailbox f s)) :=
  congrArg _ (command_reads h rfl)

include hlen

/-- R466. -/
theorem roleUpdate_refused (hguard : auditGuard s = true) {st : Byte}
    (hcheck : checkUpdate s (Update.ofBytes (fit (q.dma 16).2 data)) = some st) :
    ∃ t, withBuffer (.roleUpdate f q) f q data s t ∧ AnsweredWith .roleUpdate f q s st [] t ∧ t.roles.counterLow = s.roles.counterLow ∧
      ∀ r n, credential t r n = credential s r n := by
  have hx := isOf_readEntry .roleUpdate f q (q.dma 16).1 (q.dma 16).2 data s
  obtain ⟨t, hread, hsteady, hview⟩ := updateRead_refused (s := { atMailbox f s with
    exec := s.exec ++ [readEntry .roleUpdate f q (q.dma 16).1 (q.dma 16).2 data s] })
    (c := (readEntry .roleUpdate f q (q.dma 16).1 (q.dma 16).2 data s).ctx .roleUpdate) hlen hguard hcheck
  refine ⟨_, withBuffer_done hfree (exec_roleUpdate h) rfl (resumeOf_done hx.ofCode hread (.inr (by decide))),
    hx.ends_of_steady hfree (lt_of_served h) hsteady, ?_, fun r n => ?_⟩
  · rw [finish_eq]
    exact (counterLow_of_unrecorded hview :)
  · rw [finish_eq]
    exact (credential_of_unrecorded hview r n :)

/-- R414, R465, R466, R467. -/
theorem roleUpdate_commits (hempty : s.boot.queue = []) (hcheck : checkUpdate s (Update.ofBytes (fit (q.dma 16).2 data)) = none)
    (hk : (Update.ofBytes (fit (q.dma 16).2 data)).kind ≠ 0x01) :
    ∃ t v, withBuffer (.roleUpdate f q) f q data s t ∧ exec (.flashProgramDone true) t = .next v ∧
      AnsweredWith .roleUpdate f q s St.ok (le 8 (Update.ofBytes (fit (q.dma 16).2 data)).counter) v ∧
      ((Update.ofBytes (fit (q.dma 16).2 data)).kind ≠ 0x02 → v.roles.counterLow = (Update.ofBytes (fit (q.dma 16).2 data)).counter % 2 ^ 40) ∧
      ((Update.ofBytes (fit (q.dma 16).2 data)).kind = 0x12 → credential v 1 (Update.ofBytes (fit (q.dma 16).2 data)).target =
        if isZeros (Update.ofBytes (fit (q.dma 16).2 data)).body then none else some (Update.ofBytes (fit (q.dma 16).2 data)).body) := by
  obtain ⟨x, hxd⟩ : ∃ x, x = readEntry .roleUpdate f q (q.dma 16).1 (q.dma 16).2 data s := ⟨_, rfl⟩
  obtain ⟨y, hyd⟩ : ∃ y : ExecEntry, y = { x with wait := .flash, since := x.since } := ⟨_, rfl⟩
  obtain ⟨m, hm⟩ : ∃ m, m = Update.ofBytes (fit (q.dma 16).2 data) := ⟨_, rfl⟩
  obtain ⟨t, ht⟩ : ∃ t : State, t = { flashQueue .credential (some (f, q.tag)) (atMailbox f s) with exec := s.exec ++ [y] } := ⟨_, rfl⟩
  obtain ⟨u, hu⟩ : ∃ u : State, u = { t with boot := { t.boot with queue := [], flashBad := false } } := ⟨_, rfl⟩
  have hx : IsOf .roleUpdate f q x := hxd ▸ isOf_readEntry ..
  have hy : IsOf .roleUpdate f q y := hyd ▸ hx.waits ..
  have hdata : Update.ofBytes (y.ctx .roleUpdate).data = m := by rw [hm, hyd, hxd]; rfl
  obtain ⟨htarget, htamper⟩ := of_checkUpdate hcheck
  have hread : resumeOf x (.dma (q.dma 16).1 (q.dma 16).2) { atMailbox f s with exec := s.exec ++ [x] } =
      (.wait .flash, flashQueue .credential (some (f, q.tag)) { atMailbox f s with exec := s.exec ++ [x] }) := by
    rw [hxd]
    exact resumeOf_wait (isOf_readEntry ..).ofCode (updateRead_programs hlen hcheck hk) (by simp)
  have hbuffer : withBuffer (.roleUpdate f q) f q data s t := by
    rw [ht, hyd, hxd]
    exact withBuffer_waits (u := flashQueue .credential (some (f, q.tag)) (atMailbox f s)) hfree (exec_roleUpdate h) rfl (by simp) (by rw [← hxd]; exact hread)
  have hqueue : t.boot.queue = [⟨.credential, some (f, q.tag)⟩] := by
    rw [ht]
    show s.boot.queue ++ _ = _
    rw [hempty]
    rfl
  have hwaiter : flashWaiter ⟨.credential, some (f, q.tag)⟩ t = some y := by
    have hfind := hy.find hfree (p := fun w => w == .flash) (by rw [hyd]; rfl) (t := t) (by rw [ht])
    rwa [show BitVec.ofNat 16 q.tag.toNat = q.tag by simp] at hfind
  have hresume : resumeOf y .flash u = (.done St.ok (le 8 m.counter), commitUpdate (y.ctx .roleUpdate) m u) := by
    refine resumeOf_done hy.ofCode ?_ (.inr (by decide))
    have hflash := resume_roleUpdateB_flash (c := y.ctx .roleUpdate) (s := u) (.inl (by rw [hu, ht]; exact htamper hk))
    rwa [hdata] at hflash
  have hdone : exec (.flashProgramDone true) t = .next (finish y St.ok (le 8 m.counter) (commitUpdate (y.ctx .roleUpdate) m u)) := by
    rw [exec_flashProgramDone hqueue hwaiter, show applyFlash .credential _ = u from hu.symm, hresume, settle_done]
  have hanswer : answering (commitUpdate (y.ctx .roleUpdate) m u) = answering { s with exec := s.exec ++ [y] } :=
    (answering_commitUpdate ..).trans (by rw [hu, ht]; rfl)
  rw [← hm] at hk htarget ⊢
  refine ⟨t, _, hbuffer, hdone, hy.ends_of_answering hfree (lt_of_served h) hanswer, fun h2 => ?_, fun hkind => ?_⟩
  · rw [finish_eq]
    exact counterLow_commitUpdate _ hk h2 u
  · have hlt : m.target < 16 := by
      rw [hkind] at htarget
      exact of_decide_eq_true htarget
    rw [finish_eq]
    exact (commitUpdate_operator (y.ctx .roleUpdate) hkind hlt u).2.2.1
end

/-! ### TARN_SIGN (R442, R444, R453) -/

omit hfree in
/-- R446. A signature that is served has a key that may be used and a source of entropy. -/
theorem of_served_tarnSign (h : served .tarnSign f q s = true) (hout : (q.dma 32).2 ≠ 0) : keyUsable s (q.u 16 2) = true ∧ s.tarn.trng ≠ .latched := by
  have hmember := member_of_served h (m := 0) (List.mem_singleton.mpr rfl)
  have hchecks : firstOf [need (keyUsable s (q.u 16 2)) St.orphanedKey, entropyCheck s] = none := (if_neg hout).symm.trans hmember
  have hkey := eq_true_of_need (none_of_firstOf hchecks _ List.mem_cons_self)
  have htrng := eq_true_of_need (none_of_firstOf hchecks _ (List.mem_cons_of_mem _ List.mem_cons_self))
  exact ⟨hkey, by simpa using htrng⟩

omit hfree in
/-- R436. Which keys may be used is in the key tree alone. -/
theorem keyUsable_congr {t : State} (htamper : t.tarn.tampered = s.tarn.tampered) (hnodes : t.tarn.nodes = s.tarn.nodes) (n : Nat) :
    keyUsable t n = keyUsable s n := by
  have hnode (k : Nat) : t.node k = s.node k := congrArg (tget · k) hnodes
  have hchain (k j : Nat) : chainOk t j k = chainOk s j k := by
    induction k generalizing j with
    | zero => rfl
    | succ k ih => simp only [chainOk, hnode, ih]
  rw [keyUsable, keyUsable, htamper, hnode, hchain]

/-- R442. The signature that a TARN_SIGN writes. -/
def signature (q : Request) (d : List Byte) (s : State) : List Byte :=
  fit 64 (Config.ecdsaSign (privKey s (q.u 16 2)) (s.tarn.pool.take 32) (hash (q.bytes 44 16 ++ d)))

/-- R444. The state once its nonce is drawn. -/
def drawn (s : State) : State := modTarn (fun t => { t with pool := t.pool.drop 32 }) s

omit hfree in
/-- R444. Entropy that is there is taken at once. -/
theorem settle_draws {n k : Nat} {d e : List Byte} {x : ExecEntry} {t : State}
    (he : takeEntropy k (updExec x { x with wait := .entropy k d, since := if (Wait.entropy k d).restarts then s.time.elapsed else x.since } s) = some (e, t)) :
    settle (n + 1) x (.wait (.entropy k d), s) = settle n { x with wait := .entropy k d, since := x.since }
      (resumeOf { x with wait := .entropy k d, since := x.since } (.entropy k e) t) := by
  simp only [settle, he]
  rfl

omit hfree in
/-- R442, R475. -/
theorem signNow_signs {c : Ctx} {nonce : List Byte} (hkey : keyUsable s (c.q.u 16 2) = true) (hguard : auditGuard s = true) :
    ∃ t, signNow c nonce s = (.wait (.dmaOut (c.q.dma 32).1 (fit 64 (Config.ecdsaSign (privKey s (c.q.u 16 2)) nonce (signDigest c))) []), t) ∧
      steady t = steady s ∧ t.tarn = s.tarn := by
  simp only [signNow, hkey, hguard, Bool.not_true, Bool.false_eq_true, if_false, if_true]
  exact ⟨_, rfl, steady_auditNow .., tarn_of_unrecorded (unrecorded_auditNow ..)⟩

omit hfree in
/-- Two states that agree on what stays, each with the same requests in execution. -/
theorem steady_withExec {t : State} (h : steady t = steady s) (l : List ExecEntry) : steady { t with exec := l } = steady { s with exec := l } :=
  (congrArg (fun p : Boot × TimeBase × Vector Fn 16 × List ExecEntry × Option Nat × Bool => (p.1, p.2.1, p.2.2.1, l, p.2.2.2.2)) h :)

/-- R442, R475. With its nonce there, a request that is to sign writes its signature. -/
theorem settle_signs (h : served .tarnSign f q s = true) (hout : (q.dma 32).2 ≠ 0) (hpool : 32 ≤ s.tarn.pool.length) (hguard : auditGuard s = true)
    {x : ExecEntry} (hx : IsOf .tarnSign f q x) : ∃ t y, IsOf .tarnSign f q y ∧ y.wait = .dmaOut (q.dma 32).1 (signature q x.data s) [] ∧
      settle 2 x (.wait (.entropy 32 []), { atMailbox f s with exec := s.exec ++ [x] }) = { t with exec := s.exec ++ [y] } ∧
      steady t = steady s ∧ t.tarn.pool = s.tarn.pool.drop 32 := by
  obtain ⟨x1, hx1⟩ : ∃ x1 : ExecEntry, x1 = { x with wait := .entropy 32 [], since := x.since } := ⟨_, rfl⟩
  obtain ⟨s1, hs1⟩ : ∃ s1 : State, s1 = drawn { atMailbox f s with exec := s.exec ++ [x1] } := ⟨_, rfl⟩
  have hy1 : IsOf .tarnSign f q x1 := hx1 ▸ hx.waits ..
  have hnonce : settle 2 x (.wait (.entropy 32 []), { atMailbox f s with exec := s.exec ++ [x] }) =
      settle 1 x1 (resumeOf x1 (.entropy 32 (s.tarn.pool.take 32)) s1) := by
    rw [hs1, hx1]
    refine settle_draws ?_
    rw [show (if (Wait.entropy 32 []).restarts then _ else x.since) = x.since from rfl, hx.updExec_last hfree]
    exact if_pos hpool
  have hc : (x1.ctx .tarnSign).q = q := by rw [show (x1.ctx .tarnSign).q = x1.entry.req from rfl, hy1.entry]; rfl
  have hd : (x1.ctx .tarnSign).data = x.data := by rw [hx1]; rfl
  have hsig : fit 64 (Config.ecdsaSign (privKey s1 (q.u 16 2)) (s.tarn.pool.take 32) (signDigest (x1.ctx .tarnSign))) = signature q x.data s := by
    rw [signDigest, hc, hd, hs1]
    rfl
  have husable : keyUsable s1 (q.u 16 2) = true := by
    rw [keyUsable_congr (s := s) (by rw [hs1]; rfl) (by rw [hs1]; rfl)]
    exact (of_served_tarnSign h hout).1
  obtain ⟨t, ht⟩ := signNow_signs (c := x1.ctx .tarnSign) (nonce := s.tarn.pool.take 32) (s := s1) (hc ▸ husable) (by rw [hs1]; exact hguard)
  obtain ⟨hsign, hsteady, htarn⟩ := ht
  rw [hc, hsig] at hsign
  have hresume : resumeOf x1 (.entropy 32 (s.tarn.pool.take 32)) s1 = (.wait (.dmaOut (q.dma 32).1 (signature q x.data s) []), t) :=
    resumeOf_wait hy1.ofCode hsign (by simp)
  have hexec : t = { t with exec := s.exec ++ [x1] } := by
    rw [← show t.exec = s.exec ++ [x1] from (exec_of_steady hsteady).trans (by rw [hs1]; rfl)]
  refine ⟨{ t with exec := s.exec }, _, hy1.waits _ t.time.elapsed, rfl, ?_, ?_, ?_⟩
  · rw [hnonce, hresume, settle_wait (by simp), hexec]
    exact hy1.updExec_last hfree _ t
  · exact (steady_withExec hsteady s.exec).trans (by rw [hs1]; rfl)
  · show t.tarn.pool = _
    rw [htarn, hs1]
    rfl

/-- R442, R453. A TARN_SIGN has written its signature with the nonce it drew, over the data `d`. -/
def Signed (f : Nat) (q : Request) (s : State) (d : List Byte) (v : State) : Prop :=
  AnsweredWith .tarnSign f q s St.ok [] v ∧ v.tarn.pool = s.tarn.pool.drop 32 ∧ Output.dmaWrite f (q.dma 32).1 (signature q d s) ∈ v.out

theorem signed_of_written (hf : f < 16) {t : State} {y : ExecEntry} (hy : IsOf .tarnSign f q y) {d : List Byte}
    (hwait : y.wait = .dmaOut (q.dma 32).1 (signature q d s) []) (hsteady : steady t = steady s) (hpool : t.tarn.pool = s.tarn.pool.drop 32)
    (data : List Byte) :
    ∃ v, exec (.dmaTransferDone f q.tag.toNat true data) { t with exec := s.exec ++ [y] } = .next v ∧ Signed f q s d v := by
  have hr (u : State) : (resumeOf y (.dmaOut (q.dma 32).1 (signature q d s) []) u).2 = u :=
    congrArg Prod.snd (resumeOf_done (st := St.internal) hy.ofCode rfl (.inr (by decide)))
  refine ⟨_, hy.exec_written hfree hwait hr rfl data, hy.ends_of_steady hfree hf ?_, ?_, (out_finish_suffix ..).subset List.mem_cons_self⟩
  · exact steady_withExec hsteady (s.exec ++ [y])
  · rw [finish_eq]
    exact hpool

/-- R442, R444, R453. -/
theorem tarnSign_completes (h : served .tarnSign f q s = true) (hout : (q.dma 32).2 ≠ 0) (hpool : 32 ≤ s.tarn.pool.length) (hguard : auditGuard s = true) :
    ((q.dma 20).2 = 0 → ∃ v, withBuffer (.tarnSign f q) f q [] s v ∧ Signed f q s [] v) ∧
    ((q.dma 20).2 ≠ 0 → ∃ t v, withBuffer (.tarnSign f q) f q data s t ∧
      exec (.dmaTransferDone f q.tag.toNat true []) t = .next v ∧ Signed f q s (fit (q.dma 20).2 data) v) := by
  refine ⟨fun hin => ?_, fun hin => ?_⟩
  · obtain ⟨t, y, hy, hwait, hsettle, hsteady, hleft⟩ := settle_signs hfree h hout hpool hguard (isOf_inExecution .tarnSign f q .tick s)
    obtain ⟨v, hwritten, hsigned⟩ := signed_of_written hfree (lt_of_served h) hy hwait hsteady hleft []
    refine ⟨v, ⟨_, ?_, hwritten⟩, hsigned⟩
    have hrun : Op.tarnSign.behaviour.run (ctxOf .tarnSign f q s) (atMailbox f s) = (.wait (.entropy 32 []), atMailbox f s) :=
      (if_neg hout).trans ((if_pos hin).trans rfl)
    exact congrArg _ ((command_run h hrun (by simp)).trans hsettle)
  · obtain ⟨t, y, hy, hwait, hsettle, hsteady, hleft⟩ := settle_signs hfree h hout hpool hguard
      (isOf_readEntry .tarnSign f q (q.dma 20).1 (q.dma 20).2 data s)
    obtain ⟨v, hwritten, hsigned⟩ := signed_of_written hfree (lt_of_served h) hy hwait hsteady hleft []
    refine ⟨_, v, ?_, hwritten, hsigned⟩
    have hbuffer := withBuffer_of_read hfree ((exec_tarnSign h).2.1 hout hin) rfl data
    have hresume : resumeOf (readEntry .tarnSign f q (q.dma 20).1 (q.dma 20).2 data s) (.dma (q.dma 20).1 (q.dma 20).2)
        { atMailbox f s with exec := s.exec ++ [readEntry .tarnSign f q (q.dma 20).1 (q.dma 20).2 data s] } = (.wait (.entropy 32 []), _) :=
      resumeOf_wait (isOf_readEntry ..).ofCode (if_neg (of_served_tarnSign h hout).2) (by simp)
    rw [hresume, hsettle] at hbuffer
    exact hbuffer

end
end Sys2Proof.Machine
end

section
/-!
PROOF. Commands with a buffer that then wait for their boundary (O60).
-/
namespace Sys2Proof.Machine

/-! ### A request one tick ahead of its boundary (R108) -/

section
variable {o : Op} {x : ExecEntry} {s t : State} (hexec : t.exec = s.exec ++ [x]) (hwait : x.wait = .tick) (hsince : x.since = s.time.elapsed)
  (ht : steady { t with exec := s.exec } = steady s) (hahead : oneTickAhead s)
include hexec hwait hsince ht hahead

/-- R108. Nothing but the request is due at the next boundary. -/
theorem due_last : (t.exec.filter fun y => y.wait == .tick && decide (dueOf t y ≤ t.time.passed)) = [x] := by
  obtain ⟨-, htick, hinstant, halone⟩ := hahead
  have htick' : t.time.tickRun = true := (tickRun_of_steady ht :).trans htick
  have helapsed : t.time.elapsed = s.time.elapsed := (elapsed_of_steady ht :)
  have hdev : t.time.dev = s.time.dev := (dev_of_steady ht :)
  have hpassed : t.time.passed = s.time.passed := (passed_of_steady ht :)
  have hboundary : t.time.boundary s.time.passed = s.time.boundary s.time.passed := (boundary_of_steady ht _ :)
  have hdue : dueOf t x = t.time.passed := by
    show (if !t.time.tickRun then 0 else if _ ≤ _ then t.time.passed else _) = _
    rw [htick', Bool.not_true, if_neg Bool.false_ne_true, if_pos]
    rw [hsince, helapsed, hdev, hpassed, hboundary]
    omega
  have hother : (s.exec.filter fun y => y.wait == .tick && decide (dueOf t y ≤ t.time.passed)) = [] :=
    List.filter_eq_nil_iff.mpr fun y hy => by simp [halone y hy]
  rw [hexec, List.filter_append, hother, List.nil_append, List.filter_singleton, hdue, hwait]
  simp

/-- R55, R108, R110. It completes there, with the effect of its command. -/
theorem completesAtBoundary_last {g : State → State → Prop} (ho : Op.ofCode x.entry.opcode.toNat = some o) (hreset : s.resetAt = none)
    (hdog : s.power.watchdog = false) (hg : ∀ u, g u (o.behaviour.effect (x.ctx o) u)) : completesAtBoundary x t g := by
  have hruns : t.clockRuns = true := (clockRuns_of_steady ht :).trans hahead.1
  have htick : t.time.tickRun = true := (tickRun_of_steady ht :).trans hahead.2.1
  have hreset' : t.resetAt = none := (resetAt_of_steady ht :).trans hreset
  have hdog' : t.power.watchdog = false := (watchdog_of_steady ht :).trans hdog
  have hcount := (passed_beforeCommands hruns htick).count
  have heffect : takeEffects [x] (beforeCommands t) = _ := takesEffect_of_entry ho (beforeCommands t)
  refine ⟨_, hg (beforeCommands t), ?_⟩
  rw [exec_masterTickBoundary hruns htick, hreset', Option.any_none, if_neg Bool.false_ne_true, nextBoundary, hdog', if_neg Bool.false_ne_true]
  simp only
  rw [due_last hexec hwait hsince ht hahead, heffect, State.lastBoundary, hcount, Nat.add_sub_cancel]
end

/-! ### With its buffer read (R118) -/

/-- A command without limits of its own on its data and its members. -/
theorem dataCheck_of_none {c : Ctx} {s : State} (h : ∀ t m, c.op.behaviour.dataLater t c m = none) : dataCheck c (.wait .tick, s) = (.wait .tick, s) := by
  have hnone : (c.members.filterMap fun m => (c.op.behaviour.dataLater (projected s (effectK s)) c m).map fun e => (m, e)) = [] :=
    List.filterMap_eq_nil_iff.mpr fun m _ => by rw [h, Option.map_none]
  simp only [dataCheck, hnone, memberAnswer]

section
variable {f : Nat} {q : Request} {data : List Byte} {s : State} (hfree : tagFree f q s)
include hfree

/-- R63, R108, R118. A next-tick command that step 12 admits with its data completes at the next boundary. -/
theorem withBuffer_completes {o : Op} {i : Instr} {a n : Nat} {b : Books} {t : State} {g : State → State → Prop} (h : served o f q s = true)
    (hi : exec i s = .next (waiting o f q (.dma a n) s (atMailbox f s))) (hahead : oneTickAhead s)
    (hr : o.behaviour.resume ((readEntry o f q a n data s).ctx o) (.dma a n) (readState o f q a n data s) = (.wait .tick, t))
    (ht : steady t = steady (readState o f q a n data s))
    (hd : dataCheck ((readEntry o f q a n data s).ctx o) (.wait .tick, t) = (.wait .tick, t))
    (ha : admission (readState o f q a n data s) ((readEntry o f q a n data s).ctx o) = some b)
    (hg : ∀ u, g u (o.behaviour.effect ((readEntry o f q a n data s).ctx o) u)) :
    ∃ v, withBuffer i f q data s v ∧ completesAtBoundary { readEntry o f q a n data s with wait := .tick } v g := by
  have hx := isOf_readEntry o f q a n data s
  have hexec : (withBooks b t).exec = s.exec ++ [readEntry o f q a n data s] := (exec_of_steady ht :)
  have helapsed : (withBooks b t).time.elapsed = s.time.elapsed := (elapsed_of_steady ht :)
  have hsteady : steady { withBooks b t with exec := s.exec } = steady s := (steady_withExec (t := withBooks b t) ht s.exec).trans rfl
  have hresume := resumeOf_admitted hx.ofCode hr hd ha
  obtain ⟨hreset, hdog⟩ := reads_of_served h
  have hsince : (readEntry o f q a n data s).since = s.time.elapsed := rfl
  generalize withBooks b t = u at *
  have hbuffer := withBuffer_waits (w := .tick) (u := u) hfree hi rfl (by simp) (hresume.trans (congrArg (Prod.mk _) (by rw [← hexec])))
  generalize readEntry o f q a n data s = x at *
  have hticked : { x with wait := .tick, since := u.time.elapsed } = { x with wait := .tick } := by rw [helapsed, ← hsince]
  have hbuffer' : withBuffer i f q data s { u with exec := s.exec ++ [{ x with wait := .tick }] } := by rw [← hticked]; exact hbuffer
  have hy : IsOf o f q { x with wait := .tick } := hx.waits .tick x.since
  have hsince' : ExecEntry.since { x with wait := .tick } = s.time.elapsed := hsince
  have hg' : ∀ u, g u (o.behaviour.effect (ExecEntry.ctx { x with wait := .tick } o) u) := hg
  have hwait : ExecEntry.wait { x with wait := .tick } = .tick := rfl
  generalize ({ x with wait := .tick } : ExecEntry) = y at *
  refine ⟨_, hbuffer', completesAtBoundary_last (o := o) (s := s) rfl hwait hsince' ?_ hahead hy.ofCode hreset hdog hg'⟩
  exact hsteady

/-! ### SEQ_PATCH_APPLY (R505) -/

omit hfree in
theorem class_of_patchGood {bs : List Byte} (h : patchGood s bs = true) : field bs 5 1 < 2 := by
  simp only [patchGood, Bool.and_eq_true, decide_eq_true_eq] at h
  omega

omit hfree in
/-- R505. A patch that is good is accepted where it is signed. -/
theorem resume_seqPatchApplyB {c : Ctx} {a n : Nat} (hlen : (c.q.dma 16).2 = patchLen c.data) (hgood : patchGood s c.data = true)
    (hstate : loadState c s = none) (hguard : auditGuard s = true) (hnow : c.q.bit 28 0 = false) :
    seqPatchApplyB.resume c (.dma a n) s = if signedGood s c.data then (.wait .tick, auditTick c 0x50 (microDetail c) s) else (.done St.authFail [], s) := by
  show (if (c.q.dma 16).2 ≠ patchLen c.data then _ else _) = _
  rw [if_neg (not_not.mpr hlen), hgood, hstate, hnow, tickAudited, hguard]
  cases signedGood s c.data <;> rfl

/-- R505. -/
theorem seqPatchApply_completes {b : Books} (h : served .seqPatchApply f q s = true) (hguard : auditGuard s = true) (hnow : q.bit 28 0 = false)
    (hahead : oneTickAhead s) (hlen : (q.dma 16).2 = patchLen (fit (q.dma 16).2 data)) (hgood : patchGood s (fit (q.dma 16).2 data) = true)
    (hstate : loadState ((readEntry .seqPatchApply f q (q.dma 16).1 (q.dma 16).2 data s).ctx .seqPatchApply)
      (readState .seqPatchApply f q (q.dma 16).1 (q.dma 16).2 data s) = none)
    (ha : admission (readState .seqPatchApply f q (q.dma 16).1 (q.dma 16).2 data s)
      ((readEntry .seqPatchApply f q (q.dma 16).1 (q.dma 16).2 data s).ctx .seqPatchApply) = some b) :
    ∃ t, withBuffer (.seqPatchApply f q) f q data s t ∧
      if signedGood s (fit (q.dma 16).2 data) = false then AnsweredWith .seqPatchApply f q s St.authFail [] t ∧ t.cls = s.cls
      else completesAtBoundary { readEntry .seqPatchApply f q (q.dma 16).1 (q.dma 16).2 data s with wait := .tick } t
        (PatchInForce (fit (q.dma 16).2 data)) := by
  have hx := isOf_readEntry .seqPatchApply f q (q.dma 16).1 (q.dma 16).2 data s
  have hbegin : exec (.seqPatchApply f q) s = .next (waiting .seqPatchApply f q (.dma (q.dma 16).1 (q.dma 16).2) s (atMailbox f s)) :=
    congrArg _ (command_reads h rfl)
  have hresume := resume_seqPatchApplyB (c := (readEntry .seqPatchApply f q (q.dma 16).1 (q.dma 16).2 data s).ctx .seqPatchApply) (a := (q.dma 16).1)
    (n := (q.dma 16).2) (s := readState .seqPatchApply f q (q.dma 16).1 (q.dma 16).2 data s) hlen hgood hstate hguard hnow
  rw [show signedGood (readState .seqPatchApply f q (q.dma 16).1 (q.dma 16).2 data s)
    ((readEntry .seqPatchApply f q (q.dma 16).1 (q.dma 16).2 data s).ctx .seqPatchApply).data = signedGood s (fit (q.dma 16).2 data) from rfl] at hresume
  cases hs : signedGood s (fit (q.dma 16).2 data) with
  | false =>
    rw [hs] at hresume
    refine ⟨_, withBuffer_done hfree hbegin rfl (data := data) (resumeOf_done hx.ofCode hresume (.inl (by decide))), ?_⟩
    rw [if_pos rfl]
    exact ⟨hx.ends_of_steady hfree (lt_of_served h) rfl, by rw [finish_eq]; rfl⟩
  | true =>
    rw [hs] at hresume
    simp only [Bool.true_eq_false, if_false]
    exact withBuffer_completes hfree h hbegin hahead hresume (steady_auditTick ..) (dataCheck_of_none fun _ _ => rfl) ha
      fun u => effect_seqPatchApplyB (c := (readEntry .seqPatchApply f q (q.dma 16).1 (q.dma 16).2 data s).ctx .seqPatchApply) (class_of_patchGood hgood) u

/-! ### FLOW_TEMPLATE_SET (R370) -/

omit hfree in
/-- The members of a selector of flows are flows. -/
theorem members_lt_of_flow {o : Op} (ho : o.info.sel = .flow ∨ o.info.sel = .flows) (h : served o f q s = true) {m : Nat}
    (hm : m ∈ (ctxOf o f q s).members) : m < 256 := by
  have hpresent := present_of_served h
  have hall : ((ctxOf o f q s).members.all fun m => decide (m < (atMailbox f s).nFlow)) = true := by
    rcases ho with ho | ho <;> rw [ho] at hpresent <;> exact hpresent
  exact (of_decide_eq_true (List.all_eq_true.mp hall m hm)).trans_le (nFlow_le _)

omit hfree in
/-- R370. A FLOW_TEMPLATE_SET in execution starts no flow. -/
theorem flowOn_readState (a n m : Nat) : flowOn (readState .flowTemplateSet f q a n data s) m = flowOn s m := by
  have hthis : Op.ofCode (readEntry .flowTemplateSet f q a n data s).entry.opcode.toNat = some .flowTemplateSet := ofCode_entry ..
  have hpending : pendingOn (readState .flowTemplateSet f q a n data s) (· == .flowStart) m = pendingOn s (· == .flowStart) m := by
    simp only [pendingOn, readState, List.any_append, List.any_cons, List.any_nil, hthis]
    simp
  rw [flowOn, flowOn, hpending]
  rfl

/-- R370. -/
theorem flowTemplateSet_completes {b : Books} (h : served .flowTemplateSet f q s = true) (hahead : oneTickAhead s) (hgood : tmplGood (fit 128 data) = true)
    (hoff : ∀ m ∈ (readEntry .flowTemplateSet f q (q.dma 16).1 128 data s).members, flowOn s m = false)
    (ha : admission (readState .flowTemplateSet f q (q.dma 16).1 128 data s)
      ((readEntry .flowTemplateSet f q (q.dma 16).1 128 data s).ctx .flowTemplateSet) = some b) :
    ∃ t, withBuffer (.flowTemplateSet f q) f q data s t ∧
      completesAtBoundary { readEntry .flowTemplateSet f q (q.dma 16).1 128 data s with wait := .tick } t fun u v =>
        v = { u with flowCfg := v.flowCfg } ∧
        (∀ m, m ∉ (readEntry .flowTemplateSet f q (q.dma 16).1 128 data s).members → v.fcfg m = u.fcfg m) ∧
        ∀ m, m ∈ (readEntry .flowTemplateSet f q (q.dma 16).1 128 data s).members → v.fcfg m = { u.fcfg m with template := some (fit 128 data) } := by
  have hfit : fit 128 ((readEntry .flowTemplateSet f q (q.dma 16).1 128 data s).ctx .flowTemplateSet).data = fit 128 data := fit_self _ _ (fit_length ..)
  refine withBuffer_completes hfree h (congrArg _ (command_reads h rfl)) hahead
    (resume_flowTemplateSetB (by rw [hfit]; exact hgood) fun m hm => (flowOn_readState ..).trans (hoff m hm)) rfl (dataCheck_of_none fun _ _ => rfl) ha fun u => ?_
  obtain ⟨hview, hother, hown⟩ := effect_flowTemplateSetB ((readEntry .flowTemplateSet f q (q.dma 16).1 128 data s).ctx .flowTemplateSet) u
  rw [hfit] at hown
  exact ⟨eq_of_unrouted hview, hother, fun m hm => hown m hm (members_lt_of_flow (.inl rfl) h hm)⟩

/-! ### CHAN_LUT_LOAD (R217, R218) -/

/-- R217. The bytes that a CHAN_LUT_LOAD reads first. -/
def lutFirst (q : Request) : Nat := if q.u 16 1 = 2 then 4 else lutBytes (q.u 16 1) 0

omit hfree in
theorem exec_chanLutLoad (h : served .chanLutLoad f q s = true) :
    exec (.chanLutLoad f q) s = .next (waiting .chanLutLoad f q (.dma (q.dma 20).1 (lutFirst q)) s (atMailbox f s)) := congrArg _ (command_reads h rfl)

/-- R217. -/
theorem chanLutLoad_completes {b : Books} (h : served .chanLutLoad f q s = true) (hahead : oneTickAhead s)
    (hr : lutResume ((readEntry .chanLutLoad f q (q.dma 20).1 (lutFirst q) data s).ctx .chanLutLoad) (lutFirst q)
      (readState .chanLutLoad f q (q.dma 20).1 (lutFirst q) data s) = (.wait .tick, readState .chanLutLoad f q (q.dma 20).1 (lutFirst q) data s))
    (hd : dataCheck ((readEntry .chanLutLoad f q (q.dma 20).1 (lutFirst q) data s).ctx .chanLutLoad)
      (.wait .tick, readState .chanLutLoad f q (q.dma 20).1 (lutFirst q) data s) =
        (.wait .tick, readState .chanLutLoad f q (q.dma 20).1 (lutFirst q) data s))
    (ha : admission (readState .chanLutLoad f q (q.dma 20).1 (lutFirst q) data s)
      ((readEntry .chanLutLoad f q (q.dma 20).1 (lutFirst q) data s).ctx .chanLutLoad) = some b) :
    ∃ t, withBuffer (.chanLutLoad f q) f q data s t ∧
      completesAtBoundary { readEntry .chanLutLoad f q (q.dma 20).1 (lutFirst q) data s with wait := .tick } t fun u v =>
        v = { u with chans := v.chans } ∧
        (∀ c, c ∉ (readEntry .chanLutLoad f q (q.dma 20).1 (lutFirst q) data s).members → v.chan c = u.chan c) ∧
        ∀ c, c ∈ (readEntry .chanLutLoad f q (q.dma 20).1 (lutFirst q) data s).members →
          LutInForce (q.u 16 1) (readEntry .chanLutLoad f q (q.dma 20).1 (lutFirst q) data s).data (u.chan c) (v.chan c) := by
  refine withBuffer_completes hfree h (exec_chanLutLoad h) hahead hr rfl hd ha fun u => ?_
  obtain ⟨hview, hother, hown⟩ := effect_chanLutLoadB ((readEntry .chanLutLoad f q (q.dma 20).1 (lutFirst q) data s).ctx .chanLutLoad) u
  exact ⟨eq_of_unchanneled hview, hother, fun c hc => hown c hc (members_lt_of_chan (o := .chanLutLoad) (f := f) (q := q) (s := s) (.inr rfl) hc)⟩

/-- R218. The number of a DEFECT table's pixels decides how much of the buffer is read next. -/
theorem chanLutLoad_reads_on {m : Nat} (h : served .chanLutLoad f q s = true) (hk : q.u 16 1 = 2)
    (hm : field (readEntry .chanLutLoad f q (q.dma 20).1 (lutFirst q) data s).data 0 4 = m) (hpos : 0 < m) (hle : m ≤ 4096)
    (hlen : 4 + 4 * m ≤ (q.dma 20).2) :
    withBuffer (.chanLutLoad f q) f q data s { readState .chanLutLoad f q (q.dma 20).1 (lutFirst q) data s with
      exec := s.exec ++ [{ readEntry .chanLutLoad f q (q.dma 20).1 (lutFirst q) data s with wait := .dma (q.dma 20).1 (4 + 4 * m) }] } := by
  have hfirst : lutFirst q = 4 := if_pos hk
  have hbytes : lutBytes (q.u 16 1) m = 4 + 4 * m := by rw [hk]; rfl
  have hresume : chanLutLoadB.resume ((readEntry .chanLutLoad f q (q.dma 20).1 (lutFirst q) data s).ctx .chanLutLoad) (.dma (q.dma 20).1 (lutFirst q))
      (readState .chanLutLoad f q (q.dma 20).1 (lutFirst q) data s) =
        (.wait (.dma (q.dma 20).1 (4 + 4 * m)), readState .chanLutLoad f q (q.dma 20).1 (lutFirst q) data s) := by
    show lutResume _ (lutFirst q) _ = _
    unfold lutResume
    simp only
    rw [show field ((readEntry .chanLutLoad f q (q.dma 20).1 (lutFirst q) data s).ctx .chanLutLoad).data 0 4 = m from hm,
      show ((readEntry .chanLutLoad f q (q.dma 20).1 (lutFirst q) data s).ctx .chanLutLoad).q = q from rfl, hbytes, hfirst]
    exact if_pos ⟨hk, hle, hlen, by omega⟩
  exact withBuffer_waits (u := readState .chanLutLoad f q (q.dma 20).1 (lutFirst q) data s) hfree (exec_chanLutLoad h) rfl (by simp)
    (resumeOf_wait (isOf_readEntry ..).ofCode hresume (by simp))
end

end Sys2Proof.Machine
end

section
/-!
PROOF. Transfers of the host on a head's bus, and self-refresh (O60).
-/
namespace Sys2Proof.Machine

/-! ### HEAD_I3C_XFER (R185, R186) -/

section
variable {s : State} {a : Attach} {x : BusXfer} {k : Txn} (ha : (s.chan x.ch).cfg.attach = some a) (hbus : a.bus < 8) (hidle : tget s.buses a.bus = [])
  (hstart : mayStart s x.cls = true) (hfresh : x.active = false) (htodo : x.todo = [k]) (huse : x.use_ ≠ .setdasa)
include ha hbus hidle hstart hfresh htodo huse

/-- R186. On a free bus a transfer begins at once. -/
theorem busSend_idle : (busSend x.ch x s).out = .bus a.bus (busAddress x.ch a) k.wdata k.rlen k.rstart :: s.out ∧
    tget (busSend x.ch x s).buses a.bus = [{ x with active := true, since := s.time.elapsed }] := by
  have hpush : tget (busPush x.ch x s).buses a.bus = [x] := by
    simp only [busPush, ha, tget_tmod_same _ hbus, hidle, List.filter_nil, List.nil_append, List.append_nil]
  have hview := busPush_eq x.ch x s
  have hattach : ((busPush x.ch x s).chan x.ch).cfg.attach = some a := by rw [hview]; exact ha
  have hmay : mayStart (busPush x.ch x s) x.cls = true := by rw [hview]; exact hstart
  have helapsed : (busPush x.ch x s).time.elapsed = s.time.elapsed := by rw [hview]
  have hout : (busPush x.ch x s).out = s.out := by rw [hview]
  simp only [busSend, ha, busRun, hpush, hattach, htodo, hfresh, hmay, Bool.not_true, Bool.or_self, Bool.false_eq_true, if_false, if_neg huse, emit,
    tget_tset_same _ hbus, helapsed, hout, and_self]
end

/-- R185, R186. The last transaction of a host's transfer ends, acknowledged: its request is answered with what was read, and the bus is free. -/
theorem exec_i3cTransactionDone_host {b : Nat} {t : State} {y : BusXfer} {k : Txn} {f : Nat} {tag : BitVec 16} {e : ExecEntry} (hb : b < 8)
    (hlist : tget t.buses b = [y]) (hactive : y.active = true) (hcls : y.cls = .host) (htodo : y.todo = [k]) (huse : y.use_ = .hostXfer f tag)
    (hfind : findExec t f tag Wait.isBus = some e) (data : List Byte) :
    ∃ u, exec (.i3cTransactionDone b (.ack data)) t = .next (finish e St.ok (fit 16 (y.got ++ if k.rlen = 0 then [] else fit k.rlen data)) u) ∧
      u = { t with chans := u.chans, buses := u.buses } ∧ tget u.buses b = [] := by
  obtain ⟨w, hw⟩ : ∃ w, w = busShift b y t := ⟨_, rfl⟩
  have hshift : w = { t with buses := w.buses } := by rw [hw, busShift, hcls]; rfl
  have hrest : (tget w.buses b).tail = [] := by
    rw [hw, busShift, hcls, if_neg (by decide)]
    simp only [tget_tmod_same _ hb, hlist]
    rfl
  obtain ⟨u, hu⟩ : ∃ u : State, u = { modHead y.ch (fun h => { h with failRun := 0 }) w with
    buses := tset (modHead y.ch (fun h => { h with failRun := 0 }) w).buses b [] } := ⟨_, rfl⟩
  have hview : u = { t with chans := u.chans, buses := u.buses } := by rw [hu, hshift]; rfl
  have hfree : tget u.buses b = [] := by rw [hu]; exact tget_tset_same _ hb _
  have hfind' : findExec u f tag Wait.isBus = some e := by rw [hview]; exact hfind
  have hrun (z : State) (hz : tget z.buses b = []) : busRun b z = z := by simp only [busRun, hz]
  refine ⟨u, ?_, hview, hfree⟩
  show execI3cTransactionDone b (.ack data) t = _
  simp only [execI3cTransactionDone, if_neg (Nat.not_le.mpr hb), hlist, hactive, Bool.not_true, Bool.false_eq_true, if_false, transactionEnds, ← hw, hrest,
    htodo, List.tail_cons, List.isEmpty_nil, if_true, List.head?_cons, Option.map_some, Option.getD_some, ← hu, xferDone, huse, hfind']
  rw [hrun _ (by rw [finish_eq]; exact hfree)]

section
variable {f : Nat} {q : Request} {data : List Byte} {s : State} (hfree : tagFree f q s)
include hfree

/-- R185. -/
theorem headI3cXfer_completes {m : Nat} {a : Attach} (h : served .headI3cXfer f q s = true) (hm : (ctxOf .headI3cXfer f q s).members = [m])
    (ha : (s.chan m).cfg.attach = some a) (hbus : a.bus < 8) (hidle : tget s.buses a.bus = []) (hstart : mayStart s .host = true) :
    ∃ t v, exec (.headI3cXfer f q) s = .next t ∧ exec (.i3cTransactionDone a.bus (.ack data)) t = .next v ∧
      t.out = .bus a.bus (busAddress m a) (q.bytes 20 (q.u 17 1)) (q.u 18 1) (q.bit 19 0) :: s.out ∧
      AnsweredWith .headI3cXfer f q s St.ok (fit 16 (if q.u 18 1 = 0 then [] else fit (q.u 18 1) data)) v ∧ tget v.buses a.bus = [] := by
  have hx := isOf_inExecution .headI3cXfer f q (.bus m) s
  obtain ⟨hout, hlist⟩ := busSend_idle (s := atMailbox f s) (x := hostXfer f q m) ha hbus hidle hstart rfl rfl (by simp [hostXfer, newXfer])
  have hview := busSend_eq (s := atMailbox f s) m (hostXfer f q m)
  have hexec : (waiting .headI3cXfer f q (.bus m) s (busSend m (hostXfer f q m) (atMailbox f s))).exec =
      s.exec ++ [inExecution .headI3cXfer f q (.bus m) s] := by rw [waiting, hview]; rfl
  have hfind := hx.find hfree (p := Wait.isBus) rfl hexec
  rw [show BitVec.ofNat 16 q.tag.toNat = q.tag by simp] at hfind
  obtain ⟨u, hdone, hu, hempty⟩ := exec_i3cTransactionDone_host (t := waiting .headI3cXfer f q (.bus m) s (busSend m (hostXfer f q m) (atMailbox f s)))
    hbus hlist rfl rfl rfl rfl hfind data
  refine ⟨_, _, exec_headI3cXfer hm h, hdone, hout, hx.ends hfree (lt_of_served h) ?_ ?_ ?_, ?_⟩
  · rw [hu]
    exact hexec
  · rw [hu, waiting, hview]
    rfl
  · rw [hu, waiting, hview]
    rfl
  · rw [finish_eq]
    exact hempty

/-! ### PWR_SELF_REFRESH (R413, R526) -/

/-- R413, R526. What the end of an entry or an exit does of one request. -/
def srTurn (x : ExecEntry) (t : State) : State :=
  match x.wait with
  | .selfRefresh mask => if [0, 1].all fun d => !bitOf mask d || !((t.dmcN d).entering || (t.dmcN d).leaving) then finish x St.ok [] t else t
  | _ => t

omit hfree in
theorem srFinish_eq (t : State) : srFinish t = forEach t.exec srTurn t := rfl

omit hfree in
/-- R413, R526. Where one request alone waits for a controller, and the controller is there, that request is answered. -/
theorem srFinish_alone {x : ExecEntry} {d : Nat} {t : State} (hd : d < 2) (hexec : t.exec = s.exec ++ [x]) (hwait : x.wait = .selfRefresh (2 ^ d))
    (hothers : ∀ y ∈ s.exec, ∀ n, y.wait ≠ .selfRefresh n) (henter : (t.dmcN d).entering = false) (hleave : (t.dmcN d).leaving = false) :
    srFinish t = finish x St.ok [] t := by
  have hready : ([0, 1].all fun e => !bitOf (2 ^ d) e || !((t.dmcN e).entering || (t.dmcN e).leaving)) = true := by
    interval_cases d <;> simp [bitOf, henter, hleave]
  have hskip : forEach s.exec srTurn t = t := forEach_keeps (fun u => u = t) s.exec srTurn t rfl fun y hy u hu => by
    unfold srTurn
    split
    · next n hn => exact absurd hn (hothers y hy n)
    · exact hu
  rw [srFinish_eq, hexec, forEach_append, hskip, forEach_cons, forEach_nil]
  simp only [srTurn, hwait, hready, if_true]

omit hfree in
theorem steady_enterSelfRefresh (d : Nat) : steady (enterSelfRefresh d s) = steady s := by
  rw [enterSelfRefresh, steady_raise]
  rfl

/-- R413, R528. A controller that has left self-refresh. -/
def exitSelfRefresh (d : Nat) (s : State) : State :=
  raise 212 0 (modDmc d (fun x => { x with leaving := false, selfRef := false, chans := x.chans.map fun c => { c with debt := 0 } }) s)

omit hfree in
theorem steady_exitSelfRefresh (d : Nat) : steady (exitSelfRefresh d s) = steady s := by
  rw [exitSelfRefresh, steady_raise]
  rfl

omit hfree in
theorem dmcN_exitSelfRefresh {d : Nat} (hd : d < 2) : (exitSelfRefresh d s).dmcN d =
    { s.dmcN d with leaving := false, selfRef := false, chans := (s.dmcN d).chans.map fun c => { c with debt := 0 } } :=
  (congrArg (fun v : State => v.dmcN d) (raise_eq ..)).trans (dmcN_modDmc_same s hd _)

/-- R413, R526. -/
theorem pwrSelfRefresh_completes {d : Nat} (h : served .pwrSelfRefresh f q s = true) (hd : d < s.nDmc) (honly : srTaken q s = [d])
    (henter : (s.dmcN d).entering = false) (hleave : (s.dmcN d).leaving = false) (hothers : ∀ y ∈ s.exec, ∀ n, y.wait ≠ .selfRefresh n) :
    (q.u 17 1 = 0 → ∃ t v, exec (.pwrSelfRefresh f q) s = .next t ∧ exec (.selfRefreshEntryDone d) t = .next v ∧
      AnsweredWith .pwrSelfRefresh f q s St.ok [] v ∧ (v.dmcN d).selfRef = true) ∧
    (q.u 17 1 ≠ 0 → ∃ t v, exec (.pwrSelfRefresh f q) s = .next t ∧ exec (.selfRefreshExitDone d) t = .next v ∧
      AnsweredWith .pwrSelfRefresh f q s St.ok [] v ∧ (v.dmcN d).selfRef = false) := by
  have hx := isOf_inExecution .pwrSelfRefresh f q (.selfRefresh (2 ^ d)) s
  have hlt : d < 2 := lt_of_srTaken (honly ▸ List.mem_singleton.mpr rfl)
  have hbegin := (exec_pwrSelfRefresh h).2 (by rw [honly]; exact List.cons_ne_nil _ _)
  rw [honly, show (sumOf [d] fun d => 2 ^ d) = 2 ^ d from Nat.zero_add _, forEach_cons, forEach_nil] at hbegin
  obtain ⟨t, ht⟩ : ∃ t, t = waiting .pwrSelfRefresh f q (.selfRefresh (2 ^ d)) s (modDmc d (srSent q) (atMailbox f s)) := ⟨_, rfl⟩
  rw [← ht] at hbegin
  have hdmc : t.dmcN d = srSent q (s.dmcN d) := by rw [ht]; exact dmcN_modDmc_same (atMailbox f s) hlt _
  have hexec : t.exec = s.exec ++ [inExecution .pwrSelfRefresh f q (.selfRefresh (2 ^ d)) s] := by rw [ht]; rfl
  have hlist : steady t = steady { s with exec := s.exec ++ [inExecution .pwrSelfRefresh f q (.selfRefresh (2 ^ d)) s] } := by rw [ht]; rfl
  have hndmc : ¬ t.nDmc ≤ d := Nat.not_le.mpr (by rw [ht]; exact hd)
  have hends {u : State} (hu : steady u = steady t) (huenter : (u.dmcN d).entering = false) (huleave : (u.dmcN d).leaving = false) :
      AnsweredWith .pwrSelfRefresh f q s St.ok [] (srFinish u) ∧ (srFinish u).dmcN d = u.dmcN d := by
    rw [srFinish_alone hlt ((exec_of_steady hu).trans hexec) rfl hothers huenter huleave]
    exact ⟨hx.ends_of_steady hfree (lt_of_served h) (hu.trans hlist), by rw [finish_eq]; rfl⟩
  refine ⟨fun hin => ?_, fun hout => ?_⟩
  · rw [srSent, if_pos hin] at hdmc
    have hentered : (enterSelfRefresh d t).dmcN d = _ := (congrArg (fun v : State => v.dmcN d) (raise_eq ..)).trans (dmcN_modDmc_same t hlt _)
    obtain ⟨hans, hkept⟩ := hends (steady_enterSelfRefresh d) (by rw [hentered]) (by rw [hentered]; exact (congrArg Dmc.leaving hdmc).trans hleave)
    refine ⟨t, _, hbegin, ?_, hans, by rw [hkept, hentered]⟩
    show execSelfRefreshEntryDone d t = _
    rw [execSelfRefreshEntryDone, if_neg hndmc, if_pos (by rw [hdmc])]
  · rw [srSent, if_neg hout] at hdmc
    obtain ⟨hans, hkept⟩ := hends (steady_exitSelfRefresh d) (by rw [dmcN_exitSelfRefresh hlt]; exact (congrArg Dmc.entering hdmc).trans henter)
      (by rw [dmcN_exitSelfRefresh hlt])
    refine ⟨t, _, hbegin, ?_, hans, by rw [hkept, dmcN_exitSelfRefresh hlt]⟩
    show execSelfRefreshExitDone d t = _
    rw [execSelfRefreshExitDone, if_neg hndmc, if_pos (by rw [hdmc])]
    rfl
end

end Sys2Proof.Machine
end

section
/-!
PROOF. What a master tick boundary leaves of the pairings of heads (O60).
-/
namespace Sys2Proof.Machine

/-! ### The pairings of heads -/

/-- R193, R196, R198. A channel's pairing, the one that waits for its boundary, and another head found. -/
@[simp, reducible] def Chan.pairingOf (x : Chan) : Option Pairing × Option PairPending × Option (Nat × List Byte) :=
  (x.head.pairing, x.head.pairPending, x.head.changeAt)

/-- R426. What a pairing makes of the slot of its head. -/
@[simp, reducible] def Node.stands (x : Node) : NodeState × Nat := (x.state, x.gen)

/-- Those of every channel, and how the slots of the key tree stand. -/
def heads (s : State) : Vector (Option Pairing × Option PairPending × Option (Nat × List Byte)) 32 × Vector (NodeState × Nat) 512 :=
  (s.chans.map Chan.pairingOf, s.tarn.nodes.map Node.stands)

@[simp] theorem heads_ite (c : Prop) [Decidable c] (s t : State) : heads (if c then s else t) = if c then heads s else heads t := apply_ite heads c s t

/-- An update of a state that takes over its channels and the key tree. -/
@[simp] theorem heads_update (s : State) (pending fuses boot time fns numVfs vfEnable irq exec lastServed resetAt groups fgroups rx buses ego egoTaken
    dec flowCfg flows ports lanes gts10 mps tx macOther dmc roles cls seqs power bookings buffers meters out fresh) :
    heads ⟨pending, fuses, boot, time, fns, numVfs, vfEnable, irq, exec, lastServed, resetAt, groups, fgroups, rx, s.chans, buses, ego,
      egoTaken, dec, flowCfg, flows, ports, lanes, gts10, mps, tx, macOther, dmc, s.tarn, roles, cls, seqs, power, bookings, buffers, meters, out,
      fresh⟩ = heads s := rfl

@[simp] theorem heads_forEach {α : Type} (l : List α) {g : α → State → State} (h : ∀ a t, heads (g a t) = heads t) (s : State) :
    heads (forEach l g s) = heads s := forEach_same heads l g s fun a _ t => h a t

@[simp] theorem heads_when (b : Bool) {g : State → State} (h : ∀ t, heads (g t) = heads t) (s : State) : heads (when b g s) = heads s := by
  cases b
  · rfl
  · exact h s

/-- An update of one entry of a table that a view of the entries does not show. -/
theorem map_tmod {α β : Type} [Inhabited α] {n : Nat} {view : α → β} (v : Vector α n) (i : Nat) {g : α → α} (h : ∀ x, view (g x) = view x) :
    (tmod v i g).map view = v.map view := by
  ext j hj : 1
  simp only [Vector.getElem_map, tmod, tset, Vector.getElem_setIfInBounds]
  split
  · next e =>
    subst e
    rw [h, tget_of_lt v hj]
  · rfl

@[simp] theorem heads_modChan (c : Nat) {g : Chan → Chan} (h : ∀ x, (g x).pairingOf = x.pairingOf) (s : State) : heads (modChan c g s) = heads s :=
  congrArg (fun v => (v, s.tarn.nodes.map Node.stands)) (map_tmod s.chans c h)

@[simp] theorem heads_modCal (c : Nat) (g : Cal → Cal) (s : State) : heads (modCal c g s) = heads s := by simp [modCal]
@[simp] theorem heads_modPipe (c : Nat) (g : Pipe → Pipe) (s : State) : heads (modPipe c g s) = heads s := by simp [modPipe]
@[simp] theorem heads_bumpGen (c : Nat) (s : State) : heads (bumpGen c s) = heads s := by simp [bumpGen]
@[simp] theorem heads_modNode (n : Nat) {g : Node → Node} (h : ∀ x, (g x).stands = x.stands) (s : State) : heads (modNode n g s) = heads s :=
  congrArg (Prod.mk (s.chans.map Chan.pairingOf)) (map_tmod s.tarn.nodes n h)
@[simp] theorem heads_modFlow (m : Nat) (g : FlowRun → FlowRun) (s : State) : heads (modFlow m g s) = heads s := by simp [modFlow]
@[simp] theorem heads_modPort (p : Nat) (g : Port → Port) (s : State) : heads (modPort p g s) = heads s := by simp [modPort]
@[simp] theorem heads_modDec (h : Nat) (g : DecStream → DecStream) (s : State) : heads (modDec h g s) = heads s := by simp [modDec]
@[simp] theorem heads_modSeq (q : Nat) (g : Seq → Seq) (s : State) : heads (modSeq q g s) = heads s := by simp [modSeq]
@[simp] theorem heads_modCls (c : Nat) (g : SeqClass → SeqClass) (s : State) : heads (modCls c g s) = heads s := by simp [modCls]
@[simp] theorem heads_modTime (g : TimeBase → TimeBase) (s : State) : heads (modTime g s) = heads s := by simp [modTime]
@[simp] theorem heads_modBoot (g : Boot → Boot) (s : State) : heads (modBoot g s) = heads s := by simp [modBoot]
@[simp] theorem heads_modRoles (g : Roles → Roles) (s : State) : heads (modRoles g s) = heads s := by simp [modRoles]
@[simp] theorem heads_modPower (g : Power → Power) (s : State) : heads (modPower g s) = heads s := by simp [modPower]
@[simp] theorem heads_emit (o : Output) (s : State) : heads (emit o s) = heads s := by simp [emit]
@[simp] theorem heads_raise (n bit : Nat) (s : State) : heads (raise n bit s) = heads s := by rw [raise_eq]; rfl
@[simp] theorem heads_withBooks (b : Books) (s : State) : heads (withBooks b s) = heads s := by simp [withBooks]
@[simp] theorem heads_restartEst (c : Nat) (ps : List Nat) (s : State) : heads (restartEst c ps s) = heads s := by simp [restartEst]

@[simp] theorem heads_clusterRead (s : State) : heads (clusterRead s) = heads s := by
  unfold clusterRead
  split <;> rfl

@[simp] theorem heads_raiseFrame (c : Nat) (s : State) : heads (raiseFrame c s) = heads s := heads_raise _ _ s

@[simp] theorem heads_raiseIngress (c bit : Nat) (s : State) : heads (raiseIngress c bit s) = heads s := heads_raise _ _ s

@[simp] theorem heads_raisePipe (c bit : Nat) (s : State) : heads (raisePipe c bit s) = heads s := heads_raise _ _ s

@[simp] theorem heads_raiseEncDone (c : Nat) (s : State) : heads (raiseEncDone c s) = heads s := heads_raise _ _ s

@[simp] theorem heads_raiseEnc (c bit : Nat) (s : State) : heads (raiseEnc c bit s) = heads s := heads_raise _ _ s

@[simp] theorem heads_raiseDec (h bit : Nat) (s : State) : heads (raiseDec h bit s) = heads s := heads_raise _ _ s

@[simp] theorem heads_raiseFlow (m : Nat) (s : State) : heads (raiseFlow m s) = heads s := heads_raise _ _ s

@[simp] theorem heads_audit (event role slot func time : Nat) (detail : List Byte) (s : State) :
    heads (audit event role slot func time detail s) = heads s := by simp [audit]

@[simp] theorem heads_auditAt (event role slot func : Nat) (detail : List Byte) (s0 : State) :
    heads (auditAt event role slot func detail s0) = heads s0 := by simp [auditAt]

@[simp] theorem heads_auditDevice (event : Nat) (detail : List Byte) (s : State) :
    heads (auditDevice event detail s) = heads s := by simp [auditDevice]

@[simp] theorem heads_putEstimate (c : Nat) (v : CalValue) (s : State) : heads (putEstimate c v s) = heads s := by
  unfold putEstimate
  split <;> simp

@[simp] theorem heads_saveEstimates (c : Nat) (s : State) : heads (saveEstimates c s) = heads s := by
  unfold saveEstimates
  split <;> simp

@[simp] theorem heads_noteChanges (c : Nat) (old : ChanCfg) (s : State) :
    heads (noteChanges c old s) = heads s := by simp [noteChanges]

@[simp] theorem heads_closeRecord (c : Nat) (f0 : Frame) (s : State) : heads (closeRecord c f0 s) = heads s := by simp [closeRecord]

@[simp] theorem heads_calAccept (c : Nat) (f : Frame) (s : State) : heads (calAccept c f s) = heads s := by
  unfold calAccept
  split
  · rfl
  · refine (heads_modCal _ _ _).trans (heads_forEach _ (fun p t => ?_) s)
    split
    · split <;> simp
    · rfl

@[simp] theorem heads_hold (c p : Nat) (v : CalValue) (g : Nat × Nat × Nat) (s : State) :
    heads (hold c p v g s) = heads s := by simp [hold]

@[simp] theorem heads_insufficient (c p : Nat) (s : State) : heads (insufficient c p s) = heads s := by simp [insufficient]

@[simp] theorem heads_completeEstimate (c p at_ : Nat) (s : State) :
    heads (completeEstimate c p at_ s) = heads s := by simp [completeEstimate]

@[simp] theorem heads_runEstimates (c : Nat) (s : State) : heads (runEstimates c s) = heads s :=
  heads_forEach _ (fun p t => by split <;> simp) s

@[simp] theorem heads_applyEstimates (c k : Nat) (s : State) : heads (applyEstimates c k s) = heads s := by
  refine heads_forEach _ (fun p t => ?_) s
  split
  · split
    · simp only
      split <;> simp
    · rfl
  · rfl

@[simp] theorem heads_restoreEstimates (c : Nat) (s : State) : heads (restoreEstimates c s) = heads s := by
  unfold restoreEstimates
  simp only
  split
  · split
    · exact heads_forEach _ (fun p t => by split <;> simp) s
    · rfl
  · rfl

@[simp] theorem heads_meterJob (k : JobKey) (cut : Bool) (s : State) : heads (meterJob k cut s) = heads s := by
  unfold meterJob
  split <;> simp

@[simp] theorem heads_meterOverrun (k : JobKey) (s : State) : heads (meterOverrun k s) = heads s := by
  unfold meterOverrun
  split <;> simp

@[simp] theorem heads_reportRoutine (k : JobKey) (routine : Nat) (e : RunEnd) {overrun : State → State}
    (h : ∀ t, heads (overrun t) = heads t) (s : State) : heads (reportRoutine k routine e overrun s) = heads s := by
  unfold reportRoutine
  cases e <;> simp [h]

@[simp] theorem heads_countHook (k : JobKey) (h : Hooked) (s : State) : heads (countHook k h s) = heads s := by
  unfold countHook
  split <;> simp

@[simp] theorem heads_rewriteRecord (c : Nat) (old new : Frame) (s : State) :
    heads (rewriteRecord c old new s) = heads s := by simp [rewriteRecord]

@[simp] theorem heads_keepTone (c : Nat) (f : Frame) (lin : List Plane) (s : State) :
    heads (keepTone c f lin s) = heads s := by simp [keepTone]

@[simp] theorem heads_pipeJobEnd (c : Nat) (s : State) : heads (pipeJobEnd c s) = heads s := by
  unfold pipeJobEnd
  simp only
  split
  · rfl
  · split
    · simp
    · split
      · simp
      · simp only [heads_modChan, heads_keepTone, heads_rewriteRecord, implies_true]
        split <;> simp

@[simp] theorem heads_takeEgo (k : Nat) (s : State) : heads (takeEgo k s) = heads s := by simp [takeEgo]

@[simp] theorem heads_repeatPicture (h : Nat) (error : Bool) (s : State) :
    heads (repeatPicture h error s) = heads s := by simp [repeatPicture]

@[simp] theorem heads_decodeTick (h : Nat) (s : State) : heads (decodeTick h s) = heads s := by
  unfold decodeTick
  simp only
  split
  · rfl
  · split <;> simp

@[simp] theorem heads_streamErrors (h n : Nat) (s : State) : heads (streamErrors h n s) = heads s := by simp [streamErrors]

@[simp] theorem heads_decJobEnd (h : Nat) (r : DecResult) (s : State) : heads (decJobEnd h r s) = heads s := by
  unfold decJobEnd
  simp only
  split
  · rfl
  · simp

@[simp] theorem heads_decJobLate (h : Nat) (s : State) : heads (decJobLate h s) = heads s := by
  unfold decJobLate
  split <;> simp

@[simp] theorem heads_fixSeal (c st : Nat) (s : State) : heads (fixSeal c st s) = heads s := by simp [fixSeal]

@[simp] theorem heads_startEncode (c : Nat) (s : State) : heads (startEncode c s) = heads s := by
  unfold startEncode
  simp only
  split
  · rfl
  · simp

@[simp] theorem heads_encJobEnd (c st : Nat) (s : State) : heads (encJobEnd c st s) = heads s := by
  unfold encJobEnd
  split
  · rfl
  · split
    · rfl
    · split
      · simp
      · simp
        split <;> simp

@[simp] theorem heads_itpJobEnd (c st : Nat) (s : State) : heads (itpJobEnd c st s) = heads s := by simp [itpJobEnd]

@[simp] theorem heads_sealJobEnd (c st : Nat) (s : State) : heads (sealJobEnd c st s) = heads s := by simp [sealJobEnd]

@[simp] theorem heads_releaseCounts (c st : Nat) (a : AccessUnit) (s : State) :
    heads (releaseCounts c st a s) = heads s := by simp [releaseCounts]

@[simp] theorem heads_exception (m bit : Nat) (s : State) : heads (exception m bit s) = heads s := by simp [exception]

@[simp] theorem heads_backlog (m : Nat) (s : State) : heads (backlog m s) = heads s := by simp [backlog]

@[simp] theorem heads_offer (m : Nat) (it : Item) (s : State) : heads (offer m it s) = heads s := by simp [offer]

@[simp] theorem heads_freeBuffer (ms : List Nat) (s : State) : heads (freeBuffer ms s) = heads s := by
  unfold freeBuffer
  split
  · rfl
  · split <;> simp

@[simp] theorem heads_offerAll (src : FlowSrc) (it : Nat → Item) (s : State) :
    heads (offerAll src it s) = heads s := by simp [offerAll]

@[simp] theorem heads_offerAu (a : AccessUnit) (rate : Nat) (s : State) : heads (offerAu a rate s) = heads s := by simp [offerAu]

@[simp] theorem heads_offerWindow (c i : Nat) (f : Frame) (g : Formed) (s : State) :
    heads (offerWindow c i f g s) = heads s := by simp [offerWindow]

@[simp] theorem heads_offerDecoded (h : Nat) (s : State) : heads (offerDecoded h s) = heads s := by
  unfold offerDecoded
  simp only
  split
  · rfl
  · simp

@[simp] theorem heads_offerRaw (c : Nat) (f : Frame) (s : State) : heads (offerRaw c f s) = heads s := by
  unfold offerRaw
  split <;> simp

@[simp] theorem heads_stepStart (m : Nat) (s : State) : heads (stepStart m s) = heads s :=
  heads_modNode (clientSlot m) (g := fun n => { n with start := (n.start + 1) % 4294967296 }) (fun _ => rfl) s

@[simp] theorem heads_startFlow (m : Nat) (s : State) : heads (startFlow m s) = heads s := by simp [startFlow]

@[simp] theorem heads_busRun (b : Nat) (s : State) : heads (busRun b s) = heads s := by
  unfold busRun
  split
  · rfl
  · split
    · rfl
    · split <;> rfl

@[simp] theorem heads_addCheck (c : Nat) (why : CheckWhy) (s : State) : heads (addCheck c why s) = heads s := by simp [addCheck]

@[simp] theorem heads_addAuto (c : Nat) (s : State) : heads (addAuto c s) = heads s := by simp [addAuto]

@[simp] theorem heads_markBind (c : Nat) (s : State) : heads (markBind c s) = heads s :=
  heads_modChan c (g := Chan.mark 2 ⟨false, false, true⟩) (fun _ => rfl) s

@[simp] theorem heads_startChan (c : Nat) (s : State) : heads (startChan c s) = heads s := by simp [startChan]

@[simp] theorem heads_ledgerTick (k : Nat) (s : State) : heads (ledgerTick k s) = heads s := by simp [ledgerTick]

@[simp] theorem heads_metersTick (s : State) : heads (metersTick s) = heads s := by simp [metersTick]

@[simp] theorem heads_disableFailing (s : State) : heads (disableFailing s) = heads s := by simp [disableFailing]

@[simp] theorem heads_levelTick (s : State) : heads (levelTick s) = heads s := by simp [levelTick]

@[simp] theorem heads_snapFlows (s : State) : heads (snapFlows s) = heads s := by simp [snapFlows]

@[simp] theorem heads_reassert (s : State) : heads (reassert s) = heads s := by simp [reassert]

@[simp] theorem heads_autoRun (chs fls : List Nat) (s : State) : heads (autoRun chs fls s) = heads s := by simp [autoRun]

@[simp] theorem heads_autoStart (s : State) : heads (autoStart s) = heads s := by simp [autoStart]

@[simp] theorem heads_autoHeld (k : Nat) (s : State) : heads (autoHeld k s) = heads s := by
  refine heads_forEach _ (fun c t => ?_) s
  simp only
  split
  · simp
  · split
    · split <;> simp
    · rfl

@[simp] theorem heads_headRecord (c : Nat) (f : Frame) (s : State) : heads (headRecord c f s) = heads s := by simp [headRecord]

@[simp] theorem heads_deadline (c : Nat) (s : State) : heads (deadline c s) = heads s := by
  unfold deadline
  split
  · rfl
  · simp only
    split <;> simp

@[simp] theorem heads_endEncode (c st : Nat) (s : State) : heads (endEncode c st s) = heads s := by simp [endEncode]

@[simp] theorem heads_releaseItems (s : State) : heads (releaseItems s) = heads s := by
  have units (c st : Nat) (t : State) : heads (match (tget (t.chan c).runs st).current with
      | some a => releaseCounts c st a (offerAu a (tget (t.chan c).runs st).ledgerRate t)
      | none => t) = heads t := by split <;> simp
  unfold releaseItems
  simp only
  refine (heads_forEach _ heads_offerDecoded _).trans (heads_forEach _ (fun c t => ?_) s)
  split
  · refine (heads_forEach _ (fun p t => heads_offerWindow ..) _).trans ?_
    exact (units c 1 _).trans (units c 0 t)
  · exact (units c 1 _).trans (units c 0 t)

@[simp] theorem heads_beginJobs (k : Nat) (s : State) : heads (beginJobs k s) = heads s := by simp [beginJobs]

/-- R176. Marks that come into force do not touch the head. -/
theorem pairingOf_takeMarks (t : Nat) (x : Chan) : (takeMarks t x).pairingOf = x.pairingOf := by
  have hmarks (l : List SensorMark) (y : Chan) : (l.foldl (fun y m => y.mark m.marks m.reasons) y).pairingOf = y.pairingOf := by
    induction l generalizing y with
    | nil => rfl
    | cons m l ih => exact ih (y.mark m.marks m.reasons)
  exact hmarks _ _

@[simp] theorem heads_pulse (c b : Nat) (r : Rate) (s : State) : heads (pulse c b r s) = heads s := by
  unfold pulse
  simp only [heads_ite, heads_emit, ite_self]
  refine Eq.trans (heads_modChan c ?_ _) (heads_modTime _ s)
  exact fun x => pairingOf_takeMarks _ x

@[simp] theorem heads_latePulse (c : Nat) (s : State) : heads (latePulse c s) = heads s := by
  unfold latePulse
  split <;> simp

@[simp] theorem heads_endTick (s : State) : heads (endTick s) = heads s := by simp [endTick]

@[simp] theorem heads_foldAges (s : State) : heads (foldAges s) = heads s := by simp [foldAges]

@[simp] theorem heads_atTickEnd (s : State) : heads (atTickEnd s) = heads s := by simp [atTickEnd, passBoundary, ageQueues, advanceTo]

@[simp] theorem heads_afterCommands (s u : State) : heads (afterCommands s u) = heads u := by simp [afterCommands]

@[simp] theorem heads_computeKey (n : Nat) (s : State) : heads (computeKey n s) = heads s := by
  have hkey (k : List Byte) : heads (setKey n k s) = heads s :=
    heads_modNode n (g := fun x => { x with cell := xorBytes (fit 32 k) s.tarn.mask }) (fun _ => rfl) s
  unfold computeKey
  simp only
  split <;> exact hkey _

/-! ### A channel's turn in the boundary (R193, R194, R198) -/

/-- R193, R426. The pairing of channel `c`, and how the slot of its head stands. -/
def headOf (s : State) (c : Nat) : (Option Pairing × Option PairPending × Option (Nat × List Byte)) × (NodeState × Nat) :=
  ((s.chan c).pairingOf, (s.node (headSlot c)).stands)

theorem headSlot_lt {c : Nat} (hc : c < 32) : headSlot c < 512 := by
  rw [headSlot]
  omega

theorem headSlot_ne {c d : Nat} (h : d ≠ c) : headSlot d ≠ headSlot c := fun e => h (Nat.add_left_cancel e)

/-- Where a view shows two tables alike, it shows each entry alike. -/
theorem view_tget {α β : Type} [Inhabited α] {n : Nat} {view : α → β} {v w : Vector α n} (h : w.map view = v.map view) (i : Nat) :
    view (tget w i) = view (tget v i) := by
  by_cases hi : i < n
  · have hentry := congrArg (fun x => x[i]) h
    simpa [tget_of_lt _ hi] using hentry
  · rw [tget_beyond _ (Nat.le_of_not_lt hi), tget_beyond _ (Nat.le_of_not_lt hi)]

theorem headOf_of_heads {s t : State} (h : heads t = heads s) (c : Nat) : headOf t c = headOf s c := by
  obtain ⟨hchans, hnodes⟩ := Prod.ext_iff.mp h
  exact Prod.ext (view_tget hchans c) (view_tget hnodes (headSlot c))

theorem headOf_modHead_ne {c d : Nat} (h : d ≠ c) (g : Head → Head) (s : State) : headOf (modHead d g s) c = headOf s c := by
  rw [headOf, modHead_eq, chan_modChan_ne s h]
  rfl

theorem headOf_modNode_ne {c d : Nat} (h : d ≠ c) (g : Node → Node) (s : State) : headOf (modNode (headSlot d) g s) c = headOf s c := by
  rw [headOf, node_modNode_ne (headSlot_ne h)]
  rfl

theorem headOf_unpairEffects_ne {c d : Nat} (hd : d < 32) (h : d ≠ c) (s : State) : headOf (unpairEffects d s) c = headOf s c := by
  obtain ⟨-, hother, -⟩ := unpairEffects_spec hd s
  obtain ⟨hchan, hnode⟩ := hother c h.symm
  rw [headOf, hchan, hnode]
  rfl

/-- R198. What the device does about another head on one channel leaves the others. -/
theorem headOf_headChange_ne {c d : Nat} (hd : d < 32) (h : d ≠ c) (s : State) : headOf (headChange d s) c = headOf s c := by
  unfold headChange
  split
  · rfl
  · split
    · rw [headOf_of_heads (heads_markBind ..), headOf_modHead_ne h, headOf_unpairEffects_ne hd h, headOf_of_heads (heads_auditDevice ..)]
    · rfl

/-- R193, R194. So does a pairing. -/
theorem headOf_applyPairing_ne {c d : Nat} (hd : d < 32) (h : d ≠ c) (s : State) : headOf (applyPairing d s) c = headOf s c := by
  have hunpaired : headOf (if (s.chan d).head.pairing.isSome then unpairEffects d (auditDevice 0x21 (unpairDetail s d 1) s) else s) c = headOf s c := by
    split
    · rw [headOf_unpairEffects_ne hd h, headOf_of_heads (heads_auditDevice ..)]
    · rfl
  unfold applyPairing
  split
  · rfl
  · split
    · rfl
    · split
      · exact headOf_modHead_ne h _ s
      · rw [headOf_modHead_ne h, headOf_of_heads (heads_computeKey ..) _, headOf_modNode_ne h, hunpaired]

/-- R197, R253. The statistics and the estimates of the turn are none of the head's. -/
theorem channelTick_eq (k c : Nat) (s : State) :
    ∃ u, heads u = heads s ∧ channelTick k c s = applyPairing c (applyEstimates c k (headChange c u)) := by
  unfold channelTick
  split
  · exact ⟨_, heads_calAccept .., rfl⟩
  · exact ⟨_, rfl, rfl⟩

theorem headOf_channelTick_ne {c d : Nat} (hd : d < 32) (h : d ≠ c) (k : Nat) (s : State) : headOf (channelTick k d s) c = headOf s c := by
  obtain ⟨u, hu, heq⟩ := channelTick_eq k d s
  rw [heq, headOf_applyPairing_ne hd h, headOf_of_heads (heads_applyEstimates ..), headOf_headChange_ne hd h, headOf_of_heads hu]

/-- R193, R194. What a boundary makes of a pairing that is ready, where no other head has been found. -/
def Paired (x y : (Option Pairing × Option PairPending × Option (Nat × List Byte)) × (NodeState × Nat)) : Prop :=
  ∀ p, x.1.2 = (some p, none) → p.ready = true →
    y.1.2.1 = none ∧ (p.same = true → y.1.1 = x.1.1) ∧ (p.same = false → y.1.1 = some p.pairing ∧ y.2 = (.valid, p.gen))

theorem applyPairing_paired {c : Nat} (hc : c < 32) (s : State) : Paired (headOf s c) (headOf (applyPairing c s) c) := by
  intro p hx hready
  have hpending : (s.chan c).head.pairPending = some p := congrArg Prod.fst hx
  unfold applyPairing
  simp only [hpending, hready, Bool.not_true, Bool.false_eq_true, if_false]
  by_cases hsame : p.same = true
  · rw [if_pos hsame, headOf, modHead_eq, chan_modChan_same s hc]
    exact ⟨rfl, fun _ => rfl, fun h => absurd hsame (by simp [h])⟩
  · rw [if_neg hsame]
    generalize (if (s.chan c).head.pairing.isSome then unpairEffects c (auditDevice 0x21 (unpairDetail s c 1) s) else s) = u
    generalize hv : computeKey (headSlot c) (modNode (headSlot c) _ u) = v
    have hnode : (v.node (headSlot c)).stands = (.valid, p.gen) := by
      rw [← hv]
      refine (congrArg Prod.snd (headOf_of_heads (heads_computeKey ..) _)).trans ?_
      rw [headOf, node_modNode_same (headSlot_lt hc)]
    rw [headOf, modHead_eq, chan_modChan_same v hc]
    exact ⟨rfl, fun h => absurd h hsame, fun _ => ⟨rfl, hnode⟩⟩

theorem headChange_of_none {s : State} {c : Nat} (h : (s.chan c).head.changeAt = none) : headChange c s = s := by
  unfold headChange
  rw [h]

theorem channelTick_paired {c : Nat} (hc : c < 32) (k : Nat) (s : State) : Paired (headOf s c) (headOf (channelTick k c s) c) := by
  intro p hx hready
  obtain ⟨u, hu, heq⟩ := channelTick_eq k c s
  have hbefore : headOf u c = headOf s c := headOf_of_heads hu c
  have hnone : (u.chan c).head.changeAt = none := (congrArg (fun y => y.1.2.2) hbefore).trans (congrArg Prod.snd hx)
  have hestimates : headOf (applyEstimates c k u) c = headOf s c := (headOf_of_heads (heads_applyEstimates ..) c).trans hbefore
  rw [heq, headChange_of_none hnone, ← hestimates]
  exact applyPairing_paired hc _ p (hestimates ▸ hx) hready

/-! ### The boundary -/

theorem beforeCommands_paired {c : Nat} (hc : c < 32) (s : State) : Paired (headOf s c) (headOf (beforeCommands s) c) := by
  have hlevels : heads (levelTick (disableFailing (atTickEnd s))) = heads s := by simp
  obtain ⟨-, -, hown⟩ := forEach_owned (fun _ => ()) headOf (fun _ => Paired) List.nodup_range
    (u := levelTick (disableFailing (atTickEnd s))) (v := beforeCommands s) rfl
    fun d hd t _ => ⟨rfl, fun e he => headOf_channelTick_ne (List.mem_range.mp hd) he.symm _ t, channelTick_paired (List.mem_range.mp hd) _ t⟩
  rw [← headOf_of_heads hlevels]
  exact hown c (List.mem_range.mpr hc)

theorem takeEffects_nil (s : State) : takeEffects [] s = s := rfl

/-- R108. A boundary that no command waits for. -/
theorem nextBoundary_of_idle {s : State} (hdog : s.power.watchdog = false) (hexec : s.exec = []) :
    nextBoundary s = afterCommands s (beforeCommands s) := by
  rw [nextBoundary, if_neg (by simp [hdog]), hexec]
  simp only [List.filter_nil]
  rw [takeEffects_nil]

theorem exec_masterTickBoundary_of_idle {s : State} (hruns : s.clockRuns = true) (htick : s.time.tickRun = true) (hdog : s.power.watchdog = false)
    (hreset : s.resetAt = none) (hexec : s.exec = []) : exec .masterTickBoundary s = .next (afterCommands s (beforeCommands s)) := by
  rw [exec_masterTickBoundary hruns htick, hreset, Option.any_none, if_neg Bool.false_ne_true, nextBoundary_of_idle hdog hexec]

/-- R193, R194. The pairing of a device whose tick runs comes into force at the next boundary. -/
theorem masterTick_pairs {c : Nat} {p : PairPending} {s : State} (hc : c < 32) (hp : (s.chan c).head.pairPending = some p) (hready : p.ready = true)
    (hchange : (s.chan c).head.changeAt = none) (hruns : s.clockRuns = true) (htick : s.time.tickRun = true) (hdog : s.power.watchdog = false)
    (hreset : s.resetAt = none) (hexec : s.exec = []) :
    ∃ t, exec .masterTickBoundary s = .next t ∧ (t.chan c).head.pairPending = none ∧
      (p.same = true → (t.chan c).head.pairing = (s.chan c).head.pairing) ∧
      (p.same = false → (t.chan c).head.pairing = some p.pairing ∧ (t.node (40 + c)).state = .valid ∧ (t.node (40 + c)).gen = p.gen) := by
  have hstep := exec_masterTickBoundary_of_idle hruns htick hdog hreset hexec
  have hhead : Paired (headOf s c) (headOf (afterCommands s (beforeCommands s)) c) := by
    rw [headOf_of_heads (heads_afterCommands ..)]
    exact beforeCommands_paired hc s
  generalize afterCommands s (beforeCommands s) = t at hstep hhead
  obtain ⟨hnone, hsame, hother⟩ := hhead p (Prod.ext hp hchange) hready
  refine ⟨t, hstep, hnone, hsame, fun h => ?_⟩
  obtain ⟨hpairing, hslot⟩ := hother h
  exact ⟨hpairing, congrArg Prod.fst hslot, congrArg Prod.snd hslot⟩

end Sys2Proof.Machine
end

section
/-!
PROOF. How the commands with a buffer, a program of the flash or a boundary to wait for go on and complete (O60).
-/
namespace Sys2Proof.Machine

/-- R118, R453. Whatever the update turns out to be, its buffer is read. -/
theorem roleUpdate_reads_on {f : Nat} {q : Request} {data : List Byte} {s : State} (hfree : tagFree f q s) (h : served .roleUpdate f q s = true) :
    ∃ t, withBuffer (.roleUpdate f q) f q data s t := ⟨_, withBuffer_of_read hfree (exec_roleUpdate h) rfl data⟩

section
variable {f : Nat} {q : Request} {data : List Byte} {s : State} (hfree : tagFree f q s)
include hfree

/-- R453, R459, R460. -/
theorem roleUpdate_completes (h : served .roleUpdate f q s = true) (hempty : s.boot.queue = [])
    (hlen : (q.dma 16).2 = 128 + (Update.ofBytes (fit (q.dma 16).2 data)).bodyLen) (hguard : auditGuard s = true) :
    ∃ t, withBuffer (.roleUpdate f q) f q data s t ∧
      match checkUpdate s (Update.ofBytes (fit (q.dma 16).2 data)) with
      | some st => AnsweredWith .roleUpdate f q s st [] t ∧ t.roles.counterLow = s.roles.counterLow ∧ (∀ r n, credential t r n = credential s r n)
      | none => (Update.ofBytes (fit (q.dma 16).2 data)).kind ≠ 0x01 → ∃ v, exec (.flashProgramDone true) t = .next v ∧
          AnsweredWith .roleUpdate f q s St.ok (le 8 (Update.ofBytes (fit (q.dma 16).2 data)).counter) v ∧
          ((Update.ofBytes (fit (q.dma 16).2 data)).kind ≠ 0x02 → v.roles.counterLow = (Update.ofBytes (fit (q.dma 16).2 data)).counter % 2 ^ 40) ∧
          ((Update.ofBytes (fit (q.dma 16).2 data)).kind = 0x12 → credential v 1 (Update.ofBytes (fit (q.dma 16).2 data)).target =
            if isZeros (Update.ofBytes (fit (q.dma 16).2 data)).body then none else some (Update.ofBytes (fit (q.dma 16).2 data)).body) := by
  split
  · next st hcheck => exact roleUpdate_refused hfree h hlen hguard hcheck
  · next hcheck =>
    by_cases hk : (Update.ofBytes (fit (q.dma 16).2 data)).kind = 0x01
    · obtain ⟨t, ht⟩ := roleUpdate_reads_on (data := data) hfree h
      exact ⟨t, ht, fun hother => absurd hk hother⟩
    · obtain ⟨t, v, ht, hprogram, hanswer⟩ := roleUpdate_commits hfree h hlen hempty hcheck hk
      exact ⟨t, ht, fun _ => ⟨v, hprogram, hanswer⟩⟩
end

/-- R476. Where records are missing, and where some were lost. -/
theorem auditAnswer_eq (q : Request) (s : State) : auditAnswer q s = le 4 s.roles.nextSeq ++ le 2 (recordsFrom q s).length ++
    le 1 ((if q.u 16 4 < oldestSeq s then 1 else 0) + 2 * (if s.roles.auditLost then 1 else 0)) ++ [0#8] := by
  simp [auditAnswer, b2n]

/-- Settles O60: each command goes on by its own rule, with what it has brought of data or with the boundary it waited for. -/
theorem deferredCommandsComplete : Obligations.DeferredCommandsComplete := by
  unfold Obligations.DeferredCommandsComplete
  refine ⟨fun f tag q data x u hlive hf hq => ?_, fun f q data s hfree => ?_, fun c p s hc hp hready hchange hruns htick hdog hreset hexec =>
    masterTick_pairs hc hp hready hchange hruns htick hdog hreset hexec⟩
  · subst hq
    refine ⟨fun a n h hwait => ⟨tarnVerify_read h hwait hlive hf data, decFeed_read h hwait hlive hf data, roleOpen_read h hwait hlive hf data,
        seqImageLoad_read h hwait hlive hf data, fun b ho hr hd ha => admitted_read h hwait data ho hr hd ha,
        fun b ho hgood hoff ha hd => admitted_read h hwait data ho (resume_flowTemplateSetB hgood hoff) hd ha⟩,
      fun ho => ?_, flowTemplateSet_takesEffect u, seqPatchApply_takesEffect u,
      fun c p j rest ho hm hc hj hwork hx hp => headPair_programmed hlive hf hj hx ho hm hc hwork hp,
      fun j rest ho hj hwork hx hkind htarget => roleUpdate_programmed hlive hf hj hx ho hwork hkind htarget⟩
    obtain ⟨v, htakes, hview, hother, hown⟩ := chanLutLoad_takesEffect u ho
    refine ⟨v, htakes, hview, hother, fun c hc hlt => ?_⟩
    obtain ⟨hbind, henabled, -, htable⟩ := hown c hc hlt
    exact ⟨hbind, henabled, htable⟩
  · exact ⟨tarnVerify_completes hfree, decFeed_completes hfree, tarnPubkeyGet_completes hfree,
      fun h hsome => auditAnswer_eq q s ▸ roleAuditRead_completes hfree h hsome,
      fun c key h hguard htamper hc hrole hslot hlive hkey => roleOpen_completes hfree h hguard htamper hc hrole hslot hlive hkey,
      fun h hout hpool hguard => tarnSign_completes hfree h hout hpool hguard,
      fun h hguard hnow hlen hgood hstate => seqImageLoad_completes hfree h hguard hnow hlen hgood hstate,
      fun b h hguard hnow hahead hlen hgood hstate ha => seqPatchApply_completes hfree h hguard hnow hahead hlen hgood hstate ha,
      fun b h hahead hgood hoff ha => flowTemplateSet_completes hfree h hahead hgood hoff ha,
      fun h => ⟨fun b hahead hr hd ha => chanLutLoad_completes hfree h hahead hr hd ha,
        fun m hk hm hpos hle hlen => chanLutLoad_reads_on hfree h hk hm hpos hle hlen⟩,
      fun h hempty hlen hguard => roleUpdate_completes hfree h hempty hlen hguard,
      fun h hempty => sysConfigSave_completes hfree h hempty,
      fun m a h hm ha hbus hidle hstart => headI3cXfer_completes hfree h hm ha hbus hidle hstart,
      fun d h hd honly henter hleave hothers => pwrSelfRefresh_completes hfree h hd honly henter hleave hothers⟩

end Sys2Proof.Machine
end

section
/-!
PROOF. What every step keeps of the sources (O8). A counter moves only by an event, which stops it at 255, or is cleared; a priority is
written from a field of 4 bits; and a route is written by IRQ_SRC_CFG, which takes 0 to 16 alone, by FLOW_ATTACH, whose function is checked
before it is executed, or as the cached configuration comes into force, which keeps only flows of a function below 16. Everything else
leaves a source in range where it was, and it is said of each operation once, in the order of the model's files.
-/
namespace Sys2Proof.Machine

/-! ### One source -/

/-- R135. An event takes a counter to 255 and no further. -/
@[simp] theorem event_inRange (lvl : Bool) (bit : Nat) (x : Source) : (x.event lvl bit).inRange ↔ x.inRange := by
  unfold Source.event
  split
  · exact Iff.rfl
  · split
    · simp only [Source.inRange]
      omega
    · exact Iff.rfl

/-- R150, R151. -/
theorem Source.inRange.cleared {x : Source} (h : x.inRange) : x.cleared.inRange := ⟨Nat.zero_le 255, h.2⟩

/-- R150. A source that moves to a target of the block. -/
theorem Source.inRange.rerouted {x : Source} (h : x.inRange) {r : Nat} (hr : r ≤ 16) : { x.cleared with route := r }.inRange :=
  ⟨Nat.zero_le 255, h.2.1, hr⟩

/-! ### The block -/

@[simp] theorem inRange_ite (c : Prop) [Decidable c] (s t : State) :
    sourcesInRange (if c then s else t) ↔ if c then sourcesInRange s else sourcesInRange t := iff_of_eq (apply_ite sourcesInRange c s t)

@[simp] theorem inRange_snd_ite {α : Type} (c : Prop) [Decidable c] (r r' : α × State) :
    sourcesInRange (if c then r else r').2 ↔ if c then sourcesInRange r.2 else sourcesInRange r'.2 :=
  iff_of_eq (apply_ite (fun x => sourcesInRange x.2) c r r')

/-- An update of a state that takes over the interrupt state. -/
@[simp] theorem inRange_update (s : State) (pending fuses boot time fns numVfs vfEnable exec lastServed resetAt groups fgroups rx chans buses
    ego egoTaken dec flowCfg flows ports lanes gts10 mps tx macOther dmc tarn roles cls seqs power bookings buffers meters out fresh) :
    sourcesInRange ⟨pending, fuses, boot, time, fns, numVfs, vfEnable, s.irq, exec, lastServed, resetAt, groups, fgroups, rx, chans, buses,
      ego, egoTaken, dec, flowCfg, flows, ports, lanes, gts10, mps, tx, macOther, dmc, tarn, roles, cls, seqs, power, bookings, buffers,
      meters, out, fresh⟩ ↔ sourcesInRange s := Iff.rfl

/-- A loop keeps the sources in range where each of its turns does. -/
theorem sourcesInRange.forEach {α : Type} {s : State} (hs : sourcesInRange s) (l : List α) {g : α → State → State}
    (h : ∀ a t, sourcesInRange t → sourcesInRange (g a t)) : sourcesInRange (Machine.forEach l g s) :=
  forEach_keeps sourcesInRange l g s hs fun a _ t => h a t

@[simp] theorem inRange_forEach {α : Type} (l : List α) {g : α → State → State} (h : ∀ a t, sourcesInRange (g a t) ↔ sourcesInRange t)
    (s : State) : sourcesInRange (forEach l g s) ↔ sourcesInRange s :=
  iff_of_eq (forEach_same sourcesInRange l g s fun a _ t => propext (h a t))

@[simp] theorem inRange_when (b : Bool) {g : State → State} (h : ∀ t, sourcesInRange (g t) ↔ sourcesInRange t) (s : State) :
    sourcesInRange (when b g s) ↔ sourcesInRange s := by simp [when, h]

/-- What a change of one source on the host's side keeps. -/
theorem sourcesInRange.modSrc {s : State} (hs : sourcesInRange s) {n : Nat} {g : Source → Source} (hg : ∀ x, x.inRange → (g x).inRange) :
    sourcesInRange (Machine.modSrc n g s) := by
  refine fun m => ⟨?_, (hs m).2⟩
  show (tget (tmod s.irq.src n g) m).inRange
  rw [tget_tmod]
  split
  · exact hg _ (hs m).1
  · exact (hs m).1

@[simp] theorem inRange_modSrc (n : Nat) {g : Source → Source} (h : ∀ x, (g x).inRange ↔ x.inRange) (s : State) :
    sourcesInRange (modSrc n g s) ↔ sourcesInRange s := by
  refine forall_congr' fun m => and_congr ?_ Iff.rfl
  show (tget (tmod s.irq.src n g) m).inRange ↔ _
  rw [tget_tmod]
  split
  · exact h _
  · exact Iff.rfl

@[simp] theorem inRange_modFwSrc (n : Nat) {g : Source → Source} (h : ∀ x, (g x).inRange ↔ x.inRange) (s : State) :
    sourcesInRange (modFwSrc n g s) ↔ sourcesInRange s := by
  refine forall_congr' fun m => and_congr Iff.rfl ?_
  show (tget (tmod s.irq.fwSrc n g) m).inRange ↔ _
  rw [tget_tmod]
  split
  · exact h _
  · exact Iff.rfl

/-! ### Tables, units and outputs -/

@[simp] theorem inRange_modFn (f : Nat) (g : Fn → Fn) (s : State) : sourcesInRange (modFn f g s) ↔ sourcesInRange s := Iff.rfl

@[simp] theorem inRange_modDmc (d : Nat) (g : Dmc → Dmc) (s : State) : sourcesInRange (modDmc d g s) ↔ sourcesInRange s := Iff.rfl

@[simp] theorem inRange_modChan (c : Nat) (g : Chan → Chan) (s : State) : sourcesInRange (modChan c g s) ↔ sourcesInRange s := Iff.rfl

@[simp] theorem inRange_modCal (c : Nat) (g : Cal → Cal) (s : State) : sourcesInRange (modCal c g s) ↔ sourcesInRange s := Iff.rfl

@[simp] theorem inRange_modRx (p : Nat) (g : RxPort → RxPort) (s : State) : sourcesInRange (modRx p g s) ↔ sourcesInRange s := Iff.rfl

@[simp] theorem inRange_modFlow (m : Nat) (g : FlowRun → FlowRun) (s : State) : sourcesInRange (modFlow m g s) ↔ sourcesInRange s := Iff.rfl

@[simp] theorem inRange_modFcfg (m : Nat) (g : FlowCfg → FlowCfg) (s : State) : sourcesInRange (modFcfg m g s) ↔ sourcesInRange s := Iff.rfl

@[simp] theorem inRange_modDec (h : Nat) (g : DecStream → DecStream) (s : State) : sourcesInRange (modDec h g s) ↔ sourcesInRange s := Iff.rfl

@[simp] theorem inRange_modPort (p : Nat) (g : Port → Port) (s : State) : sourcesInRange (modPort p g s) ↔ sourcesInRange s := Iff.rfl

@[simp] theorem inRange_modTx (p : Nat) (g : TxPort → TxPort) (s : State) : sourcesInRange (modTx p g s) ↔ sourcesInRange s := Iff.rfl

@[simp] theorem inRange_modSeq (q : Nat) (g : Seq → Seq) (s : State) : sourcesInRange (modSeq q g s) ↔ sourcesInRange s := Iff.rfl

@[simp] theorem inRange_modCls (c : Nat) (g : SeqClass → SeqClass) (s : State) : sourcesInRange (modCls c g s) ↔ sourcesInRange s := Iff.rfl

@[simp] theorem inRange_modTime (g : TimeBase → TimeBase) (s : State) : sourcesInRange (modTime g s) ↔ sourcesInRange s := Iff.rfl

@[simp] theorem inRange_modBoot (g : Boot → Boot) (s : State) : sourcesInRange (modBoot g s) ↔ sourcesInRange s := Iff.rfl

@[simp] theorem inRange_modTarn (g : Tarn → Tarn) (s : State) : sourcesInRange (modTarn g s) ↔ sourcesInRange s := Iff.rfl

@[simp] theorem inRange_modRoles (g : Roles → Roles) (s : State) : sourcesInRange (modRoles g s) ↔ sourcesInRange s := Iff.rfl

@[simp] theorem inRange_modPower (g : Power → Power) (s : State) : sourcesInRange (modPower g s) ↔ sourcesInRange s := Iff.rfl

@[simp] theorem inRange_emit (o : Output) (s : State) : sourcesInRange (emit o s) ↔ sourcesInRange s := by simp [emit]

@[simp] theorem inRange_assertFaultN (why : Nat) (s : State) : sourcesInRange (assertFaultN why s) ↔ sourcesInRange s := by simp [assertFaultN]

@[simp] theorem inRange_releaseFaultN (why : Nat) (s : State) : sourcesInRange (releaseFaultN why s) ↔ sourcesInRange s := by simp [releaseFaultN]

@[simp] theorem inRange_advanceTo (at_ : Nat) (s : State) : sourcesInRange (advanceTo at_ s) ↔ sourcesInRange s := by simp [advanceTo]

@[simp] theorem inRange_advanceElapsed (at_ : Nat) (s : State) : sourcesInRange (advanceElapsed at_ s) ↔ sourcesInRange s := by simp [advanceElapsed]

@[simp] theorem inRange_startTick (s : State) : sourcesInRange (startTick s) ↔ sourcesInRange s := by simp [startTick]

/-! ### Interrupts -/

@[simp] theorem inRange_modTgt (t : Nat) (g : Target → Target) (s : State) : sourcesInRange (modTgt t g s) ↔ sourcesInRange s := Iff.rfl

@[simp] theorem inRange_sendMsix (f v : Nat) (s : State) : sourcesInRange (sendMsix f v s) ↔ sourcesInRange s := by simp [sendMsix]

@[simp] theorem inRange_resignal (t : Nat) (s : State) : sourcesInRange (resignal t s) ↔ sourcesInRange s := by simp [resignal]

@[simp] theorem inRange_raise (n bit : Nat) (s : State) : sourcesInRange (raise n bit s) ↔ sourcesInRange s := by simp [raise]

/-- R150. A move to a target of the block. -/
theorem sourcesInRange.reroute {s : State} (hs : sourcesInRange s) (n : Nat) {r : Nat} (hr : r ≤ 16) :
    sourcesInRange (Machine.reroute n r s) := by
  unfold Machine.reroute
  simp only
  split
  · exact hs
  · simpa using hs.modSrc fun _ h => h.rerouted hr

theorem sourcesInRange.resetTarget {s : State} (hs : sourcesInRange s) (f : Nat) : sourcesInRange (Machine.resetTarget f s) :=
  (inRange_modTgt ..).mpr (hs.forEach _ fun _ _ ht => ht.modSrc fun _ h => h.cleared)

@[simp] theorem inRange_raiseFrame (c : Nat) (s : State) : sourcesInRange (raiseFrame c s) ↔ sourcesInRange s := inRange_raise _ _ s

@[simp] theorem inRange_raiseIngress (c bit : Nat) (s : State) : sourcesInRange (raiseIngress c bit s) ↔ sourcesInRange s := inRange_raise _ _ s

@[simp] theorem inRange_raisePipe (c bit : Nat) (s : State) : sourcesInRange (raisePipe c bit s) ↔ sourcesInRange s := inRange_raise _ _ s

@[simp] theorem inRange_raiseEncDone (c : Nat) (s : State) : sourcesInRange (raiseEncDone c s) ↔ sourcesInRange s := inRange_raise _ _ s

@[simp] theorem inRange_raiseEnc (c bit : Nat) (s : State) : sourcesInRange (raiseEnc c bit s) ↔ sourcesInRange s := inRange_raise _ _ s

@[simp] theorem inRange_raiseDec (h bit : Nat) (s : State) : sourcesInRange (raiseDec h bit s) ↔ sourcesInRange s := inRange_raise _ _ s

@[simp] theorem inRange_raiseFlow (m : Nat) (s : State) : sourcesInRange (raiseFlow m s) ↔ sourcesInRange s := inRange_raise _ _ s

/-! ### Responses and flash programs -/

@[simp] theorem inRange_post (f : Nat) (r : Response) (s : State) : sourcesInRange (post f r s) ↔ sourcesInRange s := by simp [post]

@[simp] theorem inRange_postFinal (f : Nat) (e : Entry) (r : Response) (s : State) :
    sourcesInRange (postFinal f e r s) ↔ sourcesInRange s := by simp [postFinal]

@[simp] theorem inRange_answer (f : Nat) (e : Entry) (st : Byte) (payload : List Byte) (s : State) :
    sourcesInRange (answer f e st payload s) ↔ sourcesInRange s := by simp [answer]

@[simp] theorem inRange_finishAt (x : ExecEntry) (st : Byte) (tick : Long) (payload : List Byte) (s : State) :
    sourcesInRange (finishAt x st tick payload s) ↔ sourcesInRange s := by simp [finishAt]

@[simp] theorem inRange_finish (x : ExecEntry) (st : Byte) (payload : List Byte) (s : State) :
    sourcesInRange (finish x st payload s) ↔ sourcesInRange s := by simp [finish]

@[simp] theorem inRange_updExec (x y : ExecEntry) (s : State) : sourcesInRange (updExec x y s) ↔ sourcesInRange s := by simp [updExec]

@[simp] theorem inRange_flashQueue (w : FlashWork) (waiter : Option (Nat × BitVec 16)) (s : State) :
    sourcesInRange (flashQueue w waiter s) ↔ sourcesInRange s := by simp [flashQueue]

/-! ### Audit records and keys -/

@[simp] theorem inRange_setKey (n : Nat) (k : List Byte) (s : State) : sourcesInRange (setKey n k s) ↔ sourcesInRange s := by simp [setKey]

@[simp] theorem inRange_computeKey (n : Nat) (s : State) : sourcesInRange (computeKey n s) ↔ sourcesInRange s := by simp [computeKey]

@[simp] theorem inRange_newGen (n : Nat) (s : State) : sourcesInRange (newGen n s) ↔ sourcesInRange s := by simp [newGen]

@[simp] theorem inRange_deriveNode (n : Nat) (s : State) : sourcesInRange (deriveNode n s) ↔ sourcesInRange s := by simp [deriveNode]

@[simp] theorem inRange_renewPublic (s : State) : sourcesInRange (renewPublic s) ↔ sourcesInRange s := by simp [renewPublic]

@[simp] theorem inRange_rederiveAll (l : List Nat) (s : State) : sourcesInRange (rederiveAll l s) ↔ sourcesInRange s := by simp [rederiveAll]

@[simp] theorem inRange_headsNeedKey (cs : List Nat) (s : State) : sourcesInRange (headsNeedKey cs s) ↔ sourcesInRange s := by simp [headsNeedKey]

@[simp] theorem inRange_rederiveDev (s : State) : sourcesInRange (rederiveDev s) ↔ sourcesInRange s := by simp [rederiveDev]

/-- What is drawn leaves the pool and nothing else changes. -/
theorem inRange_takeEntropy {n : Nat} {s t : State} {d : List Byte} (h : takeEntropy n s = some (d, t)) : sourcesInRange t ↔ sourcesInRange s := by
  unfold takeEntropy at h
  split at h
  · cases h; rfl
  · cases h

@[simp] theorem inRange_audit (event role slot func time : Nat) (detail : List Byte) (s : State) :
    sourcesInRange (audit event role slot func time detail s) ↔ sourcesInRange s := by simp [audit]

@[simp] theorem inRange_clusterRead (s : State) : sourcesInRange (clusterRead s) ↔ sourcesInRange s := by simp [clusterRead]

@[simp] theorem inRange_auditAt (event role slot func : Nat) (detail : List Byte) (s0 : State) :
    sourcesInRange (auditAt event role slot func detail s0) ↔ sourcesInRange s0 := by simp [auditAt]

@[simp] theorem inRange_auditDevice (event : Nat) (detail : List Byte) (s : State) :
    sourcesInRange (auditDevice event detail s) ↔ sourcesInRange s := by simp [auditDevice]

@[simp] theorem inRange_auditNow (c : Ctx) (event : Nat) (detail : List Byte) (s : State) :
    sourcesInRange (auditNow c event detail s) ↔ sourcesInRange s := by simp [auditNow]

@[simp] theorem inRange_auditTick (c : Ctx) (event : Nat) (detail : List Byte) (s : State) :
    sourcesInRange (auditTick c event detail s) ↔ sourcesInRange s := by simp [auditTick]

@[simp] theorem inRange_tickAudited (event : Nat) (detail : List Byte) (c : Ctx) (s : State) :
    sourcesInRange (tickAudited event detail c s).2 ↔ sourcesInRange s := by simp [tickAudited]

/-! ### Calibration records -/

@[simp] theorem inRange_restartEst (c : Nat) (ps : List Nat) (s : State) :
    sourcesInRange (restartEst c ps s) ↔ sourcesInRange s := by simp [restartEst]

@[simp] theorem inRange_bumpGen (c : Nat) (s : State) : sourcesInRange (bumpGen c s) ↔ sourcesInRange s := by simp [bumpGen]

@[simp] theorem inRange_modPipe (c : Nat) (g : Pipe → Pipe) (s : State) : sourcesInRange (modPipe c g s) ↔ sourcesInRange s := by simp [modPipe]

@[simp] theorem inRange_putEstimate (c : Nat) (v : CalValue) (s : State) : sourcesInRange (putEstimate c v s) ↔ sourcesInRange s := by
  unfold putEstimate
  split <;> simp

@[simp] theorem inRange_discardParam (c p : Nat) (s : State) : sourcesInRange (discardParam c p s) ↔ sourcesInRange s := by simp [discardParam]

@[simp] theorem inRange_saveEstimates (c : Nat) (s : State) : sourcesInRange (saveEstimates c s) ↔ sourcesInRange s := by
  unfold saveEstimates
  split <;> simp

@[simp] theorem inRange_discardEstimates (c : Nat) (s : State) :
    sourcesInRange (discardEstimates c s) ↔ sourcesInRange s := by simp [discardEstimates]

@[simp] theorem inRange_noteChanges (c : Nat) (old : ChanCfg) (s : State) :
    sourcesInRange (noteChanges c old s) ↔ sourcesInRange s := by simp [noteChanges]

/-! ### Camera ingress -/

@[simp] theorem inRange_pulse (c b : Nat) (r : Rate) (s : State) : sourcesInRange (pulse c b r s) ↔ sourcesInRange s := by simp [pulse]

theorem inRange_takeHeader {port : Nat} {ecc : HdrEcc} {s t : State} (h : takeHeader port ecc s = some t) : sourcesInRange t ↔ sourcesInRange s := by
  unfold takeHeader at h
  split at h
  · cases h
  · cases ecc <;> cases h <;> rfl

@[simp] theorem inRange_countUncorr (port : Nat) (ecc : HdrEcc) (s : State) :
    sourcesInRange (countUncorr port ecc s) ↔ sourcesInRange s := by simp [countUncorr]

@[simp] theorem inRange_ignore (c : Nat) (s : State) : sourcesInRange (ignore c s) ↔ sourcesInRange s := by simp [ignore]

@[simp] theorem inRange_modFrame (c counter : Nat) (g : Frame → Frame) (s : State) :
    sourcesInRange (modFrame c counter g s) ↔ sourcesInRange s := by simp [modFrame]

@[simp] theorem inRange_frameStart (c port vc : Nat) (s : State) : sourcesInRange (frameStart c port vc s) ↔ sourcesInRange s := by simp [frameStart]

@[simp] theorem inRange_onFrame (c port vc : Nat) {g : Frame → Bind → State → State}
    (h : ∀ f b t, sourcesInRange (g f b t) ↔ sourcesInRange t) (s : State) : sourcesInRange (onFrame c port vc g s) ↔ sourcesInRange s := by
  unfold onFrame
  split
  · exact h _ _ s
  · exact inRange_ignore c s
  · rfl

@[simp] theorem inRange_throughFifo (c port dt wc : Nat) (stored : Bool) (s : State) :
    sourcesInRange (throughFifo c port dt wc stored s).2 ↔ sourcesInRange s := by simp [throughFifo]

@[simp] theorem inRange_keepPacket (c port dt wc counter : Nat) (store cut : Frame → Frame) (s : State) :
    sourcesInRange (keepPacket c port dt wc counter store cut s) ↔ sourcesInRange s := by simp [keepPacket]

@[simp] theorem inRange_dropPacket (c port dt wc : Nat) (s : State) :
    sourcesInRange (dropPacket c port dt wc s) ↔ sourcesInRange s := by simp [dropPacket]

@[simp] theorem inRange_imageLine (c : Nat) (b : Bind) (wc : Nat) (crcOk : Bool) (data : List Byte) (f : Frame) (s : State) :
    sourcesInRange (imageLine c b wc crcOk data f s) ↔ sourcesInRange s := by simp [imageLine]

@[simp] theorem inRange_longPacket (c port dt wc : Nat) (crcOk : Bool) (data : List Byte) (f : Frame) (b : Bind) (s0 : State) :
    sourcesInRange (longPacket c port dt wc crcOk data f b s0) ↔ sourcesInRange s0 := by simp [longPacket]

@[simp] theorem inRange_frameEnd (c : Nat) (f : Frame) (b : Bind) (s : State) :
    sourcesInRange (frameEnd c f b s) ↔ sourcesInRange s := by simp [frameEnd]

@[simp] theorem inRange_onPacket (port vc : Nat) (ecc : HdrEcc) {g : Nat → State → State}
    (h : ∀ c t, sourcesInRange (g c t) ↔ sourcesInRange t) (s : State) : sourcesInRange (onPacket port vc ecc g s) ↔ sourcesInRange s := by
  unfold onPacket
  split
  · exact inRange_countUncorr port ecc s
  · next s1 hs =>
    rw [← inRange_takeHeader hs]
    split
    · rfl
    · exact h _ s1

@[simp] theorem inRange_takeLong (port vc dt wc : Nat) (crcOk : Bool) (data : List Byte) (s : State) :
    sourcesInRange (takeLong port vc dt wc crcOk data s) ↔ sourcesInRange s := by
  unfold takeLong
  split
  · simp
  · split <;> simp

@[simp] theorem inRange_closeRecord (c : Nat) (f0 : Frame) (s : State) :
    sourcesInRange (closeRecord c f0 s) ↔ sourcesInRange s := by simp [closeRecord]

@[simp] theorem inRange_stopChan (c : Nat) (s : State) : sourcesInRange (stopChan c s) ↔ sourcesInRange s := by simp [stopChan]

@[simp] theorem inRange_busPush (c : Nat) (x : BusXfer) (s : State) : sourcesInRange (busPush c x s) ↔ sourcesInRange s := by
  unfold busPush
  split <;> simp

@[simp] theorem inRange_sensorEffect (c : Ctx) (m : Nat) (s : State) :
    sourcesInRange (sensorEffect c m s) ↔ sourcesInRange s := by simp [sensorEffect]

/-! ### The image pipeline -/

@[simp] theorem inRange_pipeSet (q : Request) (c : Nat) (s : State) : sourcesInRange (pipeSet q c s) ↔ sourcesInRange s := by simp [pipeSet]

@[simp] theorem inRange_lutPut (kind : Nat) (bs : List Byte) (c : Nat) (s : State) :
    sourcesInRange (lutPut kind bs c s) ↔ sourcesInRange s := by simp [lutPut]

@[simp] theorem inRange_lutRead (c : Ctx) (s : State) : sourcesInRange (lutRead c s).2 ↔ sourcesInRange s := by
  simp [lutRead]

@[simp] theorem inRange_lutResume (c : Ctx) (n : Nat) (s : State) : sourcesInRange (lutResume c n s).2 ↔ sourcesInRange s := by
  simp [lutResume]

/-! ### Self-calibration -/

@[simp] theorem inRange_calAccept (c : Nat) (f : Frame) (s : State) : sourcesInRange (calAccept c f s) ↔ sourcesInRange s := by
  unfold calAccept
  split
  · rfl
  · refine (inRange_modCal _ _ _).trans (inRange_forEach _ (fun p t => ?_) s)
    split
    · split <;> simp
    · rfl

@[simp] theorem inRange_hold (c p : Nat) (v : CalValue) (g : Nat × Nat × Nat) (s : State) :
    sourcesInRange (hold c p v g s) ↔ sourcesInRange s := by simp [hold]

@[simp] theorem inRange_insufficient (c p : Nat) (s : State) : sourcesInRange (insufficient c p s) ↔ sourcesInRange s := by simp [insufficient]

@[simp] theorem inRange_completeEstimate (c p at_ : Nat) (s : State) :
    sourcesInRange (completeEstimate c p at_ s) ↔ sourcesInRange s := by simp [completeEstimate]

@[simp] theorem inRange_runEstimates (c : Nat) (s : State) : sourcesInRange (runEstimates c s) ↔ sourcesInRange s :=
  inRange_forEach _ (fun p t => by split <;> simp) s

@[simp] theorem inRange_applyEstimates (c k : Nat) (s : State) : sourcesInRange (applyEstimates c k s) ↔ sourcesInRange s := by
  refine inRange_forEach _ (fun p t => ?_) s
  split
  · split
    · simp only
      split <;> simp
    · rfl
  · rfl

@[simp] theorem inRange_restoreEstimates (c : Nat) (s : State) : sourcesInRange (restoreEstimates c s) ↔ sourcesInRange s := by
  unfold restoreEstimates
  simp only
  split
  · split
    · exact inRange_forEach _ (fun p t => by split <;> simp) s
    · rfl
  · rfl

@[simp] theorem inRange_calAudited (code : Nat) (c : Ctx) (s : State) :
    sourcesInRange (calAudited code c s).2 ↔ sourcesInRange s := by simp [calAudited]

@[simp] theorem inRange_pinNow (mask c : Nat) (s : State) : sourcesInRange (pinNow mask c s) ↔ sourcesInRange s :=
  inRange_forEach _ (fun p t => by split <;> simp) s

/-! ### Frame jobs -/

@[simp] theorem inRange_meterJob (k : JobKey) (cut : Bool) (s : State) : sourcesInRange (meterJob k cut s) ↔ sourcesInRange s := by
  unfold meterJob
  split <;> simp

@[simp] theorem inRange_meterOverrun (k : JobKey) (s : State) : sourcesInRange (meterOverrun k s) ↔ sourcesInRange s := by
  unfold meterOverrun
  split <;> simp

@[simp] theorem inRange_reportRoutine (k : JobKey) (routine : Nat) (e : RunEnd) {overrun : State → State}
    (h : ∀ t, sourcesInRange (overrun t) ↔ sourcesInRange t) (s : State) :
    sourcesInRange (reportRoutine k routine e overrun s) ↔ sourcesInRange s := by
  unfold reportRoutine
  cases e <;> simp [h]

@[simp] theorem inRange_countHook (k : JobKey) (h : Hooked) (s : State) : sourcesInRange (countHook k h s) ↔ sourcesInRange s := by
  unfold countHook
  split <;> simp

@[simp] theorem inRange_rewriteRecord (c : Nat) (old new : Frame) (s : State) :
    sourcesInRange (rewriteRecord c old new s) ↔ sourcesInRange s := by simp [rewriteRecord]

@[simp] theorem inRange_keepTone (c : Nat) (f : Frame) (lin : List Plane) (s : State) :
    sourcesInRange (keepTone c f lin s) ↔ sourcesInRange s := by simp [keepTone]

@[simp] theorem inRange_pipeJobEnd (c : Nat) (s : State) : sourcesInRange (pipeJobEnd c s) ↔ sourcesInRange s := by
  unfold pipeJobEnd
  simp only
  split
  · rfl
  · split
    · simp
    · split
      · simp
      · simp only [inRange_modChan, inRange_keepTone, inRange_rewriteRecord]
        split <;> simp

/-! ### Motion search -/

@[simp] theorem inRange_takeEgo (k : Nat) (s : State) : sourcesInRange (takeEgo k s) ↔ sourcesInRange s := by simp [takeEgo]

/-! ### The decoder -/

@[simp] theorem inRange_repeatPicture (h : Nat) (error : Bool) (s : State) :
    sourcesInRange (repeatPicture h error s) ↔ sourcesInRange s := by simp [repeatPicture]

@[simp] theorem inRange_decodeTick (h : Nat) (s : State) : sourcesInRange (decodeTick h s) ↔ sourcesInRange s := by
  unfold decodeTick
  simp only
  split
  · rfl
  · split <;> simp

@[simp] theorem inRange_streamErrors (h n : Nat) (s : State) : sourcesInRange (streamErrors h n s) ↔ sourcesInRange s := by simp [streamErrors]

@[simp] theorem inRange_decJobEnd (h : Nat) (r : DecResult) (s : State) : sourcesInRange (decJobEnd h r s) ↔ sourcesInRange s := by
  unfold decJobEnd
  simp only
  split
  · rfl
  · simp

@[simp] theorem inRange_decJobLate (h : Nat) (s : State) : sourcesInRange (decJobLate h s) ↔ sourcesInRange s := by
  unfold decJobLate
  split <;> simp

@[simp] theorem inRange_feed (h : Nat) (bytes : List Byte) (last : Bool) (s : State) :
    sourcesInRange (feed h bytes last s) ↔ sourcesInRange s := by simp [feed]

/-! ### The encoder -/

@[simp] theorem inRange_putStream (c st : Nat) (n : StreamCfg) (s : State) :
    sourcesInRange (putStream c st n s) ↔ sourcesInRange s := by simp [putStream]

@[simp] theorem inRange_putRate (c st r : Nat) (s : State) : sourcesInRange (putRate c st r s) ↔ sourcesInRange s := by simp [putRate]

@[simp] theorem inRange_fixSeal (c st : Nat) (s : State) : sourcesInRange (fixSeal c st s) ↔ sourcesInRange s := by simp [fixSeal]

@[simp] theorem inRange_startEncode (c : Nat) (s : State) : sourcesInRange (startEncode c s) ↔ sourcesInRange s := by
  unfold startEncode
  simp only
  split
  · rfl
  · simp

@[simp] theorem inRange_encJobEnd (c st : Nat) (s : State) : sourcesInRange (encJobEnd c st s) ↔ sourcesInRange s := by
  unfold encJobEnd
  split
  · rfl
  · split
    · rfl
    · split
      · simp
      · simp only [inRange_ite, inRange_forEach, inRange_modFlow, inRange_raiseEnc, inRange_modChan, modRun_eq, implies_true, ite_self]
        split <;> simp

@[simp] theorem inRange_itpJobEnd (c st : Nat) (s : State) : sourcesInRange (itpJobEnd c st s) ↔ sourcesInRange s := by simp [itpJobEnd]

@[simp] theorem inRange_sealJobEnd (c st : Nat) (s : State) : sourcesInRange (sealJobEnd c st s) ↔ sourcesInRange s := by simp [sealJobEnd]

@[simp] theorem inRange_releaseCounts (c st : Nat) (a : AccessUnit) (s : State) :
    sourcesInRange (releaseCounts c st a s) ↔ sourcesInRange s := by simp [releaseCounts]

/-! ### Egress -/

@[simp] theorem inRange_exception (m bit : Nat) (s : State) : sourcesInRange (exception m bit s) ↔ sourcesInRange s := by simp [exception]

@[simp] theorem inRange_backlog (m : Nat) (s : State) : sourcesInRange (backlog m s) ↔ sourcesInRange s := by simp [backlog]

@[simp] theorem inRange_offer (m : Nat) (it : Item) (s : State) : sourcesInRange (offer m it s) ↔ sourcesInRange s := by simp [offer]

@[simp] theorem inRange_freeBuffer (ms : List Nat) (s : State) : sourcesInRange (freeBuffer ms s) ↔ sourcesInRange s := by
  unfold freeBuffer
  split
  · rfl
  · split <;> simp

@[simp] theorem inRange_offerAll (src : FlowSrc) (it : Nat → Item) (s : State) :
    sourcesInRange (offerAll src it s) ↔ sourcesInRange s := by simp [offerAll]

@[simp] theorem inRange_offerAu (a : AccessUnit) (rate : Nat) (s : State) : sourcesInRange (offerAu a rate s) ↔ sourcesInRange s := by simp [offerAu]

@[simp] theorem inRange_offerWindow (c i : Nat) (f : Frame) (g : Formed) (s : State) :
    sourcesInRange (offerWindow c i f g s) ↔ sourcesInRange s := by simp [offerWindow]

@[simp] theorem inRange_offerDecoded (h : Nat) (s : State) : sourcesInRange (offerDecoded h s) ↔ sourcesInRange s := by
  unfold offerDecoded
  simp only
  split
  · rfl
  · simp

@[simp] theorem inRange_offerRaw (c : Nat) (f : Frame) (s : State) : sourcesInRange (offerRaw c f s) ↔ sourcesInRange s := by
  unfold offerRaw
  split <;> simp

@[simp] theorem inRange_settleFlow (m : Nat) (s : State) : sourcesInRange (settleFlow m s) ↔ sourcesInRange s := by simp [settleFlow]

@[simp] theorem inRange_stopFlow (m : Nat) (s : State) : sourcesInRange (stopFlow m s) ↔ sourcesInRange s := by simp [stopFlow]

@[simp] theorem inRange_abandon (m counter : Nat) (s : State) : sourcesInRange (abandon m counter s) ↔ sourcesInRange s := by simp [abandon]

@[simp] theorem inRange_stopHost (f : Nat) (s : State) : sourcesInRange (stopHost f s) ↔ sourcesInRange s := by simp [stopHost]

@[simp] theorem inRange_dequeue (p m : Nat) (it : Item) (pk : Packet) (l : Nat) (s : State) :
    sourcesInRange (dequeue p m it pk l s).1 ↔ sourcesInRange s := by simp [dequeue]

@[simp] theorem inRange_packetDequeue (p : Nat) (s : State) : sourcesInRange (packetDequeue p s) ↔ sourcesInRange s := by
  unfold packetDequeue
  split
  · rfl
  · split
    · rfl
    · split <;> simp

@[simp] theorem inRange_countPacket (m n : Nat) (pkt au : Bool) (s : State) :
    sourcesInRange (countPacket m n pkt au s) ↔ sourcesInRange s := by simp [countPacket]

@[simp] theorem inRange_itemGone (m counter : Nat) (s : State) : sourcesInRange (itemGone m counter s) ↔ sourcesInRange s := by simp [itemGone]

@[simp] theorem inRange_macDone (p : Nat) (g : Staged) (s : State) : sourcesInRange (macDone p g s) ↔ sourcesInRange s := by simp [macDone]

@[simp] theorem inRange_hostDone (g : Staged) (ok : Bool) (s : State) : sourcesInRange (hostDone g ok s) ↔ sourcesInRange s := by
  unfold hostDone
  simp only
  split
  · rfl
  · simp

@[simp] theorem inRange_packetTxComplete (p : Nat) (ok : Bool) (s0 : State) : sourcesInRange (packetTxComplete p ok s0) ↔ sourcesInRange s0 := by
  unfold packetTxComplete
  split <;> simp

@[simp] theorem inRange_calendarSlot (p : Nat) (s0 : State) : sourcesInRange (calendarSlot p s0) ↔ sourcesInRange s0 := by simp [calendarSlot]

@[simp] theorem inRange_ringPoll (m : Nat) (ok : Bool) (addr blen : Nat) (ctrl : Word) (s : State) :
    sourcesInRange (ringPoll m ok addr blen ctrl s) ↔ sourcesInRange s := by
  unfold ringPoll
  simp only
  split
  · rfl
  · split
    · rfl
    · split
      · rw [inRange_exception]
        split <;> simp
      · simp only [inRange_ite, inRange_when, inRange_exception, implies_true]
        split <;> split <;> simp

@[simp] theorem inRange_startTx (p : Nat) (s : State) : sourcesInRange (startTx p s) ↔ sourcesInRange s := by
  unfold startTx
  simp only
  split
  · split <;> simp
  · rfl

@[simp] theorem inRange_txFrameDue (m : Nat) (s0 : State) : sourcesInRange (txFrameDue m s0) ↔ sourcesInRange s0 := by
  unfold txFrameDue
  split <;> simp

@[simp] theorem inRange_txFrameSent (p : Nat) (s : State) : sourcesInRange (txFrameSent p s) ↔ sourcesInRange s := by
  unfold txFrameSent
  split
  · rfl
  · simp only
    split <;> simp

@[simp] theorem inRange_flowSample (i : Nat) (s0 : State) : sourcesInRange (flowSample i s0) ↔ sourcesInRange s0 := by simp [flowSample]

/-! ### Flows -/

@[simp] theorem inRange_putRoute (m : Nat) (n : FlowCfg) (s : State) : sourcesInRange (putRoute m n s) ↔ sourcesInRange s := by
  unfold putRoute
  split <;> simp

@[simp] theorem inRange_stepStart (m : Nat) (s : State) : sourcesInRange (stepStart m s) ↔ sourcesInRange s := by simp [stepStart]

@[simp] theorem inRange_newContext (m mode : Nat) (s : State) : sourcesInRange (newContext m mode s) ↔ sourcesInRange s := by simp [newContext]

@[simp] theorem inRange_startFlow (m : Nat) (s : State) : sourcesInRange (startFlow m s) ↔ sourcesInRange s := by simp [startFlow]

@[simp] theorem inRange_putOutput (h : Nat) (n : DecStream) (s : State) : sourcesInRange (putOutput h n s) ↔ sourcesInRange s := by simp [putOutput]

/-! ### Camera heads -/

@[simp] theorem inRange_busRun (b : Nat) (s : State) : sourcesInRange (busRun b s) ↔ sourcesInRange s := by
  unfold busRun
  split
  · rfl
  · split
    · rfl
    · split <;> rfl

@[simp] theorem inRange_busSend (c : Nat) (x : BusXfer) (s : State) : sourcesInRange (busSend c x s) ↔ sourcesInRange s := by
  unfold busSend
  split <;> simp

@[simp] theorem inRange_dropXfers (drop : BusXfer → Bool) (s : State) : sourcesInRange (dropXfers drop s) ↔ sourcesInRange s := by simp [dropXfers]

@[simp] theorem inRange_modCheck (c : Nat) (g : Check → Check) (s : State) : sourcesInRange (modCheck c g s) ↔ sourcesInRange s := by simp [modCheck]

@[simp] theorem inRange_addCheck (c : Nat) (why : CheckWhy) (s : State) : sourcesInRange (addCheck c why s) ↔ sourcesInRange s := by simp [addCheck]

@[simp] theorem inRange_addAuto (c : Nat) (s : State) : sourcesInRange (addAuto c s) ↔ sourcesInRange s := by simp [addAuto]

@[simp] theorem inRange_sendChallenge (c : Nat) (s : State) : sourcesInRange (sendChallenge c s) ↔ sourcesInRange s := by
  unfold sendChallenge
  split
  · simp
  · split
    · next hn => simp [inRange_takeEntropy hn]
    · simp

@[simp] theorem inRange_endCheck (c : Nat) (s : State) : sourcesInRange (endCheck c s) ↔ sourcesInRange s := by simp [endCheck]

@[simp] theorem inRange_answerCheck (w : CheckWhy) (st : Byte) (s : State) : sourcesInRange (answerCheck w st s) ↔ sourcesInRange s := by
  cases w with
  | idGet f tag | pair f tag =>
    simp only [answerCheck]
    split <;> simp
  | push | auto => rfl

@[simp] theorem inRange_readSlot (c k : Nat) (s : State) : sourcesInRange (readSlot c k s) ↔ sourcesInRange s := by simp [readSlot]

@[simp] theorem inRange_writeKey (c : Nat) (s : State) : sourcesInRange (writeKey c s) ↔ sourcesInRange s := by simp [writeKey]

@[simp] theorem inRange_writeLife (c : Nat) (s : State) : sourcesInRange (writeLife c s) ↔ sourcesInRange s := by
  unfold writeLife
  split
  · next hn => simp [inRange_takeEntropy hn]
  · simp

@[simp] theorem inRange_pairCommit (c f : Nat) (tag : BitVec 16) (k : Check) (s : State) :
    sourcesInRange (pairCommit c f tag k s) ↔ sourcesInRange s := by
  unfold pairCommit
  split <;> simp

@[simp] theorem inRange_pushFailed (c : Nat) (s : State) : sourcesInRange (pushFailed c s) ↔ sourcesInRange s := by simp [pushFailed]

@[simp] theorem inRange_afterKey (c : Nat) (k : Check) (s : State) : sourcesInRange (afterKey c k s) ↔ sourcesInRange s := by simp [afterKey]

@[simp] theorem inRange_afterLife (c : Nat) (k : Check) (s : State) : sourcesInRange (afterLife c k s) ↔ sourcesInRange s := by
  unfold afterLife
  split <;> simp

@[simp] theorem inRange_raiseWear (c : Nat) (s : State) : sourcesInRange (raiseWear c s) ↔ sourcesInRange s := by
  unfold raiseWear
  split <;> simp

@[simp] theorem inRange_afterSlots (c : Nat) (k : Check) (s : State) : sourcesInRange (afterSlots c k s) ↔ sourcesInRange s := by
  unfold afterSlots
  split <;> simp

@[simp] theorem inRange_headAdvance (c : Nat) (ok : Bool) (got : List Byte) (s : State) :
    sourcesInRange (headAdvance c ok got s) ↔ sourcesInRange s := by
  unfold headAdvance
  split
  · rfl
  · next k _ =>
    cases k.step with
    | keyWrite | waitKey => cases k.why <;> simp
    | _ => simp

theorem inRange_checkWindow {s t : State} (h : checkWindow s = some t) : sourcesInRange t ↔ sourcesInRange s := by
  unfold checkWindow at h
  split at h
  · cases h; rfl
  · simp only at h
    split at h
    · cases h; simp
    · cases h

@[simp] theorem inRange_pollDone (c : Nat) (k : Check) (ok : Bool) (got : List Byte) (s : State) :
    sourcesInRange (pollDone c k ok got s) ↔ sourcesInRange s := by simp [pollDone]

@[simp] theorem inRange_countFailure (c : Nat) (s : State) : sourcesInRange (countFailure c s) ↔ sourcesInRange s := by simp [countFailure]

@[simp] theorem inRange_countMinute (c : Nat) (temp : Option Int) (s : State) :
    sourcesInRange (countMinute c temp s) ↔ sourcesInRange s := by simp [countMinute]

@[simp] theorem inRange_xferDone (x : BusXfer) (ok : Bool) (s : State) : sourcesInRange (xferDone x ok s) ↔ sourcesInRange s := by
  unfold xferDone
  split
  · split <;> simp
  · split <;> simp
  · simp
  · rfl

@[simp] theorem inRange_busShift (b : Nat) (y : BusXfer) (s : State) : sourcesInRange (busShift b y s) ↔ sourcesInRange s := by simp [busShift]

@[simp] theorem inRange_transactionEnds (b : Nat) (x : BusXfer) (r : BusResult) (s : State) :
    sourcesInRange (transactionEnds b x r s) ↔ sourcesInRange s := by
  unfold transactionEnds
  split <;> simp

@[simp] theorem inRange_markBind (c : Nat) (s : State) : sourcesInRange (markBind c s) ↔ sourcesInRange s := by simp [markBind]

@[simp] theorem inRange_discardReferences (c : Nat) (s : State) :
    sourcesInRange (discardReferences c s) ↔ sourcesInRange s := by simp [discardReferences]

@[simp] theorem inRange_freeHead (c : Nat) (s : State) : sourcesInRange (freeHead c s) ↔ sourcesInRange s := by simp [freeHead]

@[simp] theorem inRange_unpairEffects (c : Nat) (s : State) : sourcesInRange (unpairEffects c s) ↔ sourcesInRange s := by simp [unpairEffects]

@[simp] theorem inRange_headChange (c : Nat) (s : State) : sourcesInRange (headChange c s) ↔ sourcesInRange s := by
  unfold headChange
  split <;> simp

@[simp] theorem inRange_swapEffects (c : Nat) (s : State) : sourcesInRange (swapEffects c s) ↔ sourcesInRange s := by simp [swapEffects]

@[simp] theorem inRange_judge (c : Nat) (k : Check) (s0 : State) : sourcesInRange (judge c k s0) ↔ sourcesInRange s0 := by simp [judge]

@[simp] theorem inRange_afterJudge (c : Nat) (k : Check) (timedOut first : Bool) (s : State) :
    sourcesInRange (afterJudge c k timedOut first s) ↔ sourcesInRange s := by
  unfold afterJudge
  simp only
  split
  · simp only [inRange_ite, inRange_readSlot, inRange_afterLife, inRange_modCheck, inRange_endCheck, ite_self]
    split <;> simp
  all_goals simp

@[simp] theorem inRange_checkOnStart (c : Nat) (s : State) : sourcesInRange (checkOnStart c s) ↔ sourcesInRange s := by simp [checkOnStart]

@[simp] theorem inRange_readTemp (c : Nat) (minute : Bool) (s : State) : sourcesInRange (readTemp c minute s) ↔ sourcesInRange s := by simp [readTemp]

@[simp] theorem inRange_applyPairing (c : Nat) (s : State) : sourcesInRange (applyPairing c s) ↔ sourcesInRange s := by
  unfold applyPairing
  split <;> simp

@[simp] theorem inRange_reattach (c : Nat) (a : Attach) (s : State) : sourcesInRange (reattach c a s) ↔ sourcesInRange s := by simp [reattach]

@[simp] theorem inRange_cancelHead (c f : Nat) (tag : BitVec 16) (s : State) :
    sourcesInRange (cancelHead c f tag s) ↔ sourcesInRange s := by simp [cancelHead]

/-! ### Start of a channel -/

@[simp] theorem inRange_startChan (c : Nat) (s : State) : sourcesInRange (startChan c s) ↔ sourcesInRange s := by simp [startChan]

/-! ### Mailboxes and registers -/

@[simp] theorem inRange_completeRead (f : Nat) (v : Word) (s : State) :
    sourcesInRange (completeRead f v s) ↔ sourcesInRange s := by simp [completeRead]

@[simp] theorem inRange_readTimeLo (f : Nat) (s : State) : sourcesInRange (readTimeLo f s) ↔ sourcesInRange s := by simp [readTimeLo]

@[simp] theorem inRange_readPtmSeq (f : Nat) (s : State) : sourcesInRange (readPtmSeq f s) ↔ sourcesInRange s := by simp [readPtmSeq]

@[simp] theorem inRange_pushRequest (f : Nat) (e : Entry) (s : State) : sourcesInRange (pushRequest f e s) ↔ sourcesInRange s := Iff.rfl

@[simp] theorem inRange_popResponse (f : Nat) (s : State) : sourcesInRange (popResponse f s) ↔ sourcesInRange s := by simp [popResponse]

@[simp] theorem inRange_writeMbxCtrl (f : Nat) (value : Word) (s : State) :
    sourcesInRange (writeMbxCtrl f value s) ↔ sourcesInRange s := by simp [writeMbxCtrl]

/-- R144. A count that is taken is cleared. -/
@[simp] theorem inRange_acknowledge (f : Nat) {s : State} (hs : sourcesInRange s) : sourcesInRange (acknowledge f s) := by
  unfold acknowledge
  split
  · simp [hs]
  · simp only [inRange_completeRead, inRange_resignal]
    refine ((inRange_modTgt ..).mpr hs).modSrc fun x hx => ?_
    split
    · exact hx
    · exact ⟨Nat.zero_le 255, hx.2⟩

@[simp] theorem inRange_endOfInterrupt (f : Nat) (s : State) : sourcesInRange (endOfInterrupt f s) ↔ sourcesInRange s := by
  have kept (x : Source) : { x with insvc := false }.inRange ↔ x.inRange := Iff.rfl
  unfold endOfInterrupt
  split <;> simp [kept]

/-- R142. PRIO has 4 bits, and a route above 16 is not taken. -/
@[simp] theorem inRange_writeSrcCfg (f : Nat) (value : Word) {s : State} (hs : sourcesInRange s) : sourcesInRange (writeSrcCfg f value s) := by
  unfold writeSrcCfg
  simp only
  split
  · exact hs
  · split
    · exact hs
    · next hroute =>
      have hset := hs.modSrc (n := (s.target (f + 1)).srcSel) (g := fun x => { x with prio := bitsOf value.toNat 3 0, en := value.getLsbD 4 })
        fun x hx => ⟨hx.1, Nat.le_of_lt_succ (Nat.mod_lt _ (by decide)), hx.2.2⟩
      rw [inRange_resignal]
      split
      · exact hset
      · next hkeep => exact hset.reroute _ (by simpa [hkeep] using hroute)

@[simp] theorem inRange_writeSrcCause (f : Nat) (value : Word) (s : State) :
    sourcesInRange (writeSrcCause f value s) ↔ sourcesInRange s := by
  have kept (x : Source) : { x with cause := x.cause &&& ~~~value }.inRange ↔ x.inRange := Iff.rfl
  simp [writeSrcCause, kept]

@[simp] theorem inRange_writeIrqCtrl (f : Nat) (value : Word) (s : State) :
    sourcesInRange (writeIrqCtrl f value s) ↔ sourcesInRange s := by simp [writeIrqCtrl]

@[simp] theorem inRange_writeOther (f off : Nat) (value : Word) (s : State) :
    sourcesInRange (writeOther f off value s) ↔ sourcesInRange s := by simp [writeOther]

@[simp] theorem inRange_unmask (f v : Nat) (s : State) : sourcesInRange (unmask f v s) ↔ sourcesInRange s := by simp [unmask]

@[simp] theorem inRange_promoteDue (s : State) : sourcesInRange (promoteDue s) ↔ sourcesInRange s := by simp [promoteDue]

@[simp] theorem inRange_foldAges (s : State) : sourcesInRange (foldAges s) ↔ sourcesInRange s := by simp [foldAges]

/-! ### Memory -/

@[simp] theorem inRange_lastError (i : Nat) (m : Master) (a kind : Nat) (s : State) :
    sourcesInRange (lastError i m a kind s) ↔ sourcesInRange s := by simp [lastError]

@[simp] theorem inRange_eccFound (i : Nat) (m : Master) (sector : Nat) (e : EccFinding) (s : State) :
    sourcesInRange (eccFound i m sector e s) ↔ sourcesInRange s := by
  unfold eccFound
  split <;> simp

@[simp] theorem inRange_tagFailed (i : Nat) (m : Master) (line : Nat) (s : State) :
    sourcesInRange (tagFailed i m line s) ↔ sourcesInRange s := by simp [tagFailed]

@[simp] theorem inRange_degrade (s : State) : sourcesInRange (degrade s) ↔ sourcesInRange s := by simp [degrade]

@[simp] theorem inRange_completeJob (j : MeterJob) (s : State) : sourcesInRange (completeJob j s) ↔ sourcesInRange s := by
  unfold completeJob
  split <;> simp

@[simp] theorem inRange_raiseOverrun (j : MeterJob) (s : State) : sourcesInRange (raiseOverrun j s) ↔ sourcesInRange s := by
  unfold raiseOverrun
  split <;> simp

@[simp] theorem inRange_engineFault (j : MeterJob) (s : State) : sourcesInRange (engineFault j s) ↔ sourcesInRange s := by simp [engineFault]

@[simp] theorem inRange_poisonRead (i : Nat) (c : Chunk) (sectors : List Nat) (s : State) :
    sourcesInRange (poisonRead i c sectors s) ↔ sourcesInRange s := by
  unfold poisonRead
  split <;> simp

@[simp] theorem inRange_errorCompletion (i : Nat) (c : Chunk) (sectors : List Nat) (s : State) :
    sourcesInRange (errorCompletion i c sectors s) ↔ sourcesInRange s := by
  unfold errorCompletion
  split <;> simp

@[simp] theorem inRange_openRow (i a : Nat) (s : State) : sourcesInRange (openRow i a s) ↔ sourcesInRange s := by simp [openRow]

@[simp] theorem inRange_checkSectors (i : Nat) (c : Chunk) (secs : List Nat) (s : State) :
    sourcesInRange (checkSectors i c secs s) ↔ sourcesInRange s := by simp [checkSectors]

@[simp] theorem inRange_readRange (i : Nat) (c : Chunk) (a len : Nat) (s : State) :
    sourcesInRange (readRange i c a len s) ↔ sourcesInRange s := by simp [readRange]

@[simp] theorem inRange_bufferWrite (i a : Nat) (bs : List Byte) (s : State) :
    sourcesInRange (bufferWrite i a bs s) ↔ sourcesInRange s := by simp [bufferWrite]

@[simp] theorem inRange_setTag (i line : Nat) (tag : List Byte) (s : State) :
    sourcesInRange (setTag i line tag s) ↔ sourcesInRange s := by simp [setTag]

@[simp] theorem inRange_unpoison (i : Nat) (secs : List Nat) (s : State) : sourcesInRange (unpoison i secs s) ↔ sourcesInRange s := by simp [unpoison]

@[simp] theorem inRange_ordinaryWrite (i : Nat) (c : Chunk) (a : Nat) (bs : List Byte) (s : State) :
    sourcesInRange (ordinaryWrite i c a bs s) ↔ sourcesInRange s := by
  unfold ordinaryWrite
  simp only
  split <;> simp

@[simp] theorem inRange_sealedWrite (i : Nat) (c : Chunk) (a : Nat) (bs : List Byte) (s : State) :
    sourcesInRange (sealedWrite i c a bs s) ↔ sourcesInRange s := by simp [sealedWrite]

@[simp] theorem inRange_realTime (i : Nat) (c : Chunk) (s : State) : sourcesInRange (realTime i c s) ↔ sourcesInRange s := by
  unfold realTime
  simp only
  split <;> simp

@[simp] theorem inRange_drainEntry (i : Nat) (s : State) : sourcesInRange (drainEntry i s) ↔ sourcesInRange s := by
  unfold drainEntry
  split <;> simp

@[simp] theorem inRange_makeRoom (i n : Nat) (s : State) : sourcesInRange (makeRoom i n s) ↔ sourcesInRange s := by simp [makeRoom]

@[simp] theorem inRange_chunkDone (i : Nat) (c : Chunk) (s : State) : sourcesInRange (chunkDone i c s) ↔ sourcesInRange s := by
  unfold chunkDone
  simp only
  split
  · simp
  · split <;> simp
  · simp

@[simp] theorem inRange_modMem (i ch : Nat) (g : MemChan → MemChan) (s : State) : sourcesInRange (modMem i ch g s) ↔ sourcesInRange s := Iff.rfl

@[simp] theorem inRange_refreshOnce (i ch : Nat) (s : State) : sourcesInRange (refreshOnce i ch s) ↔ sourcesInRange s := by simp [refreshOnce]

@[simp] theorem inRange_tamperBuffers (s : State) : sourcesInRange (tamperBuffers s) ↔ sourcesInRange s := by simp [tamperBuffers]

/-! ### The ledger and the pools -/

@[simp] theorem inRange_withBooks (b : Books) (s : State) : sourcesInRange (withBooks b s) ↔ sourcesInRange s := by simp [withBooks]

@[simp] theorem inRange_ledgerTick (k : Nat) (s : State) : sourcesInRange (ledgerTick k s) ↔ sourcesInRange s := by simp [ledgerTick]

@[simp] theorem inRange_metersTick (s : State) : sourcesInRange (metersTick s) ↔ sourcesInRange s := by simp [metersTick]

/-! ### Sequencers -/

@[simp] theorem inRange_loadImage (cls : Nat) (vendor : Bool) (im : Image) (s : State) :
    sourcesInRange (loadImage cls vendor im s) ↔ sourcesInRange s := by simp [loadImage]

@[simp] theorem inRange_applyPatch (cls : Nat) (vendor : Bool) (p : Patch) (s : State) :
    sourcesInRange (applyPatch cls vendor p s) ↔ sourcesInRange s := by simp [applyPatch]

@[simp] theorem inRange_finishLoad (c : Ctx) (s : State) : sourcesInRange (finishLoad c s).2 ↔ sourcesInRange s := by simp [finishLoad]

@[simp] theorem inRange_meterExpiry (j : MeterJob) (undone : Nat) (s : State) : sourcesInRange (meterExpiry j undone s) ↔ sourcesInRange s := by
  cases j with
  | pipe c =>
    simp only [meterExpiry]
    split <;> simp
  | enc c st => simp [meterExpiry]
  | itp c st => simp [meterExpiry]
  | dec h => simp [meterExpiry]

@[simp] theorem inRange_seqStopped (q pc reason : Nat) (s : State) : sourcesInRange (seqStopped q pc reason s) ↔ sourcesInRange s := by
  unfold seqStopped
  simp only
  split
  · split
    · rw [inRange_modCls, inRange_modSeq]
      split <;> simp
    · rw [inRange_modSeq]
      split <;> simp
  · rw [inRange_assertFaultN, inRange_modSeq, inRange_modSeq]
    split <;> simp

@[simp] theorem inRange_seqWatchdog (q pc : Nat) (why : SeqWhy) (s : State) : sourcesInRange (seqWatchdog q pc why s) ↔ sourcesInRange s := by
  unfold seqWatchdog
  split <;> simp

@[simp] theorem inRange_disableFailing (s : State) : sourcesInRange (disableFailing s) ↔ sourcesInRange s := by simp [disableFailing]

/-! ### Power -/

@[simp] theorem inRange_setRail (r mv : Nat) (s : State) : sourcesInRange (setRail r mv s) ↔ sourcesInRange s := by simp [setRail]

@[simp] theorem inRange_setVoltage (d : Nat) (s : State) : sourcesInRange (setVoltage d s) ↔ sourcesInRange s := by
  unfold setVoltage
  split <;> simp

@[simp] theorem inRange_setSat (d : Nat) (sat : Bool) (s : State) : sourcesInRange (setSat d sat s) ↔ sourcesInRange s := by simp [setSat]

@[simp] theorem inRange_avsUpdate (d computed : Nat) (s : State) : sourcesInRange (avsUpdate d computed s) ↔ sourcesInRange s := by simp [avsUpdate]

@[simp] theorem inRange_loseRail (r : Nat) (s : State) : sourcesInRange (loseRail r s) ↔ sourcesInRange s := by simp [loseRail]

@[simp] theorem inRange_railPoll (r : Nat) (ack : Bool) (status iout : Nat) (s : State) :
    sourcesInRange (railPoll r ack status iout s) ↔ sourcesInRange s := by simp [railPoll]

@[simp] theorem inRange_thermalTrip (s : State) : sourcesInRange (thermalTrip s) ↔ sourcesInRange s := by simp [thermalTrip]

@[simp] theorem inRange_thermal (tj : Int) (s : State) : sourcesInRange (thermal tj s) ↔ sourcesInRange s := by simp [thermal]

@[simp] theorem inRange_thermalInReset (tj : Int) (s : State) : sourcesInRange (thermalInReset tj s) ↔ sourcesInRange s := by simp [thermalInReset]

@[simp] theorem inRange_dvfsSet (d level vreq : Nat) (s : State) : sourcesInRange (dvfsSet d level vreq s).2 ↔ sourcesInRange s := by
  unfold dvfsSet
  split <;> simp

@[simp] theorem inRange_levelTick (s : State) : sourcesInRange (levelTick s) ↔ sourcesInRange s := by simp [levelTick]

@[simp] theorem inRange_beginPower (d : Nat) (s : State) : sourcesInRange (beginPower d s) ↔ sourcesInRange s := by simp [beginPower]

@[simp] theorem inRange_rampFailed (d : Nat) (s : State) : sourcesInRange (rampFailed d s) ↔ sourcesInRange s := by simp [rampFailed]

@[simp] theorem inRange_powerUp (d : Nat) (s : State) : sourcesInRange (powerUp d s) ↔ sourcesInRange s := by simp [powerUp]

@[simp] theorem inRange_gate (d : Nat) (s : State) : sourcesInRange (gate d s) ↔ sourcesInRange s := by simp [gate]

@[simp] theorem inRange_srFinish (s : State) : sourcesInRange (srFinish s) ↔ sourcesInRange s := by
  refine inRange_forEach _ (fun x t => ?_) s
  split <;> simp

@[simp] theorem inRange_enterSelfRefresh (i : Nat) (s : State) :
    sourcesInRange (enterSelfRefresh i s) ↔ sourcesInRange s := by simp [enterSelfRefresh]

/-! ### Time -/

@[simp] theorem inRange_loadBase (b : Nat) (ptp : Bool) (s0 : State) : sourcesInRange (loadBase b ptp s0) ↔ sourcesInRange s0 := by simp [loadBase]

@[simp] theorem inRange_baseNow (c : Ctx) (s : State) : sourcesInRange (baseNow c s).2 ↔ sourcesInRange s := by
  simp [baseNow]

@[simp] theorem inRange_steer (s : State) : sourcesInRange (steer s) ↔ sourcesInRange s := by simp [steer]

@[simp] theorem inRange_missPulse (s : State) : sourcesInRange (missPulse s) ↔ sourcesInRange s := by simp [missPulse]

@[simp] theorem inRange_goodPulse (s : State) : sourcesInRange (goodPulse s) ↔ sourcesInRange s := by
  unfold goodPulse
  simp only
  split <;> simp

@[simp] theorem inRange_missAll (n : Nat) (s : State) : sourcesInRange (missAll n s) ↔ sourcesInRange s := by
  induction n generalizing s with
  | zero => rfl
  | succ n ih => rw [missAll, ih, inRange_missPulse]

@[simp] theorem inRange_loadAtPulse (s : State) : sourcesInRange (loadAtPulse s) ↔ sourcesInRange s := by
  refine inRange_forEach _ (fun x t => ?_) s
  have h := inRange_baseNow (x.ctx .timeSetBase) t
  split
  · next e =>
    rw [e] at h
    simpa using h
  · next e =>
    rw [e] at h
    exact h

@[simp] theorem inRange_sendGptp (port kind seq : Nat) (fields : List Int) (s : State) :
    sourcesInRange (sendGptp port kind seq fields s) ↔ sourcesInRange s := by simp [sendGptp]

@[simp] theorem inRange_modPdelay (p : Nat) (g : PeerDelay → PeerDelay) (s : State) :
    sourcesInRange (modPdelay p g s) ↔ sourcesInRange s := by simp [modPdelay]

@[simp] theorem inRange_modGptp (p : Nat) (g : Nat × Nat × Nat → Nat × Nat × Nat) (s : State) :
    sourcesInRange (modGptp p g s) ↔ sourcesInRange s := by simp [modGptp]

@[simp] theorem inRange_toDialogue (s : State) : sourcesInRange (toDialogue s) ↔ sourcesInRange s := by
  unfold toDialogue
  split <;> simp

/-! ### Roles and updates -/

@[simp] theorem inRange_setCredential (r slot : Nat) (k : Option (List Byte)) (s : State) :
    sourcesInRange (setCredential r slot k s) ↔ sourcesInRange s := by simp [setCredential]

@[simp] theorem inRange_closeSessions (p : Session → Bool) (s : State) :
    sourcesInRange (closeSessions p s) ↔ sourcesInRange s := by simp [closeSessions]

@[simp] theorem inRange_issueChallenge (c : Ctx) (nonce : List Byte) (s : State) :
    sourcesInRange (issueChallenge c nonce s) ↔ sourcesInRange s := by simp [issueChallenge]

@[simp] theorem inRange_openSession (c : Ctx) (ch : Option Challenge) (s : State) : sourcesInRange (openSession c ch s).2 ↔ sourcesInRange s := by
  simp [openSession]

@[simp] theorem inRange_storeCounter (v : Nat) (s : State) : sourcesInRange (storeCounter v s) ↔ sourcesInRange s := by
  unfold storeCounter
  split <;> rfl

@[simp] theorem inRange_enrolCommit (u : Update) (s : State) : sourcesInRange (enrolCommit u s) ↔ sourcesInRange s := by simp [enrolCommit]

@[simp] theorem inRange_orphanFlow (m : Nat) (s : State) : sourcesInRange (orphanFlow m s) ↔ sourcesInRange s := by simp [orphanFlow]

@[simp] theorem inRange_installKey (u : Update) (k : List Byte) (s : State) :
    sourcesInRange (installKey u k s) ↔ sourcesInRange s := by simp [installKey]

@[simp] theorem inRange_applyUpdate (u : Update) (s : State) : sourcesInRange (applyUpdate u s) ↔ sourcesInRange s := by simp [applyUpdate]

@[simp] theorem inRange_commitUpdate (c : Ctx) (u : Update) (s : State) :
    sourcesInRange (commitUpdate c u s) ↔ sourcesInRange s := by simp [commitUpdate]

@[simp] theorem inRange_updateRead (c : Ctx) (s : State) : sourcesInRange (updateRead c s).2 ↔ sourcesInRange s := by
  unfold updateRead
  simp only
  split
  · rfl
  · split <;> simp

@[simp] theorem inRange_signDraw (s : State) : sourcesInRange (signDraw s).2 ↔ sourcesInRange s := by simp [signDraw]

@[simp] theorem inRange_signNow (c : Ctx) (nonce : List Byte) (s : State) : sourcesInRange (signNow c nonce s).2 ↔ sourcesInRange s := by
  simp [signNow]

/-! ### The key vault -/

@[simp] theorem inRange_invalidate (n : Nat) (s : State) : sourcesInRange (invalidate n s) ↔ sourcesInRange s := by simp [invalidate]

@[simp] theorem inRange_eraseImported (s : State) : sourcesInRange (eraseImported s) ↔ sourcesInRange s := by simp [eraseImported]

@[simp] theorem inRange_discardEncrypted (m : Nat) (s : State) :
    sourcesInRange (discardEncrypted m s) ↔ sourcesInRange s := by simp [discardEncrypted]

@[simp] theorem inRange_tamper (s : State) : sourcesInRange (tamper s) ↔ sourcesInRange s := by simp [tamper]

@[simp] theorem inRange_failEntropy (s : State) : sourcesInRange (failEntropy s) ↔ sourcesInRange s := by
  refine (inRange_forEach _ (fun c t => ?_) _).trans (inRange_forEach _ (fun x t => inRange_finish ..) s)
  split <;> simp

@[simp] theorem inRange_healthFail (s : State) : sourcesInRange (healthFail s) ↔ sourcesInRange s := by simp [healthFail]

/-! ### The block as a whole -/

@[simp] theorem inRange_abandonDeferred (x : ExecEntry) (s : State) : sourcesInRange (abandonDeferred x s) ↔ sourcesInRange s := by
  unfold abandonDeferred
  split
  · simp only
    split <;> simp
  · rfl

@[simp] theorem inRange_updateChanWindow (c : Nat) (s : State) :
    sourcesInRange (updateChanWindow c s) ↔ sourcesInRange s := by simp [updateChanWindow]

@[simp] theorem inRange_snapFlows (s : State) : sourcesInRange (snapFlows s) ↔ sourcesInRange s := by simp [snapFlows]

@[simp] theorem inRange_reassert (s : State) : sourcesInRange (reassert s) ↔ sourcesInRange s := by simp [reassert]

@[simp] theorem inRange_reassertStopped (s : State) : sourcesInRange (reassertStopped s) ↔ sourcesInRange s := by simp [reassertStopped]

@[simp] theorem inRange_resetFunction (f : Nat) {s : State} (hs : sourcesInRange s) : sourcesInRange (resetFunction f s) := by
  unfold resetFunction
  exact sourcesInRange.resetTarget (by simpa using hs) f

@[simp] theorem inRange_leaveFunction (f : Nat) {s : State} (hs : sourcesInRange s) :
    sourcesInRange (leaveFunction f s) := by simp [leaveFunction, hs]

@[simp] theorem inRange_functionReset (f : Nat) {s : State} (hs : sourcesInRange s) : sourcesInRange (functionReset f s) := by
  unfold functionReset
  split
  · exact (inRange_update ..).mpr ((inRange_resetFunction 0 hs).forEach _ fun _ _ h => inRange_leaveFunction _ h)
  · exact inRange_resetFunction f hs

@[simp] theorem inRange_vfChange (n : Nat) (en : Bool) {s : State} (hs : sourcesInRange s) : sourcesInRange (vfChange n en s) := 
  (inRange_update ..).mpr (hs.forEach _ fun _ _ h => inRange_leaveFunction _ h)

/-! ### Reset and bring-up -/

/-- R141. The sources of a reset. -/
theorem inRange_reset : sourcesInRange State.reset := resetMeetsTheInvariants.2.1

/-- R152. A full reset leaves the sources of a reset. -/
@[simp] theorem inRange_resetState (t : ResetTrigger) (s : State) : sourcesInRange (resetState t s) := by
  unfold resetState
  generalize forEach _ applyPairing s = p
  exact inRange_reset

@[simp] theorem inRange_beginReset (t : ResetTrigger) (s : State) : sourcesInRange (beginReset t s) := by simp [beginReset]

@[simp] theorem inRange_failBoot (code : Nat) (s : State) : sourcesInRange (failBoot code s) ↔ sourcesInRange s := by simp [failBoot]

@[simp] theorem inRange_bootNode (first : Bool) (n : Nat) (s : State) : sourcesInRange (bootNode first n s) ↔ sourcesInRange s := by simp [bootNode]

@[simp] theorem inRange_bootTarn (root noise : List Byte) (s : State) :
    sourcesInRange (bootTarn root noise s) ↔ sourcesInRange s := by simp [bootTarn]

@[simp] theorem inRange_releaseTrip (s : State) : sourcesInRange (releaseTrip s) ↔ sourcesInRange s := by simp [releaseTrip]

@[simp] theorem inRange_bootStart (puf : PufRead) (s : State) : sourcesInRange (bootStart puf s) ↔ sourcesInRange s := by
  unfold bootStart
  simp only
  split <;> simp

@[simp] theorem inRange_release (straps : Straps) (puf : PufRead) (s : State) : sourcesInRange (release straps puf s) ↔ sourcesInRange s := by
  unfold release
  simp only
  split <;> simp

@[simp] theorem inRange_raiseRail (r : Nat) (ok : Bool) (s0 : State) : sourcesInRange (raiseRail r ok s0) ↔ sourcesInRange s0 := by simp [raiseRail]

@[simp] theorem inRange_bootPool (i : Nat) (s : State) : sourcesInRange (bootPool i s) ↔ sourcesInRange s := by simp [bootPool]

@[simp] theorem inRange_loadPatches (cls : Nat) (vendor : Bool) (ver n l : Nat) (s : State) :
    sourcesInRange (loadPatches cls vendor ver n l s) ↔ sourcesInRange s := by
  induction n generalizing l s with
  | zero => rfl
  | succ n ih =>
    unfold loadPatches
    split
    · simp [ih]
    · rfl

@[simp] theorem inRange_loadPersisted (cls : Nat) (vendor : Bool) (s : State) : sourcesInRange (loadPersisted cls vendor s) ↔ sourcesInRange s := by
  unfold loadPersisted
  split <;> simp

@[simp] theorem inRange_tamperRecord (s : State) : sourcesInRange (tamperRecord s) ↔ sourcesInRange s := by simp [tamperRecord]

@[simp] theorem inRange_assignAddress (c : Nat) (s : State) : sourcesInRange (assignAddress c s) ↔ sourcesInRange s := by
  unfold assignAddress
  split <;> simp

/-- R150, R581. A flow of the cached configuration that is kept has a function below 16. -/
theorem func_of_flowKept {s : State} {c : FlowCfg} (h : flowKept s c = true) {f : Nat} (hf : c.func = some f) : f < 16 := by
  simp only [flowKept, hf, Option.all_some, Bool.and_eq_true, decide_eq_true_eq] at h
  exact h.1.1

/-- R150. Every flow that has a function moves its source to that function's target. -/
def reroutedFlows (l : List Nat) (s : State) : State := forEach l (fun m t => reroute (256 + m) ((t.fcfg m).func.getD 0 + 1) t) s

theorem flowCfg_reroute (n r : Nat) (s : State) : (reroute n r s).flowCfg = s.flowCfg := by
  unfold reroute
  simp only
  split
  · rfl
  · rw [resignal_eq, resignal_eq]
    rfl

theorem sourcesInRange.reroutedFlows {s : State} (hs : sourcesInRange s) (hfunc : ∀ m f, (s.fcfg m).func = some f → f < 16) (l : List Nat) :
    sourcesInRange (Machine.reroutedFlows l s) := by
  refine (forEach_keeps (fun t => sourcesInRange t ∧ t.flowCfg = s.flowCfg) l _ s ⟨hs, rfl⟩ fun m _ t ⟨ht, hcfg⟩ =>
    ⟨ht.reroute _ ?_, (flowCfg_reroute ..).trans hcfg⟩).1
  have hm : t.fcfg m = s.fcfg m := congrArg (fun v => tget v m) hcfg
  rw [hm]
  cases h : (s.fcfg m).func with
  | none => decide
  | some f => exact hfunc m f h

@[simp] theorem inRange_restore (k : SavedConfig) {s : State} (hs : sourcesInRange s) : sourcesInRange (restore k s) := by
  refine (inRange_forEach _ inRange_assignAddress _).mpr (sourcesInRange.reroutedFlows (by simpa using hs) (fun m f h => ?_) _)
  by_cases hm : m < 256
  · simp only [State.fcfg, tget_ofFn _ hm] at h
    split at h
    · split at h
      · next hkept => exact func_of_flowKept (Bool.and_eq_true_iff.mp hkept).2 h
      · cases h
    · cases h
  · rw [State.fcfg, tget_beyond _ (Nat.le_of_not_lt hm)] at h
    cases h

@[simp] theorem inRange_autoRun (chs fls : List Nat) (s : State) : sourcesInRange (autoRun chs fls s) ↔ sourcesInRange s := by simp [autoRun]

@[simp] theorem inRange_applyConfig (k : SavedConfig) {s : State} (hs : sourcesInRange s) : sourcesInRange (applyConfig k s) := by
  unfold applyConfig
  simp only
  split
  · simp [hs]
  · split <;> simp [hs]

@[simp] theorem inRange_defaultPeriod (s : State) : sourcesInRange (defaultPeriod s) ↔ sourcesInRange s := by simp [defaultPeriod]

@[simp] theorem inRange_goReady {s : State} (hs : sourcesInRange s) : sourcesInRange (goReady s) := by
  unfold goReady
  split <;> simp [hs]

@[simp] theorem inRange_autoStart (s : State) : sourcesInRange (autoStart s) ↔ sourcesInRange s := by simp [autoStart]

@[simp] theorem inRange_autoHeld (k : Nat) (s : State) : sourcesInRange (autoHeld k s) ↔ sourcesInRange s := by
  refine inRange_forEach _ (fun c t => ?_) s
  simp only
  split
  · simp
  · split
    · split <;> simp
    · rfl

/-! ### Commands of the host -/

/-- R105 step 13. The meaning of a command, as its execution begins. -/
theorem inRange_run {o : Op} (ho : o ≠ .flowAttach) (c : Ctx) (s : State) : sourcesInRange (o.behaviour.run c s).2 ↔ sourcesInRange s := by
  cases o
  case calEnable => simp [Op.behaviour, calEnableB]
  case calPin =>
    have h := inRange_calAudited 2 c s
    simp only [Op.behaviour, calPinB]
    split
    · rfl
    · split
      · next e => rw [e] at h; simpa using h
      · exact h
  case calUnpin => simp [Op.behaviour, calUnpinB]
  case calReset => simp [Op.behaviour, calResetB]
  case encGeometrySet => simp [Op.behaviour, encGeometrySetB]
  case decFeed => simp [Op.behaviour, decFeedB]
  case decQuery => simp [Op.behaviour, decQueryB]
  case flowAttach => exact absurd rfl ho
  case headPair => simp [Op.behaviour, headPairB]
  case headUnpair => simp [Op.behaviour, headUnpairB]
  case headIdGet => simp [Op.behaviour, headIdGetB]
  case headI3cXfer => simp [Op.behaviour, headI3cXferB]
  case memMapQuery => simp [Op.behaviour, memMapQueryB]
  case memPoolQuery => simp [Op.behaviour, memPoolQueryB]
  case memErrQuery => simp [Op.behaviour, memErrQueryB]
  case pwrDvfsSet => simp [Op.behaviour, pwrDvfsSetB]
  case pwrDomainSet => simp [Op.behaviour, pwrDomainSetB]
  case pwrSelfRefresh => simp [Op.behaviour, pwrSelfRefreshB]
  case timeSetBase => simp [Op.behaviour, timeSetBaseB]
  case roleChallenge =>
    simp only [Op.behaviour, roleChallengeB]
    split
    · next e => simp [inRange_takeEntropy e]
    · rfl
  case roleOpen =>
    simp only [Op.behaviour, roleOpenB]
    split <;> simp
  case roleClose => simp [Op.behaviour, roleCloseB]
  case roleAuditRead => simp [Op.behaviour, roleAuditReadB]
  case tarnRandom =>
    simp only [Op.behaviour, tarnRandomB]
    split
    · next e => exact inRange_takeEntropy e
    · rfl
  case tarnSign => simp [Op.behaviour, tarnSignB]
  case tarnPubkeyGet => simp [Op.behaviour, tarnPubkeyGetB]
  case tarnNodeInvalidate =>
    have h := inRange_tickAudited 0x40 (le 2 (invalidNode c.q) ++ zeros 2 ++ le 4 (s.tarn.gctr + 1)) c s
    simp only [Op.behaviour, tarnNodeInvalidateB]
    split
    · rfl
    · split
      · next e => rw [e] at h; simpa using h
      · exact h
  case sysReset => simp [Op.behaviour, sysResetB]
  case sysConfigSave => simp [Op.behaviour, sysConfigSaveB]
  all_goals rfl

/-- R118, R414, R444. Its meaning as a wait ends. -/
theorem inRange_resume (o : Op) (c : Ctx) (w : Wait) (s : State) : sourcesInRange (o.behaviour.resume c w s).2 ↔ sourcesInRange s := by
  cases o
  case chanLutLoad =>
    simp only [Op.behaviour, chanLutLoadB]
    split <;> simp
  case decFeed => simp [Op.behaviour, decFeedB]
  case flowTemplateSet => simp [Op.behaviour, flowTemplateSetB]
  case headPair => simp [Op.behaviour, headPairB]
  case seqImageLoad =>
    simp only [Op.behaviour, seqImageLoadB]
    split
    · split
      · rfl
      · split
        · rfl
        · split <;> simp
    · simp
  case seqPatchApply =>
    simp only [Op.behaviour, seqPatchApplyB]
    split
    · split
      · rfl
      · split
        · rfl
        · split <;> simp
    · simp
  case timeSetBase => simp [Op.behaviour, timeSetBaseB]
  case roleChallenge =>
    simp only [Op.behaviour, roleChallengeB]
    split <;> simp
  case roleOpen => simp [Op.behaviour, roleOpenB]
  case roleUpdate =>
    simp only [Op.behaviour, roleUpdateB]
    split <;> simp
  case tarnRandom =>
    simp only [Op.behaviour, tarnRandomB]
    split <;> rfl
  case tarnSign =>
    simp only [Op.behaviour, tarnSignB]
    split <;> simp
  case sysConfigSave => simp [Op.behaviour, sysConfigSaveB]
  all_goals rfl

/-- R108. Its effect at a boundary. -/
theorem inRange_effect (o : Op) (c : Ctx) (s : State) : sourcesInRange (o.behaviour.effect c s) ↔ sourcesInRange s := by
  cases o
  case chanPortSet => simp [Op.behaviour, chanPortSetB]
  case chanBind => simp [Op.behaviour, chanBindB]
  case chanStop => simp [Op.behaviour, chanStopB]
  case chanSensorSet => simp [Op.behaviour, chanSensorSetB]
  case chanPipeSet => simp [Op.behaviour, chanPipeSetB]
  case chanLutLoad => simp [Op.behaviour, chanLutLoadB]
  case chanWindowSet => simp [Op.behaviour, chanWindowSetB]
  case chanWindowClear => simp [Op.behaviour, chanWindowClearB]
  case calEnable => simp [Op.behaviour, calEnableB]
  case calPin => simp [Op.behaviour, calPinB]
  case calUnpin => simp [Op.behaviour, calUnpinB]
  case calReset => simp [Op.behaviour, calResetB]
  case encMotionSet => simp [Op.behaviour, encMotionSetB]
  case encGeometrySet => simp [Op.behaviour, encGeometrySetB]
  case decOpen => simp [Op.behaviour, decOpenB]
  case decClose => simp [Op.behaviour, decCloseB]
  case encStreamSet => simp [Op.behaviour, encStreamSetB]
  case encHrdSet => simp [Op.behaviour, encHrdSetB]
  case encRateSet => simp [Op.behaviour, encRateSetB]
  case encQpSet => simp [Op.behaviour, encQpSetB]
  case encRefreshSet => simp [Op.behaviour, encRefreshSetB]
  case encLtrRecover => simp [Op.behaviour, encLtrRecoverB]
  case encForceIdr => simp [Op.behaviour, encForceIdrB]
  case flowRouteSet => simp [Op.behaviour, flowRouteSetB]
  case flowTemplateSet => simp [Op.behaviour, flowTemplateSetB]
  case flowRingSet => simp [Op.behaviour, flowRingSetB]
  case flowRateSet => simp [Op.behaviour, flowRateSetB]
  case flowWeightSet => simp [Op.behaviour, flowWeightSetB]
  case flowCryptSet => simp [Op.behaviour, flowCryptSetB]
  case flowStart => simp [Op.behaviour, flowStartB]
  case flowStop => simp [Op.behaviour, flowStopB]
  case decOutputSet => simp [Op.behaviour, decOutputSetB]
  case headUnpair => simp [Op.behaviour, headUnpairB]
  case headPolicySet => simp [Op.behaviour, headPolicySetB]
  case chanStart => simp [Op.behaviour, chanStartB]
  case seqPatchApply => simp [Op.behaviour, seqPatchApplyB]
  case seqHookSet => simp [Op.behaviour, seqHookSetB]
  case pwrDomainSet => simp [Op.behaviour, pwrDomainSetB]
  case timeTickSet => simp [Op.behaviour, timeTickSetB]
  case timeChanRate => simp [Op.behaviour, timeChanRateB]
  case tarnNodeInvalidate => simp [Op.behaviour, tarnNodeInvalidateB]
  all_goals rfl

/-! ### Serving a request -/

/-- Step 12 makes books for a command, or lets it do nothing. -/
theorem inRange_stepTwelve {c : Ctx} {s : State} {r : Reply × State} (hs : sourcesInRange s) (hr : sourcesInRange r.2) :
    sourcesInRange (stepTwelve c s r).2 := by
  unfold stepTwelve
  split
  · split
    · exact hr
    · exact hs
  · exact hr
  · split
    · exact hs
    · exact hr

/-- The check of what a buffer holds changes the reply only. -/
theorem inRange_dataCheck (c : Ctx) (r : Reply × State) : sourcesInRange (dataCheck c r).2 ↔ sourcesInRange r.2 := by
  unfold dataCheck
  split
  · simp only
    split <;> rfl
  · rfl

@[simp] theorem inRange_resumeOf (x : ExecEntry) (w : Wait) {s : State} (hs : sourcesInRange s) : sourcesInRange (resumeOf x w s).2 := by
  unfold resumeOf
  split
  · next o _ => exact inRange_stepTwelve hs ((inRange_dataCheck ..).mpr ((inRange_resume o ..).mpr hs))
  · exact hs

/-- A request that waits for entropy which is there is resumed; one that ends is answered. -/
@[simp] theorem inRange_settle (n : Nat) (x : ExecEntry) {r : Reply × State} (hr : sourcesInRange r.2) : sourcesInRange (settle n x r) := by
  induction n generalizing x r with
  | zero =>
    obtain ⟨_ | _, s⟩ := r
    · exact (inRange_finish ..).mpr hr
    · exact (inRange_updExec ..).mpr hr
  | succ n ih =>
    obtain ⟨_ | w, s⟩ := r
    · exact (inRange_finish ..).mpr hr
    · have waits (y : ExecEntry) : sourcesInRange (updExec x y s) := (inRange_updExec ..).mpr hr
      unfold settle
      simp only
      split
      · split
        · next e => exact ih _ (inRange_resumeOf _ _ ((inRange_takeEntropy e).mpr (waits _)))
        · exact waits _
      · exact waits _

/-- R105 step 10. The fields of a request that is not refused are in range. -/
theorem fields_of_refusal {s : State} {c : Ctx} (h : refusal s c = none) : c.op.behaviour.fields s c = none := by
  simp only [refusal] at h
  split at h
  · exact absurd h (Option.some_ne_none _)
  · next hsteps => exact none_of_firstOf hsteps _ (by simp)

/-- R360. A flow is attached to one of 16 functions or to none, so its source moves to a target of the block. -/
theorem inRange_flowAttach {c : Ctx} {s : State} (hs : sourcesInRange s) (h : flowAttachB.fields s c = none) :
    sourcesInRange (flowAttachB.run c s).2 := by
  have hf : (c.q.u 16 1 < 16 || c.q.u 16 1 == 0xFF) = true := eq_true_of_need h
  simp only [Bool.or_eq_true, decide_eq_true_eq, beq_iff_eq] at hf
  refine hs.forEach _ fun m t ht => sourcesInRange.reroute ((inRange_modFcfg ..).mpr ht) _ ?_
  split <;> omega

@[simp] theorem inRange_execute {c : Ctx} (e : Entry) {s : State} (hs : sourcesInRange s) (h : refusal s c = none) :
    sourcesInRange (execute c e s) := by
  refine inRange_settle _ _ ((inRange_update ..).mpr (inRange_stepTwelve hs ?_))
  split
  · exact hs
  · by_cases ho : c.op = .flowAttach
    · have hfields := fields_of_refusal h
      rw [ho] at hfields ⊢
      exact inRange_flowAttach hs hfields
    · exact (inRange_run ho c s).mpr hs

@[simp] theorem inRange_serve (f : Nat) (e : Entry) {s : State} (hs : sourcesInRange s) : sourcesInRange (serve f e s) := by
  unfold serve
  split
  · simp [hs]
  · split
    · simp [hs]
    · split
      · simp [hs]
      · next h => exact inRange_execute e hs h

@[simp] theorem inRange_readRequest {s : State} (hs : sourcesInRange s) : sourcesInRange (readRequest s) := by
  unfold readRequest
  split
  · exact hs
  · exact inRange_serve _ _ ((inRange_modFn ..).mpr hs)

@[simp] theorem inRange_command (o : Op) (f : Nat) (q : Request) {s : State} (hs : sourcesInRange s) : sourcesInRange (command o f q s) := by
  simp [command, hs]

@[simp] theorem inRange_dropOpening (x : ExecEntry) (s : State) : sourcesInRange (dropOpening x s) ↔ sourcesInRange s := by simp [dropOpening]

@[simp] theorem inRange_dmaFailed (x : ExecEntry) (s : State) : sourcesInRange (dmaFailed x s) ↔ sourcesInRange s := by simp [dmaFailed]

@[simp] theorem inRange_dmaDone (x : ExecEntry) (data : List Byte) {s : State} (hs : sourcesInRange s) : sourcesInRange (dmaDone x data s) := by
  unfold dmaDone
  split <;> simp [hs]

@[simp] theorem inRange_dropPairing (x : ExecEntry) (s : State) : sourcesInRange (dropPairing x s) ↔ sourcesInRange s := by simp [dropPairing]

@[simp] theorem inRange_abandonWait (x : ExecEntry) (s : State) : sourcesInRange (abandonWait x s) ↔ sourcesInRange s := by
  unfold abandonWait
  split <;> simp

@[simp] theorem inRange_applyFlash (w : FlashWork) (s : State) : sourcesInRange (applyFlash w s) ↔ sourcesInRange s := by
  unfold applyFlash
  split <;> simp

@[simp] theorem inRange_flashDone (j : FlashJob) (ok : Bool) {s : State} (hs : sourcesInRange s) : sourcesInRange (flashDone j ok s) := by
  unfold flashDone
  split <;> simp [hs]

@[simp] theorem inRange_drawWaiting {s : State} (hs : sourcesInRange s) : sourcesInRange (drawWaiting s) := by
  refine (inRange_forEach _ inRange_sendChallenge _).mpr (hs.forEach _ fun x t ht => ?_)
  split
  · split
    · next e => exact inRange_settle _ _ (inRange_resumeOf _ _ ((inRange_takeEntropy e).mpr ht))
    · exact ht
  · exact ht

/-! ### The master tick boundary -/

@[simp] theorem inRange_headRecord (c : Nat) (f : Frame) (s : State) : sourcesInRange (headRecord c f s) ↔ sourcesInRange s := by simp [headRecord]

@[simp] theorem inRange_deadline (c : Nat) (s : State) : sourcesInRange (deadline c s) ↔ sourcesInRange s := by
  unfold deadline
  split
  · rfl
  · simp only
    split <;> simp

@[simp] theorem inRange_latePulse (c : Nat) (s : State) : sourcesInRange (latePulse c s) ↔ sourcesInRange s := by
  unfold latePulse
  split <;> simp

@[simp] theorem inRange_endEncode (c st : Nat) (s : State) : sourcesInRange (endEncode c st s) ↔ sourcesInRange s := by simp [endEncode]

@[simp] theorem inRange_endTick (s : State) : sourcesInRange (endTick s) ↔ sourcesInRange s := by simp [endTick]

@[simp] theorem inRange_ageQueues (s0 : State) : sourcesInRange (ageQueues s0) ↔ sourcesInRange s0 := by simp [ageQueues]

@[simp] theorem inRange_passBoundary (s : State) : sourcesInRange (passBoundary s) ↔ sourcesInRange s := by simp [passBoundary]

/-- The commands whose boundary it is make their effects, and are answered. -/
@[simp] theorem inRange_takeEffects (due : List ExecEntry) (s : State) : sourcesInRange (takeEffects due s) ↔ sourcesInRange s := by
  refine inRange_forEach _ (fun x t => ?_) s
  split
  · next o _ => exact (inRange_finishAt ..).trans (inRange_effect o _ t)
  · exact inRange_finishAt ..

@[simp] theorem inRange_channelTick (k c : Nat) (s : State) : sourcesInRange (channelTick k c s) ↔ sourcesInRange s := by
  unfold channelTick
  split <;> simp

@[simp] theorem inRange_releaseItems (s : State) : sourcesInRange (releaseItems s) ↔ sourcesInRange s := by
  have units (c st : Nat) (t : State) : sourcesInRange (match (tget (t.chan c).runs st).current with
      | some a => releaseCounts c st a (offerAu a (tget (t.chan c).runs st).ledgerRate t)
      | none => t) ↔ sourcesInRange t := by split <;> simp
  unfold releaseItems
  simp only
  refine (inRange_forEach _ inRange_offerDecoded _).trans (inRange_forEach _ (fun c t => ?_) s)
  split
  · refine (inRange_forEach _ (fun p t => inRange_offerWindow ..) _).trans ?_
    exact (units c 1 _).trans (units c 0 t)
  · exact (units c 1 _).trans (units c 0 t)

@[simp] theorem inRange_beginJobs (k : Nat) (s : State) : sourcesInRange (beginJobs k s) ↔ sourcesInRange s := by simp [beginJobs]

@[simp] theorem inRange_atTickEnd (s : State) : sourcesInRange (atTickEnd s) ↔ sourcesInRange s := by simp [atTickEnd]

@[simp] theorem inRange_beforeCommands (s : State) : sourcesInRange (beforeCommands s) ↔ sourcesInRange s := by simp [beforeCommands]

@[simp] theorem inRange_afterCommands (s u : State) : sourcesInRange (afterCommands s u) ↔ sourcesInRange u := by simp [afterCommands]

@[simp] theorem inRange_unlaunched (s : State) : sourcesInRange (unlaunched s) ↔ sourcesInRange s := by simp [unlaunched]

@[simp] theorem inRange_nextBoundary (s : State) : sourcesInRange (nextBoundary s) ↔ sourcesInRange s := by simp [nextBoundary]

/-! ### Every event and every command -/

/-- The sources are in range in the state that a step ends in, if it ends in one. -/
def SourcesKept : Host.Outcome State Fault Refusal → Prop
  | .next t => sourcesInRange t
  | _ => True

@[simp] theorem sourcesKept_next (t : State) : SourcesKept (.next t) ↔ sourcesInRange t := Iff.rfl

@[simp] theorem sourcesKept_refused (r : Refusal) : SourcesKept (.refused r) := trivial

@[simp] theorem sourcesKept_fault (e : Fault) : SourcesKept (.fault e) := trivial

@[simp] theorem sourcesKept_ite (p : Prop) [Decidable p] (o o' : Host.Outcome State Fault Refusal) :
    SourcesKept (if p then o else o') ↔ if p then SourcesKept o else SourcesKept o' := iff_of_eq (apply_ite SourcesKept p o o')

/-- A guard that ends a command early. -/
theorem sourcesKept_guard {p : Prop} [Decidable p] {o o' : Host.Outcome State Fault Refusal} (ho : SourcesKept o) (ho' : SourcesKept o') :
    SourcesKept (if p then o else o') := (sourcesKept_ite ..).mpr (by simp [ho, ho'])

section
variable {s : State} (hs : sourcesInRange s)
include hs

theorem sourcesKept_fsyncPulse (ch : Nat) : SourcesKept (execFsyncPulse ch s) := by
  unfold execFsyncPulse
  split <;> simp [hs]

theorem sourcesKept_fsyncPulseEnd (ch : Nat) : SourcesKept (execFsyncPulseEnd ch s) := by
  unfold execFsyncPulseEnd
  split <;> simp [hs]

theorem sourcesKept_csi2LongPacket (port vc dt wc : Nat) (crcOk : Bool) (ecc : HdrEcc) (data : List Byte) :
    SourcesKept (execCsi2LongPacket port vc dt wc crcOk ecc data s) := by
  refine sourcesKept_guard trivial ?_
  split
  · simp [hs]
  · next h => simp [(inRange_takeHeader h).mpr hs]

theorem sourcesKept_calEstimate (ch param : Nat) : SourcesKept (execCalEstimate ch param s) := by
  refine sourcesKept_guard trivial ?_
  split <;> simp [hs]

theorem sourcesKept_calRecordWrite (ch : Nat) : SourcesKept (execCalRecordWrite ch s) := by
  refine sourcesKept_guard trivial ?_
  simp only
  split <;> simp [hs]

theorem sourcesKept_headCheckStart (ch : Nat) : SourcesKept (execHeadCheckStart ch s) := by
  unfold execHeadCheckStart
  split
  · refine sourcesKept_guard ?_ hs
    split
    · next h => simp [(inRange_checkWindow h).mpr hs]
    · exact hs
  · exact hs

theorem sourcesKept_seStatusPoll (ch : Nat) (u : Unit) : SourcesKept (execSeStatusPoll ch u s) := by
  unfold execSeStatusPoll
  split <;> simp [hs]

theorem sourcesKept_i3cTransactionDone (bus : Nat) (r : BusResult) : SourcesKept (execI3cTransactionDone bus r s) := by
  refine sourcesKept_guard trivial ?_
  split <;> simp [hs]

theorem sourcesKept_headCheckDone (ch : Nat) : SourcesKept (execHeadCheckDone ch s) := by
  unfold execHeadCheckDone
  split <;> simp [hs]

theorem sourcesKept_lifeMinute (ch : Nat) (u : Unit) : SourcesKept (execLifeMinute ch u s) := by
  unfold execLifeMinute
  split <;> simp [hs]

theorem sourcesKept_lifePush (ch : Nat) : SourcesKept (execLifePush ch s) := by
  unfold execLifePush
  split <;> simp [hs]

/-- R400, R401. What stops a refresh changes nothing. -/
theorem sourcesKept_refreshing {d ch : Nat} {o : Host.Outcome State Fault Refusal} (h : refreshing s d ch = some o) : SourcesKept o := by
  unfold refreshing at h
  split at h
  · cases h; trivial
  · split at h
    · cases h; trivial
    · split at h
      · cases h; exact hs
      · cases h

theorem sourcesKept_refreshDue (dmc mch : Nat) : SourcesKept (execRefreshDue dmc mch s) := by
  unfold execRefreshDue
  split
  · next h => exact sourcesKept_refreshing hs h
  · simp [hs]

theorem sourcesKept_refreshIssue (dmc mch : Nat) : SourcesKept (execRefreshIssue dmc mch s) := by
  unfold execRefreshIssue
  split
  · next h => exact sourcesKept_refreshing hs h
  · simp [hs]

theorem sourcesKept_refreshForced (dmc mch : Nat) : SourcesKept (execRefreshForced dmc mch s) := by
  unfold execRefreshForced
  split
  · next h => exact sourcesKept_refreshing hs h
  · simp [hs]

theorem sourcesKept_mr4Read (dmc mch mult : Nat) : SourcesKept (execMr4Read dmc mch mult s) := by
  unfold execMr4Read
  split
  · next h => exact sourcesKept_refreshing hs h
  · simp [hs]

theorem sourcesKept_cycleMeterExpiry (j : MeterJob) (undone : Nat) : SourcesKept (execCycleMeterExpiry j undone s) := by
  unfold execCycleMeterExpiry
  split <;> simp [hs]

theorem sourcesKept_ppsInMissing : SourcesKept (execPpsInMissing s) := by
  unfold execPpsInMissing
  split <;> simp [hs]

theorem sourcesKept_gptpFrameReceived (port : Nat) (m : GptpMsg) : SourcesKept (execGptpFrameReceived port m s) := by
  refine sourcesKept_guard trivial (sourcesKept_guard hs ?_)
  cases m <;> simp [hs]

theorem sourcesKept_challengeExpiry (f : Nat) : SourcesKept (execChallengeExpiry f s) := by
  refine sourcesKept_guard trivial ?_
  split <;> simp [hs]

theorem sourcesKept_dmaTransferDone (f tag : Nat) (ok : Bool) (data : List Byte) : SourcesKept (execDmaTransferDone f tag ok data s) := by
  unfold execDmaTransferDone
  split <;> simp [hs]

theorem sourcesKept_dmaTimeout (f tag : Nat) : SourcesKept (execDmaTimeout f tag s) := by
  unfold execDmaTimeout
  split <;> simp [hs]

theorem sourcesKept_deferredTimeout (f tag : Nat) : SourcesKept (execDeferredTimeout f tag s) := by
  unfold execDeferredTimeout
  split
  · split <;> simp [hs]
  · exact hs

theorem sourcesKept_flashProgramDone (ok : Bool) : SourcesKept (execFlashProgramDone ok s) := by
  unfold execFlashProgramDone
  simp only
  split <;> simp [hs]

theorem sourcesKept_headChange (ch : Nat) : SourcesKept (execHeadChange ch s) := by
  simp [execHeadChange, execMasterTickBoundary, hs]

/-- A command of the host is served; an event that loops or branches no further than its guards is closed by what it is made of. -/
theorem exec_sourcesKept (i : Instr) : SourcesKept (exec i s) := by
  cases i
  case fsyncPulse ch => exact sourcesKept_fsyncPulse hs ch
  case fsyncPulseEnd ch => exact sourcesKept_fsyncPulseEnd hs ch
  case csi2LineStart port vc line ecc => exact (by simp [execCsi2LineStart, hs] : SourcesKept (execCsi2LineStart port vc line ecc s))
  case csi2LongPacket port vc dt wc crcOk ecc data => exact sourcesKept_csi2LongPacket hs port vc dt wc crcOk ecc data
  case csi2FrameEnd port vc ecc => exact (by simp [execCsi2FrameEnd, hs] : SourcesKept (execCsi2FrameEnd port vc ecc s))
  case csi2PhyError port => exact (by simp [execCsi2PhyError, hs] : SourcesKept (execCsi2PhyError port s))
  case calEstimate ch param => exact sourcesKept_calEstimate hs ch param
  case calTimeLimit ch param => exact (by simp [execCalTimeLimit, hs] : SourcesKept (execCalTimeLimit ch param s))
  case calRecordWrite ch => exact sourcesKept_calRecordWrite hs ch
  case pipeJobEnd ch => exact (by simp [execPipeJobEnd, hs] : SourcesKept (execPipeJobEnd ch s))
  case decJobEnd h r => exact (by simp [execDecJobEnd, hs] : SourcesKept (execDecJobEnd h r s))
  case encJobEnd ch st => exact (by simp [execEncJobEnd, hs] : SourcesKept (execEncJobEnd ch st s))
  case itpJobEnd ch st => exact (by simp [execItpJobEnd, hs] : SourcesKept (execItpJobEnd ch st s))
  case sealJobEnd ch st => exact (by simp [execSealJobEnd, hs] : SourcesKept (execSealJobEnd ch st s))
  case packetDequeue port => exact (by simp [execPacketDequeue, hs] : SourcesKept (execPacketDequeue port s))
  case packetTxComplete port ok => exact (by simp [execPacketTxComplete, hs] : SourcesKept (execPacketTxComplete port ok s))
  case calendarSlot port => exact (by simp [execCalendarSlot, hs] : SourcesKept (execCalendarSlot port s))
  case ringSlotPoll flow ok addr blen ctrl => exact (by simp [execRingSlotPoll, hs] : SourcesKept (execRingSlotPoll flow ok addr blen ctrl s))
  case txFrameDue flow => exact (by simp [execTxFrameDue, hs] : SourcesKept (execTxFrameDue flow s))
  case txFrameSent port => exact (by simp [execTxFrameSent, hs] : SourcesKept (execTxFrameSent port s))
  case flowSample i => exact (by simp [execFlowSample, hs] : SourcesKept (execFlowSample i s))
  case macLinkDown mac => exact (by simp [execMacLinkDown, hs] : SourcesKept (execMacLinkDown mac s))
  case macLinkUp mac => exact (by simp [execMacLinkUp, hs] : SourcesKept (execMacLinkUp mac s))
  case macFrameReceived mac => exact (by simp [execMacFrameReceived, hs] : SourcesKept (execMacFrameReceived mac s))
  case pcieLinkRetrain lanes l => exact (by simp [execPcieLinkRetrain, hs] : SourcesKept (execPcieLinkRetrain lanes l s))
  case headCheckStart ch => exact sourcesKept_headCheckStart hs ch
  case seStatusPoll ch u => exact sourcesKept_seStatusPoll hs ch u
  case i3cTransactionDone bus r => exact sourcesKept_i3cTransactionDone hs bus r
  case headCheckDone ch => exact sourcesKept_headCheckDone hs ch
  case csi2FrameStart port vc ecc => exact (by simp [execCsi2FrameStart, hs] : SourcesKept (execCsi2FrameStart port vc ecc s))
  case lifeMinute ch u => exact sourcesKept_lifeMinute hs ch u
  case lifePush ch => exact sourcesKept_lifePush hs ch
  case headTempRead ch u => exact (by simp [execHeadTempRead, hs] : SourcesKept (execHeadTempRead ch u s))
  case timeLoRead f size => exact (by simp [execTimeLoRead, hs] : SourcesKept (execTimeLoRead f size s))
  case timePtmSeqRead f size => exact (by simp [execTimePtmSeqRead, hs] : SourcesKept (execTimePtmSeqRead f size s))
  case mbxReqPush f size value => exact (by simp [execMbxReqPush, hs] : SourcesKept (execMbxReqPush f size value s))
  case mbxRspPop f size => exact (by simp [execMbxRspPop, hs] : SourcesKept (execMbxRspPop f size s))
  case mbxCtrlWrite f size value => exact (by simp [execMbxCtrlWrite, hs] : SourcesKept (execMbxCtrlWrite f size value s))
  case irqAck f size => exact (by simp [execIrqAck, hs] : SourcesKept (execIrqAck f size s))
  case irqEoi f size value => exact (by simp [execIrqEoi, hs] : SourcesKept (execIrqEoi f size value s))
  case irqSrcCfgWrite f size value => exact (by simp [execIrqSrcCfgWrite, hs] : SourcesKept (execIrqSrcCfgWrite f size value s))
  case irqSrcCauseWrite f size value => exact (by simp [execIrqSrcCauseWrite, hs] : SourcesKept (execIrqSrcCauseWrite f size value s))
  case irqCtrlWrite f size value => exact (by simp [execIrqCtrlWrite, hs] : SourcesKept (execIrqCtrlWrite f size value s))
  case registerWrite f offset size value => exact (by simp [execRegisterWrite, hs] : SourcesKept (execRegisterWrite f offset size value s))
  case msixUnmask f vector => exact (by simp [execMsixUnmask, hs] : SourcesKept (execMsixUnmask f vector s))
  case requestPromotion => exact (by simp [execRequestPromotion, hs] : SourcesKept (execRequestPromotion s))
  case chunkServiceDone dmc c => exact (by simp [execChunkServiceDone, hs] : SourcesKept (execChunkServiceDone dmc c s))
  case refreshDue dmc mch => exact sourcesKept_refreshDue hs dmc mch
  case refreshIssue dmc mch => exact sourcesKept_refreshIssue hs dmc mch
  case refreshForced dmc mch => exact sourcesKept_refreshForced hs dmc mch
  case mr4Read dmc mch mult => exact sourcesKept_mr4Read hs dmc mch mult
  case patrolScrub dmc sector e => exact (by simp [execPatrolScrub, hs] : SourcesKept (execPatrolScrub dmc sector e s))
  case cycleMeterExpiry j undone => exact sourcesKept_cycleMeterExpiry hs j undone
  case seqWatchdog q x => exact (by simp [execSeqWatchdog, hs] : SourcesKept (execSeqWatchdog q x s))
  case avsFloorUpdate dom floor => exact (by simp [execAvsFloorUpdate, hs] : SourcesKept (execAvsFloorUpdate dom floor s))
  case pmbusStatusPoll rail ack status iout => exact (by simp [execPmbusStatusPoll, hs] : SourcesKept (execPmbusStatusPoll rail ack status iout s))
  case thermalSample tj => exact (by simp [execThermalSample, hs] : SourcesKept (execThermalSample tj s))
  case domainPowerUpDone dom ok => exact (by simp [execDomainPowerUpDone, hs] : SourcesKept (execDomainPowerUpDone dom ok s))
  case selfRefreshEntryDone dmc => exact (by simp [execSelfRefreshEntryDone, hs] : SourcesKept (execSelfRefreshEntryDone dmc s))
  case selfRefreshExitDone dmc => exact (by simp [execSelfRefreshExitDone, hs] : SourcesKept (execSelfRefreshExitDone dmc s))
  case ppsInPulse at_ => exact (by simp [execPpsInPulse, hs] : SourcesKept (execPpsInPulse at_ s))
  case ppsInMissing => exact sourcesKept_ppsInMissing hs
  case ppsOutPulse => exact (by simp [execPpsOutPulse, hs] : SourcesKept (execPpsOutPulse s))
  case gptpSyncTx port => exact (by simp [execGptpSyncTx, hs] : SourcesKept (execGptpSyncTx port s))
  case gptpAnnounceTx port => exact (by simp [execGptpAnnounceTx, hs] : SourcesKept (execGptpAnnounceTx port s))
  case gptpPdelayReqTx port => exact (by simp [execGptpPdelayReqTx, hs] : SourcesKept (execGptpPdelayReqTx port s))
  case gptpFrameReceived port m => exact sourcesKept_gptpFrameReceived hs port m
  case ptmDialogue => exact (by simp [execPtmDialogue, hs] : SourcesKept (execPtmDialogue s))
  case ptmDialogueDone ok root => exact (by simp [execPtmDialogueDone, hs] : SourcesKept (execPtmDialogueDone ok root s))
  case tamperAssert => exact (by simp [execTamperAssert, hs] : SourcesKept (execTamperAssert s))
  case trngHealthFail => exact (by simp [execTrngHealthFail, hs] : SourcesKept (execTrngHealthFail s))
  case trngRestartDone => exact (by simp [execTrngRestartDone, hs] : SourcesKept (execTrngRestartDone s))
  case chanStatusUpdate ch => exact (by simp [execChanStatusUpdate, hs] : SourcesKept (execChanStatusUpdate ch s))
  case flowStatusUpdate => exact (by simp [execFlowStatusUpdate, hs] : SourcesKept (execFlowStatusUpdate s))
  case conditionReassert => exact (by simp [execConditionReassert, hs] : SourcesKept (execConditionReassert s))
  case challengeExpiry f => exact sourcesKept_challengeExpiry hs f
  case functionLevelReset f => exact (by simp [execFunctionLevelReset, hs] : SourcesKept (execFunctionLevelReset f s))
  case vfEnableChange numVfs enable => exact (by simp [execVfEnableChange, hs] : SourcesKept (execVfEnableChange numVfs enable s))
  case fullReset t => exact (by simp [execFullReset, hs] : SourcesKept (execFullReset t s))
  case resetRelease straps puf => exact (by simp [execResetRelease, hs] : SourcesKept (execResetRelease straps puf s))
  case railPowerUp rail ok => exact (by simp [execRailPowerUp, hs] : SourcesKept (execRailPowerUp rail ok s))
  case dmcTrainingDone ok => exact (by simp [execDmcTrainingDone, hs] : SourcesKept (execDmcTrainingDone ok s))
  case memoryInitDone => exact (by simp [execMemoryInitDone, hs] : SourcesKept (execMemoryInitDone s))
  case bringUpReady => exact (by simp [execBringUpReady, hs] : SourcesKept (execBringUpReady s))
  case controlWatchdog => exact (by simp [execControlWatchdog, hs] : SourcesKept (execControlWatchdog s))
  case refclkInFailure => exact (by simp [execRefclkInFailure, hs] : SourcesKept (execRefclkInFailure s))
  case requestRead => exact (by simp [execRequestRead, hs] : SourcesKept (execRequestRead s))
  case dmaTransferDone f tag ok data => exact sourcesKept_dmaTransferDone hs f tag ok data
  case dmaTimeout f tag => exact sourcesKept_dmaTimeout hs f tag
  case deferredTimeout f tag => exact sourcesKept_deferredTimeout hs f tag
  case flashProgramDone ok => exact sourcesKept_flashProgramDone hs ok
  case trngBlockReady block => exact (by simp [execTrngBlockReady, hs] : SourcesKept (execTrngBlockReady block s))
  case ingressDeadline ch => exact (by simp [execIngressDeadline, hs] : SourcesKept (execIngressDeadline ch s))
  case masterTickBoundary => exact (by simp [execMasterTickBoundary, hs] : SourcesKept (execMasterTickBoundary s))
  case headChange ch => exact sourcesKept_headChange hs ch
  all_goals exact inRange_command _ _ _ hs
end

/-- An idle step lets time pass. -/
theorem idle_sourcesKept {s : State} (hs : sourcesInRange s) : SourcesKept (idle s) := by
  unfold idle
  split <;> simp [hs]

/-- What a step ends in. -/
theorem step_sourcesKept {s t : State} (hs : sourcesInRange s) (h : step s = .next t) : sourcesInRange t := by
  have kept : SourcesKept (step s) := by
    unfold step
    split
    · exact idle_sourcesKept hs
    · exact exec_sourcesKept ((inRange_update ..).mpr hs) _
  rw [h] at kept
  exact kept

/-- Settles O8: each side's counters, priorities and routes stay in range through every command and through time that passes. -/
theorem everyStepKeepsSourcesInRange : Obligations.EveryStepKeepsSourcesInRange := by
  unfold Obligations.EveryStepKeepsSourcesInRange
  exact fun _ _ => step_sourcesKept

end Sys2Proof.Machine
end

section
/-!
PROOF. The interrupt controller: full reset, events, acknowledge, end of interrupt, and the registers of a source (O3, O19 to O22).
-/
namespace Sys2Proof.Machine

/-! ### What interrupt operations leave as it was -/

/-- R131 to R150. Besides interrupt state, held messages and what has been sent, `t` is `s`. -/
def InterruptsOnly (s t : State) : Prop := t = { s with irq := t.irq, fns := t.fns, out := t.out }

theorem InterruptsOnly.trans {s t u : State} (h : InterruptsOnly s t) (h' : InterruptsOnly t u) : InterruptsOnly s u := by
  unfold InterruptsOnly at *
  rw [h', h]

theorem interruptsOnly_resignal (t : Nat) (s : State) : InterruptsOnly s (resignal t s) := by
  unfold InterruptsOnly
  rw [resignal_eq]

theorem interruptsOnly_modFn (f : Nat) (g : Fn → Fn) (s : State) : InterruptsOnly s (modFn f g s) := rfl

theorem interruptsOnly_modSrc (n : Nat) (g : Source → Source) (s : State) : InterruptsOnly s (modSrc n g s) := rfl

theorem interruptsOnly_modTgt (t : Nat) (g : Target → Target) (s : State) : InterruptsOnly s (modTgt t g s) := rfl

@[simp] theorem src_resignal (t : Nat) (s : State) : (resignal t s).irq.src = s.irq.src := by rw [resignal_eq]

@[simp] theorem fwSrc_resignal (t : Nat) (s : State) : (resignal t s).irq.fwSrc = s.irq.fwSrc := by rw [resignal_eq]

theorem InterruptsOnly.fnPresent {s t : State} (h : InterruptsOnly s t) (f : Nat) : t.fnPresent f = s.fnPresent f := by
  rw [h]
  rfl

@[simp] theorem target_sendMsix (f v t : Nat) (s : State) : (sendMsix f v s).target t = s.target t := by
  rw [sendMsix_eq]
  rfl

/-- R149. SIGNAL is beside the stack of a target. -/
@[simp] theorem stack_resignal (t k : Nat) (s : State) : ((resignal t s).target k).stack = (s.target k).stack := by
  have hsignal (b : Bool) : ((modTgt t (fun x => { x with signal := b }) s).target k).stack = (s.target k).stack := by
    show (tget (tmod s.irq.tgt (t - 1) _) (k - 1)).stack = _
    rw [tget_tmod]
    split <;> rfl
  unfold resignal
  split
  · rfl
  · simp only
    split
    · rw [target_sendMsix, hsignal]
    · exact hsignal _

@[simp] theorem src_modSrc (n : Nat) (g : Source → Source) (s : State) : (modSrc n g s).irq.src = tmod s.irq.src n g := rfl

@[simp] theorem fwSrc_modSrc (n : Nat) (g : Source → Source) (s : State) : (modSrc n g s).irq.fwSrc = s.irq.fwSrc := rfl

@[simp] theorem target_modSrc (n k : Nat) (g : Source → Source) (s : State) : (modSrc n g s).target k = s.target k := rfl

/-- Choice 9. A read of a present function completes. -/
theorem completeRead_of_present {f : Nat} {s : State} (h : s.fnPresent f = true) (v : Word) :
    completeRead f v s = modFn f (fun x => { x with readData := v }) s := if_pos h

/-! ### Full reset -/

/-- R152. The interrupt state is that of a reset, and what has been sent is beside it. -/
theorem irq_beginReset (t : ResetTrigger) (s : State) : (beginReset t s).irq = State.reset.irq := by
  obtain ⟨l, hl⟩ := beginReset_eq t s
  rw [hl]
  unfold resetState
  generalize forEach _ applyPairing s = p
  rfl

/-- Settles O3: the sources and the targets are those of a reset. -/
theorem fullResetClearsSources : Obligations.FullResetClearsSources := by
  unfold Obligations.FullResetClearsSources
  intro t s ht
  refine ⟨beginReset t s, congrArg Host.Outcome.next (if_pos ht), fun n hn => ?_, fun k hk => ?_⟩
  · rw [irq_beginReset, show tget State.reset.irq.src n = Source.reset from tget_replicate _ hn]
    exact ⟨rfl, rfl, rfl⟩
  · rw [irq_beginReset, show tget State.reset.irq.tgt k = default from tget_replicate _ hk]
    rfl

/-! ### Events (R135, R137) -/

/-- R137. The host side of a source takes its events: the source is routed to the target of a present function. -/
def routed (s : State) (n : Nat) : Bool := decide (0 < (tget s.irq.src n).route) && s.fnPresent ((tget s.irq.src n).route - 1)

/-- An event changes firmware's side alone where the source is not routed. -/
theorem raise_of_not_routed {n : Nat} {lvl : Bool} {s : State} (hpresent : sourcePresent s n = true) (hkind : sourceKind n = some lvl)
    (h : routed s n = false) (bit : Nat) : raise n bit s = modFwSrc n (Source.event lvl bit) s := by
  unfold raise
  rw [if_pos hpresent, hkind]
  exact if_neg (Bool.eq_false_iff.mp h)

theorem raise_of_routed {n : Nat} {lvl : Bool} {s : State} (hpresent : sourcePresent s n = true) (hkind : sourceKind n = some lvl)
    (h : routed s n = true) (bit : Nat) :
    raise n bit s = resignal (tget s.irq.src n).route (modSrc n (Source.event lvl bit) (modFwSrc n (Source.event lvl bit) s)) := by
  unfold raise
  rw [if_pos hpresent, hkind]
  exact if_pos h

/-- R135. The source after an event, whichever its kind. -/
theorem event_eq (bit : Nat) (lvl : Bool) (x : Source) : x.event lvl bit =
    if lvl then { x with cause := x.cause ||| BitVec.twoPow 32 bit }
    else if x.count < 255 then { x with count := x.count + 1 } else { x with sat := true } := by
  have hpow : BitVec.ofNat 32 (2 ^ bit) = BitVec.twoPow 32 bit := by
    apply BitVec.eq_of_toNat_eq
    rw [BitVec.toNat_ofNat, BitVec.toNat_twoPow]
  rw [← hpow]
  rfl

theorem lt_of_sourceKind {n : Nat} {lvl : Bool} (h : sourceKind n = some lvl) : n < 512 := by
  by_contra hn
  have hnone : sourceKind n = none := by
    unfold sourceKind
    repeat rw [if_neg (by omega)]
  rw [hnone] at h
  cases h

/-- Settles O19: firmware's side takes every event, and the host side where the source is routed. -/
theorem eventsAreCounted : Obligations.EventsAreCounted := by
  unfold Obligations.EventsAreCounted
  intro n bit lvl s hpresent hkind _
  have hn := lt_of_sourceKind hkind
  have hfw : (raise n bit s).irq.fwSrc = tmod s.irq.fwSrc n (Source.event lvl bit) := by rw [fwSrc_raise, if_pos hpresent, hkind]; rfl
  have hsrc : (raise n bit s).irq.src = if routed s n then tmod s.irq.src n (Source.event lvl bit) else s.irq.src := by
    split
    · next h => rw [raise_of_routed hpresent hkind h, src_resignal]; rfl
    · next h => rw [raise_of_not_routed hpresent hkind (Bool.eq_false_iff.mpr h)]; rfl
  refine ⟨raise_eq n bit s, fun x y h => ?_, fun h => ?_, fun m hm => ⟨?_, ?_⟩⟩
  · rw [← event_eq]
    obtain h | ⟨hrouted, h⟩ := h
    · rw [(Prod.mk.inj h).1, (Prod.mk.inj h).2, hfw, tget_tmod_same _ hn]
    · rw [(Prod.mk.inj h).1, (Prod.mk.inj h).2, hsrc, if_pos (show routed s n = true from hrouted), tget_tmod_same _ hn]
  · rw [raise_of_not_routed hpresent hkind h]
    exact ⟨rfl, rfl⟩
  · rw [hsrc]
    split
    · exact tget_tmod_ne _ hm.symm _
    · rfl
  · rw [hfw]
    exact tget_tmod_ne _ hm.symm _

/-! ### The source that is acknowledged (R144) -/

/-- R144. Of the best source so far and the next one, the better: a later one only by a lower priority number. -/
def better (s : State) (b : Option Nat) (n : Nat) : Option Nat :=
  match b with
  | none => some n
  | some m => if (tget s.irq.src n).prio < (tget s.irq.src m).prio then some n else some m

theorem bestSource_eq (s : State) (t : Nat) : bestSource s t = (idx 512 (eligible s t)).foldl (better s) none := rfl

/-- The best of a list is one of its members. -/
theorem mem_of_best {s : State} {l : List Nat} {b : Option Nat} {m : Nat} (h : l.foldl (better s) b = some m) : m ∈ l ∨ b = some m := by
  induction l generalizing b with
  | nil => exact .inr h
  | cons a r ih =>
    obtain hr | ha := ih h
    · exact .inl (List.mem_cons_of_mem _ hr)
    · cases b with
      | none => exact .inl (Option.some.inj ha ▸ List.mem_cons_self)
      | some k =>
        simp only [better] at ha
        split at ha
        · exact .inl (Option.some.inj ha ▸ List.mem_cons_self)
        · exact .inr ha

/-- No later source is better than one of which none has a lower priority number. -/
theorem best_stays {s : State} {l : List Nat} {n : Nat} (h : ∀ m ∈ l, (tget s.irq.src n).prio ≤ (tget s.irq.src m).prio) :
    l.foldl (better s) (some n) = some n := by
  induction l with
  | nil => rfl
  | cons a r ih =>
    obtain ⟨ha, hr⟩ := List.forall_mem_cons.mp h
    rw [List.foldl_cons, show better s (some n) a = some n from if_neg (Nat.not_lt.mpr ha)]
    exact ih hr

/-- R144. The eligible source of lowest priority number, then of lowest number, is the best. -/
theorem bestSource_of_least {s : State} {t n : Nat} (hn : n < 512) (helig : eligible s t n = true)
    (hleast : ∀ m, m < 512 → eligible s t m = true → (tget s.irq.src n).prio < (tget s.irq.src m).prio
      ∨ (tget s.irq.src n).prio = (tget s.irq.src m).prio ∧ n ≤ m) : bestSource s t = some n := by
  obtain ⟨before, after, hl⟩ := List.append_of_mem (mem_idx.mpr ⟨hn, helig⟩)
  have hsorted : (before ++ n :: after).Pairwise (· < ·) := hl ▸ List.pairwise_lt_range.filter _
  have hless {m : Nat} (hm : m ∈ before ++ n :: after) := hleast m (mem_idx.mp (hl ▸ hm)).1 (mem_idx.mp (hl ▸ hm)).2
  have htaken : better s (before.foldl (better s) none) n = some n := by
    cases hb : before.foldl (better s) none with
    | none => rfl
    | some m =>
      obtain hm | hm := mem_of_best hb
      · have hlt : m < n := (List.pairwise_append.mp hsorted).2.2 m hm n List.mem_cons_self
        have := hless (List.mem_append_left _ hm)
        exact if_pos (by omega)
      · cases hm
  rw [bestSource_eq, hl, List.foldl_append, List.foldl_cons, htaken]
  refine best_stays fun m hm => ?_
  have := hless (List.mem_append_right _ (List.mem_cons_of_mem _ hm))
  omega

theorem bestSource_of_none {s : State} {t : Nat} (h : ∀ n, n < 512 → eligible s t n = false) : bestSource s t = none := by
  rw [bestSource_eq, show idx 512 (eligible s t) = [] from List.filter_eq_nil_iff.mpr fun n hn => by
    simp [h n (List.mem_range.mp hn)]]
  rfl

/-! ### Acknowledge (R144) -/

/-- R144. A source that is acknowledged: a level source is in service, and a count is taken. -/
def Source.acknowledged (lvl : Bool) (x : Source) : Source := if lvl then { x with insvc := true } else { x with count := 0, sat := false }

/-- R144. With no source eligible the read returns 0. -/
theorem acknowledge_of_none {f : Nat} {s : State} (hpresent : s.fnPresent f = true) (h : bestSource s (f + 1) = none) :
    acknowledge f s = modFn f (fun x => { x with readData := 0 }) s := by
  unfold acknowledge
  rw [h]
  exact completeRead_of_present hpresent 0

/-- R144. Source `n` is pushed at the target of function `f` with its priority, and taken. -/
def takeSource (f n : Nat) (lvl : Bool) (s : State) : State :=
  modSrc n (Source.acknowledged lvl) (modTgt (f + 1) (fun t => { t with stack := (n, (tget s.irq.src n).prio) :: t.stack }) s)

theorem interruptsOnly_takeSource (f n : Nat) (lvl : Bool) (s : State) : InterruptsOnly s (takeSource f n lvl s) :=
  (interruptsOnly_modTgt ..).trans (interruptsOnly_modSrc ..)

theorem src_takeSource (f n : Nat) (lvl : Bool) (s : State) :
    (takeSource f n lvl s).irq.src = tmod s.irq.src n (Source.acknowledged lvl) := rfl

theorem stack_takeSource {f : Nat} (hf : f < 16) (n : Nat) (lvl : Bool) (s : State) :
    ((takeSource f n lvl s).target (f + 1)).stack = (n, (tget s.irq.src n).prio) :: (s.target (f + 1)).stack := by
  rw [takeSource, target_modSrc, target_modTgt_same hf]

/-- R144. The best source is taken; then SIGNAL is as it stands, and the read returns. -/
theorem acknowledge_of_best {f n : Nat} {lvl : Bool} {s : State} (hpresent : s.fnPresent f = true) (h : bestSource s (f + 1) = some n)
    (hkind : sourceKind n = some lvl) :
    acknowledge f s = modFn f (fun x => { x with readData := ackWord s n }) (resignal (f + 1) (takeSource f n lvl s)) := by
  have hread : acknowledge f s = completeRead f (ackWord s n) (resignal (f + 1) (takeSource f n lvl s)) := by
    unfold acknowledge
    rw [h]
    simp only [hkind]
    rfl
  rw [hread]
  refine completeRead_of_present ?_ _
  rw [((interruptsOnly_takeSource ..).trans (interruptsOnly_resignal ..)).fnPresent f]
  exact hpresent

/-- R141, R144. The word that an acknowledge returns. -/
theorem ackWord_eq {n : Nat} {lvl : Bool} (hkind : sourceKind n = some lvl) (s : State) :
    ackWord s n = BitVec.ofNat 32 (n + 2 ^ 15 + 2 ^ 16 * (if lvl then 0 else (tget s.irq.src n).count)
      + 2 ^ 24 * (tget s.irq.src n).prio + 2 ^ 28 * (if !lvl && (tget s.irq.src n).sat then 1 else 0) + 2 ^ 29 * (if lvl then 1 else 0)) := by
  cases lvl <;> simp [ackWord, hkind, wOf, b2n]

/-- Settles O20: the least source is the best one, and an acknowledge takes it. -/
theorem acknowledgeTakesTheBestSource : Obligations.AcknowledgeTakesTheBestSource := by
  unfold Obligations.AcknowledgeTakesTheBestSource
  intro f s hpresent
  have hf := lt_of_fnPresent hpresent
  have hexec : exec (.irqAck f 4) s = .next (acknowledge f s) := congrArg Host.Outcome.next (if_pos (goodAccess_of_present hpresent rfl))
  refine ⟨fun hnone => ?_, fun n lvl hn helig hkind hleast => ?_⟩
  · rw [hexec, acknowledge_of_none hpresent (bestSource_of_none hnone)]
  · rw [hexec, acknowledge_of_best hpresent (bestSource_of_least hn helig hleast) hkind]
    refine ⟨_, rfl, ?_, ?_, ?_, fun m hm => ?_, ?_, ?_⟩
    · exact ((interruptsOnly_takeSource ..).trans (interruptsOnly_resignal ..)).trans (interruptsOnly_modFn ..)
    · rw [target_modFn, stack_resignal, stack_takeSource hf]
    · rw [irq_modFn, src_resignal, src_takeSource, tget_tmod_same _ hn]
      rfl
    · rw [irq_modFn, src_resignal, src_takeSource, tget_tmod_ne _ hm.symm]
    · rw [irq_modFn, fwSrc_resignal]
      rfl
    · rw [fn_modFn_same _ hf]
      exact ackWord_eq hkind s

/-! ### End of interrupt (R145, R146, R150) -/

/-- R145, R150. The stack of the target of function `f` is `rest`, and a source that is still routed there leaves service. -/
def popSource (f n : Nat) (rest : List (Nat × Nat)) (s : State) : State :=
  when ((tget s.irq.src n).route == f + 1) (modSrc n fun x => { x with insvc := false }) (modTgt (f + 1) (fun t => { t with stack := rest }) s)

theorem endOfInterrupt_of_stack {f n p : Nat} {rest : List (Nat × Nat)} {s : State} (h : (s.target (f + 1)).stack = (n, p) :: rest) :
    endOfInterrupt f s = resignal (f + 1) (popSource f n rest s) := by
  unfold endOfInterrupt
  rw [h]
  rfl

section
variable (f n : Nat) (rest : List (Nat × Nat)) (s : State)

theorem interruptsOnly_popSource : InterruptsOnly s (popSource f n rest s) := by
  unfold popSource when
  split
  · exact (interruptsOnly_modTgt ..).trans (interruptsOnly_modSrc ..)
  · exact interruptsOnly_modTgt ..

theorem src_popSource : (popSource f n rest s).irq.src =
    if (tget s.irq.src n).route = f + 1 then tmod s.irq.src n (fun x => { x with insvc := false }) else s.irq.src := by
  simp only [popSource, when, beq_iff_eq]
  split <;> rfl

theorem fwSrc_popSource : (popSource f n rest s).irq.fwSrc = s.irq.fwSrc := by
  unfold popSource when
  split <;> rfl

theorem stack_popSource (hf : f < 16) : ((popSource f n rest s).target (f + 1)).stack = rest := by
  unfold popSource when
  split
  · rw [target_modSrc, target_modTgt_same hf]
  · rw [target_modTgt_same hf]
end

/-- Settles O21: the top entry leaves the stack, and its source leaves service. -/
theorem endOfInterruptPops : Obligations.EndOfInterruptPops := by
  unfold Obligations.EndOfInterruptPops
  intro f v s hpresent hv
  have hexec : exec (.irqEoi f 4 v) s = .next (endOfInterrupt f s) :=
    congrArg Host.Outcome.next (if_pos (by rw [goodAccess_of_present hpresent rfl, hv]; rfl))
  refine ⟨fun hempty => by rw [hexec, endOfInterrupt, hempty], fun n p rest hn hstack => ?_⟩
  rw [hexec, endOfInterrupt_of_stack hstack]
  refine ⟨_, rfl, ?_, ?_, fun hroute => ?_, fun hroute => ?_, fun m hm => ?_, ?_⟩
  · exact (interruptsOnly_popSource ..).trans (interruptsOnly_resignal ..)
  · rw [stack_resignal, stack_popSource _ _ _ _ (lt_of_fnPresent hpresent)]
  · rw [src_resignal, src_popSource, if_pos hroute, tget_tmod_same _ hn]
  · rw [src_resignal, src_popSource, if_neg hroute]
  · rw [src_resignal, src_popSource]
    split
    · exact tget_tmod_ne _ hm.symm _
    · rfl
  · rw [fwSrc_resignal, fwSrc_popSource]

/-! ### The registers of a source (R138, R139, R142, R150) -/

theorem interruptsOnly_reroute (n r : Nat) (s : State) : InterruptsOnly s (reroute n r s) := by
  unfold reroute
  simp only
  split
  · rfl
  · exact ((interruptsOnly_modSrc ..).trans (interruptsOnly_resignal ..)).trans (interruptsOnly_resignal ..)

/-- R150. A source that moves to another target is cleared. -/
theorem src_reroute (n r : Nat) (s : State) : (reroute n r s).irq.src =
    if (tget s.irq.src n).route = r then s.irq.src else tmod s.irq.src n (fun x => { x.cleared with route := r }) := by
  unfold reroute
  simp only
  split
  · rfl
  · rw [src_resignal, src_resignal]
    rfl

theorem fwSrc_reroute (n r : Nat) (s : State) : (reroute n r s).irq.fwSrc = s.irq.fwSrc := by
  unfold reroute
  simp only
  split
  · rfl
  · rw [fwSrc_resignal, fwSrc_resignal]
    rfl

/-- R142. A source takes PRIO and EN of the word `v`. -/
def Source.configured (v : Word) (x : Source) : Source := { x with prio := bitsOf v.toNat 3 0, en := v.getLsbD 4 }

theorem configured_eq (v : Word) (x : Source) : x.configured v = { x with prio := v.toNat % 16, en := v.getLsbD 4 } := by
  simp [Source.configured, bitsOf]

section
variable {f n : Nat} {v : Word} {s : State} (hsel : (s.target (f + 1)).srcSel = n) (hstat : srcStat s f n = 0)
include hsel hstat

/-- R142. A virtual function writes PRIO and EN alone, and so does the physical one of the source of a flow. -/
theorem writeSrcCfg_keeps_route (h : f ≠ 0 ∨ 256 ≤ n) :
    writeSrcCfg f v s = resignal (tget (modSrc n (.configured v) s).irq.src n).route (modSrc n (.configured v) s) := by
  have hkeep : (f != 0 || decide (256 ≤ n)) = true := by simpa using h
  unfold writeSrcCfg
  simp only [hsel, hstat, hkeep, ne_eq, not_true_eq_false, if_false, if_true, Bool.not_true, Bool.false_and, Bool.false_eq_true]
  rfl

/-- R142. A route above 16 is not taken, and nothing with it. -/
theorem writeSrcCfg_no_target (h : ¬(f ≠ 0 ∨ 256 ≤ n)) (hroute : 16 < bitsOf v.toNat 12 8) : writeSrcCfg f v s = s := by
  have hkeep : (f != 0 || decide (256 ≤ n)) = false := by simpa using h
  unfold writeSrcCfg
  simp only [hsel, hstat, hkeep, hroute, ne_eq, not_true_eq_false, if_false, if_true, Bool.not_false, decide_true, Bool.and_self]

/-- R142, R150. The physical function moves a source below 256. -/
theorem writeSrcCfg_moves (h : ¬(f ≠ 0 ∨ 256 ≤ n)) (hroute : ¬16 < bitsOf v.toNat 12 8) :
    writeSrcCfg f v s = resignal (tget (reroute n (bitsOf v.toNat 12 8) (modSrc n (.configured v) s)).irq.src n).route
      (reroute n (bitsOf v.toNat 12 8) (modSrc n (.configured v) s)) := by
  have hkeep : (f != 0 || decide (256 ≤ n)) = false := by simpa using h
  unfold writeSrcCfg
  simp only [hsel, hstat, hkeep, hroute, ne_eq, not_true_eq_false, if_false, Bool.not_false, decide_false, Bool.and_false, Bool.false_eq_true]
  rfl

/-- R139, R142. IRQ_SRC_CAUSE clears bits of a level source that is routed to the function's own target. -/
theorem writeSrcCause_of_level (hkind : sourceKind n = some true) (hroute : (tget s.irq.src n).route = f + 1) :
    writeSrcCause f v s = resignal (f + 1) (modSrc n (fun x => { x with cause := x.cause &&& ~~~v }) s) := by
  unfold writeSrcCause
  simp only [hsel, hstat, hkind, hroute, Option.getD_some, BEq.rfl, decide_true, Bool.and_self, if_true]
end

/-- R142, R150. What a move does to the source, its PRIO and EN written before. -/
theorem src_moved {n : Nat} (hn : n < 512) (r : Nat) (v : Word) (s : State) :
    tget (reroute n r (modSrc n (.configured v) s)).irq.src n =
      if r = (tget s.irq.src n).route then { tget s.irq.src n with prio := v.toNat % 16, en := v.getLsbD 4 }
      else { route := r, prio := v.toNat % 16, en := v.getLsbD 4, count := 0, sat := false, cause := 0, insvc := false } := by
  have hset : tget (tmod s.irq.src n (.configured v)) n = { tget s.irq.src n with prio := v.toNat % 16, en := v.getLsbD 4 } := by
    rw [tget_tmod_same _ hn, configured_eq]
  rw [src_reroute, src_modSrc, hset]
  by_cases h : r = (tget s.irq.src n).route
  · rw [if_pos h, if_pos h.symm, hset]
  · rw [if_neg h, if_neg (Ne.symm h), tget_tmod_same _ hn, hset]
    rfl

/-- R142, R150. A write of IRQ_SRC_CFG leaves every other source as it was. -/
theorem src_moved_other {n m : Nat} (hm : m ≠ n) (r : Nat) (v : Word) (s : State) :
    tget (reroute n r (modSrc n (.configured v) s)).irq.src m = tget s.irq.src m := by
  rw [src_reroute, src_modSrc]
  split
  · exact tget_tmod_ne _ hm.symm _
  · rw [tget_tmod_ne _ hm.symm, tget_tmod_ne _ hm.symm]

/-- Settles O22: IRQ_SRC_CFG keeps the route, takes nothing, or moves the source; IRQ_SRC_CAUSE clears the bits written 1. -/
theorem sourceRegisterWrites : Obligations.SourceRegisterWrites := by
  unfold Obligations.SourceRegisterWrites
  intro f v s hpresent hn hstat
  have hexec : exec (.irqSrcCfgWrite f 4 v) s = .next (writeSrcCfg f v s) :=
    congrArg Host.Outcome.next (if_pos (goodAccess_of_present hpresent rfl))
  have hcause : exec (.irqSrcCauseWrite f 4 v) s = .next (writeSrcCause f v s) :=
    congrArg Host.Outcome.next (if_pos (goodAccess_of_present hpresent rfl))
  have hbits : v.toNat / 256 % 32 = bitsOf v.toNat 12 8 := rfl
  generalize hsel : (s.target (f + 1)).srcSel = n at hn hstat ⊢
  refine ⟨⟨_, hexec, ?_⟩, fun hkind hroute => ⟨_, hcause, ?_⟩⟩
  · simp only [hbits]
    by_cases hkeep : f ≠ 0 ∨ 256 ≤ n
    · rw [if_pos hkeep, writeSrcCfg_keeps_route hsel hstat hkeep]
      refine ⟨(interruptsOnly_modSrc ..).trans (interruptsOnly_resignal ..), fun m hm => ?_, ?_, ?_⟩
      · rw [src_resignal, src_modSrc, tget_tmod_ne _ hm.symm]
      · rw [fwSrc_resignal, fwSrc_modSrc]
      · rw [src_resignal, src_modSrc, tget_tmod_same _ hn, configured_eq]
    · rw [if_neg hkeep]
      by_cases hroute : 16 < bitsOf v.toNat 12 8
      · rw [if_pos hroute, writeSrcCfg_no_target hsel hstat hkeep hroute]
        exact ⟨rfl, fun _ _ => rfl, rfl, rfl⟩
      · rw [if_neg hroute, writeSrcCfg_moves hsel hstat hkeep hroute]
        refine ⟨((interruptsOnly_modSrc ..).trans (interruptsOnly_reroute ..)).trans (interruptsOnly_resignal ..), fun m hm => ?_, ?_, ?_⟩
        · rw [src_resignal, src_moved_other hm]
        · rw [fwSrc_resignal, fwSrc_reroute, fwSrc_modSrc]
        · rw [src_resignal, src_moved hn]
  · rw [writeSrcCause_of_level hsel hstat hkind hroute]
    refine ⟨(interruptsOnly_modSrc ..).trans (interruptsOnly_resignal ..), ?_, fun m hm => ?_, ?_⟩
    · rw [src_resignal, src_modSrc, tget_tmod_same _ hn]
    · rw [src_resignal, src_modSrc, tget_tmod_ne _ hm.symm]
    · rw [fwSrc_resignal, fwSrc_modSrc]

end Sys2Proof.Machine
end

section
/-!
PROOF. Image lines of the frame that packets belong to (O31).
-/
namespace Sys2Proof.Machine

/-! ### The open frame (R160, R167) -/

theorem boundChan_lt {s : State} {p vc c : Nat} (h : boundChan s p vc = some c) : c < 32 := by
  unfold boundChan at h
  split at h
  · next d hd =>
    cases h
    exact mem_idx_lt (List.mem_of_mem_head? hd)
  · exact mem_idx_lt (List.mem_of_mem_head? h)

/-- R160, R161. A packet that belongs to a frame belongs to the one opened last, whose binding is its pair. -/
theorem packetFate_frame {s : State} {c p vc : Nat} {f : Frame} {b : Bind} (h : packetFate s c p vc = .frame f b) :
    openFrame (s.chan c) = some f ∧ b.port = p := by
  unfold packetFate at h
  simp only at h
  split at h
  · cases h
  · split at h
    · cases h
    · split at h
      · next g hg =>
        split at h
        · split at h
          · next hb =>
            cases h
            exact ⟨hg, hb.1⟩
          · cases h
        · cases h
      · cases h

/-- A change of frames that leaves which frame is open, and its counter. -/
def KeepsOpen (g : Frame → Frame) : Prop := ∀ f, (g f).counter = f.counter ∧ (g f).opened = f.opened ∧ (g f).boundary = f.boundary

theorem openFrame_map {g : Frame → Frame} (hg : KeepsOpen g) (x : Chan) :
    openFrame { x with frames := x.frames.map g } = (openFrame x).map g := by
  have hsame : ((fun f => f.opened && ofRun { x with frames := x.frames.map g } f) ∘ g) = fun f => f.opened && ofRun x f := by
    funext f
    obtain ⟨-, hopened, hboundary⟩ := hg f
    simp only [Function.comp_apply, hopened, ofRun, hboundary]
  unfold openFrame
  rw [List.filter_map, hsame, List.getLast?_map]

/-- Changing the open frame by its counter makes the changed frame the open one. -/
theorem openFrame_modFrame {c : Nat} (hc : c < 32) {f : Frame} {g : Frame → Frame} {s : State} (hg : KeepsOpen g)
    (hf : openFrame (s.chan c) = some f) : openFrame ((modFrame c f.counter g s).chan c) = some (g f) := by
  have hkeeps : KeepsOpen fun y => if y.counter = f.counter then g y else y := fun y => by
    simp only
    split
    · exact hg y
    · exact ⟨rfl, rfl, rfl⟩
  rw [modFrame, chan_modChan_same s hc, openFrame_map hkeeps, hf, Option.map_some, if_pos rfl]

theorem chan_modFrame_ne {c d : Nat} (h : d ≠ c) (k : Nat) (g : Frame → Frame) (s : State) : (modFrame c k g s).chan d = s.chan d :=
  chan_modChan_ne s h.symm _

/-! ### Lines and replacements (R168, R169) -/

theorem fillLines_eq (b : Bind) (n : Nat) (f : Frame) :
    fillLines b n f = { f with lines := f.lines ++ List.replicate n (replacement f b), bad := f.bad + n } := by
  induction n generalizing f with
  | zero => simp [fillLines]
  | succ n ih =>
    rw [fillLines, ih, List.replicate_succ]
    simp [replacement, Nat.add_assoc, Nat.add_comm 1 n]

/-- R169. A Frame End fills the missing positions of its frame. -/
theorem keepsOpen_ended (b : Bind) : KeepsOpen fun g => { fillLines b (b.height - g.lines.length) g with ended := true } := fun f => by
  simp only [fillLines_eq, and_self]

/-- R168, R169. A line that is stored, after the replacements of those skipped before it. -/
theorem storeLine_spec (b : Bind) (good : Bool) (num : Nat) (data : List Byte) (f : Frame) :
    let g := storeLine b good num data f
    g.lines = f.lines ++ List.replicate (num - 1 - f.lines.length) (replacement f b) ++ [if good then data else replacement f b] ∧
    g.bad = f.bad + (num - 1 - f.lines.length) + (if good then 0 else 1) ∧ g.ovfLine = f.ovfLine := by
  unfold storeLine
  rw [fillLines_eq]
  cases good <;> exact ⟨rfl, rfl, rfl⟩

/-- R166, R169. A line whose entries find no room, after the same replacements. -/
theorem cutAt_spec (b : Bind) (num : Nat) (f : Frame) :
    let g := cutAt b num f
    g.lines = f.lines ++ List.replicate (num - 1 - f.lines.length) (replacement f b) ∧ g.bad = f.bad + (num - 1 - f.lines.length) ∧
    g.ovfLine = some (max (num - 1) f.lines.length) := by
  unfold cutAt
  rw [fillLines_eq]
  exact ⟨rfl, rfl, rfl⟩

theorem keepsOpen_storeLine (b : Bind) (good : Bool) (num : Nat) (data : List Byte) : KeepsOpen (storeLine b good num data) := fun f => by
  unfold storeLine
  rw [fillLines_eq]
  cases good <;> exact ⟨rfl, rfl, rfl⟩

theorem keepsOpen_cutAt (b : Bind) (num : Nat) : KeepsOpen (cutAt b num) := fun f => by
  unfold cutAt
  rw [fillLines_eq]
  exact ⟨rfl, rfl, rfl⟩

/-! ### The line FIFO (R163 to R166) -/

/-- R165. A frame that sees the level `lvl` of port `p`. -/
def Frame.seeing (p lvl : Nat) (f : Frame) : Frame :=
  if f.opened && f.cfg.bind.any (fun b => b.port == p) then { f with hwm := max f.hwm lvl } else f

theorem seeing_eq (p lvl : Nat) (f : Frame) : f.seeing p lvl = { f with hwm := (f.seeing p lvl).hwm } := by
  unfold Frame.seeing
  split <;> rfl

theorem seeLevel_eq (p lvl : Nat) (x : Chan) : seeLevel p lvl x = { x with frames := x.frames.map (Frame.seeing p lvl) } := rfl

theorem keepsOpen_seeing (p lvl : Nat) : KeepsOpen (Frame.seeing p lvl) := fun f => by
  rw [seeing_eq]
  exact ⟨rfl, rfl, rfl⟩

theorem openFrame_seeLevel (p lvl : Nat) (x : Chan) : openFrame (seeLevel p lvl x) = (openFrame x).map (Frame.seeing p lvl) :=
  openFrame_map (keepsOpen_seeing p lvl) x

/-- The channels that no part has see no level. -/
theorem tget_map_seeLevel (v : Vector Chan 32) (p lvl d : Nat) : tget (v.map (seeLevel p lvl)) d = seeLevel p lvl (tget v d) := by
  by_cases hd : d < 32
  · exact tget_map v _ hd
  · rw [tget_beyond _ (Nat.le_of_not_lt hd), tget_beyond _ (Nat.le_of_not_lt hd)]
    rfl

/-- R165, R166. The entries of a long packet find no room in the FIFO of port `p`. -/
def findsFull (s : State) (p wc : Nat) : Bool :=
  decide (1024 - (seeDrained s.time.elapsed s.fresh (s.rxPort p)).level < cdiv wc 32)

/-- R163, R165. The level that a long packet leaves in the FIFO of port `p`. -/
def levelAfter (s : State) (p wc : Nat) : Nat :=
  if findsFull s p wc then 1024 else (seeDrained s.time.elapsed s.fresh (s.rxPort p)).level + cdiv wc 32

theorem fifo_seeDrained (now fresh : Nat) (x : RxPort) : (seeDrained now fresh x).fifo = x.fifo := by
  unfold seeDrained
  split <;> rfl

theorem throughFifo_full (c p dt wc : Nat) (kept : Bool) (s : State) : (throughFifo c p dt wc kept s).1 = findsFull s p wc := rfl

theorem throughFifo_frame (c p dt wc : Nat) (kept : Bool) (s : State) : (throughFifo c p dt wc kept s).2 =
    { s with chans := (throughFifo c p dt wc kept s).2.chans, rx := (throughFifo c p dt wc kept s).2.rx, fresh := s.fresh + 1 } := rfl

theorem chan_throughFifo (c p dt wc d : Nat) (kept : Bool) (s : State) :
    (throughFifo c p dt wc kept s).2.chan d = seeLevel p (levelAfter s p wc) (s.chan d) := by
  refine (tget_map_seeLevel s.chans p _ d).trans ?_
  rw [levelAfter, ← throughFifo_full c p dt wc kept s]
  rfl

theorem rxPort_throughFifo_ne {p n : Nat} (h : n ≠ p) (c dt wc : Nat) (kept : Bool) (s : State) :
    (throughFifo c p dt wc kept s).2.rxPort n = s.rxPort n := rxPort_modRx_ne _ h.symm _

/-- R163. A packet that finds room has all its entries in the FIFO. -/
theorem fifo_throughFifo {p wc : Nat} {s : State} (hp : p < 16) (hroom : findsFull s p wc = false) (c dt : Nat) :
    ((throughFifo c p dt wc true s).2.rxPort p).fifo = dropOldest ((s.rxPort p).fifo ++ [⟨c, cdiv wc 32, chunkEntries dt, false⟩]) := by
  have hroom' := of_decide_eq_false hroom
  have hport : (throughFifo c p dt wc true s).2.rxPort p =
      (fifoWrite s.time.elapsed c dt (cdiv wc 32) true (seeDrained s.time.elapsed s.fresh (s.rxPort p))).1 := rxPort_modRx_same _ hp _
  rw [hport, fifoWrite]
  simp only [Bool.not_true, Bool.false_or, hroom', decide_false]
  rw [fifo_seeDrained, Nat.min_eq_left (Nat.le_of_not_lt hroom')]

/-- R166. A kept packet of the open frame `f`: stored where it finds room, and else the frame is cut. -/
theorem keepPacket_spec {c p wc : Nat} (hc : c < 32) (hp : p < 16) {f : Frame} {s : State} (hf : openFrame (s.chan c) = some f)
    {store cut : Frame → Frame} (hstore : KeepsOpen store) (hcut : KeepsOpen cut) (dt : Nat) :
    let t := keepPacket c p dt wc f.counter store cut s
    t = { s with chans := t.chans, rx := t.rx, fresh := t.fresh } ∧
    (∀ d, d ≠ c → t.chan d = seeLevel p (levelAfter s p wc) (s.chan d)) ∧ (∀ n, n ≠ p → t.rxPort n = s.rxPort n) ∧
    (t.chan c = { s.chan c with frames := (t.chan c).frames }) ∧
    (∃ h g, openFrame (t.chan c) = some g ∧ g.counter = f.counter ∧ (findsFull s p wc = false → g = store { f with hwm := h }) ∧
      (findsFull s p wc = true → g = cut { f with hwm := h })) ∧
    (findsFull s p wc = false → (t.rxPort p).fifo = dropOldest ((s.rxPort p).fifo ++ [⟨c, cdiv wc 32, chunkEntries dt, false⟩])) := by
  intro t
  have ht : t = modFrame c f.counter (if findsFull s p wc then cut else store) (throughFifo c p dt wc true s).2 := rfl
  have hown := chan_throughFifo c p dt wc c true s
  have hkeeps : KeepsOpen (if findsFull s p wc then cut else store) := by
    split
    · exact hcut
    · exact hstore
  have hseen : openFrame ((throughFifo c p dt wc true s).2.chan c) = some (f.seeing p (levelAfter s p wc)) := by
    rw [hown, openFrame_seeLevel, hf, Option.map_some]
  have hcounter : (f.seeing p (levelAfter s p wc)).counter = f.counter := by rw [seeing_eq]
  have hopen := openFrame_modFrame hc hkeeps hseen
  rw [hcounter, ← ht, seeing_eq] at hopen
  obtain ⟨hsame, -⟩ := hkeeps { f with hwm := (f.seeing p (levelAfter s p wc)).hwm }
  refine ⟨rfl, fun d hd => ?_, fun n hn => rxPort_throughFifo_ne hn c dt wc true s, ?_,
    ⟨_, _, hopen, hsame, fun h => by rw [h]; rfl, fun h => by rw [h]; rfl⟩, fun hroom => fifo_throughFifo hp hroom c dt⟩
  · rw [ht, chan_modFrame_ne hd, chan_throughFifo]
  · rw [ht, modFrame, chan_modChan_same _ hc, hown]
    rfl

/-! ### Packets of the frame -/

section
variable {p vc c : Nat} {b : Bind} {f : Frame} {s : State} (hp : p < 16) (hvc : vc < 16) (hset : (s.rxPort p).set = true)
  (hchan : boundChan s p vc = some c) (hfate : packetFate s c p vc = .frame f b) (hrefuses : f.refuses = false) (hended : f.ended = false)
include hp hvc

theorem noPort_of_lt : noPort p vc = false := by
  simp [noPort, hp, hvc]

include hset hchan hfate

theorem exec_longPacket (dt wc : Nat) (crcOk : Bool) (data : List Byte) :
    exec (.csi2LongPacket p vc dt wc crcOk .good data) s = .next (longPacket c p dt wc crcOk data f b s) := by
  show execCsi2LongPacket p vc dt wc crcOk .good data s = _
  simp [execCsi2LongPacket, noPort_of_lt hp hvc, takeHeader, hset, takeLong, hchan, hfate]

theorem exec_lineStart (n : Nat) : exec (.csi2LineStart p vc n .good) s =
    .next (if b.lnum && !f.refuses && !f.ended then modFrame c f.counter (fun g => { g with lineStart := some n }) s else s) := by
  show execCsi2LineStart p vc n .good s = _
  simp [execCsi2LineStart, noPort_of_lt hp hvc, onPacket, takeHeader, hset, hchan, onFrame, hfate]

theorem exec_frameEnd : exec (.csi2FrameEnd p vc .good) s = .next (frameEnd c f b s) := by
  show execCsi2FrameEnd p vc .good s = _
  simp [execCsi2FrameEnd, noPort_of_lt hp hvc, onPacket, takeHeader, hset, hchan, onFrame, hfate]
end

/-- R168. What a long packet counts on its channel before its line is taken. -/
def Chan.counted (crcOk right : Bool) (x : Chan) : Chan :=
  { x with crcErr := satAdd 0xFFFFFFFF x.crcErr (b2n (!crcOk)), wcErr := satAdd 0xFFFFFFFF x.wcErr (b2n (!right)) }

/-- R168, R169. The number of the next line of a frame. -/
def Frame.nextNum (b : Bind) (f : Frame) : Nat := if b.lnum then f.lineStart.getD 0 else f.lines.length + 1

/-- R168. An image line of a frame that takes it goes through the FIFO at its position. -/
theorem longPacket_image {c p wc : Nat} {crcOk : Bool} {data : List Byte} {f : Frame} {b : Bind} {s : State} (hport : b.port = p)
    (hrefuses : f.refuses = false) (hended : f.ended = false) (hplain : b.lnum = false → f.lines.length < b.height)
    (hlnum : b.lnum = true → 0 < f.nextNum b ∧ f.lastNum < f.nextNum b ∧ f.nextNum b ≤ b.height) :
    longPacket c p b.dt wc crcOk data f b s = keepPacket c p b.dt wc f.counter
      (storeLine b (crcOk && wc == lineBytes b.dt b.width) (f.nextNum b) data) (cutAt b (f.nextNum b))
      (modChan c (Chan.counted crcOk (wc == lineBytes b.dt b.width)) s) := by
  have hextra : extraLine b f = false := by
    cases hl : b.lnum with
    | false => simp [extraLine, hended, hl, hplain hl]
    | true => simp [extraLine, hended, hl]
  have hnum : (b.lnum && (f.nextNum b == 0 || f.nextNum b ≤ f.lastNum || b.height < f.nextNum b)) = false := by
    cases hl : b.lnum with
    | false => rfl
    | true =>
      obtain ⟨hpos, hlast, hheight⟩ := hlnum hl
      simp; omega
  unfold longPacket
  simp only [hrefuses, hextra, Bool.false_eq_true, if_false, if_true]
  unfold imageLine
  simp only [modChan_modChan_fuse]
  rw [← Frame.nextNum, hnum, if_neg Bool.false_ne_true, hport]
  rfl

/-- Settles O31: a line goes through the FIFO and is stored or cuts the frame; a Line Start and a Frame End change the open frame alone. -/
theorem linesAreStored : Obligations.LinesAreStored := by
  unfold Obligations.LinesAreStored
  intro p vc c b f s hp hvc hset hchan hfate hrefuses hended
  have hc := boundChan_lt hchan
  obtain ⟨hopen, hport⟩ := packetFate_frame hfate
  have hovf : f.ovfLine = none := by
    simp only [Frame.refuses, Bool.or_eq_false_iff, Option.isSome_eq_false_iff, Option.isNone_iff_eq_none] at hrefuses
    exact hrefuses.1.1
  refine ⟨fun wc crcOk data hplain hlnum => ?_, fun n hl => ?_, ?_⟩
  · have hline := longPacket_image (c := c) (wc := wc) (crcOk := crcOk) (data := data) (s := s) hport hrefuses hended hplain hlnum
    have hopen' : openFrame ((modChan c (Chan.counted crcOk (wc == lineBytes b.dt b.width)) s).chan c) = some f := by
      rw [chan_modChan_same s hc]
      exact hopen
    obtain ⟨hframe, hother, hports, hown, ⟨h, g, hg, hcounter, hstored, hcut⟩, hfifo⟩ := keepPacket_spec (wc := wc) hc hp hopen'
      (keepsOpen_storeLine b (crcOk && wc == lineBytes b.dt b.width) (f.nextNum b) data) (keepsOpen_cutAt b (f.nextNum b)) b.dt
    rw [← hline] at hframe hother hports hown hg hfifo
    rw [chan_modChan_same s hc] at hown
    refine ⟨_, g, exec_longPacket hp hvc hset hchan hfate b.dt wc crcOk data, hframe, fun d hd => ?_, hports, hg, hcounter, ?_, ?_,
      fun hroom => ?_, fun hfull => ?_⟩
    · exact (hother d hd).trans (congrArg _ (chan_modChan_ne s hd.symm _))
    · rw [hown]
      cases crcOk <;> rfl
    · rw [hown]
      show min _ (_ + b2n (!(wc == lineBytes b.dt b.width))) = _
      by_cases hwc : wc = lineBytes b.dt b.width <;> simp [hwc, b2n]
    · obtain ⟨hlines, hbad, hnone⟩ := storeLine_spec b (crcOk && wc == lineBytes b.dt b.width) (f.nextNum b) data { f with hwm := h }
      rw [hstored hroom]
      exact ⟨hlines, hbad, hnone.trans hovf, hfifo hroom⟩
    · obtain ⟨hlines, hbad, hline⟩ := cutAt_spec b (f.nextNum b) { f with hwm := h }
      rw [hcut hfull]
      exact ⟨hlines, hbad, hline⟩
  · refine ⟨_, (exec_lineStart hp hvc hset hchan hfate n).trans (congrArg _ (if_pos (by simp [hl, hrefuses, hended]))), rfl,
      fun d hd => chan_modFrame_ne hd .., ?_⟩
    exact openFrame_modFrame hc (fun _ => ⟨rfl, rfl, rfl⟩) hopen
  · have hend : frameEnd c f b s = modFrame c f.counter (fun g => { fillLines b (b.height - g.lines.length) g with ended := true }) s :=
      if_neg (by simp [hrefuses, hended])
    refine ⟨_, _, (exec_frameEnd hp hvc hset hchan hfate).trans (congrArg _ hend), rfl, fun d hd => chan_modFrame_ne hd ..,
      openFrame_modFrame hc (keepsOpen_ended b) hopen, rfl, ?_⟩
    rw [fillLines_eq]
    exact ⟨rfl, rfl⟩

end Sys2Proof.Machine
end

section
/-!
PROOF. Channels and flows start and stop at their boundary (O55).
-/
namespace Sys2Proof.Machine

/-! ### What a change of estimates leaves of its channel (R189, R219, R259) -/

/-- R189, R219, R259. A channel but for its calibration, the values of its pipeline, and its head. -/
def Chan.untuned (x : Chan) : Chan := { x with cal := default, head := default, cfg := { x.cfg with pipe := default } }

/-- R219, R259. Of the state, `t` has only these of channel `c` besides. -/
def Retunes (c : Nat) (s t : State) : Prop := ∃ k : Chan → Chan, (∀ x, (k x).untuned = x.untuned) ∧ t = modChan c k s

theorem Retunes.refl (c : Nat) (s : State) : Retunes c s s := ⟨id, fun _ => rfl, (modChan_of_fixed rfl).symm⟩

theorem Retunes.trans {c : Nat} {s t u : State} (h : Retunes c s t) (h' : Retunes c t u) : Retunes c s u := by
  obtain ⟨k, hk, rfl⟩ := h
  obtain ⟨k', hk', rfl⟩ := h'
  exact ⟨fun x => k' (k x), fun x => (hk' _).trans (hk x), modChan_modChan_fuse ..⟩

theorem retunes_modCal (c : Nat) (g : Cal → Cal) (s : State) : Retunes c s (modCal c g s) :=
  ⟨fun x => { x with cal := g x.cal }, fun _ => rfl, rfl⟩

theorem retunes_modPipe (c : Nat) (g : Pipe → Pipe) (s : State) : Retunes c s (modPipe c g s) :=
  ⟨fun x => { x with cfg := { x.cfg with pipe := g x.cfg.pipe } }, fun _ => rfl, rfl⟩

theorem retunes_restartEst (c : Nat) (ps : List Nat) (s : State) : Retunes c s (restartEst c ps s) :=
  ⟨Chan.restarted s.time.dev ps, fun _ => rfl, restartEst_eq ..⟩

theorem retunes_addAuto (c : Nat) (s : State) : Retunes c s (addAuto c s) := by
  rcases addAuto_eq c s with hsame | ⟨e, hmore⟩
  · rw [hsame]
    exact .refl c s
  · exact ⟨fun x => { x with head := { x.head with checks := x.head.checks ++ [e] } }, fun _ => rfl, hmore⟩

theorem retunes_forEach {α : Type} {c : Nat} (l : List α) {g : α → State → State} (h : ∀ a t, Retunes c t (g a t)) (s : State) :
    Retunes c s (forEach l g s) := forEach_keeps (Retunes c s) l g s (.refl c s) fun a _ t ht => ht.trans (h a t)

/-- R219, R254. An estimate that comes into force. -/
theorem retunes_putEstimate (c : Nat) (v : CalValue) (s : State) : Retunes c s (putEstimate c v s) := by
  have hput (g : Pipe → Pipe) (ps : List Nat) : Retunes c s (bumpGen c (restartEst c ps (modPipe c g s))) :=
    ((retunes_modPipe c g s).trans (retunes_restartEst c ps _)).trans (retunes_modCal c _ _)
  cases v <;> exact hput _ _

/-- R259. The stored estimates of a Paired head that take effect. -/
theorem retunes_restoreEstimates (c : Nat) (s : State) : Retunes c s (restoreEstimates c s) := by
  unfold restoreEstimates
  simp only
  split
  · split
    · refine retunes_forEach _ (fun p t => ?_) s
      split
      · split
        · exact .refl c t
        · exact (retunes_modCal ..).trans (retunes_putEstimate ..)
      · exact .refl c t
    · exact .refl c s
  · exact .refl c s

/-- R258. The record that takes the estimates applied. -/
theorem saveEstimates_eq (c : Nat) (s : State) : ∃ g, saveEstimates c s = modCal c g s := by
  unfold saveEstimates
  split
  · exact ⟨_, rfl⟩
  · exact ⟨id, (modChan_of_fixed rfl).symm⟩

/-! ### Channels (R159, R161, R176) -/

/-- R159, R176, R279. A channel that starts at boundary `k`, with its next record marked. -/
def Chan.started (k now : Nat) (x : Chan) : Chan :=
  Chan.mark 2 ⟨false, false, true⟩ { x with
    enabled := true, runFrom := k, seenStart := false, ignoring := false, enabledAt := now, recordAt := now
    lastRec := none, lastDropped := false, noFrame := false, toneMeans := []
    runs := Vector.ofFn fun i => (tget x.runs i.val).start x.cfg (tget x.cfg.streams i.val) k }

/-- R159. A channel that starts is `Chan.started`, with the estimates of its head restored and a check due. -/
theorem startChan_of_disabled {c : Nat} {s : State} (h : (s.chan c).enabled = false) :
    Retunes c (modChan c (Chan.started s.lastBoundary s.time.elapsed) s) (startChan c s) := by
  have hstart : startChan c s = addAuto c (restartEst c [0, 1, 2, 3]
      (restoreEstimates c (modChan c (Chan.started s.lastBoundary s.time.elapsed) s))) := by
    rw [startChan, if_neg (by simp [h])]
    simp only [markBind, modChan_modChan_fuse]
    rfl
  rw [hstart]
  exact ((retunes_restoreEstimates ..).trans (retunes_restartEst ..)).trans (retunes_addAuto ..)

/-- R176. -/
theorem two_le_settle_started (k now : Nat) (x : Chan) : 2 ≤ (x.started k now).settle := Nat.le_max_right ..

/-- R281. A start requests an IDR of each enabled stream. -/
theorem runs_started (k now : Nat) (x : Chan) {st : Nat} (hst : st < 2) :
    if (tget x.cfg.streams st).enable
    then (tget (x.started k now).runs st).idrPending = true ∧ (tget (x.started k now).runs st).recovery = (tget x.runs st).recovery
    else tget (x.started k now).runs st = tget x.runs st := by
  have hrun : tget (x.started k now).runs st = (tget x.runs st).start x.cfg (tget x.cfg.streams st) k := tget_ofFn _ hst
  rw [hrun]
  unfold StreamRun.start
  cases (tget x.cfg.streams st).enable
  · exact rfl
  · exact ⟨rfl, rfl⟩

theorem lastBoundary_of_unchanneled {s t : State} (h : unchanneled t = unchanneled s) : t.lastBoundary = s.lastBoundary :=
  (congrArg State.lastBoundary h :)

section
variable (f : Nat) (q : Request) (s : State)

/-- R159, R176, R281. -/
theorem chanStart_takesEffect : changesChannels .chanStart (.chanStart f q) f q s True fun u x y =>
    if x.enabled then y = x
    else y.enabled = true ∧ y.runFrom = u.lastBoundary ∧ y.lastRec = none ∧ y.noFrame = false ∧ y.frames = x.frames ∧ 2 ≤ y.settle ∧
      y.cfg.bind = x.cfg.bind ∧ y.cfg.rate = x.cfg.rate ∧ y.cfg.streams = x.cfg.streams ∧
      ∀ st, st < 2 → if (tget x.cfg.streams st).enable
        then (tget y.runs st).idrPending = true ∧ (tget y.runs st).recovery = (tget x.runs st).recovery
        else tget y.runs st = tget x.runs st := by
  refine changesChannels_of_turns (admitsAs_of_run rfl rfl) startChan (fun _ => rfl) (.inr rfl) fun m hm u t ht => ?_
  cases henabled : (t.chan m).enabled with
  | true =>
    rw [startChan, if_pos henabled]
    exact ⟨rfl, fun _ _ => rfl, rfl⟩
  | false =>
    obtain ⟨k, hk, heq⟩ := startChan_of_disabled henabled
    rw [heq, modChan_modChan_fuse]
    refine ⟨rfl, fun c hc => chan_modChan_ne t hc.symm _, ?_⟩
    rw [chan_modChan_same t hm, if_neg Bool.false_ne_true, ← lastBoundary_of_unchanneled ht]
    have hruns (st : Nat) (hst : st < 2) := runs_started t.lastBoundary t.time.elapsed (t.chan m) hst
    have hsettle := two_le_settle_started t.lastBoundary t.time.elapsed (t.chan m)
    have hkeeps := hk ((t.chan m).started t.lastBoundary t.time.elapsed)
    generalize k ((t.chan m).started t.lastBoundary t.time.elapsed) = y at hkeeps ⊢
    have hsame : y.runs = ((t.chan m).started t.lastBoundary t.time.elapsed).runs := (congrArg Chan.runs hkeeps :)
    refine ⟨(congrArg Chan.enabled hkeeps :), (congrArg Chan.runFrom hkeeps :), (congrArg Chan.lastRec hkeeps :), (congrArg Chan.noFrame hkeeps :),
      (congrArg Chan.frames hkeeps :), hsettle.trans_eq (congrArg Chan.settle hkeeps.symm :), (congrArg (fun x => x.cfg.bind) hkeeps :),
      (congrArg (fun x => x.cfg.rate) hkeeps :), (congrArg (fun x => x.cfg.streams) hkeeps :), ?_⟩
    rw [hsame]
    exact hruns

/-- R161. -/
theorem chanStop_takesEffect : changesChannels .chanStop (.chanStop f q) f q s True fun _ x y =>
    y.enabled = false ∧ y.frames = x.frames ∧ y.cfg = x.cfg ∧ y.runs = x.runs ∧ (x.enabled = false → y = x) := by
  refine changesChannels_of_turns (admitsAs_of_run rfl rfl) stopChan (fun _ => rfl) (.inr rfl) fun m hm u t _ => ?_
  cases henabled : (t.chan m).enabled with
  | false =>
    rw [stopChan, if_neg (by simp [henabled])]
    exact ⟨rfl, fun _ _ => rfl, henabled, rfl, rfl, rfl, fun _ => rfl⟩
  | true =>
    obtain ⟨g, hg⟩ := saveEstimates_eq m (modChan m (fun x => { x with enabled := false, noFrame := false }) t)
    rw [stopChan, if_pos henabled, hg, modCal_eq, modChan_modChan_fuse]
    refine ⟨rfl, fun c hc => chan_modChan_ne t hc.symm _, ?_⟩
    rw [chan_modChan_same t hm]
    exact ⟨rfl, rfl, rfl, rfl, fun h => Bool.noConfusion h⟩
end

/-! ### Flows (R366, R367, R386, R451) -/

/-- R366, R451. All of the state but the flows, the key tree and the ports. -/
def unflowed (s : State) : State := { s with flows := default, tarn := default, ports := default }

/-- R451. START of the client of an encrypted flow steps as the flow starts. -/
theorem stepStart_spec {m : Nat} (hm : m < 256) (s : State) :
    let t := when ((s.fcfg m).crypt != 0) (stepStart m) s
    unflowed t = unflowed s ∧ t.flows = s.flows ∧ (∀ k, k ≠ m → t.node (clientSlot k) = s.node (clientSlot k)) ∧
    (t.node (clientSlot m)).start =
      if (s.fcfg m).crypt = 0 then (s.node (clientSlot m)).start else ((s.node (clientSlot m)).start + 1) % 2 ^ 32 := by
  have hslot : clientSlot m < 512 := by
    rw [clientSlot]
    omega
  by_cases hplain : (s.fcfg m).crypt = 0
  · rw [when, if_neg (by simp [hplain]), if_pos hplain]
    exact ⟨rfl, rfl, fun _ _ => rfl, rfl⟩
  · rw [when, if_pos (by simp [hplain]), if_neg hplain, stepStart]
    refine ⟨rfl, rfl, fun k hk => node_modNode_ne (fun h => hk (Nat.add_left_cancel h).symm) _ s, ?_⟩
    exact congrArg Node.start (node_modNode_same hslot _ s)

/-- R366, R386, R451. A start changes its flow, its client's slot and its port. -/
theorem startFlow_spec {m : Nat} (hm : m < 256) {s : State} (hfree : startBarred m s = false) :
    unflowed (startFlow m s) = unflowed s ∧
    (∀ k, k ≠ m → (startFlow m s).flow k = s.flow k ∧ (startFlow m s).node (clientSlot k) = s.node (clientSlot k)) ∧
    ((startFlow m s).flow m).active = true ∧ ((startFlow m s).flow m).stopping = false ∧ ((startFlow m s).flow m).items = [] ∧
    ((startFlow m s).flow m).credit = ((startFlow m s).flow m).allot ∧ ((startFlow m s).flow m).bytes = (s.flow m).bytes ∧
    ((startFlow m s).node (clientSlot m)).start =
      if (s.fcfg m).crypt = 0 then (s.node (clientSlot m)).start else ((s.node (clientSlot m)).start + 1) % 2 ^ 32 := by
  obtain ⟨hview, hflows, hclients, hclient⟩ := stepStart_spec hm s
  unfold startFlow
  rw [if_neg (by simp [hfree])]
  simp only
  generalize when ((s.fcfg m).crypt != 0) (stepStart m) s = s1 at *
  generalize hport : when (decide ((s.fcfg m).route < 3)) _ s1 = s2
  have hs2 : unflowed s2 = unflowed s1 ∧ s2.flows = s1.flows ∧ s2.tarn = s1.tarn := by
    rw [← hport, when]
    split <;> exact ⟨rfl, rfl, rfl⟩
  obtain ⟨hview2, hflows2, htarn⟩ := hs2
  have hflow (k : Nat) : s2.flow k = s.flow k := congrArg (tget · k) (hflows2.trans hflows)
  have hnode (n : Nat) : s2.node n = s1.node n := congrArg (fun t : Tarn => tget t.nodes n) htarn
  refine ⟨hview2.trans hview, fun k hk => ⟨(flow_modFlow_ne s2 hk.symm _).trans (hflow k), (hnode _).trans (hclients k hk)⟩, ?_⟩
  rw [flow_modFlow_same s2 hm, hflow]
  exact ⟨rfl, rfl, rfl, rfl, rfl, (congrArg Node.start (hnode _)).trans hclient⟩

/-- R367, R386. All of the state but the flows and the ports. -/
def unscheduled (s : State) : State := { s with flows := default, ports := default, tx := default }

/-- R367, R386. The end of a stopped flow's credit leaves its items. -/
theorem settleFlow_spec {m : Nat} (s : State) :
    unscheduled (settleFlow m s) = unscheduled s ∧ (∀ k, k ≠ m → (settleFlow m s).flow k = s.flow k) ∧
    ((settleFlow m s).flow m).active = (s.flow m).active ∧ ((settleFlow m s).flow m).items = (s.flow m).items := by
  unfold settleFlow
  simp only
  split
  · refine ⟨rfl, fun k hk => flow_modFlow_ne s hk.symm _, ?_⟩
    rw [flow_modPort, flow_modFlow]
    split <;> exact ⟨rfl, rfl⟩
  · exact ⟨rfl, fun _ _ => rfl, rfl, rfl⟩

/-- R367. -/
theorem stopFlow_spec {m : Nat} (hm : m < 256) {s : State} (hactive : (s.flow m).active = true) :
    unscheduled (stopFlow m s) = unscheduled s ∧ (∀ k, k ≠ m → (stopFlow m s).flow k = s.flow k) ∧
    ((stopFlow m s).flow m).active = false ∧ (2 ≤ (s.fcfg m).route → ((stopFlow m s).flow m).items = []) := by
  unfold stopFlow
  simp only
  rw [if_neg (by simp [hactive])]
  generalize hs1 : modFlow m _ s = s1
  generalize hs2 : (if (s.fcfg m).route = 3 then _ else s1) = s2
  have hqueue : unscheduled s2 = unscheduled s1 ∧ s2.flows = s1.flows := by
    rw [← hs2]
    split <;> exact ⟨rfl, rfl⟩
  obtain ⟨hview2, hflows⟩ := hqueue
  have hflow (k : Nat) : s2.flow k = s1.flow k := congrArg (tget · k) hflows
  obtain ⟨hview, hother, hkept, hitems⟩ := settleFlow_spec (m := m) s2
  rw [hkept, hitems, hflow, ← hs1, flow_modFlow_same s hm]
  refine ⟨hview.trans (hview2.trans (by rw [← hs1]; rfl)), fun k hk => ?_, rfl, fun hroute => if_neg (by simp; omega)⟩
  rw [hother k hk, hflow, ← hs1, flow_modFlow_ne s hk.symm]

section
variable (f : Nat) (q : Request) (s : State)

/-- R366, R386, R451. -/
theorem flowStart_takesEffect : completes .flowStart (.flowStart f q) f q s True fun u v =>
    v = { u with flows := v.flows, tarn := v.tarn, ports := v.ports } ∧
    (∀ m, m ∉ (ctxOf .flowStart f q s).members → v.flow m = u.flow m ∧ v.node (clientSlot m) = u.node (clientSlot m)) ∧
    ∀ m, m ∈ (ctxOf .flowStart f q s).members → if startBarred m u then v.flow m = u.flow m ∧ v.node (clientSlot m) = u.node (clientSlot m) else
      (v.flow m).active = true ∧ (v.flow m).stopping = false ∧ (v.flow m).items = [] ∧
      (v.flow m).credit = (v.flow m).allot ∧ (v.flow m).bytes = (u.flow m).bytes ∧
      (v.node (clientSlot m)).start = if (u.fcfg m).crypt = 0 then (u.node (clientSlot m)).start else ((u.node (clientSlot m)).start + 1) % 2 ^ 32 := by
  refine completes_of_effect (admitsAs_of_run rfl rfl) fun hserved u => ?_
  generalize hv : Op.flowStart.behaviour.effect (ctxOf .flowStart f q s) u = v
  obtain ⟨hview, hother, hown⟩ := forEach_owned unflowed (fun t m => (t.flow m, t.node (clientSlot m)))
    (fun m x y => if startBarred m u then y = x else y.1.active = true ∧ y.1.stopping = false ∧ y.1.items = [] ∧ y.1.credit = y.1.allot ∧
      y.1.bytes = x.1.bytes ∧ y.2.start = if (u.fcfg m).crypt = 0 then x.2.start else (x.2.start + 1) % 2 ^ 32)
    (members_nodup .flowStart f q s) hv.symm fun m hm t ht => by
      have hcfg : t.fcfg m = u.fcfg m := (congrArg (fun w => w.fcfg m) ht :)
      have hbarred : startBarred m t = startBarred m u := (congrArg (startBarred m) ht :)
      cases hfree : startBarred m u with
      | true =>
        rw [startFlow, if_pos (hbarred.trans hfree)]
        exact ⟨rfl, fun _ _ => rfl, rfl⟩
      | false =>
        obtain ⟨hview, hother, hown⟩ := startFlow_spec (members_lt_of_flow (.inr rfl) hserved hm) (hbarred.trans hfree)
        rw [hcfg] at hown
        exact ⟨hview, fun k hk => Prod.ext (hother k hk).1 (hother k hk).2, hown⟩
  refine ⟨congrArg (fun w : State => { w with flows := v.flows, tarn := v.tarn, ports := v.ports }) hview,
    fun m hm => Prod.ext_iff.mp (hother m hm), fun m hm => ?_⟩
  have hturn := hown m hm
  split
  · next hbarred =>
    rw [if_pos hbarred] at hturn
    exact Prod.ext_iff.mp hturn
  · next hfree =>
    rw [if_neg hfree] at hturn
    exact hturn

/-- R367. -/
theorem flowStop_takesEffect : completes .flowStop (.flowStop f q) f q s True fun u v =>
    v = { u with flows := v.flows, ports := v.ports, tx := v.tx } ∧
    (∀ m, m ∉ (ctxOf .flowStop f q s).members → v.flow m = u.flow m) ∧
    ∀ m, m ∈ (ctxOf .flowStop f q s).members → (v.flow m).active = false ∧ ((u.flow m).active = false → v.flow m = u.flow m) ∧
      ((u.flow m).active = true → 2 ≤ (u.fcfg m).route → (v.flow m).items = []) := by
  refine completes_of_effect (admitsAs_of_run rfl rfl) fun hserved u => ?_
  generalize hv : Op.flowStop.behaviour.effect (ctxOf .flowStop f q s) u = v
  obtain ⟨hview, hother, hown⟩ := forEach_owned unscheduled State.flow
    (fun m x y => y.active = false ∧ (x.active = false → y = x) ∧ (x.active = true → 2 ≤ (u.fcfg m).route → y.items = []))
    (members_nodup .flowStop f q s) hv.symm fun m hm t ht => by
      have hcfg : t.fcfg m = u.fcfg m := (congrArg (fun w => w.fcfg m) ht :)
      cases hactive : (t.flow m).active with
      | false =>
        rw [stopFlow, if_pos (by simp [hactive])]
        exact ⟨rfl, fun _ _ => rfl, hactive, fun _ => rfl, fun h => Bool.noConfusion h⟩
      | true =>
        obtain ⟨hview, hother, hoff, hitems⟩ := stopFlow_spec (members_lt_of_flow (.inr rfl) hserved hm) hactive
        exact ⟨hview, hother, hoff, fun h => Bool.noConfusion h, fun _ hroute => hitems (hcfg ▸ hroute)⟩
  exact ⟨congrArg (fun w : State => { w with flows := v.flows, ports := v.ports, tx := v.tx }) hview, hother, hown⟩
end

/-- Settles O55, command by command: each run only waits for the boundary, and each effect is a loop over the channels or flows it names. -/
theorem channelsAndFlowsStartAndStop : Obligations.ChannelsAndFlowsStartAndStop := by
  unfold Obligations.ChannelsAndFlowsStartAndStop
  exact fun f q s => ⟨chanStart_takesEffect f q s, chanStop_takesEffect f q s, flowStart_takesEffect f q s, flowStop_takesEffect f q s⟩

end Sys2Proof.Machine
end

section
/-!
PROOF. What a master tick boundary leaves of camera heads besides their checks (O40).
-/
namespace Sys2Proof.Machine

/-! ### Heads but for their checks -/

/-- R189, R538. A channel's head but for its list of checks, and for the start that waits for one. -/
@[simp, reducible] def Chan.stillHead (x : Chan) : Head := { x.head with checks := [], startHeld := false, passedAt := none }

/-- Those of every channel. -/
def stillHeads (s : State) : Vector Head 32 := s.chans.map Chan.stillHead

@[simp] theorem stillHeads_ite (c : Prop) [Decidable c] (s t : State) :
    stillHeads (if c then s else t) = if c then stillHeads s else stillHeads t := apply_ite stillHeads c s t

/-- An update of a state that takes over its channels. -/
@[simp] theorem stillHeads_update (s : State) (pending fuses boot time fns numVfs vfEnable irq exec lastServed resetAt groups fgroups rx buses ego
    egoTaken dec flowCfg flows ports lanes gts10 mps tx macOther dmc tarn roles cls seqs power bookings buffers meters out fresh) :
    stillHeads ⟨pending, fuses, boot, time, fns, numVfs, vfEnable, irq, exec, lastServed, resetAt, groups, fgroups, rx, s.chans, buses, ego,
      egoTaken, dec, flowCfg, flows, ports, lanes, gts10, mps, tx, macOther, dmc, tarn, roles, cls, seqs, power, bookings, buffers, meters, out,
      fresh⟩ = stillHeads s := rfl

@[simp] theorem stillHeads_forEach {α : Type} (l : List α) {g : α → State → State} (h : ∀ a t, stillHeads (g a t) = stillHeads t) (s : State) :
    stillHeads (forEach l g s) = stillHeads s := forEach_same stillHeads l g s fun a _ t => h a t

@[simp] theorem stillHeads_when (b : Bool) {g : State → State} (h : ∀ t, stillHeads (g t) = stillHeads t) (s : State) :
    stillHeads (when b g s) = stillHeads s := by
  cases b
  · rfl
  · exact h s

@[simp] theorem stillHeads_modChan (c : Nat) {g : Chan → Chan} (h : ∀ x, (g x).stillHead = x.stillHead) (s : State) :
    stillHeads (modChan c g s) = stillHeads s := map_tmod s.chans c h

@[simp] theorem stillHeads_modTarn (g : Tarn → Tarn) (s : State) : stillHeads (modTarn g s) = stillHeads s := by simp [modTarn]
@[simp] theorem stillHeads_modFlow (m : Nat) (g : FlowRun → FlowRun) (s : State) : stillHeads (modFlow m g s) = stillHeads s := by simp [modFlow]
@[simp] theorem stillHeads_modPort (p : Nat) (g : Port → Port) (s : State) : stillHeads (modPort p g s) = stillHeads s := by simp [modPort]
@[simp] theorem stillHeads_modDec (h : Nat) (g : DecStream → DecStream) (s : State) : stillHeads (modDec h g s) = stillHeads s := by simp [modDec]
@[simp] theorem stillHeads_modTime (g : TimeBase → TimeBase) (s : State) : stillHeads (modTime g s) = stillHeads s := by simp [modTime]
@[simp] theorem stillHeads_modBoot (g : Boot → Boot) (s : State) : stillHeads (modBoot g s) = stillHeads s := by simp [modBoot]
@[simp] theorem stillHeads_emit (o : Output) (s : State) : stillHeads (emit o s) = stillHeads s := by simp [emit]
@[simp] theorem stillHeads_withBooks (b : Books) (s : State) : stillHeads (withBooks b s) = stillHeads s := by simp [withBooks]
@[simp] theorem stillHeads_stepStart (m : Nat) (s : State) : stillHeads (stepStart m s) = stillHeads s := by simp [stepStart]
@[simp] theorem stillHeads_raise (n bit : Nat) (s : State) : stillHeads (raise n bit s) = stillHeads s := by rw [raise_eq]; rfl
@[simp] theorem stillHeads_bumpGen (c : Nat) (s : State) : stillHeads (bumpGen c s) = stillHeads s := by simp [bumpGen]
@[simp] theorem stillHeads_modPipe (c : Nat) (g : Pipe → Pipe) (s : State) : stillHeads (modPipe c g s) = stillHeads s := by simp [modPipe]
@[simp] theorem stillHeads_restartEst (c : Nat) (ps : List Nat) (s : State) : stillHeads (restartEst c ps s) = stillHeads s := by simp [restartEst]

@[simp] theorem stillHeads_modCal (c : Nat) (g : Cal → Cal) (s : State) : stillHeads (modCal c g s) = stillHeads s := by simp [modCal]

/-! ### The calibration of a channel -/

@[simp] theorem stillHeads_putEstimate (c : Nat) (v : CalValue) (s : State) : stillHeads (putEstimate c v s) = stillHeads s := by
  unfold putEstimate
  split <;> simp

@[simp] theorem stillHeads_hold (c p : Nat) (v : CalValue) (g : Nat × Nat × Nat) (s : State) : stillHeads (hold c p v g s) = stillHeads s := by
  simp [hold, raisePipe]

@[simp] theorem stillHeads_calAccept (c : Nat) (f : Frame) (s : State) : stillHeads (calAccept c f s) = stillHeads s := by
  unfold calAccept
  split
  · rfl
  · refine (stillHeads_modCal _ _ _).trans (stillHeads_forEach _ (fun p t => ?_) s)
    split
    · split <;> simp
    · rfl

@[simp] theorem stillHeads_saveEstimates (c : Nat) (s : State) : stillHeads (saveEstimates c s) = stillHeads s := by
  unfold saveEstimates
  split <;> simp

@[simp] theorem stillHeads_raisePipe (c bit : Nat) (s : State) : stillHeads (raisePipe c bit s) = stillHeads s := stillHeads_raise _ _ s

@[simp] theorem stillHeads_applyEstimates (c k : Nat) (s : State) : stillHeads (applyEstimates c k s) = stillHeads s := by
  refine stillHeads_forEach _ (fun p t => ?_) s
  split
  · split
    · simp only
      split <;> simp
    · rfl
  · rfl

@[simp] theorem stillHeads_restoreEstimates (c : Nat) (s : State) : stillHeads (restoreEstimates c s) = stillHeads s := by
  unfold restoreEstimates
  simp only
  split
  · split
    · exact stillHeads_forEach _ (fun p t => by split <;> simp) s
    · rfl
  · rfl

@[simp] theorem stillHeads_noteChanges (c : Nat) (old : ChanCfg) (s : State) : stillHeads (noteChanges c old s) = stillHeads s := by
  simp [noteChanges]

/-! ### Channels and flows that start -/

@[simp] theorem stillHeads_addAuto (c : Nat) (s : State) : stillHeads (addAuto c s) = stillHeads s := by simp [addAuto, addCheck]

@[simp] theorem stillHeads_markBind (c : Nat) (s : State) : stillHeads (markBind c s) = stillHeads s :=
  stillHeads_modChan c (g := Chan.mark 2 ⟨false, false, true⟩) (fun _ => rfl) s

@[simp] theorem stillHeads_startChan (c : Nat) (s : State) : stillHeads (startChan c s) = stillHeads s := by simp [startChan]

@[simp] theorem stillHeads_startFlow (m : Nat) (s : State) : stillHeads (startFlow m s) = stillHeads s := by simp [startFlow]

@[simp] theorem stillHeads_autoStart (s : State) : stillHeads (autoStart s) = stillHeads s := by simp [autoStart, autoRun]

@[simp] theorem stillHeads_autoHeld (k : Nat) (s : State) : stillHeads (autoHeld k s) = stillHeads s := by
  refine stillHeads_forEach _ (fun c t => ?_) s
  simp only
  split
  · simp
  · split
    · split <;> simp
    · rfl

/-! ### What becomes eligible, and the jobs of the new tick -/

@[simp] theorem stillHeads_releaseCounts (c st : Nat) (a : AccessUnit) (s : State) : stillHeads (releaseCounts c st a s) = stillHeads s := by
  simp [releaseCounts, raiseEnc, raiseEncDone]

@[simp] theorem stillHeads_exception (m bit : Nat) (s : State) : stillHeads (exception m bit s) = stillHeads s := by simp [exception, raiseFlow]

@[simp] theorem stillHeads_backlog (m : Nat) (s : State) : stillHeads (backlog m s) = stillHeads s := by simp [backlog]

@[simp] theorem stillHeads_offer (m : Nat) (it : Item) (s : State) : stillHeads (offer m it s) = stillHeads s := by simp [offer]

@[simp] theorem stillHeads_freeBuffer (ms : List Nat) (s : State) : stillHeads (freeBuffer ms s) = stillHeads s := by
  unfold freeBuffer
  split
  · rfl
  · split <;> simp

@[simp] theorem stillHeads_offerAll (src : FlowSrc) (it : Nat → Item) (s : State) : stillHeads (offerAll src it s) = stillHeads s := by
  simp [offerAll]

@[simp] theorem stillHeads_offerDecoded (h : Nat) (s : State) : stillHeads (offerDecoded h s) = stillHeads s := by
  unfold offerDecoded
  simp only
  split
  · rfl
  · simp

@[simp] theorem stillHeads_releaseItems (s : State) : stillHeads (releaseItems s) = stillHeads s := by
  have units (c st : Nat) (t : State) : stillHeads (match (tget (t.chan c).runs st).current with
      | some a => releaseCounts c st a (offerAu a (tget (t.chan c).runs st).ledgerRate t)
      | none => t) = stillHeads t := by split <;> simp [offerAu]
  unfold releaseItems
  simp only
  refine (stillHeads_forEach _ stillHeads_offerDecoded _).trans (stillHeads_forEach _ (fun c t => ?_) s)
  split
  · refine (stillHeads_forEach _ (fun p t => by simp [offerWindow]) _).trans ?_
    exact (units c 1 _).trans (units c 0 t)
  · exact (units c 1 _).trans (units c 0 t)

@[simp] theorem stillHeads_fixSeal (c st : Nat) (s : State) : stillHeads (fixSeal c st s) = stillHeads s := by simp [fixSeal]

@[simp] theorem stillHeads_startEncode (c : Nat) (s : State) : stillHeads (startEncode c s) = stillHeads s := by
  unfold startEncode
  simp only
  split
  · rfl
  · simp

@[simp] theorem stillHeads_decodeTick (h : Nat) (s : State) : stillHeads (decodeTick h s) = stillHeads s := by
  unfold decodeTick
  simp only
  split
  · rfl
  · split <;> simp [repeatPicture, raiseDec]

@[simp] theorem stillHeads_beginJobs (k : Nat) (s : State) : stillHeads (beginJobs k s) = stillHeads s := by simp [beginJobs, takeEgo]

@[simp] theorem stillHeads_busRun (b : Nat) (s : State) : stillHeads (busRun b s) = stillHeads s := by rw [busRun_eq]; rfl

/-- What follows the commands of a boundary leaves every head but for its checks. -/
theorem stillHeads_afterCommands (s u : State) : stillHeads (afterCommands s u) = stillHeads u := by
  simp [afterCommands, reassert, snapFlows, ledgerTick, metersTick]

end Sys2Proof.Machine
end

section
/-!
PROOF. What follows the checks of camera heads: a head change, service life, and temperatures (O40).
-/
namespace Sys2Proof.Machine

/-! ### A head that is unpaired (R196, R198) -/

theorem unrecorded_auditDevice (event : Nat) (detail : List Byte) (s : State) : unrecorded (auditDevice event detail s) = unrecorded s := by
  refine (unrecorded_audit ..).trans ?_
  unfold clusterRead
  split <;> rfl

theorem chan_auditDevice (event : Nat) (detail : List Byte) (s : State) (c : Nat) : (auditDevice event detail s).chan c = s.chan c :=
  (congrArg (fun v => v.chan c) (unrecorded_auditDevice event detail s) :)

/-- R196. A head without its pairing: its mirror is closed, and no push is due. -/
def Head.unpaired (h : Head) : Head :=
  { h with
    pairing := none, mirror := none
    closedMirrors := h.closedMirrors ++ ((h.life.orElse fun _ => h.mirror).map fun l => { l with closed := true }).toList
    life := none, keyUpdate := false, changeAt := none
    checks := h.checks.filter fun k => k.why != .push
    state := if h.state == .paired then .unpaired else h.state }

theorem head_unpairEffects {c : Nat} (hc : c < 32) (s : State) : ((unpairEffects c s).chan c).head = (s.chan c).head.unpaired := by
  obtain ⟨-, hchan, -⟩ := freeHead_spec hc (modHead c Head.unpaired s)
  have heq : unpairEffects c s = discardReferences c (discardEstimates c (freeHead c (modHead c Head.unpaired s))) := rfl
  rw [heq, discardReferences, discardEstimates_eq, modChan_modChan_fuse, chan_modChan_same _ hc, discardedAll_keeps, hchan, modHead_eq,
    chan_modChan_same s hc]

theorem chan_unpairEffects_ne {c d : Nat} (hd : d < 32) (h : c ≠ d) (s : State) : (unpairEffects d s).chan c = s.chan c := by
  obtain ⟨-, hother, -⟩ := unpairEffects_spec hd s
  exact (hother c h).1

/-- R198. Another head, now that the old one is unpaired, is Unpaired. -/
def Head.replaced (h : Head) : Head := { h with state := if h.state == .other then .unpaired else h.state }

/-- R198. A change that is due: the record of it, the unpairing, and the records of the channel marked. -/
theorem headChange_of_due {c : Nat} {s : State} (h : headChangeDue s c = true) :
    ∃ d, headChange c s = markBind c (modHead c Head.replaced (unpairEffects c (auditDevice 0x22 d s))) := by
  cases hchange : (s.chan c).head.changeAt with
  | none => simp [headChangeDue, hchange] at h
  | some p =>
    unfold headChange
    simp only [hchange, h, if_true]
    exact ⟨_, rfl⟩

/-- The channel that the device acts on. -/
theorem chan_headChange_same {c : Nat} (hc : c < 32) {s : State} (h : headChangeDue s c = true) : ∃ x : Chan,
    (headChange c s).chan c = Chan.mark 2 ⟨false, false, true⟩ { x with head := (s.chan c).head.unpaired.replaced } ∧
    ∀ st, st < 2 → (tget x.runs st).idrPending = true ∧ (tget x.runs st).short = [] := by
  obtain ⟨d, heq⟩ := headChange_of_due h
  obtain ⟨-, -, -, -, -, -, -, hruns⟩ := unpairEffects_spec hc (auditDevice 0x22 d s)
  refine ⟨(unpairEffects c (auditDevice 0x22 d s)).chan c, ?_, fun st hst => ?_⟩
  · rw [heq, markBind, modHead_eq, modChan_modChan_fuse, chan_modChan_same _ hc, head_unpairEffects hc, chan_auditDevice]
  · obtain ⟨hshort, -, hidr⟩ := hruns st hst
    exact ⟨hidr, hshort⟩

theorem chan_headChange_ne {c d : Nat} (hd : d < 32) (h : c ≠ d) (s : State) : (headChange d s).chan c = s.chan c := by
  unfold headChange
  split
  · rfl
  · split
    · rw [markBind, chan_modChan_ne _ h.symm, modHead_eq, chan_modChan_ne _ h.symm, chan_unpairEffects_ne hd h, chan_auditDevice]
    · rfl

/-- R190, R196. No head that has been unpaired and replaced is Paired, or another. -/
theorem state_replaced (h : Head) : h.unpaired.replaced.state ≠ .paired ∧ h.unpaired.replaced.state ≠ .other := by
  by_cases hpaired : h.state = .paired
  · simp [Head.replaced, Head.unpaired, hpaired]
  · by_cases hother : h.state = .other
    · simp [Head.replaced, Head.unpaired, hother]
    · simp [Head.replaced, Head.unpaired, hpaired, hother]

section
variable {s t : State} (h : outsideUnpairing t = outsideUnpairing s)
include h

theorem time_of_outsideUnpairing : t.time = s.time := (congrArg State.time h :)
theorem exec_of_outsideUnpairing : t.exec = s.exec := (congrArg State.exec h :)
end

/-- R196, R198. What a head change leaves of time and of what is in execution, and the slot it frees. -/
theorem headChange_spec {c : Nat} (hc : c < 32) {s : State} (h : headChangeDue s c = true) :
    (headChange c s).time.dev = s.time.dev ∧ (headChange c s).time.elapsed = s.time.elapsed ∧ (headChange c s).exec = s.exec ∧
    ((headChange c s).node (headSlot c)).state = .free := by
  obtain ⟨d, heq⟩ := headChange_of_due h
  obtain ⟨hview, -, hfree, -⟩ := unpairEffects_spec hc (auditDevice 0x22 d s)
  have haudit := unrecorded_auditDevice 0x22 d s
  generalize auditDevice 0x22 d s = u at *
  have htime := time_of_outsideUnpairing hview
  have hexec := exec_of_outsideUnpairing hview
  generalize unpairEffects c u = v at *
  rw [heq]
  refine ⟨(congrArg TimeBase.dev htime).trans ?_, (congrArg TimeBase.elapsed htime).trans ?_, hexec.trans ?_, hfree⟩
  · exact (congrArg (fun v => v.time.dev) haudit :)
  · exact (congrArg (fun v => v.time.elapsed) haudit :)
  · exact (congrArg State.exec haudit :)

/-! ### A channel's turn in the boundary, and its head (R198) -/

theorem stillHead_of_stillHeads {s t : State} (h : stillHeads t = stillHeads s) (c : Nat) : (t.chan c).stillHead = (s.chan c).stillHead :=
  view_tget h c

theorem chan_computeKey (n : Nat) (s : State) (c : Nat) : (computeKey n s).chan c = s.chan c := by
  unfold computeKey
  simp only
  split <;> rfl

theorem chan_applyPairing_ne {c d : Nat} (hd : d < 32) (h : c ≠ d) (s : State) : (applyPairing d s).chan c = s.chan c := by
  have hunpaired : (if (s.chan d).head.pairing.isSome then unpairEffects d (auditDevice 0x21 (unpairDetail s d 1) s) else s).chan c = s.chan c := by
    split
    · rw [chan_unpairEffects_ne hd h, chan_auditDevice]
    · rfl
  unfold applyPairing
  split
  · rfl
  · split
    · rfl
    · split
      · exact chan_modChan_ne s h.symm _
      · rw [modHead_eq, chan_modChan_ne _ h.symm, chan_computeKey]
        exact hunpaired

/-- R197, R253. Statistics and estimates of the turn leave every head but for its checks, and what stays. -/
theorem channelTick_cases (k c : Nat) (s : State) : ∃ u, stillHeads u = stillHeads s ∧ steady u = steady s ∧
    channelTick k c s = applyPairing c (applyEstimates c k (headChange c u)) := by
  unfold channelTick
  split
  · exact ⟨_, stillHeads_calAccept .., steady_calAccept .., rfl⟩
  · exact ⟨_, rfl, rfl, rfl⟩

theorem stillHead_channelTick_ne {c d : Nat} (hd : d < 32) (h : c ≠ d) (k : Nat) (s : State) :
    ((channelTick k d s).chan c).stillHead = (s.chan c).stillHead := by
  obtain ⟨u, hu, -, heq⟩ := channelTick_cases k d s
  rw [heq, chan_applyPairing_ne hd h, stillHead_of_stillHeads (stillHeads_applyEstimates ..), chan_headChange_ne hd h, stillHead_of_stillHeads hu]

theorem headChangeDue_congr {s t : State} {c : Nat} (hchange : (t.chan c).head.changeAt = (s.chan c).head.changeAt) (ht : steady t = steady s) :
    headChangeDue t c = headChangeDue s c := by
  unfold headChangeDue
  rw [hchange, dev_of_steady ht, elapsed_of_steady ht, boundary_of_steady ht, State.lastBoundary, State.lastBoundary, passed_of_steady ht]

/-- R198. A head change leaves the channel without a pairing, a change found, or service life. -/
def Head.changed (h : Head) : Prop := h.pairing = none ∧ h.changeAt = none ∧ h.life = none

theorem changed_channelTick {c : Nat} (hc : c < 32) (k : Nat) {s : State} (hdue : headChangeDue s c = true)
    (hpending : (s.chan c).head.pairPending = none) : ((channelTick k c s).chan c).stillHead.changed := by
  obtain ⟨u, hu, hsteady, heq⟩ := channelTick_cases k c s
  have hbefore := stillHead_of_stillHeads hu c
  have hdue' : headChangeDue u c = true := (headChangeDue_congr (congrArg Head.changeAt hbefore :) hsteady).trans hdue
  obtain ⟨x, hchan, -⟩ := chan_headChange_same hc hdue'
  have hafter : ((applyEstimates c k (headChange c u)).chan c).stillHead =
      (Chan.mark 2 ⟨false, false, true⟩ { x with head := (u.chan c).head.unpaired.replaced }).stillHead :=
    (stillHead_of_stillHeads (stillHeads_applyEstimates ..) c).trans (congrArg Chan.stillHead hchan)
  have hnone : ((applyEstimates c k (headChange c u)).chan c).head.pairPending = none :=
    (congrArg Head.pairPending hafter :).trans ((congrArg Head.pairPending hbefore :).trans hpending)
  rw [heq, applyPairing, hnone]
  simp only
  rw [hafter]
  exact ⟨rfl, rfl, rfl⟩

/-! ### The instant of the boundary (R38, R55) -/

/-- R38. Between `s` and `t`, elapsed time has gone forward as device time has. -/
def InStep (s t : State) : Prop := t.time.elapsed + s.time.dev = s.time.elapsed + t.time.dev

theorem InStep.of_steady {s t : State} (h : steady t = steady s) : InStep s t := by
  rw [InStep, elapsed_of_steady h, dev_of_steady h]

theorem InStep.trans {s t u : State} (h : InStep s t) (h' : InStep t u) : InStep s u := by
  unfold InStep at *
  omega

theorem inStep_advanceTo (at_ : Nat) (s : State) : InStep s (advanceTo at_ s) := by
  show (s.time.advance (at_ - s.time.dev)).elapsed + s.time.dev = s.time.elapsed + (s.time.advance (at_ - s.time.dev)).dev
  unfold TimeBase.advance
  split
  · simp only
    omega
  · rfl

theorem inStep_latePulse (c : Nat) (s : State) : InStep s (latePulse c s) := by
  unfold latePulse
  split
  · rw [InStep, time_pulse]
    exact inStep_advanceTo ..
  · exact .of_steady rfl

theorem inStep_endTick (s : State) : InStep s (endTick s) := by
  have hframes : InStep s (forEach (List.range 32) (fun c t => pipeJobEnd c (deadline c (latePulse c t))) s) :=
    forEach_keeps (InStep s) _ _ s (.of_steady rfl) fun c _ t ht => ht.trans ((inStep_latePulse c t).trans (.of_steady (by simp)))
  exact hframes.trans (.of_steady (by simp [endTick]))

theorem inStep_passBoundary (s : State) : InStep s (passBoundary (ageQueues s)) := by
  rw [passBoundary_eq]
  exact inStep_advanceTo _ (ageQueues s)

theorem inStep_atTickEnd (s : State) : InStep s (atTickEnd s) := (inStep_endTick s).trans (inStep_passBoundary _)

theorem boundary_passBoundary (s : State) (k : Nat) : (passBoundary (ageQueues s)).time.boundary k = s.time.boundary k := by
  rw [passBoundary_eq]
  rfl

theorem Later.boundary {s t : State} (h : Later s t) (k : Nat) : t.time.boundary k = s.time.boundary k :=
  (congrArg (fun p => p.2.1.boundary k) h.stays :)

theorem boundary_atTickEnd (s : State) (k : Nat) : (atTickEnd s).time.boundary k = s.time.boundary k :=
  (boundary_passBoundary _ k).trans ((later_endTick s).boundary k)

/-- R198. The change that the device acts on at the next boundary is due there. -/
theorem headChangeDue_atTickEnd {c : Nat} {s : State} (hruns : s.clockRuns = true) (htick : s.time.tickRun = true)
    (h : headChangeNext s c = true) : headChangeDue (atTickEnd s) c = true := by
  obtain ⟨hcount, -, hinstant, -⟩ := passed_of_later hruns htick (later_endTick s)
  have htime := inStep_atTickEnd s
  have hchange : ((atTickEnd s).chan c).head.changeAt = (s.chan c).head.changeAt :=
    congrArg (fun y => y.1.2.2) (headOf_of_heads (heads_atTickEnd s) c)
  rw [headChangeDue, hchange, State.lastBoundary, boundary_atTickEnd]
  simp only [headChangeNext, Bool.and_eq_true, Option.any_eq_true, decide_eq_true_eq] at h
  obtain ⟨-, p, hp, hdue⟩ := h
  rw [hp]
  unfold InStep at htime
  rw [← atTickEnd] at hcount hinstant
  simp only [hcount, Nat.add_sub_cancel, decide_eq_true_eq]
  omega

/-- R198. What a boundary finds done of a change that is due there. -/
theorem changed_beforeCommands {c : Nat} (hc : c < 32) {s : State} (hdue : headChangeDue (atTickEnd s) c = true)
    (hpending : (s.chan c).head.pairPending = none) : ((beforeCommands s).chan c).stillHead.changed := by
  generalize hu : levelTick (disableFailing (atTickEnd s)) = u
  have hlevels : steady u = steady (atTickEnd s) := by rw [← hu]; simp
  have hheads : headOf u c = headOf s c := headOf_of_heads (by rw [← hu]; simp) c
  have hend : headOf (atTickEnd s) c = headOf s c := headOf_of_heads (heads_atTickEnd s) c
  have hdue' : headChangeDue u c = true :=
    (headChangeDue_congr (congrArg (fun y => y.1.2.2) (hheads.trans hend.symm) :) hlevels).trans hdue
  have hpending' : (u.chan c).head.pairPending = none := (congrArg (fun y => y.1.2.1) hheads).trans hpending
  have hturns : beforeCommands s = forEach (List.range 32) (channelTick (atTickEnd s).lastBoundary) u := by
    rw [← hu]
    rfl
  obtain ⟨-, -, hown⟩ := forEach_owned steady (fun t d => (t.chan d).stillHead)
    (fun d x y => x.changeAt = (u.chan d).head.changeAt → headChangeDue u d = true → x.pairPending = none → y.changed)
    List.nodup_range hturns fun d hd t ht => ⟨by simp, fun e he => stillHead_channelTick_ne (List.mem_range.mp hd) he _ t,
      fun hchange hdueu hnone => changed_channelTick (List.mem_range.mp hd) _ ((headChangeDue_congr hchange ht).trans hdueu) hnone⟩
  exact hown c (List.mem_range.mpr hc) rfl hdue' hpending'

/-- R198. The boundary at which the device acts on another head. -/
theorem headChange_atBoundary {c : Nat} (hc : c < 32) {s : State} (h : headChangeNext s c = true) (hreset : s.resetAt = none)
    (hexec : s.exec = []) (hpending : (s.chan c).head.pairPending = none) :
    ∃ t, exec (.headChange c) s = .next t ∧ exec .masterTickBoundary s = .next t ∧ t.time.passed = s.time.passed + 1 ∧ (t.chan c).head.changed := by
  have hruns := h
  simp only [headChangeNext, Bool.and_eq_true, Bool.not_eq_true'] at hruns
  obtain ⟨⟨⟨hclock, htick⟩, hdog⟩, -⟩ := hruns
  have hstep := exec_masterTickBoundary_of_idle hclock htick hdog hreset hexec
  have hstep' : exec (.headChange c) s = exec .masterTickBoundary s := if_pos h
  have hchanged := changed_beforeCommands hc (headChangeDue_atTickEnd hclock htick h) hpending
  rw [← stillHead_of_stillHeads (stillHeads_afterCommands s (beforeCommands s)) c] at hchanged
  exact ⟨_, hstep'.trans hstep, hstep, (passed_of_steady (steady_afterCommands ..)).trans (passed_beforeCommands hclock htick).count, hchanged⟩


/-! ### The control bus (R186) -/

/-- R186. A transfer that can go on stays on its bus when the bus starts what is first on it. -/
theorem mem_busRun {b : Nat} (hb : b < 8) {x : BusXfer} {s : State} (hx : x ∈ tget s.buses b)
    (hattach : (s.chan x.ch).cfg.attach.isSome = true) (htodo : x.todo ≠ []) :
    ∃ y ∈ tget (busRun b s).buses b, y = { x with active := y.active, since := y.since } := by
  have hstays : ∃ y ∈ tget s.buses b, y = { x with active := y.active, since := y.since } := ⟨x, hx, rfl⟩
  unfold busRun
  split
  · exact hstays
  · next z rest hbus =>
    rw [hbus] at hx
    split
    · exact hstays
    · split
      · simp only [buses_emit, tget_tset_same _ hb]
        rcases List.mem_cons.mp hx with rfl | hrest
        · exact ⟨_, List.mem_cons_self, rfl⟩
        · exact ⟨x, List.mem_cons_of_mem _ hrest, rfl⟩
      · next hstuck =>
        simp only [tget_tset_same _ hb]
        rcases List.mem_cons.mp hx with rfl | hrest
        · obtain ⟨a, ha⟩ := Option.isSome_iff_exists.mp hattach
          obtain ⟨t, l, hl⟩ := List.exists_cons_of_ne_nil htodo
          exact (hstuck a t l ha hl).elim
        · exact ⟨x, hrest, rfl⟩

theorem mem_busPush {c : Nat} {a : Attach} {x : BusXfer} {s : State} (ha : (s.chan c).cfg.attach = some a) (hb : a.bus < 8) :
    x ∈ tget (busPush c x s).buses a.bus := by
  unfold busPush
  simp only [ha]
  rw [tget_tmod_same _ hb]
  simp

/-- R187, R199, R240. The transfer that reads TEMP_REG. -/
def tempXfer (c : Nat) (minute : Bool) (ident : List Byte) : BusXfer := newXfer c .device (.temp minute) [⟨be 2 (field ident 36 2), 2, true⟩]

theorem unbussed_readTemp (c : Nat) (minute : Bool) (s : State) : unbussed (readTemp c minute s) = unbussed s := by
  unfold readTemp busSend
  split
  · rfl
  · rw [unbussed_busRun, unbussed_busPush]

/-- R240. With an attachment, a read of TEMP_REG is on the channel's bus. -/
theorem readTemp_spec {c : Nat} {a : Attach} {s : State} (ha : (s.chan c).cfg.attach = some a) (hb : a.bus < 8) (minute : Bool) :
    ∃ x ∈ tget (readTemp c minute s).buses a.bus, x.ch = c ∧ x.use_ = .temp minute ∧
      x.todo = [⟨be 2 (field (s.chan c).head.ident 36 2), 2, true⟩] := by
  have hsend : readTemp c minute s = busRun a.bus (busPush c (tempXfer c minute (s.chan c).head.ident) s) := by
    unfold readTemp busSend
    rw [ha]
    rfl
  have hattach : ((busPush c (tempXfer c minute (s.chan c).head.ident) s).chan c).cfg.attach.isSome = true := by
    rw [busPush_eq]
    show (s.chan c).cfg.attach.isSome = true
    rw [ha]
    rfl
  obtain ⟨y, hy, hsame⟩ := mem_busRun hb (mem_busPush ha hb) hattach (List.cons_ne_nil _ _)
  rw [hsend]
  refine ⟨y, hy, ?_⟩
  rw [hsame]
  exact ⟨rfl, rfl, rfl⟩

/-! ### Service life and temperatures (R199 to R201, R240) -/

/-- R189, R200. A push makes a check due on a channel with a bus, where none is due for a push. -/
theorem pushCheck_spec (c : Nat) (s : State) : ∃ ks,
    (if (s.chan c).head.checks.any (fun k => k.why == .push) then s else addCheck c .push s) =
      modHead c (fun h => { h with checks := h.checks ++ ks }) s ∧
    ((∃ k ∈ (s.chan c).head.checks, k.why = .push) → ks = []) ∧
    ((s.chan c).cfg.attach.isSome = true → (∀ k ∈ (s.chan c).head.checks, k.why ≠ .push) →
      ∃ k, ks = [k] ∧ k.why = .push ∧ k.step = .due) := by
  have hsame : s = modHead c (fun h => { h with checks := h.checks ++ [] }) s := by
    rw [modHead_eq, modChan_of_fixed]
    simp only [List.append_nil]
  have hany : (s.chan c).head.checks.any (fun k => k.why == .push) = true ↔ ∃ k ∈ (s.chan c).head.checks, k.why = .push := by
    simp only [List.any_eq_true, beq_iff_eq]
  by_cases hpush : ∃ k ∈ (s.chan c).head.checks, k.why = .push
  · rw [if_pos (hany.mpr hpush)]
    refine ⟨[], hsame, fun _ => rfl, fun _ hnone => ?_⟩
    obtain ⟨k, hk, hwhy⟩ := hpush
    exact absurd hwhy (hnone k hk)
  · rw [if_neg (mt hany.mp hpush), addCheck]
    split
    · exact ⟨_, rfl, fun h => absurd h hpush, fun _ _ => ⟨_, rfl, rfl, rfl⟩⟩
    · next hnone => exact ⟨[], hsame, fun _ => rfl, fun h => absurd h hnone⟩

/-- R199, R240. An instant at which the head of channel `c` is changed, and TEMP_REG is read where `reads` says. -/
def tempInstant (at_ c : Nat) (minute reads : Bool) (g : Head → Head) (s : State) : State :=
  if reads then readTemp c minute (modHead c g (advanceElapsed at_ s)) else modHead c g (advanceElapsed at_ s)

/-- R199. A head whose minute ends at `now`. -/
def Head.minuteEnded (now : Nat) (h : Head) : Head := { h with life := h.life.map fun x => { x with minuteAt := now } }

/-- R240. A head whose temperature is due at `now`. -/
def Head.tempInstant (now : Nat) (h : Head) : Head := { h with tempAt := h.tempAt + max 1 ((now - h.tempAt) / 60000000000) * 60000000000 }

/-- R240. The channel has a bus, and a head whose temperature is read. -/
def Chan.readsTemp (x : Chan) : Bool := x.cfg.attach.isSome && (x.head.state == .paired || x.head.state == .unpaired)

/-- R200. A head with a push at `now`: the mirror is written. -/
def Head.pushed (now : Nat) (h : Head) : Head :=
  { h with
    mirror := h.life
    life := h.life.map fun x => { x with
      pushPending := true, tryAt := now
      pushFrom := x.pushFrom + (now - x.pushFrom) / 3600000000000 * 3600000000000 } }

section
variable {c : Nat} (hc : c < 32) (s : State)
include hc

theorem tempInstant_spec (at_ : Nat) (minute reads : Bool) {g : Head → Head} (hg : ∀ h, (g h).ident = h.ident) :
    let t := tempInstant at_ c minute reads g s
    t = { s with chans := t.chans, time := t.time, buses := t.buses, out := t.out } ∧ t.time = (advanceElapsed at_ s).time ∧
    (∀ d, d ≠ c → t.chan d = s.chan d) ∧ t.chan c = { s.chan c with head := g (s.chan c).head } ∧
    (reads = false → t.buses = s.buses ∧ t.out = s.out) ∧
    (reads = true → ∀ a, (s.chan c).cfg.attach = some a → a.bus < 8 →
      ∃ x ∈ tget t.buses a.bus, x.ch = c ∧ x.use_ = .temp minute ∧ x.todo = [⟨be 2 (field (s.chan c).head.ident 36 2), 2, true⟩]) := by
  intro t
  generalize hu : modHead c g (advanceElapsed at_ s) = u
  have hother (d : Nat) (hd : d ≠ c) : u.chan d = s.chan d := by
    rw [← hu, modHead_eq, chan_modChan_ne _ hd.symm]
    rfl
  have hown : u.chan c = { s.chan c with head := g (s.chan c).head } := by
    rw [← hu, modHead_eq, chan_modChan_same _ hc]
    rfl
  have ht : t = if reads then readTemp c minute u else u := by rw [← hu]; rfl
  have hview : unbussed t = unbussed u := by
    rw [ht]
    split
    · exact unbussed_readTemp ..
    · rfl
  have htime : t.time = (advanceElapsed at_ s).time := (congrArg State.time hview :).trans (by rw [← hu]; rfl)
  refine ⟨?_, htime, fun d hd => (chan_of_unbussed hview d).trans (hother d hd), (chan_of_unbussed hview c).trans hown, fun hnone => ?_,
    fun hread a ha hb => ?_⟩
  · have hrest : { unchanneled t with time := default, buses := default, out := default } =
        { unchanneled s with time := default, buses := default, out := default } :=
      (congrArg (fun v : State => { unchanneled v with time := default }) hview).trans (by rw [← hu]; rfl)
    exact congrArg (fun v : State => { v with chans := t.chans, time := t.time, buses := t.buses, out := t.out }) hrest
  · rw [ht, if_neg (by simp [hnone]), ← hu]
    exact ⟨rfl, rfl⟩
  · have hattach : (u.chan c).cfg.attach = some a := by rw [hown]; exact ha
    obtain ⟨x, hx, hch, huse, htodo⟩ := readTemp_spec hattach hb minute
    rw [hown, hg] at htodo
    rw [ht, if_pos hread]
    exact ⟨x, hx, hch, huse, htodo⟩

/-- R199. A minute ends; an operating one has its temperature read. -/
theorem lifeMinute_spec {l : Life} (hl : (s.chan c).head.life = some l) (hclk : s.time.refclk = true) :
    ∃ t, exec (.lifeMinute c ()) s = .next t ∧ t = { s with chans := t.chans, time := t.time, buses := t.buses, out := t.out } ∧
      (∀ d, d ≠ c → t.chan d = s.chan d) ∧
      (t.chan c).head.life = some { l with minuteAt := t.time.elapsed } ∧ l.minuteAt + 60000000000 ≤ t.time.elapsed ∧
      (operating (s.chan c) t.time.elapsed = false → t.buses = s.buses ∧ t.out = s.out) ∧
      (operating (s.chan c) t.time.elapsed = true → ∀ a, (s.chan c).cfg.attach = some a → a.bus < 8 →
        ∃ x ∈ tget t.buses a.bus, x.ch = c ∧ x.use_ = .temp true ∧ x.todo = [⟨be 2 (field (s.chan c).head.ident 36 2), 2, true⟩]) := by
  have hinstant := elapsed_advanceElapsed hclk (l.minuteAt + 60000000000)
  generalize hnow : (advanceElapsed (l.minuteAt + 60000000000) s).time.elapsed = now at hinstant
  have hexec : exec (.lifeMinute c ()) s =
      .next (tempInstant (l.minuteAt + 60000000000) c true (operating (s.chan c) now) (Head.minuteEnded now) s) := by
    show execLifeMinute c () s = _
    rw [execLifeMinute, hl]
    simp only [hnow]
    rfl
  obtain ⟨hframe, htime, hother, hown, hidle, hread⟩ := tempInstant_spec hc s (l.minuteAt + 60000000000) true
    (operating (s.chan c) now) (g := Head.minuteEnded now) fun _ => rfl
  generalize tempInstant (l.minuteAt + 60000000000) c true (operating (s.chan c) now) (Head.minuteEnded now) s = t at *
  have helapsed : t.time.elapsed = now := (congrArg TimeBase.elapsed htime).trans hnow
  rw [← helapsed] at hidle hread
  refine ⟨t, hexec, hframe, hother, ?_, ?_, hidle, hread⟩
  · rw [hown]
    simp only [Head.minuteEnded, hl, helapsed, Option.map_some]
  · rw [helapsed, hinstant]
    exact le_max_right ..

theorem exec_headTempRead : exec (.headTempRead c ()) s = .next (tempInstant ((s.chan c).head.tempAt + 60000000000) c false (s.chan c).readsTemp
    (Head.tempInstant (advanceElapsed ((s.chan c).head.tempAt + 60000000000) s).time.elapsed) s) := by
  show execHeadTempRead c () s = _
  rw [execHeadTempRead, if_neg (Nat.not_le.mpr hc)]
  rfl

/-- R240. Every 60 s; a Paired or an Unpaired head has its temperature read. -/
theorem headTempRead_spec (hclk : s.time.refclk = true) : ∃ t, exec (.headTempRead c ()) s = .next t ∧
    t = { s with chans := t.chans, time := t.time, buses := t.buses, out := t.out } ∧
    (s.chan c).head.tempAt + 60000000000 ≤ t.time.elapsed ∧ (∀ d, d ≠ c → t.chan d = s.chan d) ∧
    ((s.chan c).head.state = .unverified ∨ (s.chan c).head.state = .other → t.buses = s.buses ∧ t.out = s.out) ∧
    (∀ a, (s.chan c).cfg.attach = some a → a.bus < 8 → (s.chan c).head.state = .paired ∨ (s.chan c).head.state = .unpaired →
      ∃ x ∈ tget t.buses a.bus, x.ch = c ∧ x.use_ = .temp false ∧ x.todo = [⟨be 2 (field (s.chan c).head.ident 36 2), 2, true⟩]) := by
  have hinstant := elapsed_advanceElapsed hclk ((s.chan c).head.tempAt + 60000000000)
  generalize hnow : (advanceElapsed ((s.chan c).head.tempAt + 60000000000) s).time.elapsed = now at hinstant
  have hexec := exec_headTempRead hc s
  rw [hnow] at hexec
  obtain ⟨hframe, htime, hother, -, hidle, hread⟩ := tempInstant_spec hc s ((s.chan c).head.tempAt + 60000000000) false (s.chan c).readsTemp
    (g := Head.tempInstant now) fun _ => by rw [Head.tempInstant]
  generalize tempInstant ((s.chan c).head.tempAt + 60000000000) c false (s.chan c).readsTemp (Head.tempInstant now) s = t at *
  refine ⟨t, hexec, hframe, ?_, hother, fun hstate => hidle ?_, fun a ha hb hstate => hread ?_ a ha hb⟩
  · rw [htime, hnow, hinstant]
    exact le_max_right ..
  · rcases hstate with h | h <;> simp [Chan.readsTemp, h]
  · rcases hstate with h | h <;> simp [Chan.readsTemp, ha, h]

/-- R200. A push that is due writes the mirror, and makes a check due where none is for a push. -/
theorem lifePush_spec {l : Life} (hl : (s.chan c).head.life = some l) (hpairing : (s.chan c).head.pairing.isSome = true)
    (hclk : s.time.refclk = true) :
    ∃ t, exec (.lifePush c) s = .next t ∧ t = { s with chans := t.chans, time := t.time, boot := t.boot } ∧
      (t.chan c).head.mirror = some l ∧
      (t.chan c).head.life = some { l with
        pushPending := true, tryAt := t.time.elapsed
        pushFrom := l.pushFrom + (t.time.elapsed - l.pushFrom) / 3600000000000 * 3600000000000 } ∧
      t.boot = { s.boot with queue := s.boot.queue ++ [⟨.pairing c, none⟩] } ∧
      ((s.chan c).cfg.attach.isSome = true → (∀ k ∈ (s.chan c).head.checks, k.why ≠ .push) →
        ∃ k, (t.chan c).head.checks = (s.chan c).head.checks ++ [k] ∧ k.why = .push ∧ k.step = .due) ∧
      ((∃ k ∈ (s.chan c).head.checks, k.why = .push) → (t.chan c).head.checks = (s.chan c).head.checks) ∧
      pushDue l ≤ t.time.elapsed := by
  have hinstant := elapsed_advanceElapsed hclk (pushDue l)
  generalize hs1 : advanceElapsed (pushDue l) s = s1 at hinstant
  have hexec : exec (.lifePush c) s = .next (flashQueue (.pairing c) none
      (if (s.chan c).head.checks.any (fun k => k.why == .push) then modHead c (Head.pushed s1.time.elapsed) s1
        else addCheck c .push (modHead c (Head.pushed s1.time.elapsed) s1))) := by
    show execLifePush c s = _
    rw [execLifePush, hl]
    simp only [hs1]
    rw [if_neg (by rwa [Option.isNone_iff_eq_none, ← Option.not_isSome_iff_eq_none, not_not])]
    delta Head.pushed
    rfl
  obtain ⟨ks, hpushed, hunder, hmade⟩ := pushCheck_spec c (modHead c (Head.pushed s1.time.elapsed) s1)
  have hbefore : (modHead c (Head.pushed s1.time.elapsed) s1).chan c = { s.chan c with head := (s.chan c).head.pushed s1.time.elapsed } := by
    rw [modHead_eq, chan_modChan_same s1 hc, ← hs1]
    rfl
  have hchecks : ((modHead c (Head.pushed s1.time.elapsed) s1).chan c).head.checks = (s.chan c).head.checks := by
    rw [hbefore]
    rfl
  have hcfg : ((modHead c (Head.pushed s1.time.elapsed) s1).chan c).cfg = (s.chan c).cfg := by rw [hbefore]
  rw [hchecks] at hpushed hunder hmade
  rw [hcfg] at hmade
  rw [hpushed] at hexec
  have hown : ((modHead c (fun h => { h with checks := h.checks ++ ks }) (modHead c (Head.pushed s1.time.elapsed) s1)).chan c).head =
      { (s.chan c).head.pushed s1.time.elapsed with checks := (s.chan c).head.checks ++ ks } := by
    rw [modHead_eq, chan_modChan_same _ hc, hbefore]
    rfl
  refine ⟨_, hexec, by rw [← hs1]; rfl, ?_, ?_, by rw [← hs1]; rfl, fun hattach hnone => ?_, fun hpush => ?_,
    (le_max_right ..).trans hinstant.ge⟩
  · exact (congrArg Head.mirror hown).trans hl
  · refine (congrArg Head.life hown).trans ?_
    simp only [Head.pushed, hl, Option.map_some]
    rfl
  · obtain ⟨k, hk, hwhy, hstep⟩ := hmade hattach hnone
    exact ⟨k, (congrArg Head.checks hown).trans (by rw [hk]), hwhy, hstep⟩
  · exact (congrArg Head.checks hown).trans (by rw [hunder hpush, List.append_nil])
end


/-! ### A reading that ends (R185, R186, R199, R240) -/

theorem chan_raiseIngress (c bit : Nat) (s : State) (d : Nat) : (raiseIngress c bit s).chan d = s.chan d := chan_raise ..

/-- R201. Wear that is raised leaves the counters, and all of the head but its life. -/
theorem raiseWear_spec {c : Nat} (hc : c < 32) {l : Life} {s : State} (hl : (s.chan c).head.life = some l) :
    ∃ l', ((raiseWear c s).chan c).head.life = some l' ∧ l'.hot = l.hot ∧ l'.cool = l.cool := by
  have hwhen (b : Bool) (bit : Nat) (t : State) : (when b (raiseIngress c bit) t).chan c = t.chan c := by
    unfold when
    split
    · exact chan_raiseIngress ..
    · rfl
  unfold raiseWear
  rw [hl]
  simp only
  rw [hwhen, hwhen, modHead_eq, chan_modChan_same s hc]
  simp only [hl, Option.map_some]
  exact ⟨_, rfl, rfl, rfl⟩

/-- R199. A reading above 85 degrees, and one that failed, count as hot. -/
def isHot (temp : Option Int) : Bool := match temp with | none => true | some v => 85 * 16 < v

theorem b2n_isHot_some (v : Int) : b2n (isHot (some v)) = if 85 * 16 < v then 1 else 0 := by simp [isHot, b2n]

theorem b2n_isCool_some (v : Int) : b2n (!isHot (some v)) = if 85 * 16 < v then 0 else 1 := by
  by_cases h : 85 * 16 < v
  · simp only [isHot, h, decide_true, if_true]
    rfl
  · simp only [isHot, h, decide_false, if_false]
    rfl

/-- R199. -/
theorem countMinute_spec {c : Nat} (hc : c < 32) (temp : Option Int) {l : Life} {s : State} (hl : (s.chan c).head.life = some l) :
    ∃ l', ((countMinute c temp s).chan c).head.life = some l' ∧ l'.hot = l.hot + b2n (isHot temp) ∧ l'.cool = l.cool + b2n (!isHot temp) := by
  have hcounted : ((modHead c (fun h => { h with life := h.life.map fun x =>
      { x with hot := x.hot + b2n (isHot temp), cool := x.cool + b2n (!isHot temp) } }) s).chan c).head.life =
      some { l with hot := l.hot + b2n (isHot temp), cool := l.cool + b2n (!isHot temp) } := by
    rw [modHead_eq, chan_modChan_same s hc]
    simp only [hl, Option.map_some]
  exact raiseWear_spec hc hcounted

/-- R199, R240. What the end of a reading `temp` makes of the head of its channel. -/
def ReadingEnds (minute : Bool) (temp : Option Int) (h h' : Head) : Prop :=
  (minute = false → h'.temps = (temp :: h.temps).take 5 ∧ h'.life = h.life) ∧
  (minute = true → ∀ l, h.life = some l →
    ∃ l', h'.life = some l' ∧ l'.hot = l.hot + b2n (isHot temp) ∧ l'.cool = l.cool + b2n (!isHot temp))

/-- R185. A transfer that read TEMP_REG ends. -/
theorem xferDone_temp {x : BusXfer} {minute : Bool} (hch : x.ch < 32) (huse : x.use_ = .temp minute) (ok : Bool) (s : State) :
    ReadingEnds minute (if ok then some (tempOf x.got) else none) (s.chan x.ch).head ((xferDone x ok s).chan x.ch).head := by
  unfold xferDone
  rw [huse]
  refine ⟨fun h => ?_, fun h l hl => ?_⟩
  · simp only [h, Bool.false_eq_true, if_false]
    rw [modHead_eq, chan_modChan_same s hch]
    exact ⟨rfl, rfl⟩
  · simp only [h, if_true]
    exact countMinute_spec hch _ hl

theorem chan_busRun (b : Nat) (s : State) (c : Nat) : (busRun b s).chan c = s.chan c := by
  rw [busRun_eq]
  rfl

/-- R186. The end of a transaction that is no sensor write moves the times of transfers alone. -/
theorem chan_busShift {b : Nat} {x : BusXfer} (h : x.cls = .device) (s : State) (c : Nat) : (busShift b x s).chan c = s.chan c := by
  unfold busShift
  rw [h]
  rfl

/-- R190. Failures counted leave the temperatures and the life of the head. -/
theorem countFailure_keeps {c : Nat} (hc : c < 32) (s : State) :
    ((countFailure c s).chan c).head.temps = (s.chan c).head.temps ∧ ((countFailure c s).chan c).head.life = (s.chan c).head.life := by
  rw [countFailure, chan_raiseIngress, modHead_eq, chan_modChan_same s hc]
  simp only
  split <;> exact ⟨rfl, rfl⟩

theorem ReadingEnds.of_same {minute : Bool} {temp : Option Int} {h k h' : Head} (htemps : k.temps = h.temps) (hlife : k.life = h.life)
    (hends : ReadingEnds minute temp k h') : ReadingEnds minute temp h h' := by
  unfold ReadingEnds at *
  rwa [htemps, hlife] at hends

/-- R240. The reading that the last transaction of a transfer gives. -/
theorem transactionEnds_temp {b : Nat} {x : BusXfer} {y : Txn} {minute : Bool} (hch : x.ch < 32) (huse : x.use_ = .temp minute)
    (htodo : x.todo = [y]) (hrlen : y.rlen = 2) (hgot : x.got = []) {r : BusResult} {temp : Option Int}
    (hr : (∃ data, r = .ack data ∧ temp = some (tempOf (fit 2 data))) ∨ (r = .nack ∨ r = .failed) ∧ temp = none) (s : State) :
    ReadingEnds minute temp (s.chan x.ch).head ((transactionEnds b x r s).chan x.ch).head := by
  rcases hr with ⟨data, rfl, rfl⟩ | ⟨hr, rfl⟩
  · generalize hu : ({ modHead x.ch (fun h => { h with failRun := 0 }) s with buses := tset s.buses b (tget s.buses b).tail } : State) = u
    have hchan : u.chan x.ch = { s.chan x.ch with head := { (s.chan x.ch).head with failRun := 0 } } := by
      rw [← hu]
      exact chan_modChan_same s hch _
    have hends := xferDone_temp (x := { x with active := false, todo := [], got := fit 2 data }) hch huse true u
    have heq : transactionEnds b x (.ack data) s = busRun b (xferDone { x with active := false, todo := [], got := fit 2 data } true u) := by
      rw [← hu]
      simp [transactionEnds, htodo, hrlen, hgot]
    rw [heq, chan_busRun]
    exact hends.of_same (by rw [hchan]) (by rw [hchan])
  · generalize hu : countFailure x.ch { s with buses := tset s.buses b (tget s.buses b).tail } = u
    obtain ⟨htemps, hlife⟩ := countFailure_keeps hch { s with buses := tset s.buses b (tget s.buses b).tail }
    rw [hu] at htemps hlife
    have hends := xferDone_temp (x := { x with active := false }) hch huse false u
    have heq : transactionEnds b x r s = busRun b (xferDone { x with active := false } false u) := by
      rw [← hu]
      rcases hr with rfl | rfl <;> rfl
    rw [heq, chan_busRun]
    exact hends.of_same htemps hlife

theorem exec_transactionDone {b : Nat} (hb : b < 8) {x : BusXfer} {rest : List BusXfer} {s : State} (hbus : tget s.buses b = x :: rest)
    (hactive : x.active = true) (r : BusResult) : exec (.i3cTransactionDone b r) s = .next (transactionEnds b x r (busShift b x s)) := by
  show execI3cTransactionDone b r s = _
  rw [execI3cTransactionDone, if_neg (Nat.not_le.mpr hb), hbus]
  simp only [hactive]
  rfl

/-- Settles O40, clause by clause: a head change at its boundary, a minute, a push, and the temperatures. -/
theorem headLife : Obligations.HeadLife := by
  unfold Obligations.HeadLife
  intro c s hc
  refine ⟨fun hdue => ?_, fun hnext hreset hexec hpending => ?_, fun l hl hclk => lifeMinute_spec hc s hl hclk,
    fun l hl hpairing hclk => lifePush_spec hc s hl hpairing hclk, fun hclk => headTempRead_spec hc s hclk,
    fun b x y rest m hb hbus hactive hch hcls huse htodo hrlen hgot r temp hr => ?_⟩
  · obtain ⟨hdev, helapsed, hexec, hfree⟩ := headChange_spec hc hdue
    obtain ⟨x, hchan, hruns⟩ := chan_headChange_same hc hdue
    obtain ⟨hpaired, hother⟩ := state_replaced (s.chan c).head
    have hclosed : (s.chan c).head.unpaired.closedMirrors = (s.chan c).head.closedMirrors ++
        (match (s.chan c).head.life, (s.chan c).head.mirror with
          | some l, _ => [{ l with closed := true }]
          | none, some l => [{ l with closed := true }]
          | none, none => []) := by
      rw [Head.unpaired]
      cases (s.chan c).head.life <;> cases (s.chan c).head.mirror <;> rfl
    refine ⟨hdev, helapsed, hexec, ?_⟩
    rw [hchan]
    exact ⟨rfl, rfl, rfl, rfl, hpaired, hother, hclosed, hfree, Nat.le_max_right .., hruns, fun d hd => chan_headChange_ne hc hd s⟩
  · obtain ⟨t, hchange, htick, hpassed, hnone, hat, hlife⟩ := headChange_atBoundary hc hnext hreset hexec hpending
    exact ⟨t, hchange, htick, hpassed, hnone, hat, hlife⟩
  · subst hch
    have hends := transactionEnds_temp (b := b) hc huse htodo hrlen hgot hr (busShift b x s)
    rw [chan_busShift hcls] at hends
    obtain ⟨hfive, hcount⟩ := hends
    refine ⟨_, exec_transactionDone hb hbus hactive r, hfive, fun hm l hl => ?_⟩
    obtain ⟨l', hl', hhot, hcool⟩ := hcount hm l hl
    cases temp with
    | none => exact ⟨l', hl', hhot, hcool⟩
    | some v => exact ⟨l', hl', hhot.trans (congrArg (l.hot + ·) (b2n_isHot_some v)), hcool.trans (congrArg (l.cool + ·) (b2n_isCool_some v))⟩

end Sys2Proof.Machine
end

section
/-!
PROOF. Transactions of a head's bus end (O39).
-/
namespace Sys2Proof.Machine

/-! ### The end of a transaction (R185, R186, R190) -/

/-- R186. A sensor write's end shifts the start of checks; another's end, what is due on its bus. -/
theorem busShift_frame (b : Nat) (x : BusXfer) (s : State) :
    busShift b x s = { s with chans := (busShift b x s).chans, buses := (busShift b x s).buses } := by
  unfold busShift
  split <;> rfl

theorem chan_busShift_checks {c : Nat} (hc : c < 32) (b : Nat) (x : BusXfer) (s : State) : (busShift b x s).chan c =
    { s.chan c with head := { (s.chan c).head with checks := ((busShift b x s).chan c).head.checks } } := by
  unfold busShift
  split
  · simp only [State.chan, tget_map _ _ hc]
    split <;> rfl
  · rfl

/-- R185. A transfer that answers to nothing, or to a request of the host alone. -/
def BusXfer.ofHost (x : BusXfer) : Prop := x.use_ = .sensorWrite ∨ ∃ f tag, x.use_ = .hostXfer f tag

/-- R185. The end of such a transfer leaves all but the requests in execution and the mailboxes. -/
theorem xferDone_frame {x : BusXfer} (h : x.ofHost) (ok : Bool) (s : State) :
    xferDone x ok s = { s with exec := (xferDone x ok s).exec, fns := (xferDone x ok s).fns, out := (xferDone x ok s).out } := by
  unfold xferDone
  rcases h with huse | ⟨f, tag, huse⟩
  · rw [huse]
  · rw [huse]
    simp only
    split
    · split <;> rw [finish_eq]
    · rfl

/-- R185. The last transaction of a host's transfer answers the request that waits for it. -/
theorem xferDone_host {x : BusXfer} {f : Nat} {tag : BitVec 16} {e : ExecEntry} {s : State} (huse : x.use_ = .hostXfer f tag)
    (hfind : findExec s f tag Wait.isBus = some e) : xferDone x true s = finish e St.ok (fit 16 x.got) s := by
  simp only [xferDone, huse, hfind, if_true]

/-- R185. The channel's run of failed transactions is over. -/
def endFailures (c : Nat) (s : State) : State := modHead c (fun h => { h with failRun := 0 }) s

/-- R185. The bus without its first transfer. -/
def dropFirst (b : Nat) (s : State) : State := { s with buses := tset s.buses b (tget s.buses b).tail }

/-- R185. A transfer whose transaction under way was acknowledged with `data`. -/
def BusXfer.acknowledged (data : List Byte) (x : BusXfer) : BusXfer :=
  let n := (x.todo.head?.map Txn.rlen).getD 0
  { x with active := false, todo := x.todo.tail, got := x.got ++ (if n = 0 then [] else fit n data) }

theorem got_acknowledged {x : BusXfer} {y : Txn} (htodo : x.todo = [y]) (data : List Byte) :
    (x.acknowledged data).got = x.got ++ if y.rlen = 0 then [] else fit y.rlen data := by
  simp only [BusXfer.acknowledged, htodo, List.head?_cons, Option.map_some, Option.getD_some]

/-- R185, R186. Acknowledged, the last transaction of a transfer ends the transfer. -/
theorem transactionEnds_last {x : BusXfer} {y : Txn} (htodo : x.todo = [y]) (b : Nat) (data : List Byte) (s : State) :
    transactionEnds b x (.ack data) s = busRun b (xferDone (x.acknowledged data) true (dropFirst b (endFailures x.ch s))) := by
  have hnone : x.todo.tail.isEmpty = true := by rw [htodo]; rfl
  exact if_pos hnone

/-- R185, R190. A transaction that fails ends its transfer, and counts. -/
theorem transactionEnds_fails (b : Nat) (x : BusXfer) {r : BusResult} (hr : r = .nack ∨ r = .failed) (s : State) :
    transactionEnds b x r s = busRun b (xferDone { x with active := false } false (countFailure x.ch (dropFirst b s))) := by
  rcases hr with rfl | rfl <;> rfl

/-- R185. An acknowledged transaction ends the run of failures, and leaves the rest but the bus, requests in execution and the mailboxes. -/
theorem transactionEnds_ack_frame {x : BusXfer} (h : x.ofHost) (b : Nat) (data : List Byte) (s : State) :
    let t := transactionEnds b x (.ack data) s
    t = { endFailures x.ch s with buses := t.buses, exec := t.exec, fns := t.fns, out := t.out } := by
  intro t
  obtain ⟨u, hu, ht⟩ : ∃ u, u = { endFailures x.ch s with buses := u.buses } ∧
      (t = busRun b (xferDone (x.acknowledged data) true u) ∨ t = busRun b u) := by
    simp only [t, transactionEnds]
    split
    · exact ⟨dropFirst b (endFailures x.ch s), rfl, .inl rfl⟩
    · exact ⟨_, rfl, .inr rfl⟩
  rcases ht with ht | ht
  · rw [ht, busRun_eq, xferDone_frame (x := x.acknowledged data) h, hu]
  · rw [ht, busRun_eq, hu]

/-- R190. From the third failure in a row on, the head counts as absent and the channel is Unverified. -/
theorem countFailure_spec {c : Nat} (hc : c < 32) (s : State) :
    let t := countFailure c s
    t = { s with chans := t.chans, fns := t.fns, irq := t.irq, out := t.out } ∧
    (t.chan c).head.failRun = (s.chan c).head.failRun + 1 ∧
    (2 ≤ (s.chan c).head.failRun → (t.chan c).head.state = .unverified ∧ (t.chan c).head.absent = true) ∧
    ((s.chan c).head.failRun < 2 → (t.chan c).head.state = (s.chan c).head.state) ∧
    (sourcePresent s (32 + c) = true → (tget t.irq.fwSrc (32 + c)).cause.getLsbD 8 = true) := by
  obtain ⟨hn, hlevel, hbit⟩ := levelCause_channel (base := 32) (by simp) hc (show 8 < 32 by decide)
  simp only [countFailure, chan_raiseIngress, modHead_eq, chan_modChan_same s hc]
  refine ⟨by rw [raiseIngress, raise_eq]; rfl, ?_, fun h => ?_, fun h => ?_, fun h => cause_raise hn hlevel hbit h⟩
  · split <;> rfl
  · rw [if_pos (by omega)]
    exact ⟨rfl, rfl⟩
  · rw [if_neg (by omega)]

/-- Settles O39: an acknowledged transaction, the last one of a host's transfer, and one that fails. -/
theorem busTransactionsEnd : Obligations.BusTransactionsEnd := by
  unfold Obligations.BusTransactionsEnd
  intro b x rest s hb hc hbus hactive huse
  have hshift := busShift_frame b x s
  have hown := chan_busShift_checks hc b x s
  have hexec := exec_transactionDone hb hbus hactive
  generalize busShift b x s = v at *
  refine ⟨fun data => ⟨_, hexec (.ack data), ?_⟩, fun r hr => ⟨_, hexec r, ?_⟩⟩
  · have hframe := transactionEnds_ack_frame huse b data v
    have hlast := fun y (htodo : x.todo = [y]) => transactionEnds_last htodo b data v
    generalize transactionEnds b x (.ack data) v = t at *
    refine ⟨by rw [hframe, hshift]; rfl, ?_, fun y f tag htodo hhost e hfind hlive hf => ?_⟩
    · rw [hframe]
      show (endFailures x.ch v).chan x.ch = { s.chan x.ch with head := { (s.chan x.ch).head with
        failRun := 0, checks := ((endFailures x.ch v).chan x.ch).head.checks } }
      rw [endFailures, modHead_eq, chan_modChan_same v hc, hown]
    · have hu : steady (dropFirst b (endFailures x.ch v)) = steady s := by rw [hshift]; rfl
      have hfind' : findExec (dropFirst b (endFailures x.ch v)) f tag Wait.isBus = some e := by rw [hshift]; exact hfind
      rw [hlast y htodo, xferDone_host (x := x.acknowledged data) hhost hfind', busRun_eq, got_acknowledged htodo]
      exact ⟨(exec_finish ..).trans (congrArg (List.erase · e) (exec_of_steady hu)), rspQ_finish_of_steady hlive hf _ _ _ hu⟩
  · obtain ⟨hframe, hfail, hthird, hfew, hcause⟩ := countFailure_spec hc (dropFirst b v)
    have hchan : (dropFirst b v).chan x.ch = v.chan x.ch := rfl
    rw [hchan, hown] at hfail hthird hfew
    have hpresent : sourcePresent (dropFirst b v) (32 + x.ch) = sourcePresent s (32 + x.ch) := by rw [hshift]; rfl
    rw [hpresent] at hcause
    have hends := transactionEnds_fails b x (by simpa using hr) v
    generalize countFailure x.ch (dropFirst b v) = u at *
    rw [busRun_eq, xferDone_frame (x := { x with active := false }) huse] at hends
    generalize transactionEnds b x r v = t at *
    refine ⟨by rw [hends, hframe, hshift]; rfl, ?_⟩
    rw [hends]
    exact ⟨hfail, hthird, hfew, hcause⟩

end Sys2Proof.Machine
end

section
/-!
PROOF. Identity checks of camera heads (O38).
-/
namespace Sys2Proof.Machine

/-! ### The check under way (R186, R189) -/

theorem unbussed_busSend (c : Nat) (x : BusXfer) (s : State) : unbussed (busSend c x s) = unbussed s := by
  rw [busSend_eq]
  rfl

/-- R186. A transfer that joins its bus is there with all that is to do, after the bus has begun what it can. -/
theorem mem_busSend_same {c : Nat} {a : Attach} {x : BusXfer} {s : State} (ha : (s.chan c).cfg.attach = some a) (hb : a.bus < 8) (hx : x.ch = c)
    (htodo : x.todo ≠ []) : ∃ y ∈ tget (busSend c x s).buses a.bus, y = { x with active := y.active, since := y.since } := by
  have hattach : ((busPush c x s).chan x.ch).cfg.attach.isSome = true := by
    rw [hx, busPush_eq]
    exact Option.isSome_of_eq_some ha
  have hsend : busSend c x s = busRun a.bus (busPush c x s) := by simp only [busSend, ha]
  rw [hsend]
  exact mem_busRun hb (mem_busPush ha hb) hattach htodo

/-- R186. The transactions of a check that joins the bus of its channel. -/
theorem mem_checkXfer {c : Nat} {a : Attach} {l : List Txn} {s : State} (ha : (s.chan c).cfg.attach = some a) (hb : a.bus < 8) (hl : l ≠ []) :
    ∃ x ∈ tget (busSend c (checkXfer c l) s).buses a.bus, x.ch = c ∧ x.use_ = .checkStep ∧ x.todo = l := by
  obtain ⟨x, hx, hsame⟩ := mem_busSend_same (x := checkXfer c l) ha hb rfl hl
  rw [hsame] at hx
  exact ⟨_, hx, rfl, rfl, rfl⟩

theorem curCheck_of_unbussed {s t : State} (h : unbussed t = unbussed s) (c : Nat) : curCheck t c = curCheck s c :=
  congrArg (fun x => x.head.checks.head?) (chan_of_unbussed h c)

theorem chan_modCheck_ne {c d : Nat} (h : c ≠ d) (g : Check → Check) (s : State) : (modCheck c g s).chan d = s.chan d := chan_modChan_ne s h _

theorem cfg_modCheck {c : Nat} (hc : c < 32) (g : Check → Check) (s : State) : ((modCheck c g s).chan c).cfg = (s.chan c).cfg := by
  rw [modCheck, modHead_eq, chan_modChan_same s hc]

theorem curCheck_modCheck {c : Nat} (hc : c < 32) {k : Check} {s : State} (h : curCheck s c = some k) (g : Check → Check) :
    curCheck (modCheck c g s) c = some (g k) := by
  obtain ⟨l, hl⟩ := List.head?_eq_some_iff.mp h
  rw [curCheck, modCheck, modHead_eq, chan_modChan_same s hc]
  simp only [hl, List.head?_cons]

/-- R186, R189. The state in which a check has changed, and has a transfer on its bus. -/
def checkSends (c : Nat) (l : List Txn) (g : Check → Check) (s : State) : State := busSend c (checkXfer c l) (modCheck c g s)

theorem checkSends_spec {c : Nat} (hc : c < 32) {k : Check} {s : State} (h : curCheck s c = some k) {l : List Txn} (hl : l ≠ []) (g : Check → Check) :
    let t := checkSends c l g s
    t = { s with chans := t.chans, buses := t.buses, out := t.out } ∧ curCheck t c = some (g k) ∧ (∀ d, d ≠ c → t.chan d = s.chan d) ∧
    ∀ a, (s.chan c).cfg.attach = some a → a.bus < 8 → ∃ x ∈ tget t.buses a.bus, x.ch = c ∧ x.use_ = .checkStep ∧ x.todo = l := by
  intro t
  have hsent : unbussed t = unbussed (modCheck c g s) := unbussed_busSend ..
  refine ⟨?_, (curCheck_of_unbussed hsent c).trans (curCheck_modCheck hc h g), fun d hd => ?_, fun a ha hb => ?_⟩
  · simp only [t, checkSends]
    rw [busSend_eq]
    rfl
  · exact (chan_of_unbussed hsent d).trans (chan_modCheck_ne hd.symm g s)
  · exact mem_checkXfer ((congrArg ChanCfg.attach (cfg_modCheck hc g s)).trans ha) hb hl

/-! ### A check starts (R186) -/

theorem checkWindow_eq {s u : State} (h : checkWindow s = some u) : u = { s with time := u.time } := by
  unfold checkWindow at h
  simp only at h
  split at h
  · rw [← Option.some.inj h]
  · split at h
    · rw [← Option.some.inj h]
      rfl
    · cases h

section
variable {c : Nat} {k : Check} {s : State} (hc : c < 32) (hk : curCheck s c = some k)
include hk

theorem exec_headCheckStart {a : Attach} {u : State} (hstep : k.step = .due) (ha : (s.chan c).cfg.attach = some a) (hfirst : firstDue s c k = true)
    (hwindow : checkWindow s = some u) : exec (.headCheckStart c) s =
      .next (checkSends c (seReads 0xFE00 128) (fun x => { x with step := .ident, startedAt := u.time.elapsed }) u) := by
  show execHeadCheckStart c s = _
  simp only [execHeadCheckStart, hk, hstep, ha, hfirst, hwindow, Option.isSome_some, decide_true, Bool.and_self, if_true]
  rfl

include hc

/-- R186, R189. -/
theorem headCheckStart_spec {a : Attach} {u : State} (hstep : k.step = .due) (ha : (s.chan c).cfg.attach = some a) (hb : a.bus < 8)
    (hfirst : firstDue s c k = true) (hwindow : checkWindow s = some u) :
    ∃ t, exec (.headCheckStart c) s = .next t ∧ t = { s with time := u.time, chans := t.chans, buses := t.buses, out := t.out } ∧
      curCheck t c = some { k with step := .ident, startedAt := u.time.elapsed } ∧
      (∃ x ∈ tget t.buses a.bus, x.ch = c ∧ x.use_ = .checkStep ∧ x.todo.length = 4) ∧ (∀ d, d ≠ c → t.chan d = s.chan d) := by
  have hu := checkWindow_eq hwindow
  have hchan (d : Nat) : u.chan d = s.chan d := by rw [hu]; rfl
  have hk' : curCheck u c = some k := by rw [curCheck, hchan]; exact hk
  obtain ⟨hframe, hcheck, hother, hsent⟩ := checkSends_spec hc hk' (l := seReads 0xFE00 128) (by decide)
    fun x => { x with step := .ident, startedAt := u.time.elapsed }
  obtain ⟨x, hx, hch, huse, htodo⟩ := hsent a ((congrArg (fun y => y.cfg.attach) (hchan c)).trans ha) hb
  refine ⟨_, exec_headCheckStart hk hstep ha hfirst hwindow, ?_, hcheck, ⟨x, hx, hch, huse, by rw [htodo]; decide⟩,
    fun d hd => (hother d hd).trans (hchan d)⟩
  generalize checkSends c _ _ u = t at *
  rw [hframe, hu]

/-! ### The secure element is polled (R583) -/

/-- R583. The challenge of the check under way has failed. -/
def challengeFails (c : Nat) (s : State) : State := modCheck c (fun x => { x with chalFail := true, step := .judged }) s

omit hc in
/-- R583. What follows the head's operation on a challenge: its signature is read, or the challenge has failed. -/
theorem headAdvance_waitSig (hstep : k.step = .waitSig) (got : List Byte) :
    headAdvance c true got s = checkSends c (seReads 0xFF40 64) (fun x => { x with step := .sig }) s ∧
    headAdvance c false got s = challengeFails c s := by
  simp only [headAdvance, hk, hstep, if_true, Bool.false_eq_true, if_false]
  exact ⟨rfl, rfl⟩

omit hc in
theorem exec_seStatusPoll (hstep : k.step = .waitSig) (hpolling : k.polling = false) :
    let u := advanceElapsed (pollInstant k s.time.elapsed) s
    exec (.seStatusPoll c ()) s = .next (if k.opAt + 30000000 < u.time.elapsed then challengeFails c u
      else checkSends c [⟨be 2 0xFFA1, 1, true⟩] (fun x => { x with polling := true }) u) := by
  intro u
  have hfails := (headAdvance_waitSig (s := u) hk hstep []).2
  have hwaits : (isWaiting k.step && !k.polling) = true := by rw [hstep, hpolling]; rfl
  have hlimit : seLimit k.step = 30000000 := by rw [hstep]; rfl
  show execSeStatusPoll c () s = _
  simp only [execSeStatusPoll, hk]
  rw [if_pos hwaits, hlimit, hfails]
  rfl

/-- R583. A poll reads SE_STATUS while the operation has time, and else the challenge has failed. -/
theorem seStatusPoll_spec (hstep : k.step = .waitSig) (hpolling : k.polling = false) :
    let u := advanceElapsed (pollInstant k s.time.elapsed) s
    ∃ t, exec (.seStatusPoll c ()) s = .next t ∧ t = { u with chans := t.chans, buses := t.buses, out := t.out } ∧
      (∀ d, d ≠ c → t.chan d = s.chan d) ∧
      (k.opAt + 30000000 < u.time.elapsed → curCheck t c = some { k with chalFail := true, step := .judged } ∧ t.buses = s.buses) ∧
      (u.time.elapsed ≤ k.opAt + 30000000 → curCheck t c = some { k with polling := true } ∧
        ∀ a, (s.chan c).cfg.attach = some a → a.bus < 8 →
          ∃ x ∈ tget t.buses a.bus, x.ch = c ∧ x.use_ = .checkStep ∧ x.todo = [⟨[0xFF#8, 0xA1#8], 1, true⟩]) := by
  intro u
  have hk' : curCheck u c = some k := hk
  refine ⟨_, exec_seStatusPoll hk hstep hpolling, ?_⟩
  by_cases hover : k.opAt + 30000000 < u.time.elapsed
  · rw [if_pos hover]
    exact ⟨rfl, fun d hd => chan_modCheck_ne hd.symm _ u, fun _ => ⟨curCheck_modCheck hc hk' _, rfl⟩, fun h => absurd hover (Nat.not_lt.mpr h)⟩
  · rw [if_neg hover]
    obtain ⟨hframe, hcheck, hother, hsent⟩ := checkSends_spec hc hk' (l := [⟨be 2 0xFFA1, 1, true⟩]) (List.cons_ne_nil _ _)
      fun x => { x with polling := true }
    exact ⟨hframe, hother, fun h => absurd h hover, fun _ => ⟨hcheck, hsent⟩⟩

/-- R583. What the check that waits for a signature is, once a poll has read `status`. -/
def polled (now : Nat) (status : Byte) (k : Check) : Check :=
  if status = 2 then { k with polling := false, step := .sig }
  else if status = 3 ∨ k.opAt + 30000000 ≤ now then { k with polling := false, chalFail := true, step := .judged }
  else { k with polling := false }

/-- R583. -/
theorem pollDone_waitSig (hstep : k.step = .waitSig) (status : Byte) :
    (pollDone c k true [status] s).time = s.time ∧ curCheck (pollDone c k true [status] s) c = some (polled s.time.elapsed status k) := by
  generalize hu : modCheck c (fun x => { x with polling := false }) s = u
  have hk' : curCheck u c = some { k with polling := false } := by
    rw [← hu]
    exact curCheck_modCheck hc hk _
  have htime : u.time = s.time := by rw [← hu]; rfl
  obtain ⟨hends, hfails⟩ := headAdvance_waitSig hk' hstep []
  have hlimit : seLimit k.step = 30000000 := by rw [hstep]; rfl
  have hfield : field [status] 0 1 = status.toNat := by simp [field, slice, unle]
  have hdone : pollDone c k true [status] s =
      if status = 2 then checkSends c (seReads 0xFF40 64) (fun x => { x with step := .sig }) u
      else if status = 3 ∨ k.opAt + 30000000 ≤ s.time.elapsed then challengeFails c u else u := by
    simp only [pollDone, hu, hends, hfails, hlimit, hfield, if_true, Bool.or_eq_true, decide_eq_true_eq, ← BitVec.toNat_inj]
    rfl
  rw [hdone, polled]
  split
  · obtain ⟨hframe, hcheck, -⟩ := checkSends_spec hc hk' (l := seReads 0xFF40 64) (by decide) fun x => { x with step := .sig }
    exact ⟨(congrArg State.time hframe :).trans htime, hcheck⟩
  · split
    · exact ⟨htime, curCheck_modCheck hc hk' _⟩
    · exact ⟨htime, hk'⟩

/-- R185, R583. The end of the transaction that reads SE_STATUS. -/
theorem statusRead_spec {b : Nat} {x : BusXfer} {y : Txn} {rest : List BusXfer} (hstep : k.step = .waitSig) (hb : b < 8)
    (hbus : tget s.buses b = x :: rest) (hactive : x.active = true) (hch : x.ch = c) (hcls : x.cls = .device) (huse : x.use_ = .checkStep)
    (htodo : x.todo = [y]) (hrlen : y.rlen = 1) (hgot : x.got = []) (status : Byte) :
    ∃ t, exec (.i3cTransactionDone b (.ack [status])) s = .next t ∧ t.time = s.time ∧ curCheck t c = some (polled s.time.elapsed status k) := by
  subst hch
  generalize hu : dropFirst b (endFailures x.ch (busShift b x s)) = u
  have htime : u.time = s.time := by rw [← hu, busShift_frame]; rfl
  have hk' : curCheck u x.ch = some k := by
    have hchan : u.chan x.ch = (endFailures x.ch (busShift b x s)).chan x.ch := by rw [← hu]; rfl
    rw [curCheck, hchan, endFailures, modHead_eq, chan_modChan_same _ hc, chan_busShift hcls]
    exact hk
  have hread : (x.acknowledged [status]).got = [status] := by
    rw [got_acknowledged htodo, hgot, hrlen]
    rfl
  have hdone : xferDone (x.acknowledged [status]) true u = pollDone x.ch k true [status] u := by
    have huse' : (x.acknowledged [status]).use_ = .checkStep := huse
    have hk'' : curCheck u (x.acknowledged [status]).ch = some k := hk'
    have hwaits : isWaiting k.step = true := by rw [hstep]; rfl
    simp only [xferDone, huse', hk'', hwaits, hread, if_true]
    rfl
  obtain ⟨htime', hcheck⟩ := pollDone_waitSig hc hk' hstep status
  rw [htime] at htime' hcheck
  refine ⟨_, exec_transactionDone hb hbus hactive _, ?_⟩
  rw [transactionEnds_last htodo, hu, hdone]
  exact ⟨(congrArg State.time (busRun_eq ..) :).trans htime', (curCheck_of_unbussed (unbussed_busRun ..) _).trans hcheck⟩
end

/-! ### What follows the judgement of a check (R189 to R193, R200) -/

/-- R190. Time, the head state of channel `c` and whether its head is verified, and every other channel. -/
def standing (c : Nat) (s : State) : TimeBase × HeadState × Bool × Vector Chan 32 :=
  (s.time, (s.chan c).head.state, (s.chan c).head.verified, tset s.chans c default)

theorem chan_of_standing {c d : Nat} (hd : d ≠ c) {s t : State} (h : standing c t = standing c s) : t.chan d = s.chan d := by
  have hchans : tset t.chans c default = tset s.chans c default := congrArg (fun v => v.2.2.2) h
  have hread := congrArg (tget · d) hchans
  simp only [tget_tset_ne _ hd.symm] at hread
  exact hread

@[simp] theorem standing_ite (c : Nat) (p : Prop) [Decidable p] (s t : State) :
    standing c (if p then s else t) = if p then standing c s else standing c t := apply_ite (standing c) p s t

@[simp] theorem standing_modChan (c : Nat) {g : Chan → Chan}
    (h : ∀ x, (g x).head.state = x.head.state ∧ (g x).head.verified = x.head.verified) (s : State) : standing c (modChan c g s) = standing c s := by
  have hothers : tset (modChan c g s).chans c default = tset s.chans c default := by simp [modChan, tmod, tset]
  rw [standing, hothers, chan_modChan]
  split
  · obtain ⟨hstate, hverified⟩ := h (s.chan c)
    rw [hstate, hverified]
    rfl
  · rfl

@[simp] theorem standing_raise (c n bit : Nat) (s : State) : standing c (raise n bit s) = standing c s := by rw [raise_eq]; rfl
@[simp] theorem standing_raiseIngress (c d bit : Nat) (s : State) : standing c (raiseIngress d bit s) = standing c s := standing_raise ..
@[simp] theorem standing_finish (c : Nat) (x : ExecEntry) (st : Byte) (pay : List Byte) (s : State) :
    standing c (finish x st pay s) = standing c s := by rw [finish_eq]; rfl
@[simp] theorem standing_updExec (c : Nat) (x y : ExecEntry) (s : State) : standing c (updExec x y s) = standing c s := rfl
@[simp] theorem standing_busSend (c d : Nat) (x : BusXfer) (s : State) : standing c (busSend d x s) = standing c s := by rw [busSend_eq]; rfl

@[simp] theorem standing_when (c : Nat) (b : Bool) {g : State → State} (h : ∀ t, standing c (g t) = standing c t) (s : State) :
    standing c (when b g s) = standing c s := by
  cases b
  · rfl
  · exact h s

@[simp] theorem standing_modCheck (c : Nat) (g : Check → Check) (s : State) : standing c (modCheck c g s) = standing c s :=
  standing_modChan c (fun x => by simp only; split <;> exact ⟨rfl, rfl⟩) s

@[simp] theorem standing_endCheck (c : Nat) (s : State) : standing c (endCheck c s) = standing c s := by simp [endCheck]

@[simp] theorem standing_answerCheck (c : Nat) (w : CheckWhy) (st : Byte) (s : State) : standing c (answerCheck w st s) = standing c s := by
  unfold answerCheck
  split
  · split <;> simp
  · split <;> simp
  · rfl

@[simp] theorem standing_readSlot (c k : Nat) (s : State) : standing c (readSlot c k s) = standing c s := by simp [readSlot]

@[simp] theorem standing_writeKey (c : Nat) (s : State) : standing c (writeKey c s) = standing c s := by simp [writeKey]

theorem standing_takeEntropy {c n : Nat} {s t : State} {d : List Byte} (h : takeEntropy n s = some (d, t)) : standing c t = standing c s := by
  simp only [takeEntropy, Option.ite_none_right_eq_some, Option.some.injEq, Prod.mk.injEq] at h
  obtain ⟨-, -, rfl⟩ := h
  rfl

@[simp] theorem standing_writeLife (c : Nat) (s : State) : standing c (writeLife c s) = standing c s := by
  unfold writeLife
  split
  · next hn => simp [standing_takeEntropy hn]
  · simp

@[simp] theorem standing_pushFailed (c : Nat) (s : State) : standing c (pushFailed c s) = standing c s := by simp [pushFailed]

@[simp] theorem standing_afterKey (c : Nat) (k : Check) (s : State) : standing c (afterKey c k s) = standing c s := by simp [afterKey]

@[simp] theorem standing_afterLife (c : Nat) (k : Check) (s : State) : standing c (afterLife c k s) = standing c s := by
  unfold afterLife
  split <;> simp

@[simp] theorem standing_raiseWear (c : Nat) (s : State) : standing c (raiseWear c s) = standing c s := by
  unfold raiseWear
  split <;> simp

/-- R189 to R193, R200. What the check was for goes on, and leaves what the check has found. -/
theorem standing_afterJudge (c : Nat) (k : Check) (timedOut first : Bool) (s : State) :
    standing c (afterJudge c k timedOut first s) = standing c s := by
  unfold afterJudge
  simp only
  split
  · simp only [standing_ite, standing_readSlot, standing_afterLife, standing_modCheck, standing_endCheck, ite_self]
    split <;> simp
  all_goals simp

/-! ### The end of a check (R190) -/

/-- R238. Frames in flight that are marked leave the head. -/
theorem noteChanges_eq (c : Nat) (old : ChanCfg) (s : State) :
    ∃ g : Chan → Chan, (∀ x, (g x).head = x.head) ∧ noteChanges c old s = modChan c g s := by
  unfold noteChanges
  simp only
  split
  · exact ⟨id, fun _ => rfl, (modChan_of_fixed rfl).symm⟩
  · refine ⟨_, ?_, rfl⟩
    exact fun _ => rfl

/-- R176, R245, R259. A change of the answering head leaves what is known of the head, and all but its channel. -/
theorem swapEffects_eq (c : Nat) (s : State) : ∃ g : Chan → Chan, (∀ x, (g x).head = x.head) ∧ swapEffects c s = modChan c g s := by
  obtain ⟨m, hm, hnote⟩ := noteChanges_eq c (s.chan c).cfg (markBind c (discardEstimates c s))
  refine ⟨fun x => m (Chan.mark 2 ⟨false, false, true⟩ (x.discardedAll s.time.dev)), fun x => ?_, ?_⟩
  · rw [hm, discardedAll_keeps]
    rfl
  · rw [swapEffects, hnote, markBind, discardEstimates_eq, modChan_modChan_fuse, modChan_modChan_fuse]

/-- R190. The end of a check sets the head state, and whether the head is verified. -/
theorem judge_spec {c : Nat} (hc : c < 32) (k : Check) (s : State) :
    ((judge c k s).chan c).head.state = stateAfter s (s.chan c).head k ∧ ((judge c k s).chan c).head.verified = checkPassed s k ∧
    (judge c k s).time = s.time ∧ ∀ d, d ≠ c → (judge c k s).chan d = s.chan d := by
  obtain ⟨g, hg, hu⟩ : ∃ g : Chan → Chan, (∀ x, (g x).head = x.head) ∧
      (if headSwapped (s.chan c).head k (checkPassed s k) then swapEffects c s else s) = modChan c g s := by
    split
    · exact swapEffects_eq c s
    · exact ⟨id, fun _ => rfl, (modChan_of_fixed rfl).symm⟩
  have hhead : ((modChan c g s).chan c).head = (s.chan c).head := by rw [chan_modChan_same s hc, hg]
  have hstate (h : Head) : stateAfter (modChan c g s) h k = stateAfter s h k := rfl
  obtain ⟨j, hj, hstands⟩ : ∃ j : Head → Head,
      (∀ h, (j h).state = stateAfter s (s.chan c).head k ∧ (j h).verified = checkPassed s k) ∧
      standing c (judge c k s) = standing c (modHead c j (modChan c g s)) := by
    unfold judge
    simp only [hu, hhead, hstate, standing_ite, standing_raiseWear, ite_self]
    refine ⟨_, ?_, rfl⟩
    exact fun _ => ⟨rfl, rfl⟩
  have hown : ((modHead c j (modChan c g s)).chan c).head = j (s.chan c).head := by
    rw [modHead_eq, chan_modChan_same _ hc, hhead]
  obtain ⟨hjstate, hjverified⟩ := hj (s.chan c).head
  refine ⟨?_, ?_, (congrArg Prod.fst hstands :), fun d hd => ?_⟩
  · exact (congrArg (fun v => v.2.1) hstands).trans ((congrArg Head.state hown).trans hjstate)
  · exact (congrArg (fun v => v.2.2.1) hstands).trans ((congrArg Head.verified hown).trans hjverified)
  · rw [chan_of_standing hd hstands, modHead_eq, chan_modChan_ne _ hd.symm, chan_modChan_ne _ hd.symm]

/-- R189, R190. A check that is judged ends. -/
theorem headCheckDone_spec {c : Nat} {k : Check} {s : State} (hc : c < 32) (hk : curCheck s c = some k) (hstep : k.step = .judged) :
    ∃ t, exec (.headCheckDone c) s = .next t ∧
      (t.chan c).head.state = stateAfter s (s.chan c).head k ∧ (t.chan c).head.verified = checkPassed s k ∧ t.time = s.time ∧
      (∀ d, d ≠ c → t.chan d = s.chan d) := by
  have hexec : exec (.headCheckDone c) s = .next (afterJudge c k false (s.chan c).head.firstCheck (judge c k s)) := by
    show execHeadCheckDone c s = _
    simp only [execHeadCheckDone, hk, hstep, if_true]
  obtain ⟨hstate, hverified, htime, hother⟩ := judge_spec hc k s
  have hafter := standing_afterJudge c k false (s.chan c).head.firstCheck (judge c k s)
  refine ⟨_, hexec, ?_, ?_, ?_, fun d hd => (chan_of_standing hd hafter).trans (hother d hd)⟩
  · exact (congrArg (fun v => v.2.1) hafter).trans hstate
  · exact (congrArg (fun v => v.2.2.1) hafter).trans hverified
  · exact (congrArg Prod.fst hafter :).trans htime

/-- Settles O38: a check that starts, a poll, the status it reads, and the end of a check that is judged. -/
theorem identityChecks : Obligations.IdentityChecks := by
  unfold Obligations.IdentityChecks
  intro c k s hc hk
  refine ⟨fun a u hstep ha hb hfirst hwindow => headCheckStart_spec hc hk hstep ha hb hfirst hwindow,
    fun hstep hpolling _ => seStatusPoll_spec hc hk hstep hpolling, ?_, fun hstep => headCheckDone_spec hc hk hstep⟩
  intro b x y rest hstep hb hbus hactive hch hcls huse htodo hrlen hgot status
  exact statusRead_spec hc hk hstep hb hbus hactive hch hcls huse htodo hrlen hgot status

end Sys2Proof.Machine
end
